-- ==== Sys2Proof/Word.lean ====
section
/-! DEFINITION. The word types of the model and the sparse table that holds numbered things. -/

namespace Sys2Proof

/-- One byte. -/
abbrev Byte := BitVec 8

/-- A 64-bit register, counter or scalar value. -/
abbrev Word := BitVec 64

/-- A PAM4 level of a line symbol (R76). -/
abbrev Level := Fin 4

/-- A table of numbered things as (number, value) pairs. A number that is not listed stands for that
thing at its reset value, which the accessor of each table supplies. -/
abbrev Tbl (α : Type) := List (Nat × α)

end Sys2Proof
end

