-- ==== Sys2Proof/Syntax.lean ====
section
/-! DEFINITION. The commands Dolmo takes: one constructor of `Instr` for each row of
spec/opcode_table.json, with the operands the chapter of its rule gives that step. -/

namespace Sys2Proof

/-- The frame header of Table 4.1 (R117). Bytes 16-29, which depend on TYPE (Table 4.3), are kept as the
four words `w16` (bytes 16-19), `w20`, `w24` and `w28` (bytes 28-29). -/
structure Header where
  typ   : BitVec 8
  epoch : Bool
  first : Bool
  last  : Bool
  tally : Bool
  rsv1  : BitVec 4
  len   : BitVec 13
  rsv3  : BitVec 3
  dstLoc  : BitVec 24
  dstPort : BitVec 8
  srcLoc  : BitVec 24
  srcPort : BitVec 8
  part  : BitVec 7
  rsv12 : Bool
  ttl   : BitVec 8
  ctx   : BitVec 10
  rsv14 : BitVec 6
  w16   : BitVec 32
  w20   : BitVec 32
  w24   : BitVec 32
  w28   : BitVec 16
  deriving DecidableEq, Repr

/-- A frame start on an egress port, and whether a codeword is lost where the frame crosses the die bridge (R147). -/
structure EgressStart where
  port      : Nat
  bridgeBad : Bool
  deriving DecidableEq, Repr

/-- What an access asks of the registers: an offset, and a number of bytes (R9). -/
structure RegSpan where
  offset : Nat
  bytes  : Nat
  deriving DecidableEq, Repr

/-- A window as a receiver takes it from one lane, polarity corrected: the line symbols between two window starts, or between a
window start and a stop (R82-R84). (DESIGN CHOICE, log 143) -/
structure RxWindow where
  /-- Physical and logical lane. -/
  lane    : Nat
  logical : Nat
  /-- Code word bits that the lane has carried since its seed (R80). -/
  bits    : Nat
  levels  : List Level
  /-- It carries a header byte of the frame (R121). -/
  header  : Bool
  deriving DecidableEq, Repr

/-- A frame as a receiver meets it: header, received HCRC, payload, trailer (Table 4.5), and what the
lanes did to it on the way in (checks 1 and 2 of Table 4.6). (DESIGN CHOICE, log 143; DESIGN CHOICE, log 145) -/
structure RxFrame where
  hdr      : Header
  hcrc     : BitVec 16
  payload  : List Byte
  crc      : BitVec 32
  /-- Trailer byte 4: bit 0 STOMP, bit 1 CROWD (Table 4.5). -/
  status   : BitVec 8
  /-- A byte of the frame was carried by a lost lane (R106). -/
  lostLane : Bool
  /-- The windows that touch the frame, as far as they show more than an error-free code word (R79, R82). -/
  windows  : List RxWindow := []
  /-- The crossing of the die bridge, where the frame makes one, met an uncorrectable codeword (R147). -/
  bridgeBad : Bool
  deriving DecidableEq, Repr

/-- A training or LINE marker as received: its 64 line symbols (Table 3.4), and the symbols since the last one began on the lane
(R90). -/
structure LaneMarker where
  symbols : List Level
  gap     : Nat := 1516
  deriving DecidableEq, Repr

/-- What a window of measurement gives for one of the three eyes: the vertical opening as a fraction of the nominal level
spacing, and the horizontal one as a fraction of the unit interval (R98). -/
structure EyeOpening where
  vNum : Nat
  vDen : Nat
  hNum : Nat
  hDen : Nat
  deriving DecidableEq, Repr

/-- Why an ACTIVE lane declares loss of lock (R103). -/
inductive LolCause where
  | unlock | identicalSymbols | uncorrectable
  deriving DecidableEq, Repr

/-- The sensor readings of one hinge (Table 16.1, R479). -/
structure Samples where
  west  : BitVec 16
  east  : BitVec 16
  stack0 : BitVec 16
  stack1 : BitVec 16
  stack2 : BitVec 16
  stack3 : BitVec 16
  watts : BitVec 16
  deriving DecidableEq, Repr

/-- What the board supplies when cold reset ends: the LOC straps (R432), the SEQ of the two Mule copies
and the key table of boot flash (R378, R390), and which depot stacks train (R447). -/
structure BoardRead where
  straps    : BitVec 24
  seqA      : BitVec 32
  seqB      : BitVec 32
  keys      : List (List Byte)
  keySeal   : List Byte
  stackFail : BitVec 4
  deriving DecidableEq, Repr

/-- The path by which a register is reached (R10): the PF's BAR0, the BAR0 of VF n, its BAR2 (R361), SMBus REG_READ. -/
inductive Path where
  | pf | vf (n : Nat) | bell (n : Nat) | smbus
  deriving DecidableEq, Repr

/-- A message of MCTP_CONTROL: an MCTP control message, or a vendor-defined one with a code that has no row of its own
(R374). (DESIGN CHOICE, log 174) -/
inductive MctpMsg where
  | control (bytes : List Byte)
  | vendor (code : BitVec 8)
  deriving DecidableEq, Repr

/-- The common fields AT, GP and GN of a Guand first word (Table 10.1). -/
structure GHead where
  at_ : BitVec 14
  gp  : BitVec 3
  gn  : Bool
  deriving DecidableEq, Repr

/-- A slot-grant entry of a plan (Table 9.6) or of a partition's reservation. -/
structure Grant where
  port  : Nat
  out   : Bool
  first : Nat
  count : Nat
  deriving DecidableEq, Repr

/-- The caller of a gate call: its slot (0 Mule, 1 PF, p + 2 VF p + 1; R382), and whether an argument
holds a reserved bit that is set (R384). -/
structure Caller where
  slot : Nat
  rsv  : Bool
  deriving DecidableEq, Repr

/-- What SET_POOLS changes (R186, R185). -/
inductive PoolSet where
  | sram (die p0 p1 p2 : Nat)
  | depot (p3 : Nat)
  | thr (die amber red black : Nat)
  deriving DecidableEq, Repr

/-- What SET_SWITCH changes (Tables 5.4, 7.2). -/
inductive SwitchSet where
  | cfg (die alpha mcHold : Nat)
  | crowd (port thrKib : Nat)
  deriving DecidableEq, Repr

/-- What SET_PORT changes (Table 15.3, R486, R489, R398): PORT_CFG, PORT_ASYM, one LANE_CFG, or a lane
that Mule holds out or releases. -/
inductive PortSet where
  | cfg (enable : Bool) (reach : Nat) (exclude : BitVec 16)
  | asym (value : BitVec 16)
  | lane (lane preset : Nat) (ovr : Bool)
  | hold (lane : Nat) (held : Bool)
  deriving DecidableEq, Repr

/-- A PCIe configuration request (R360, R359, R367, R369): a read of a register, or a write of what the spec names:
the number of VFs enabled, MSI-X enable and function mask, Enable Relaxed Ordering; or any other write. -/
inductive ConfigReq where
  | read (offset : Nat)
  | setVfs (n : Nat)
  | setMsix (enable fmask : Bool)
  | setRelaxed (b : Bool)
  | write (offset : Nat) (v : BitVec 32)
  deriving DecidableEq, Repr

/-- A service message (R405): who sent it, over which partition and context, and its bytes. (DESIGN CHOICE, log 145) -/
structure SvcMsg where
  src   : BitVec 32
  part  : Nat
  ctx   : Nat
  bytes : List Byte
  deriving DecidableEq, Repr

/-- An access by a Mule core: loads, stores, streams and the atomics of R328 (R315, Table 12.3). A store of more than 8 B
is a stream. -/
inductive MuleAccess where
  | load (addr len : Nat)
  | store (addr : Nat) (data : List Byte)
  | stream (addr : Nat) (data : List Byte)
  | atomicAdd (addr : Nat) (v : Word)
  | atomicSwap (addr : Nat) (v : Word)
  | atomicCas (addr : Nat) (cmp new : Word)
  | atomicCas2 (addr : Nat) (cmpL cmpH newL newH : Word)
  deriving DecidableEq, Repr

/-- A gate call with its arguments (Table 15.3). The spec fixes the layout of the eight GATE_ARG words for
ARM_EPOCH only (R453), so a call is held here by what its arguments say. (DESIGN CHOICE, log 17) -/
inductive GateReq where
  | admitPlan (part ctx seg offset : Nat)
  | withdrawPlan (part : Nat)
  | ctxCreate (part ctx : Nat)
  | ctxDestroy (part ctx : Nat)
  | setSegment (part ctx seg base len : Nat)
  | serviceGrant (part ctx seg service access : Nat)
  | setCarve (part first granules : Nat)
  | setPorts (part : Nat) (ports : BitVec 49)
  | setHenMin (part minW minE : Nat)
  | setPools (v : PoolSet)
  | setGmin (code gminB gminC : Nat)
  | setSwitch (v : SwitchSet)
  | setTickRole (gmEligible refEn : Bool)
  | setRoute (index : Nat) (entry : BitVec 128)
  | setSpread (index : Nat) (weights : List Nat)
  | setRemap (part : Nat) (entries : List (Nat × BitVec 32 × Bool))
  | setGrants (part : Nat) (entries : List Grant)
  | setVariant (part : Nat) (v : BitVec 7)
  | setTick (slots : Nat)
  | armEpoch (t : Word) (flood : Bool) (key : BitVec 25)
  | setPort (port : Nat) (v : PortSet)
  | detach (tick : Word)
  | attach (tick : Word)
  | setNapMap (port : Nat) (windows : List (BitVec 32))
  | throttle (level : Nat)
  | mulePet
  | enrollKey (key sig : List Byte)
  | revokeKey (key sig : List Byte)
  | loadService (image : List Byte)
  | commitSvn
  | loadMule (copyB : Bool) (image : List Byte)
  | attest (nonce : List Byte) (addr : Word)
  | getCert (addr : Word)
  /-- A call whose code is not in Table 15.3, or whose argument words the device cannot read (R384). -/
  | undefined (code : Nat)
  deriving DecidableEq, Repr

/-- A class C stream of this Dolmo: its local endpoint (port code 0x40 or 0x41), the far address and the
context (R132). -/
structure StreamKey where
  localPort : BitVec 8
  far       : BitVec 32
  ctx       : Nat
  deriving DecidableEq, Repr

/-- A class B message: its source address, its context and MSG (R126, R206). -/
structure MsgKey where
  src : BitVec 32
  ctx : Nat
  msg : BitVec 32
  deriving DecidableEq, Repr

/-- Who issues depot stores: thread p, or Mule core k (Table 12.3). -/
inductive Agent where
  | thread (p : Nat) | mule (k : Nat)
  deriving DecidableEq, Repr

/-- The commands. One constructor per row of the opcode table, in the table's order. (DESIGN CHOICE, log 1) -/
inductive Instr where
  -- the tick and the slot
  | hinge (samples : Samples)
  | slotStart
  | hingeSlot1
  /-- `offset` is the timing point's arrival minus the local hinge start, in units of 1/4 ns. -/
  | marker (port : Nat) (f : RxFrame) (offset : Int)
  | gmKeyExpiry (port : Nat)
  | holdoverEntry
  | lockedEntry
  | wideSet
  | tickSlip
  | tickLenAdopt
  /-- `offset` is the edge's distance from the local hinge start, in units of 1/4 ns. -/
  | tickRefEdge (offset : Int)
  | refLiveLoss
  | portRangeStart (path : Path) (port : Nat)
  /-- `stamp` is the arrival stamp (T2 or T4), `reply` the stamp T3 or next T1 of what is sent back. -/
  | range (port : Nat) (f : RxFrame) (stamp reply : Word)
  | rangingComplete (port : Nat)
  | arrivalTest (p : Nat)
  -- lanes
  | laneDetectPulse (port lane : Nat) (found : Bool)
  | quietExpiry (port lane : Nat)
  | bitLock (port lane : Nat)
  | trainingMarker (port lane : Nat) (m : LaneMarker)
  | capsRecord (port lane : Nat) (bytes : List Byte) (acks : Bool)
  | laneTrainTimeout (port lane : Nat)
  | excludedLaneRetry (port lane : Nat)
  | eyeWindowEnd (port lane : Nat) (eyes : List EyeOpening)
  | marginalLaneDrop (port lane : Nat)
  /-- `early`: it arrived within the first 120 ns of the hinge (R102). -/
  | adapt (port : Nat) (f : RxFrame) (early : Bool)
  | lossOfLock (port lane : Nat) (cause : LolCause)
  | notice (port : Nat) (m : LaneMarker)
  | realign (port : Nat) (m : LaneMarker)
  | noticeRepeat (port : Nat)
  | directionFailed (port : Nat)
  | sleepWindowStart (port : Nat)
  | wakeBurst (port : Nat)
  | wakeMarker (port : Nat) (m : LaneMarker)
  | wakeMiss (port : Nat)
  -- frames
  | sData (port : Nat) (f : RxFrame)
  | bData (port : Nat) (f : RxFrame)
  | cData (port : Nat) (f : RxFrame)
  | cAck (port : Nat) (f : RxFrame)
  | bEcho (port : Nat) (f : RxFrame)
  | cNotready (port : Nat) (f : RxFrame)
  | heartbeat (port : Nat) (f : RxFrame) (offset : Int)
  | credit (port : Nat) (f : RxFrame)
  | creditSend (port : Nat)
  | creditStall (port : Nat) (classC : Bool)
  | cRetryTimeout (k : StreamKey)
  | cAckSend (k : StreamKey)
  | notreadyRetry (k : StreamKey)
  | egressFrameStart (start : EgressStart)
  | egressFrameEnd (port : Nat)
  | mcHoldExpiry (port desc : Nat)
  /-- `src` is a QID, or 4096 for Mule; `data` is what the host's memory holds where the frame's payload lies. -/
  | hostFrameBuild (src : Nat) (data : List Byte)
  | henAllocation (die pool : Nat)
  | henListRebuild (pool : Nat)
  | henLevelChange (die : Nat)
  | echoSend (src : BitVec 32) (ctx : Nat)
  | bMsgTimeout (k : MsgKey)
  | oxOpBegin (p id : Nat)
  | retire (p : Nat)
  | copyBackEnd (engine tile : Nat)
  -- Guand: flow and predicates
  | nop (p : Nat) (h : GHead)
  | br (p : Nat) (h : GHead) (cp : BitVec 3) (cn : Bool) (target : BitVec 16)
  | loop (p : Nat) (h : GHead) (rc : BitVec 5) (end_ max : BitVec 16)
  | lend (p : Nat) (h : GHead) (rc : BitVec 5) (start : BitVec 16)
  | tickwait (p : Nat) (h : GHead)
  | tickwaitComplete (p : Nat)
  | cmp (p : Nat) (h : GHead) (pd cond : BitVec 3) (ra : BitVec 5) (imm : Bool) (rb : BitVec 5) (imm26 : BitVec 26)
  | plog (p : Nat) (h : GHead) (pd : BitVec 3) (opl : BitVec 2) (pa pb : BitVec 3)
  | rdt (p : Nat) (h : GHead) (rd : BitVec 5) (sel : BitVec 3)
  -- Guand: scalar
  | add (p : Nat) (h : GHead) (rd ra rb : BitVec 5)
  | sub (p : Nat) (h : GHead) (rd ra rb : BitVec 5)
  | mul (p : Nat) (h : GHead) (rd ra rb : BitVec 5)
  | divs (p : Nat) (h : GHead) (rd ra rb re : BitVec 5)
  | divu (p : Nat) (h : GHead) (rd ra rb re : BitVec 5)
  | neg (p : Nat) (h : GHead) (rd ra : BitVec 5)
  | abs (p : Nat) (h : GHead) (rd ra : BitVec 5)
  | and (p : Nat) (h : GHead) (rd ra rb : BitVec 5)
  | or (p : Nat) (h : GHead) (rd ra rb : BitVec 5)
  | xor (p : Nat) (h : GHead) (rd ra rb : BitVec 5)
  | shl (p : Nat) (h : GHead) (rd ra rb : BitVec 5)
  | shr (p : Nat) (h : GHead) (rd ra rb : BitVec 5)
  | sra (p : Nat) (h : GHead) (rd ra rb : BitVec 5)
  | adds (p : Nat) (h : GHead) (rd ra rb : BitVec 5)
  | subs (p : Nat) (h : GHead) (rd ra rb : BitVec 5)
  | muls (p : Nat) (h : GHead) (rd ra rb : BitVec 5)
  | adduS (p : Nat) (h : GHead) (rd ra rb : BitVec 5)
  | subuS (p : Nat) (h : GHead) (rd ra rb : BitVec 5)
  | addi (p : Nat) (h : GHead) (rd ra : BitVec 5) (imm : BitVec 28)
  | movi (p : Nat) (h : GHead) (rd : BitVec 5) (imm : BitVec 28)
  | ori (p : Nat) (h : GHead) (rd ra : BitVec 5) (imm : BitVec 28)
  -- Guand: memory
  | ld (p : Nat) (h : GHead) (rd ra : BitVec 5) (sz : BitVec 2) (sx : Bool) (off : BitVec 25)
  | ldDataReturn (p id : Nat)
  | st (p : Nat) (h : GHead) (rs ra : BitVec 5) (sz : BitVec 2) (off : BitVec 25)
  | aadd (p : Nat) (h : GHead) (rd ra rb : BitVec 5) (off : BitVec 23)
  | aswp (p : Nat) (h : GHead) (rd ra rb : BitVec 5) (off : BitVec 23)
  | acas (p : Nat) (h : GHead) (rd ra rb re : BitVec 5) (off : BitVec 18)
  | acas2 (p : Nat) (h : GHead) (rd ra rb re : BitVec 5) (off : BitVec 18)
  | fenceDepot (p : Nat) (h : GHead)
  | fenceTick (p : Nat) (h : GHead)
  | storePerformed (a : Agent)
  | atomicPerformed (a : Agent)
  | hingeDrainEnd
  -- Guand: link, combine, queue
  | recv (p : Nat) (h : GHead) (hd : BitVec 4) (grant : BitVec 12) (cr : BitVec 5) (dl : BitVec 14)
  | send (p : Nat) (h : GHead) (port : BitVec 6) (slot : BitVec 14) (nf : BitVec 8) (srck : Bool) (t : BitVec 6)
      (rr cr fr dr : BitVec 5) (slen : BitVec 13) (ff lf : Bool) (eng : BitVec 5)
  | sendTileRead (p id : Nat)
  | expect (p : Nat) (h : GHead) (pr : BitVec 3) (hmask : BitVec 16) (hf : Bool) (heng : BitVec 5) (hw : BitVec 3)
      (hole : BitVec 16) (nfr : BitVec 14)
  | lclr (p : Nat) (h : GHead) (eng : BitVec 5) (w : BitVec 3) (base : BitVec 7) (rows : BitVec 8) (form : BitVec 2)
      (oper : BitVec 4) (sgn : Bool)
  | tld (p : Nat) (h : GHead) (eng : BitVec 5) (t : BitVec 6) (fmt : BitVec 5) (src : Bool) (ra : BitVec 5)
      (rows : BitVec 8) (tr tc : BitVec 4)
  | tacc (p : Nat) (h : GHead) (eng : BitVec 5) (t : BitVec 6) (w : BitVec 3) (k : BitVec 4) (lane : BitVec 10)
  | emit (p : Nat) (h : GHead) (eng : BitVec 5) (w : BitVec 3) (t : BitVec 6) (fmt : BitVec 5) (rm : BitVec 3)
      (clamp : Bool) (kr cr er : BitVec 5) (n : BitVec 16) (lane : BitVec 10) (e0i : BitVec 22)
  | tst (p : Nat) (h : GHead) (eng : BitVec 5) (t : BitVec 6) (ra : BitVec 5) (rows : BitVec 8) (tw : BitVec 2)
      (tr tc : BitVec 4)
  | post (p : Nat) (h : GHead) (rq ra : BitVec 5) (fl : Bool) (eng : BitVec 5) (w : BitVec 3) (irq : Bool)
  -- depot
  | scrubPassEnd
  | muleDepotAccess (core : Nat) (a : MuleAccess)
  -- partitions, contexts and queues
  | partCtlStart (path : Path) (p : Nat)
  | partCtlStop (path : Path) (p : Nat)
  | partCtlRestart (path : Path) (p : Nat)
  | clearFault (path : Path) (ctx : Nat)
  | queueEnable (path : Path) (ctx k : Nat) (cfg : Word)
  | queueDisable (path : Path) (ctx k : Nat)
  | sqDoorbell (vf page : Nat) (v : BitVec 32)
  | rqDoorbell (vf page : Nat) (v : BitVec 32)
  | cqDoorbell (vf page : Nat) (v : BitVec 32)
  | cqArm (vf page : Nat) (v : BitVec 32)
  /-- `e` is the 64 B entry fetched from the send queue's ring (Table 13.5). -/
  | bSend (qid : Nat) (e : List Byte)
  | cSend (qid : Nat) (e : List Byte) (data : List Byte)
  | dmaToDepot (qid : Nat) (e : List Byte) (data : List Byte)
  | dmaToHost (qid : Nat) (e : List Byte)
  | start (qid : Nat) (e : List Byte)
  | sendEntryComplete (qid idx : Nat)
  | ringHoldExpiry (k : MsgKey)
  -- host port
  | cqTimedFire (qid : Nat)
  | msixUnmask (fn entry : Nat)
  | funcCauseClear (path : Path) (p : Nat) (v : BitVec 32)
  | mgmtCauseClear (path : Path) (v : BitVec 32)
  | vfFlr (vf : Nat)
  | pfFlr
  | perstNAssert
  | perstNDeassert
  | configRequest (fn : Nat) (r : ConfigReq)
  /-- `fetch`: it was the fetch of the entry itself; else `e` is the entry whose data was read. -/
  | dmaReadError (qid : Nat) (idx : Nat) (fetch : Bool) (e : List Byte)
  | regRead (offset bytes : Nat)
  | counterRead (index : BitVec 32)
  | state
  | pldmRequest (sensor : Nat)
  | mctpControl (message : MctpMsg)
  | smbusWriteAttempt (offset : Nat)
  -- gate calls
  | admitPlan (c : Caller) (part ctx seg offset : Nat)
  | withdrawPlan (c : Caller) (part : Nat)
  | ctxCreate (c : Caller) (part ctx : Nat)
  | ctxDestroy (c : Caller) (part ctx : Nat)
  | setSegment (c : Caller) (part ctx seg base len : Nat)
  | serviceGrant (c : Caller) (part ctx seg service access : Nat)
  | setCarve (c : Caller) (part first granules : Nat)
  | setPorts (c : Caller) (part : Nat) (ports : BitVec 49)
  | setHenMin (c : Caller) (part minW minE : Nat)
  | setPools (c : Caller) (v : PoolSet)
  | setGmin (c : Caller) (code gminB gminC : Nat)
  | setSwitch (c : Caller) (v : SwitchSet)
  | setTickRole (c : Caller) (gmEligible refEn : Bool)
  | setRoute (c : Caller) (index : Nat) (entry : BitVec 128)
  | setSpread (c : Caller) (index : Nat) (weights : List Nat)
  | setRemap (c : Caller) (part : Nat) (entries : List (Nat × BitVec 32 × Bool))
  | setGrants (c : Caller) (part : Nat) (entries : List Grant)
  | setVariant (c : Caller) (part : Nat) (v : BitVec 7)
  | setTick (c : Caller) (slots : Nat)
  | armEpochLocal (c : Caller) (t : Word) (key : BitVec 25)
  | armEpochFlood (c : Caller) (t : Word) (key : BitVec 25)
  | setPort (c : Caller) (port : Nat) (v : PortSet)
  | setPortDetach (c : Caller) (tick : Word)
  | setPortAttach (c : Caller) (tick : Word)
  | setNapMap (c : Caller) (port : Nat) (windows : List (BitVec 32))
  | throttle (c : Caller) (level : Nat)
  | mulePet (c : Caller)
  | enrollKey (c : Caller) (key sig : List Byte)
  | revokeKey (c : Caller) (key sig : List Byte)
  | loadService (c : Caller) (image : List Byte)
  | commitSvn (c : Caller)
  | loadMule (c : Caller) (copyB : Bool) (image : List Byte)
  | attest (c : Caller) (nonce : List Byte) (addr : Word)
  | getCert (c : Caller) (addr : Word)
  | gateCallComplete
  | drainLand
  | drainRollback
  | muleRestart
  | lockstepMismatch
  -- resets and pins
  | coldRstNLow
  | pwrgoodLow
  | coldResetEnd (b : BoardRead)
  | refclkLoss
  | railUndervoltage
  | thermalTrip (west east stack : BitVec 16)
  | tapInstruction (ir : BitVec 8)
  | tapReset
  | bootCopyCheck (copyB : Bool) (image : List Byte)
  | portGroupAdmit (group : Nat)
  | gmCandidacyStart
  | readyPublish
  -- self-management and services
  | muleHingeReview
  | spreadWeightReview
  | laneExclusionRelease (port lane : Nat)
  | normalVariantReturn (p : Nat)
  | throttleLower
  | create (m : SvcMsg)
  | put (m : SvcMsg)
  | commit (m : SvcMsg)
  | get (m : SvcMsg)
  | drop (m : SvcMsg)
  | join (m : SvcMsg)
  | leave (m : SvcMsg)
  | arrive (m : SvcMsg)
  | arriveTimeout (job : Nat)
  | propose (m : SvcMsg)
  | forget (m : SvcMsg)
  | drain (m : SvcMsg)
  | drainPartStart (id : Nat)
  | partDone (m : SvcMsg)
  | partResend (id part : Nat)
  | armReq (m : SvcMsg)
  | armReqResend
  | heldArmFlood
  | arm (port : Nat) (m : SvcMsg)
  | stagingDeadline
  -- twins
  | twinPulseInEdge (offset : Int)
  | pairingDecision
  | linkOnlyEntry
  | soloEntry
  | detach
  | attach
  -- lane settings, port and register writes
  | laneChangeStep (port : Nat)
  | laneChangeTimeout (port : Nat)
  | portEnable (path : Path) (port : Nat) (v : BitVec 32)
  | portExclude (path : Path) (port : Nat) (v : BitVec 32)
  | portReach (path : Path) (port : Nat) (v : BitVec 32)
  | portAsym (path : Path) (port : Nat) (v : BitVec 32)
  | laneCfg (path : Path) (port lane : Nat) (v : BitVec 32)
  | eqWrite (path : Path) (ctx : Nat) (v : BitVec 32)
  | gaWrite (path : Path) (offset bytes : Nat) (v : Word)
  | registerWrite (path : Path) (offset bytes : Nat) (v : Word)
  | lowerHalfRead (path : Path) (at_ : RegSpan)
  | seqSnapshotRead (path : Path)
  -- framing and late additions
  | framingError (port : Nat) (badHeader : Bool)
  | receivedLight (port lane : Nat)
  | napOrDozeMarker (port : Nat) (m : LaneMarker)
  | portHpLinkTraining
  | portHpTrained
  | flrComplete (fn : Nat)
  deriving DecidableEq, Repr

end Sys2Proof
end

