-- ==== Sys2Proof/Decode.lean ====
section
/-! DEFINITION. The opcode table gives its rows no bits: a command is a step of a chapter with operands, not a word.
So no word spells a command. -/

namespace Sys2Proof

/-- The command that a word spells by the bits of the opcode table: none, since no row has bits. (DESIGN CHOICE, log 4) -/
def decodeTableWord (_nbits _w : Nat) : Option Instr := none

end Sys2Proof
end

