-- ==== Sys2Proof/Machine/Bits.lean ====
section
/-! DEFINITION. Bytes, little-endian words, cyclic redundancy checks and rounding helpers. -/

namespace Sys2Proof.Machine

/-- The `n` bytes of a number, least significant first (R5, R113). -/
def leBytes : (n v : Nat) → List Byte
  | 0, _ => []
  | n + 1, v => BitVec.ofNat 8 v :: leBytes n (v / 256)

/-- The number that bytes spell, least significant first. -/
def leNat : List Byte → Nat
  | [] => 0
  | b :: t => b.toNat + 256 * leNat t

/-- The `n` bytes from `i` on, 0x00 where the list ends. -/
def bytesAt (b : List Byte) (i n : Nat) : List Byte :=
  let r := (b.drop i).take n
  r ++ List.replicate (n - r.length) 0

/-- The little-endian number in the `n` bytes from `i` on. -/
def natAt (b : List Byte) (i n : Nat) : Nat := leNat (bytesAt b i n)

/-- `n` bytes of which the first are `b`, the rest 0. -/
def padTo (n : Nat) (b : List Byte) : List Byte := bytesAt b 0 n

/-- The bytes `src` laid over `b` from `i` on. -/
def overlay (b : List Byte) (i : Nat) (src : List Byte) : List Byte :=
  bytesAt b 0 i ++ src ++ b.drop (i + src.length)

/-- Bits [hi:lo] of a number. -/
def bitsOf (v hi lo : Nat) : Nat := v / 2 ^ lo % 2 ^ (hi + 1 - lo)

/-- Bit `i` of a number. -/
def bitOf (v i : Nat) : Bool := v.testBit i

/-- Whether every one of the bytes is 0. -/
def allZero (b : List Byte) : Bool := b.all (· == 0)

/-- A bit as a number. -/
def b2n (b : Bool) : Nat := if b then 1 else 0

/-- The quotient rounded up. -/
def ceilDiv (a b : Nat) : Nat := (a + (b - 1)) / b

/-- Two's-complement reading of the low `w` bits of a number. -/
def signed (w v : Nat) : Int :=
  let m := v % 2 ^ w
  if m < 2 ^ (w - 1) then (m : Int) else (m : Int) - ((2 ^ w : Nat) : Int)

/-- Two's-complement encoding in `w` bits. -/
def unsigned (w : Nat) (v : Int) : Nat := (v % ((2 ^ w : Nat) : Int)).toNat

/-- One bit of a reflected CRC register (R118). -/
def crcBit (poly c : Nat) : Nat := if c % 2 = 1 then (c / 2) ^^^ poly else c / 2

/-- Eight bits of a reflected CRC register. -/
def crcByte (poly c : Nat) (b : Byte) : Nat :=
  let c0 := c ^^^ b.toNat
  crcBit poly (crcBit poly (crcBit poly (crcBit poly (crcBit poly (crcBit poly (crcBit poly (crcBit poly c0)))))))

/-- HCRC over header bytes 0-29 (R118). -/
def hcrc16 (b : List Byte) : BitVec 16 := BitVec.ofNat 16 (b.foldl (crcByte 0xEDD1) 0xFFFF)

/-- CRC-32C (R118). -/
def crc32c (b : List Byte) : BitVec 32 :=
  ~~~ BitVec.ofNat 32 (b.foldl (crcByte 0x82F63B78) 0xFFFFFFFF)

/-- The nearest integer to n / d, ties to even (R24). -/
def roundEven (n : Int) (d : Nat) : Int :=
  let q := n / (d : Int)
  let r := n % (d : Int)
  if 2 * r < d then q else if 2 * r > d then q + 1 else if q % 2 = 0 then q else q + 1

/-- `v` kept within lo and hi. -/
def clampInt (lo hi v : Int) : Int := if v < lo then lo else if hi < v then hi else v

/-- The set bits of a 64-bit-or-less mask below `n`, ascending. -/
def maskList (n m : Nat) : List Nat := (List.range n).filter (fun i => m.testBit i)

/-- The number whose set bits are the members of the list. -/
def listMask (l : List Nat) : Nat := l.foldl (fun a i => a ||| (1 <<< i)) 0

end Sys2Proof.Machine
end

