-- ==== Sys2Proof/Machine/Frame.lean ====
section
/-! DEFINITION. Frame headers and trailers (Tables 4.1-4.6): fields, bytes, legality and CRCs. -/

namespace Sys2Proof

open Sys2Proof.Machine

/-! ### Header fields (Tables 4.1-4.4) -/

def tySData : Nat := 0x01
def tyBData : Nat := 0x02
def tyCData : Nat := 0x03
def tyCAck : Nat := 0x04
def tyBEcho : Nat := 0x05
def tyCNotready : Nat := 0x06
def tyMarker : Nat := 0x10
def tyAdapt : Nat := 0x11
def tyRange : Nat := 0x12
def tyHeartbeat : Nat := 0x13
def tyCredit : Nat := 0x14

/-- The classes of Table 4.2. -/
inductive FClass where
  | s | b | c | link
  deriving DecidableEq, Repr

def Header.cls (h : Header) : FClass :=
  match h.typ.toNat with
  | 0x01 => .s | 0x02 => .b | 0x05 => .b | 0x03 => .c | 0x04 => .c | 0x06 => .c | _ => .link

def Header.tick (h : Header) : BitVec 32 := h.w16
def Header.slot (h : Header) : Nat := h.w20.toNat % 2 ^ 14
def Header.chunk (h : Header) : BitVec 32 := h.w24
def Header.frame (h : Header) : Nat := h.w28.toNat % 2 ^ 14
def Header.msg (h : Header) : BitVec 32 := h.w16
def Header.moff (h : Header) : Nat := h.w20.toNat
def Header.flowlet (h : Header) : Nat := h.w24.toNat % 2 ^ 16
def Header.bQueue (h : Header) : Nat := h.w28.toNat % 2 ^ 12
def Header.seq (h : Header) : BitVec 16 := h.w16.setWidth 16
def Header.ack (h : Header) : BitVec 16 := h.w16.extractLsb' 16 16
def Header.cQueue (h : Header) : Nat := h.w20.toNat % 2 ^ 12
def Header.ackv (h : Header) : Bool := h.w20.getLsbD 12
def Header.syn (h : Header) : Bool := h.w20.getLsbD 13
def Header.rst (h : Header) : Bool := h.w20.getLsbD 14

/-- Header bytes 0-29 (Table 4.1). -/
def Header.bytes (h : Header) : List Byte :=
  leBytes 1 h.typ.toNat ++
  leBytes 1 (b2n h.epoch + 2 * b2n h.first + 4 * b2n h.last + 8 * b2n h.tally + 16 * h.rsv1.toNat) ++
  leBytes 2 (h.len.toNat + 2 ^ 13 * h.rsv3.toNat) ++
  leBytes 4 (h.dstLoc.toNat + 2 ^ 24 * h.dstPort.toNat) ++ leBytes 4 (h.srcLoc.toNat + 2 ^ 24 * h.srcPort.toNat) ++
  leBytes 1 (h.part.toNat + 128 * b2n h.rsv12) ++ leBytes 1 h.ttl.toNat ++
  leBytes 2 (h.ctx.toNat + 2 ^ 10 * h.rsv14.toNat) ++
  leBytes 4 h.w16.toNat ++ leBytes 4 h.w20.toNat ++ leBytes 4 h.w24.toNat ++ leBytes 2 h.w28.toNat

/-- An address: location word in [23:0], port code in [31:24]. -/
def mkAddr (loc : BitVec 24) (port : BitVec 8) : BitVec 32 := port ++ loc
def addrLoc (a : BitVec 32) : BitVec 24 := a.setWidth 24
def addrPort (a : BitVec 32) : BitVec 8 := a.extractLsb' 24 8
def Header.src (h : Header) : BitVec 32 := mkAddr h.srcLoc h.srcPort
def Header.dst (h : Header) : BitVec 32 := mkAddr h.dstLoc h.dstPort

/-- The header words of a class C frame: SEQ, ACK, QUEUE, ACKV, SYN, RST (Table 4.3). -/
def cWords (seq ack : BitVec 16) (queue : Nat) (ackv syn rst : Bool) : BitVec 32 × BitVec 32 :=
  (ack ++ seq, BitVec.ofNat 32 (queue % 4096 + 4096 * b2n ackv + 8192 * b2n syn + 16384 * b2n rst))

/-- A header with every field 0 but its type. -/
def blankHeader (typ : Nat) : Header :=
  { typ := BitVec.ofNat 8 typ, epoch := false, first := false, last := false, tally := false, rsv1 := 0, len := 0,
    rsv3 := 0, dstLoc := 0, dstPort := 0, srcLoc := 0, srcPort := 0, part := 0, rsv12 := false, ttl := 0, ctx := 0,
    rsv14 := 0, w16 := 0, w20 := 0, w24 := 0, w28 := 0 }

/-- The header of a link-local frame (R120). -/
def linkHeader (typ len : Nat) : Header := { blankHeader typ with len := BitVec.ofNat 13 len }

/-! ### Receive checks (Table 4.6) -/

/-- LEN is legal for TYPE, and TYPE is defined (Table 4.2). -/
def lenLegal (h : Header) : Bool :=
  let n := h.len.toNat
  match h.typ.toNat with
  | 0x01 => n = 4096 || (h.last && 1 ≤ n && n ≤ 4096)
  | 0x02 => n = 4096 || (h.last && 1 ≤ n && n ≤ 4096)
  | 0x03 => n ≤ 4096
  | 0x04 => n = 0
  | 0x05 => n = 16
  | 0x06 => n = 8
  | 0x10 => n = 32
  | 0x11 => n = 64
  | 0x12 => n = 32
  | 0x13 => n = 256
  | 0x14 => n = 16
  | _ => false

/-- A defined port code (Table 4.4). -/
def portCodeOk (c : BitVec 8) : Bool := c.toNat ≤ 48 || c = 0x40 || c = 0x41

/-- The reserved bits of bytes 16-29 are 0 (Table 4.3). -/
def typeRsvOk (h : Header) : Bool :=
  match h.cls with
  | .s => h.w20.toNat < 2 ^ 14 && h.w28.toNat < 2 ^ 14
  | .b => h.w24.toNat < 2 ^ 16 && h.w28.toNat < 2 ^ 12
  | .c => h.w20.toNat < 2 ^ 15 && h.w24 = 0 && h.w28 = 0
  | .link => h.w16 = 0 && h.w20 = 0 && h.w24 = 0 && h.w28 = 0

/-- Check 4 (R117, R120). -/
def headerLegal (h : Header) : Bool :=
  lenLegal h && h.rsv1 = 0 && h.rsv3 = 0 && typeRsvOk h &&
  (h.cls = .link || (!h.rsv12 && h.rsv14 = 0 && portCodeOk h.dstPort && portCodeOk h.srcPort))

/-- Why a received frame is discarded (Table 4.6). -/
inductive RxFail where
  | lost | fec | hcrc | len | stomp | crc | epoch | ttl
  deriving DecidableEq, Repr

/-- The payload bytes of a received frame, LEN of them. -/
def RxFrame.body (f : RxFrame) : List Byte := padTo f.hdr.len.toNat f.payload

/-- The 32 header bytes (Table 4.1). -/
def headerBytes (h : Header) : List Byte := let b := h.bytes; b ++ leBytes 2 (hcrc16 b).toNat

/-- The trailer CRC of a frame (R118). -/
def frameCrc (h : Header) (body : List Byte) : BitVec 32 := crc32c (headerBytes h ++ body)

/-- A grant covers a slot of a port and direction. -/
def Grant.covers (g : Grant) (port slot : Nat) (out : Bool) : Bool :=
  g.port = port && g.out == out && g.first ≤ slot && slot < g.first + g.count

end Sys2Proof
end

