-- ==== Sys2Proof/Config.lean ====
section
/-! DEFINITION. What one device or its firmware fixes, and the values the spec leaves open: constants
with no body, so that no proof can see a value of them. -/

namespace Sys2Proof.Config

/-- The device is a DX-48O (R2). -/
opaque isOptical : Bool

/-- The vendor identifier assigned to Osfole, which the spec does not print (R1). (DESIGN CHOICE, log 15) -/
opaque vendorId : BitVec 16

/-- Osfole's JEP106 manufacturer code, which the spec does not print (R1, R506). -/
opaque jep106 : BitVec 11

/-- DEV_REV.ROM_VERSION, 'Per ROM' in Table 20.2. -/
opaque romVersion : BitVec 16

/-- DEV_SERIAL, 'Per device' in Table 20.2. -/
opaque serial : Word

/-- The MIN_SVN fuses as manufactured (R375). -/
opaque fusedMinSvn : Nat

/-- The digest of the fuse state that MREG0 is extended with (R378). -/
opaque fuseDigest : BitVec 384

/-- The SHA-384 of Osfole's root public key, held in fuses (R375). -/
opaque rootKeyHash : BitVec 384

/-- The device's own fused internal latencies, in units of 1/4 ns (R23). -/
opaque latTx : BitVec 16
opaque latRx : BitVec 16

/-- The deskew latency that Colt has on a port at an incoming width, in units of 1/4 ns: R26 uses its change, and no rule gives
its value. (DESIGN CHOICE, log 146) -/
opaque deskew : (port width : Nat) → Int

/-- SHA-384 (R379, R393); its arithmetic is an outside standard's. (DESIGN CHOICE, log 15) -/
opaque sha384 : List Byte → BitVec 384

/-- ECDSA P-384 verification of a signature over a message under a public key (R379, R390, R391). (DESIGN CHOICE, log 15) -/
opaque ecdsaVerify : (key msg sig : List Byte) → Bool

/-- The root public key, signing public key and root signature that a KIND 1 image's CERT block holds (R379);
the spec gives the block no layout. -/
opaque certRootKey : List Byte → List Byte
opaque certSignKey : List Byte → List Byte
opaque certRootSig : List Byte → List Byte

/-- The HMAC-SHA-384 seal of a key table under the device's derived key (R390). -/
opaque keySeal : List (List Byte) → List Byte

/-- The signature the attestation key makes (R394). -/
opaque attestSign : List Byte → List Byte

/-- The attestation key's certificate chain (R394). -/
opaque certChain : List Byte

/-- The version field of IDCODE, which no rule gives (R506). -/
opaque idcodeVersion : BitVec 4

/-- The TAP instruction code of IDCODE, which IEEE 1149.1 leaves to the part (R506). (PRESUMED, log 13) -/
opaque idcodeIr : BitVec 8

/-- How the argument words of a gate call other than ARM_EPOCH spell the call: the spec gives no layout.
(DESIGN CHOICE, log 17) -/
opaque gateArgs : BitVec 8 → List Word → Option GateReq

/-- What a configuration register other than the identifiers of R1 reads, by function and offset (R357).
(DESIGN CHOICE, log 15) -/
opaque configSpace : Nat → Nat → BitVec 32

/-- The answer to an MCTP control message or a PLDM request that the outside standards define (R373).
(DESIGN CHOICE, log 15; DESIGN CHOICE, log 139) -/
opaque mctpReply : List Byte → List Byte

/-- The QUEUE field of the C_DATA frames that Mule sends: the spec names no queue for them (R405, R411, R454).
(DESIGN CHOICE, log 18) -/
opaque muleQueue : Nat

/-- The CTX field of the SERVICE 0 frames that Mule sends: the spec names no context for them (R454).
(DESIGN CHOICE, log 18) -/
opaque fabricCtx : Nat

/-- The digest of the KIND 8 log entry, which the spec does not name (R393). (DESIGN CHOICE, log 95) -/
opaque restartDigest : BitVec 384

/-- Lane groups that a VOID tile takes among the TALLY tiles of a TACC, by form code: R230 gives the placement of blocks
only (the capacity of a block that did not load is not stated). (DEDUCED, log 20) -/
opaque voidBlockGroups : Nat → Nat

/-- The rank addresses to which the frames of an inbound grant that no RECV binds are forwarded: the spec does not say
how Gander knows the destinations that check 7 of Table 9.7 resolves. (DESIGN CHOICE, log 79) -/
opaque forwardsTo : (part : Nat) → Grant → BitVec 32 → Bool

/-- What a lane emits, as bits and flags, where R56 names no pair: an I64 lane to a float format, or a T32 or T16 lane to an
integer format, by format code, form code and lane value. (DESIGN CHOICE, log 149) -/
opaque otherEmit : (fmt form : Nat) → (v : Int) → Nat × Nat

/-- What a window reads from a ledger row that a window of another lane width wrote last, by row and lane of the row, and the
count it reads for a group. (DESIGN CHOICE, log 152) -/
opaque staleLane : (row lane : Nat) → Int
/-- (DESIGN CHOICE, log 152) -/
opaque staleCnt : (row group : Nat) → Nat

/-- A fresh open value for each number drawn from `State.free`. (DESIGN CHOICE, log 16) -/
opaque freeWord : Nat → Word

/-- Extra bytes of an erroneous free-list link that an ECC error leaves unreadable, and other open bytes.
(DESIGN CHOICE, log 16; DESIGN CHOICE, log 97) -/
opaque freeByte : Nat → Byte

end Sys2Proof.Config
end

