-- ==== Sys2Proof/Machine/State.lean ====
section
/-! DEFINITION. The state of one Dolmo as plain data, unit by unit, and its value in cold reset. A numbered
thing that a table does not list stands at its reset value. -/

namespace Sys2Proof.Machine

/-! ### What the commands answer besides a next state -/

/-- Why a command stops. Every stop is safe: the part has no such object, so no event of the hardware is cut short. -/
inductive Fault where
  /-- A command names a port above 48. Raised by the meanings of the port, lane and frame commands. Safe. -/
  | noSuchPort
  /-- A command names a lane its port does not have. Raised by the lane commands. Safe. -/
  | noSuchLane
  /-- A command names a partition or thread above 127. Raised by the thread and partition commands. Safe. -/
  | noSuchPartition
  /-- A command names a context above 1,023 or a queue slot above 15. Raised by the queue commands. Safe. -/
  | noSuchContext
  /-- A command names a QID above 4,095. Raised by the queue and doorbell commands. Safe. -/
  | noSuchQueue
  /-- A command names a function above 128 or a gate slot above 129. Raised by the host port and gate commands. Safe. -/
  | noSuchFunction
  /-- A command names a die, pool, engine, tile or Mule core that does not exist. Safe. -/
  | noSuchUnit
  deriving DecidableEq, Repr

/-- Why a command is turned away without a meaning. -/
inductive Refusal where
  /-- The row has no meaning in this model. Raised only by an arm of `exec`. Safe. -/
  | notModelled (mnemonic : String)
  deriving DecidableEq, Repr

/-! ### What leaves the package -/

/-- The sub-codes of a LINE marker (Table 3.5). -/
inductive LineSub where
  | hinge | realign | notice (lane : Nat) (reason : Bool) | nap | doze | wake
  deriving DecidableEq, Repr

/-- What has gone out on the lanes of a direction (chapter 3), by logical lane: a window with the code word bits sent since the
seed, its line symbols and its payload; rows of idle words, from one number to another; a marker by its INFO; levels 0 and 3
in turn; filler. -/
inductive LineSent where
  | window (lane bits len : Nat) (payload : List Byte)
  | idleRows (mask : BitVec 16) (lo hi : Nat)
  | marker (lane : Nat) (info : BitVec 24)
  | burst (lane n : Nat)
  | filler (lane n : Nat)
  deriving DecidableEq, Repr

/-- The outgoing stream of a direction: its lane set and the symbol time of its last origin, the rows cut since then, the
bytes of the row that is not full (R78, R85), whether it sleeps, and in DOZE (R109), and what has gone out. -/
structure Line where
  mask   : BitVec 16 := 0
  origin : Nat := 0
  row    : Nat := 0
  part   : List Byte := []
  asleep : Option Bool := none
  sent   : List LineSent := []
  deriving DecidableEq, Repr

/-- A thing that crosses the package boundary outwards.
(DESIGN CHOICE, log 8; DESIGN CHOICE, log 9; DESIGN CHOICE, log 64) -/
inductive Out where
  /-- A frame starts on a port; `stomped` is STOMP in its trailer and `crowd` CROWD (Table 4.5). -/
  | frame (port : Nat) (hdr : Header) (payload : List Byte) (stomped crowd : Bool)
  /-- A LINE marker on every lane of the outgoing lane set (Table 3.5). -/
  | line (port : Nat) (sub : LineSub)
  /-- A receiver-detect pulse on a lane (Table 3.6). -/
  | detectPulse (port lane : Nat)
  /-- The CAPS record that a lane's training blocks carry from now on (Table 3.7). -/
  | caps (port lane : Nat) (bytes : List Byte)
  /-- A PCIe memory write by a function: address, bytes, Relaxed Ordering (R359). -/
  | pcieWrite (fn : Nat) (addr : Word) (bytes : List Byte) (relaxed : Bool)
  /-- A PCIe memory read request by a function. -/
  | pcieRead (fn : Nat) (addr : Word) (len : Nat)
  /-- Bytes written into the receive buffer whose entry lies at a ring index of an RQ; the spec gives no layout for the
  16 B entry that holds its address. -/
  | rqWrite (fn qid ring off : Nat) (bytes : List Byte) (relaxed : Bool)
  /-- An MSI-X message. -/
  | msix (fn entry : Nat)
  /-- The completion of a register read. -/
  | mmioRead (v : Word)
  /-- A configuration request answered with Retry Status, or with data. -/
  | configRetry (fn : Nat)
  | configReply (fn offset : Nat) (v : BitVec 32)
  /-- SMBus: the address is not acknowledged; an MCTP reply; an error completion code. -/
  | smbusNack
  | smbusReply (bytes : List Byte)
  | smbusError (code : String)
  /-- 32 ns pulses on TICK_OUT and TWIN_PULSE_OUT (R503, R415). -/
  | tickOut
  | twinPulseOut
  /-- THERMTRIP_N driven low (R511). -/
  | thermTrip
  /-- A write to boot flash (R378, R390). -/
  | flashMule (copyB : Bool) (image : List Byte)
  | flashKeys (keys : List (List Byte))
  /-- A data read by a Mule core returns (R315). -/
  | muleData (core : Nat) (bytes : List Byte)
  /-- JTAG: the instruction now loaded (R506). -/
  | tapLoaded (ir : BitVec 8)
  /-- JTAG: what the device identification register captures (R1, R506). -/
  | idcode (v : BitVec 32)
  deriving DecidableEq, Repr

/-! ### Rooster -/

/-- The Rooster states of Table 1.3. -/
inductive RoosterState where
  | free | acquiring | locked | holdover | gm
  deriving DecidableEq, Repr

/-- What the last heard marker of a port carried (Table 1.2), and for how many hinges no heard marker has
repeated it (R30). -/
structure Heard where
  key       : BitVec 25
  hops      : Nat
  srcLoc    : BitVec 24
  gmFlag    : Bool := false
  epoch     : BitVec 32
  tickSlots : Nat
  age       : Nat := 0
  deriving DecidableEq, Repr

/-- How the marker of a port at the current hinge was judged (R20). -/
inductive MarkerJudgement where
  | accepted (offset : Int) | discordant (tickNo : Word) (timing : Int)
  deriving DecidableEq, Repr

/-- Rooster: the tick, the election and the tracking loop (chapter 1; Table 20.3).
(DESIGN CHOICE, log 14; DESIGN CHOICE, log 141) -/
structure Rooster where
  st          : RoosterState := .free
  wide        : Bool := false
  far         : Bool := false
  hops        : Nat := 255
  slots       : Nat := 2048
  gmKey       : BitVec 25 := 0x1FFFFFF
  parent      : Option Nat := none
  tickNo      : Word := 0
  slot        : Nat := 0
  offset      : Int := 0
  /-- TICK_CFG.SLOTS, GM_ELIGIBLE and REF_EN. -/
  cfgSlots    : Nat := 2048
  gmEligible  : Bool := true
  refEn       : Bool := true
  /-- SET_TICK_ROLE staged for the next hinge. -/
  roleStaged  : Option (Bool × Bool) := none
  /-- Phase moved so far, in 1/4 ns, and frequency correction, in 1/64 ns per tick (R33). -/
  phase       : Int := 0
  freq        : Int := 0
  heard       : Tbl Heard := []
  judged      : Tbl MarkerJudgement := []
  /-- Consecutive missed, discordant and close (within 4 ns) parent markers. -/
  missRun     : Nat := 0
  discRun     : Nat := 0
  closeRun    : Nat := 0
  /-- Tick number and timing point less delay of the second discordant parent marker (R35). -/
  slipTo      : Option (Word × Int) := none
  /-- The count of hinges at which that marker came. -/
  slipHinge   : Nat := 0
  /-- The parent's tick length to adopt at the next hinge (R44). -/
  lenAdopt    : Option Nat := none
  /-- The count of hinges at which the marker that named it came. -/
  lenHinge    : Nat := 0
  holdTicks   : Nat := 0
  /-- A TICK_REF edge arrived at the current hinge, the run of hinges with one, up to 4, and TICK_STATUS.REF_LIVE. -/
  refSeen     : Bool := false
  refRun      : Nat := 0
  refLive     : Bool := false
  /-- Run of TICK_REF edges N x 128 ns apart before a tick is held (R446), and the time of the last edge. -/
  refEdgeTime : Option Nat := none
  refPeriods  : Nat := 0
  /-- Rooster acts as a candidate (R446); it left candidacy for a duplicate (R434). -/
  candidate   : Bool := false
  /-- It starts tick 0 at its next hinge (R446). -/
  starting    : Bool := false
  dupLeft     : Bool := false
  hinges      : Nat := 0
  hingeTime   : Nat := 0
  /-- Markers, heartbeats, pulses and reference edges that came in the last slot, just before the hinge they belong to. -/
  early       : List Instr := []
  deriving DecidableEq, Repr

/-! ### Ports and lanes -/

/-- Lane states with the codes of LANE_STATUS.STATE (Table 21.6). -/
inductive LaneState where
  | off | detect | quiet | train | lock | orient | eq | caps | active | standby
  deriving DecidableEq, Repr

/-- A lane of a port, by physical number (chapter 3, Table 21.6). (DESIGN CHOICE, log 14) -/
structure Lane where
  st        : LaneState := .off
  eye       : Nat := 0
  absent    : Bool := false
  excluded  : Bool := false
  miswired  : Bool := false
  muleHeld  : Bool := false
  inverted  : Bool := false
  logical   : Nat := 0
  cm1       : Int := 0
  cp1       : Int := 0
  /-- LANE_CFG. -/
  preset    : Nat := 0
  presetOvr : Bool := false
  detectFails : Nat := 0
  /-- Consecutive accepted markers in LOCK and ORIENT, windows with EYE at least 96, blocks with ACK in CAPS. -/
  marks     : Nat := 0
  eyeGood   : Nat := 0
  ackSeen   : Bool := false
  capsAcks  : Nat := 0
  /-- A valid CAPS record has come on this lane; the lane has completed CAPS. -/
  capsOk    : Bool := false
  capsDone  : Bool := false
  /-- An excluded lane waits in QUIET for its next retry (R91). -/
  parked    : Bool := false
  fails     : Nat := 0
  marginal  : Nat := 0
  /-- The adaptation loop (R101): the trial move 0-3, the EYE before the step, whether a step is being measured,
  whether the request is an undo, and whether a window has started since the step. -/
  move      : Nat := 0
  baseEye   : Nat := 0
  waiting   : Bool := false
  undo      : Bool := false
  /-- RESP 1 has come for the step. -/
  applied   : Bool := false
  fresh     : Bool := false
  /-- REQ to send and RESP to send in the next hinge; requests received, to be applied at slot 1 of this hinge and of
  the next (R102). -/
  reqOut    : Nat := 0
  respOut   : Nat := 0
  reqIn     : Nat := 0
  reqLate   : Nat := 0
  /-- Ticks of the last drops (R398) and the tick until which Mule holds the lane out. -/
  drops     : List Word := []
  heldUntil : Option Word := none
  /-- SET_PORT holds the lane out, or releases it, at the next hinge. -/
  holdStaged : Option Bool := none
  /-- The partner's last EYE report for the lane we transmit on. -/
  farEye    : Nat := 0
  /-- LANE_DROP and LANE_READMIT as the last hinge digest took them. -/
  seenDrops : Nat := 0
  seenReadmits : Nat := 0
  deriving DecidableEq, Repr

/-- The power states of Table 3.11, with the codes of PORT_STATUS. -/
inductive Power where
  | awake | nap | doze | off
  deriving DecidableEq, Repr

/-- A valid CAPS record (Table 3.7). -/
structure Caps where
  dolmo     : Bool
  rxMask    : BitVec 16
  reach     : Nat
  loc       : BitVec 24
  maxLanes  : Nat
  epoch     : BitVec 32
  tickSlots : Nat
  deriving DecidableEq, Repr

/-- A ranging run (R22-R24). -/
structure RangeRun where
  initiator : Bool
  index     : Nat := 0
  t1        : Word := 0
  /-- Doubled delays of the finished exchanges, outgoing and incoming, in 1/4 ns; 64 exchanges end the run. -/
  out2      : List Int := []
  in2       : List Int := []
  deriving DecidableEq, Repr

/-- A frame queued for an egress: `desc` names a stored frame (none for a class S frame that a SEND built). -/
structure QEntry where
  desc    : Option Nat
  hdr     : Header
  payload : List Byte
  ingress : Nat
  crowd   : Bool := false
  /-- A copy of a multicast frame. -/
  mc      : Bool := false
  /-- When the frame was stored, for the residue hold (R165). -/
  at_     : Nat := 0
  /-- It was built by a SEND of this Dolmo's thread `p` for slot `slot`. -/
  own     : Option (Nat × Nat) := none
  deriving DecidableEq, Repr

/-- The lane-settings procedure (R461, R462). -/
structure LaneProc where
  /-- Logical lanes still to change, and those already changed. -/
  todo     : List Nat
  done     : List Nat := []
  /-- The physical lane being retrained. -/
  current  : Option Nat := none
  newReach : Nat
  oldReach : Nat
  /-- One lane's new preset and override, when the change is a LANE_CFG, and the old ones. -/
  newLane  : Option (Nat × Nat × Bool) := none
  oldLane  : Option (Nat × Bool) := none
  /-- Hinges that step 1 has waited for the present lane. -/
  waited   : Nat := 0
  /-- Old settings are being restored after a stop. -/
  undoing  : Bool := false
  slot     : Option Nat := none
  deriving DecidableEq, Repr

/-- The sender's credit state of one class on one link (R129-R131). What this Dolmo advertised to the partner stands
in the account of the ingress point. -/
structure Credit where
  txLimit  : BitVec 32 := 0
  txUsed   : BitVec 32 := 0
  /-- Ticks for which a frame has waited with no credit (R131), and the bit it sets. -/
  wait     : Nat := 0
  waited   : Bool := false
  stalled  : Bool := false
  deriving DecidableEq, Repr

/-- A fabric or twin port (chapters 3 to 5, Tables 21.2-21.5). (DESIGN CHOICE, log 14) -/
structure Port where
  reach     : Nat := 1
  enable    : Bool := true
  exclude   : BitVec 16 := 0
  asym      : BitVec 16 := 0
  cfgStaged : Option (Bool × BitVec 16) := none
  asymStaged : Option (BitVec 16) := none
  delayOut  : Nat := 0
  delayIn   : Nat := 0
  /-- The incoming width at which they were ranged (R26). -/
  rangedWidth : Nat := 0
  delayOver : Bool := false
  ranged    : Bool := false
  admitted  : Bool := false
  active    : Bool := false
  down      : Bool := false
  reversed  : Bool := false
  qLoc      : Bool := false
  qRole     : Bool := false
  qLanes    : Bool := false
  delayPlan : Bool := false
  linkReach : Nat := 0
  widthIn   : Nat := 0
  widthOut  : Nat := 0
  maskIn    : BitVec 16 := 0
  maskOut   : BitVec 16 := 0
  /-- Logical lanes healthy in each direction. -/
  healthyIn  : BitVec 16 := 0
  healthyOut : BitVec 16 := 0
  pwrOut    : Power := .off
  pwrIn     : Power := .off
  caps      : Option Caps := none
  /-- LOC of the last valid CAPS record (R430). -/
  lastLoc   : Option (BitVec 24) := none
  lanProc   : Option LaneProc := none
  hunt      : Bool := false
  credB     : Credit := {}
  credC     : Credit := {}
  creditFirst : Bool := false
  /-- Slots since the last CREDIT frame, and when the first frame since then was freed (R130). -/
  creditSlots : Nat := 0
  riseAt    : Option Nat := none
  crowdThr  : Nat := 256
  crowdStaged : Option Nat := none
  sIn       : Nat := 0
  sOut      : Nat := 0
  sInHeld   : Nat := 0
  sOutHeld  : Nat := 0
  qS        : List QEntry := []
  qB        : List QEntry := []
  qC        : List QEntry := []
  /-- The frame now leaving. -/
  busy      : Option QEntry := none
  /-- Stream bytes already used in the present slot. -/
  slotUsed  : Nat := 0
  /-- Run of class C frames started while class B waited (R161), and the round-robin pointers. -/
  cRun      : Nat := 0
  rrB       : Nat := 0
  rrC       : Nat := 0
  /-- The CREDIT frame waiting to be sent ahead of the queues. -/
  creditDue : Bool := false
  napMap    : List (Nat × Nat) := []
  napStaged : Option (List (Nat × Nat)) := none
  /-- First slot after the sleep window being slept; the exit sequence has begun. -/
  resume    : Option Nat := none
  waking    : Bool := false
  /-- Lanes named in notices that await a REALIGN. -/
  noticed   : List Nat := []
  /-- The incoming set last proposed and not yet taken; the outgoing sets to start at slot 1 of this hinge and of the
  next. -/
  proposed  : BitVec 16 := 0
  proposing : Bool := false
  nextOut   : Option (BitVec 16) := none
  outLate   : Option (BitVec 16) := none
  /-- Quarantine for location as it holds from slot 1 (R436). -/
  qLocNext  : Option Bool := none
  range     : Option RangeRun := none
  /-- The D used for this port when the plan in force was admitted, in 1/4 ns. -/
  planD     : Nat := 0
  /-- A marker of the partner Dolmo is due at the present hinge. -/
  markDue   : Bool := false
  /-- Class B and C frames, class B frames, class B frames with CROWD started in this tick; the last 64 ticks of each. -/
  sentBC    : Nat := 0
  sentB     : Nat := 0
  sentMark  : Nat := 0
  histBC    : List Nat := []
  histB     : List Nat := []
  histMark  : List Nat := []
  deriving DecidableEq, Repr

/-! ### The switch core and Hen -/

/-- An account: one ingress point and one class, B or C (R156, R157). -/
structure Acct where
  h     : Nat := 0
  rx    : BitVec 32 := 0
  limit : BitVec 32 := 0
  gmin  : Nat
  deriving DecidableEq, Repr

/-- Which store a frame's payload lies in: none, an SRAM pool 0-2 at a place in the general region, the reserve of a
partition (128 for Mule). -/
inductive Buffer where
  | none | pool (k off : Nat) | reserve (owner : Nat)
  deriving DecidableEq, Repr

/-- Who is charged for a stored frame. -/
inductive Charge where
  | acct (ingress : Nat) (classC : Bool) | sIn (port : Nat)
  /-- A frame that a SEND built for a port: it counts only in S_OUT, while it waits (R154). -/
  | own (port : Nat)
  deriving DecidableEq, Repr

/-- A stored frame: a Hen descriptor (R179). -/
structure Stored where
  hdr     : Header
  payload : List Byte
  crowd   : Bool
  refs    : Nat
  buf     : Buffer
  charge  : Charge
  units   : Nat
  /-- A codeword of it is lost where it crosses the die bridge (R147). -/
  bad     : Bool := false
  deriving DecidableEq, Repr

/-- One SRAM pool: its size in MiB, the buffers in use by their place in the general region in units of 256 B, and
the cycle of its last allocation, that of its last free, and the buffers whose free is still to complete or has just completed,
with the cycle of it (R176). -/
structure Pool where
  mib      : Nat
  used     : List Nat := []
  allocAt  : Option Nat := none
  freedAt  : Nat := 0
  freed    : List (Nat × Nat) := []
  deriving DecidableEq, Repr

/-- Where a frame goes (R190): egress ports, as a multicast or not, the receive handle of a thread, a local host
context, the local Mule. -/
structure Dest where
  ports  : List Nat := []
  mc     : Bool := false
  handle : Option (Nat × Nat) := none
  host   : Bool := false
  mule   : Bool := false
  deriving DecidableEq, Repr

/-- A frame that waits for its pool's allocation of the next cycle (R176): its pool, its ingress point and the cycle
in which it came; the thread and slot of a SEND that built it; whether a send queue or Mule built it (R184), and whether it is
not built yet, for want of room in its account (R159). -/
structure HenWait where
  pool    : Nat
  ingress : Nat
  at_     : Nat
  hdr     : Header
  payload : List Byte
  crowd   : Bool
  dest    : Dest
  bad     : Bool := false
  own     : Option (Nat × Nat) := none
  limited : Bool := false
  held    : Bool := false
  deriving DecidableEq, Repr

/-- One die of the switch core and of Hen (chapters 5 and 6, Table 20.4). -/
structure Die where
  alpha     : Nat := 2
  mcHold    : Nat := 2
  cfgStaged : Option (Nat × Nat) := none
  thrA      : Nat := 192
  thrR      : Nat := 224
  thrB      : Nat := 248
  thrStaged : Option (Nat × Nat × Nat) := none
  level     : Nat := 0
  /-- The cycle of the last change of level, and the level in force through it (R184). -/
  levelAt   : Nat := 0
  levelWas  : Nat := 0
  descEmpty : Bool := false
  p0        : Pool := { mib := 8 }
  p1        : Pool := { mib := 24 }
  p2        : Pool := { mib := 128 }
  /-- Reserve buffers in use by partition, 128 for Mule. -/
  reserve   : Tbl Nat := []
  /-- Sizes being changed: the moving range is closed to allocation (R188). -/
  resize    : Option (Nat × Nat × Nat) := none
  waits     : List HenWait := []
  /-- Payload bytes that have left this die over the bridge in the present slot, and the ports of the other die that wait for
  bridge capacity, in the order of their requests (R146). -/
  bridge    : Nat := 0
  bridgeWaits : List Nat := []
  deriving DecidableEq, Repr

/-- A depot pool (R177): size in MiB, the head register of its free list, the link in the first 8 bytes of each free buffer
where it is not the address of the next buffer of the pool (all ones for the last), the buffers in use with their agent's
tag, and LIST_BAD. -/
structure DepotPool where
  mib     : Nat := 256
  head    : Word
  links   : Tbl Word := []
  used    : Tbl Nat := []
  bad     : Bool := false
  deriving DecidableEq, Repr

/-! ### Epoch tables -/

/-- A variant record of a plan image (Table 9.5). -/
structure Variant where
  entry    : Nat
  oxMask   : BitVec 32
  grants   : List Grant
  limp     : Bool
  minWidth : Nat
  uses     : BitVec 49
  minTwin  : Nat
  deriving DecidableEq, Repr

/-- An admitted plan image (Tables 9.4-9.6, R254). (DESIGN CHOICE, log 74) -/
structure Plan where
  homeCtx  : Nat
  slots    : Nat
  variants : List Variant
  code     : List Word
  digest   : BitVec 384
  bytes    : Nat
  deriving DecidableEq, Repr

/-- One buffer of the epoch tables of Table 19.4. `remap` is keyed by partition x 4,096 + rank and lists VALID
entries only; `route` and `spread` by entry number; the others by partition. -/
structure Tables where
  route   : Tbl (BitVec 128) := []
  spread  : Tbl (List Nat) := []
  remap   : Tbl (BitVec 32) := []
  grants  : Tbl (List Grant) := []
  plans   : Tbl Plan := []
  variant : Tbl (BitVec 7) := []
  slots   : Nat := 2048
  deriving DecidableEq, Repr

/-- The dirty bits of the shadow (R452): remap tables and plan images by partition. -/
structure Dirty where
  route   : Bool := false
  spread  : Bool := false
  remap   : List Nat := []
  grants  : Bool := false
  plans   : List Nat := []
  variant : Bool := false
  slots   : Bool := false
  deriving DecidableEq, Repr

/-- EPOCH, EPOCH_ARM and the two buffers (chapters 1 and 19). -/
structure Epoch where
  current  : BitVec 32 := 0
  split    : Bool := false
  armed    : Option Word := none
  cur      : Tables := {}
  shadow   : Tables := {}
  dirty    : Dirty := {}
  /-- EPOCH_DIRTY, which changes at hinges (R469). -/
  dirtySeen : BitVec 7 := 0
  /-- The tick of the last switch, and the route and spread tables it replaced, which serve that tick (R38). -/
  lastTick : Option Word := none
  oldRoute : Tbl (BitVec 128) := []
  oldSpread : Tbl (List Nat) := []
  /-- The epoch of the parent has been looked at after READY (R451). -/
  adopted  : Bool := false
  /-- Partitions whose plan in force lies in buffer 1 of the plan-image region (Table 12.1). (DESIGN CHOICE, log 74) -/
  planHalf : List Nat := []
  deriving DecidableEq, Repr

/-! ### Ox -/

/-- The tile tag kinds of Table 8.1. -/
inductive TileKind where
  | void | f32 | s32w | u32w | s64w | u64w | raw | packed | tally
  deriving DecidableEq, Repr

/-- A tile register: its tag (Table 8.1) and its bytes, those beyond the list being 0. -/
structure Tile where
  kind   : TileKind := .void
  src    : Nat := 0
  count  : Nat := 0
  origin : Nat := 0xFF
  bytes  : List Byte := []
  /-- The tick, handle and FRAME of the received frame whose tally block it holds (the MODEL's own). -/
  via    : Option (Word × Nat × Nat) := none
  deriving DecidableEq, Repr

/-- The tally forms of Table 2.1. -/
inductive Form where
  | t32 | t16 | i64
  deriving DecidableEq, Repr

/-- The element operations of Table 8.3. -/
inductive Oper where
  | sum | avg | max | min | amax | and | or | xor
  deriving DecidableEq, Repr

/-- A contribution count (R46). -/
inductive Cnt where
  | count (n : Nat) | overcount
  deriving DecidableEq, Repr

/-- One lane (R46): its value and special bits. An I64 lane's value is read signed or unsigned as the window says. -/
structure LaneVal where
  v    : Int
  pinf : Bool := false
  ninf : Bool := false
  nan  : Bool := false
  deriving DecidableEq, Repr

/-- What names a ledger window (R226, R227): its rows, form, operation and signedness, and its FLAGS. -/
structure WinAttr where
  opened : Bool := false
  base  : Nat := 0
  rows  : Nat := 0
  form  : Form := .t32
  oper  : Oper := .sum
  sgn   : Bool := false
  flags : BitVec 32 := 0
  deriving DecidableEq, Repr

/-- A window with what its rows hold. Lanes not listed are in the empty state of the operation, groups not listed
have CNT 0. -/
structure Window extends WinAttr where
  lanes : Tbl LaneVal := []
  cnts  : Tbl Cnt := []
  deriving DecidableEq, Repr

/-- A ledger row (R226): the form of the window that wrote it last, the value of the lanes not listed, the lanes of the row and
the counts of its groups. -/
structure LedgerRow where
  form  : Form
  fill  : Int
  lanes : Tbl LaneVal := []
  cnts  : Tbl Cnt := []
  deriving DecidableEq, Repr

/-- What an uncorrectable or correctable error sits in (R238): a tile register, the shadow tile that stands for one, a ledger
row. -/
inductive OxPlace where
  | tile (t : Nat) | shadow (t : Nat) | row (r : Nat)
  deriving DecidableEq, Repr

/-- An Ox engine (chapter 8, Table 20.7). (DEDUCED, log 128) -/
structure Engine where
  owner     : Option Nat := none
  tiles     : Tbl Tile := []
  windows   : Tbl WinAttr := []
  ledger    : Tbl LedgerRow := []
  /-- Tiles whose copy-back has not ended, oldest retired first. -/
  copyBacks : List Nat := []
  /-- Streams that may still be reading: bank, and slots for which they may go on (R234). -/
  streams   : List (Nat × Nat) := []
  /-- OX_STATUS bits [26:8] of the previous partition, which are shown until slot 1 of a hinge at which the engine passed on
  (R215, R473). -/
  shown     : Option Nat := none
  /-- Places with a single-bit and with an uncorrectable error. -/
  eccOne    : List OxPlace := []
  eccBad    : List OxPlace := []
  deriving DecidableEq, Repr

/-! ### Threads -/

/-- THREAD_STATUS.STATE (R242). -/
inductive ThreadState where
  | empty | halted | running | stopped
  deriving DecidableEq, Repr

/-- What a depot store entry does when it is performed (R319). -/
inductive StoreOp where
  | bytes (data : List Byte)
  | stream (data : List Byte)
  | aadd (v : Word)
  | aswp (v : Word)
  | acas (cmp new : Word)
  | acas2 (cmpL cmpH newL newH : Word)
  deriving DecidableEq, Repr

/-- A write-buffer entry: one store, one atomic or one TST (R319). -/
structure WbEntry where
  id    : Nat
  pc    : Nat
  addr  : Nat
  op    : StoreOp
  /-- Destination of an atomic's old value: RD. -/
  rd    : Option Nat := none
  /-- Retired before the present hinge began (R322). -/
  drain : Bool := false
  deriving DecidableEq, Repr

/-- An issued operation that takes a retire record (Table 10.4), with the register values it read at issue. Depot
pointers are held as the depot address they gave at issue, none where R268 faults. -/
inductive Op where
  /-- `bound`: the value fixed and the fault code it meets, 0 for none. -/
  | ld (rd : Nat) (addr : Option Nat) (len : Nat) (sx : Bool) (bound : Option (Word × Nat))
  | store (addr : Option Nat) (data : List Byte)
  | atomic (addr : Option Nat) (size : Nat) (misaligned : Bool) (op : StoreOp) (rd : Nat)
  | fence (tick : Bool) (waits : List (Nat × Nat))
  /-- `dl`: the latest deadline of the handles named; `result`: the outcome of the arrival test. -/
  | expect (pr : Nat) (hmask : Nat) (nfr : Nat) (hf : Bool) (heng hw : Nat) (hole dl : Nat) (result : Option Bool)
  | send (port slot nf : Nat) (depot : Bool) (t : Nat) (rank : Nat) (chunk : BitVec 32) (frame : Nat)
      (addr : Option Nat) (slen : Nat) (ff lf : Bool) (eng : Nat)
  | lclr (eng w base rows : Nat) (form : Form) (oper : Oper) (sgn : Bool)
  /-- `own`: this TLD claimed the frame at its issue (R281). -/
  | tldFrame (eng t fmt tr tc handle frame : Nat) (own : Bool)
  | tldDepot (eng t fmt tr tc rows : Nat) (addr : Option Nat)
  | tacc (eng t w k lane : Nat)
  | emit (eng w t fmt rm : Nat) (clamp : Bool) (key : Word) (chunk e0 : BitVec 32) (n lane : Nat)
  | tst (eng t rows tw tr tc : Nat) (addr : Option Nat)
  | post (ctx queue : Nat) (r0 r1 r2 : Word) (fl : Bool) (eng w : Nat) (irq : Bool)
  deriving DecidableEq, Repr

/-- What a begun operation has put into rename storage, to be made current at retire (R235). -/
structure Renamed where
  tiles    : Tbl Tile := []
  window   : Option (Nat × Window) := none
  /-- The window's FLAGS become 0 (LCLR), and flags are ORed in. -/
  clear    : Bool := false
  orFlags  : Option (Nat × BitVec 32) := none
  /-- Rows of the window that lie in spare rows. -/
  rows     : List Nat := []
  fault    : Nat := 0
  /-- Port (or 0xFF for the engine) on which TALLY_BAD counts at retire, once for each entry. -/
  tallyBad : List Nat := []
  voidRead : Nat := 0
  /-- Handles and FRAMEs whose tally block was refused. -/
  holes    : List (Nat × Nat) := []
  /-- Bytes a TST writes. -/
  store    : List Byte := []
  deriving DecidableEq, Repr

/-- A retire record (R244). -/
structure Rec where
  id    : Nat
  pc    : Nat
  op    : Op
  begun : Bool := false
  done  : Bool := false
  /-- It waits for rename storage (R235). -/
  held  : Bool := false
  res   : Renamed := {}
  deriving DecidableEq, Repr

/-- The scalar state saved by an EXPECT (R245). (DESIGN CHOICE, log 29) -/
structure Ckpt where
  id    : Nat
  regs  : Tbl Word
  preds : BitVec 8
  flags : BitVec 3
  deriving DecidableEq, Repr

/-- A receive binding (R272): grant, expected chunk, deadline slot, and the frames held, by FRAME. `claims` lists
the FRAMEs that a TLD has claimed, `dead` those whose claim a squash removed. -/
structure Handle where
  grant  : Grant
  chunk  : BitVec 32
  dl     : Nat
  frames : Tbl Nat := []
  claims : List Nat := []
  dead   : List Nat := []
  /-- FRAMEs whose tally block was refused (R70, R223, R230). -/
  bad    : List Nat := []
  deriving DecidableEq, Repr

/-- A retired SEND that has frames still to build (R232, R278). -/
structure SendJob where
  id     : Nat
  pc     : Nat
  op     : Op
  tick   : Word
  deriving DecidableEq, Repr

/-- A retired POST whose record waits until the entries up to `after` have left the write buffer (R287). (DEDUCED, log 23) -/
structure PostJob where
  after : Nat
  ctx   : Nat
  queue : Nat
  bytes : List Byte
  irq   : Bool
  deriving DecidableEq, Repr

/-- What the driver asked of the thread, to act at the next hinge (Table 13.2, R370). -/
inductive ThreadCmd where
  | start | stop | restart | flr
  deriving DecidableEq, Repr

/-- The thread of one partition (Table 9.1, Table 21.7). -/
structure Thread where
  st      : ThreadState := .empty
  pc      : Nat := 0
  regs    : Tbl Word := []
  preds   : BitVec 8 := 1
  sflags  : BitVec 3 := 0
  recs    : List Rec := []
  ckpts   : List Ckpt := []
  nextId  : Nat := 0
  /-- Registers awaiting an older LD or atomic, with the record that will write each. -/
  busyRec : List (Nat × Nat) := []
  waiting : Bool := false
  /-- TICKWAIT has completed for the present tick. -/
  ticked  : Bool := false
  /-- It completed TICKWAIT for the tick that the present hinge ended (R423). -/
  lastTicked : Bool := false
  handles : Tbl Handle := []
  variant : Nat := 0
  solo    : Bool := false
  cmd     : Option ThreadCmd := none
  fCode   : Nat := 0
  fPc     : Nat := 0
  fSlot   : Nat := 0
  fTick   : Word := 0
  wb      : List WbEntry := []
  sends   : List SendJob := []
  posts   : List PostJob := []
  deriving DecidableEq, Repr

/-! ### Contexts and queues -/

/-- A queue slot of a context (Table 21.9). -/
structure QSlot where
  kind      : Nat := 0
  size      : Nat := 0
  cq        : Nat := 0
  bufLog2   : Nat := 12
  ringHold  : Nat := 2
  base      : Word := 0
  wb        : Word := 0
  enabled   : Bool := false
  qid       : Nat := 0
  cfgReject : Bool := false
  noQid     : Bool := false
  overflow  : Bool := false
  disabling : Bool := false
  /-- The cycle in which Dolmo last set CFG_REJECT, NO_QID and OVERFLOW (bits 1-3), for R8. -/
  setAt     : Tbl Nat := []
  /-- What a write with SIZE 0 left in QUEUE_CFG while the SQ is still disabling (R6, R342). -/
  written   : Option Word := none
  deriving DecidableEq, Repr

/-- A context (R336, Table 21.8). -/
structure Ctx where
  part       : Nat
  wslot      : Nat
  fault      : Nat := 0
  /-- The cycle in which FAULT was set (R8). -/
  faultAt    : Option Nat := none
  destroying : Bool := false
  eq         : Nat := 31
  msg        : BitVec 32 := 0
  /-- Segments set so far, by number: BASE and LEN in units of 4 KiB; and those staged for the next hinge. -/
  segs       : Tbl (Nat × Nat) := []
  segStaged  : List (Nat × Nat × Nat) := []
  /-- SERVICE_GRANTs: segment, service, READ_WRITE; and those staged (access 0 NONE, 1 READ, 2 READ_WRITE). -/
  grants     : List (Nat × Nat × Bool) := []
  grantStaged : List (Nat × Nat × Nat) := []
  deriving DecidableEq, Repr

/-- A send entry that has started (R345, R346). -/
structure Started where
  idx    : Nat
  opc    : Nat
  tag    : BitVec 32
  status : Option Nat := none
  moved  : Nat := 0
  msg    : BitVec 32 := 0
  /-- B_SEND and C_SEND: rank, destination queue, host address, length, bytes built so far. -/
  rank   : Nat := 0
  dq     : Nat := 0
  host   : Word := 0
  len    : Nat := 0
  built  : Nat := 0
  seq    : Option (BitVec 16) := none
  deriving DecidableEq, Repr

/-- An enabled queue, by QID (Table 21.10). For an SQ or RQ `ci` is Dolmo's consumer index; for a CQ `pi` is
Dolmo's producer index. -/
structure Queue where
  ctx      : Nat
  slot     : Nat
  kind     : Nat
  pi       : BitVec 16 := 0
  ci       : BitVec 16 := 0
  lastDb   : BitVec 16 := 0
  cqCount  : Nat := 1
  cqDelay  : Nat := 0
  pending  : Nat := 0
  firstAt  : Option Nat := none
  armed    : Bool := true
  event    : Bool := false
  /-- Entries of this CQ reserved for completions not yet written (R344). -/
  reserved : Nat := 0
  rate     : Nat := 16384
  bucket   : Nat := 65536
  echoed   : Bool := false
  started  : List Started := []
  /-- MSG numbers that the queue has used, which echoes name (R209). -/
  sent     : List (BitVec 32) := []
  deriving DecidableEq, Repr

/-- A class B message being received at port HP or Mule (R212, R350-R352). -/
structure OpenMsg where
  key     : MsgKey
  die     : Nat
  part    : Nat
  qid     : Nat
  moffs   : List Nat := []
  lastMoff : Option Nat := none
  /-- Time of its most recent frame. -/
  lastAt  : Nat := 0
  /-- Ring indices of the buffers taken, in message order. -/
  bufs    : List Nat := []
  /-- Hinges begun since the hold began; the frames held, with MOFF; the P3 buffers they lie in. -/
  hold    : Option Nat := none
  held    : List (Nat × List Byte) := []
  p3      : List Nat := []
  lastLen : Nat := 0
  deriving DecidableEq, Repr

/-- A class C frame sent and not yet acknowledged (R133). -/
structure Unacked where
  seq     : BitVec 16
  syn     : Bool
  part    : Nat
  dq      : Nat
  payload : List Byte
  sends   : Nat := 0
  /-- It waits to be built again. -/
  due     : Bool := true
  /-- The send entry it belongs to, as QID and entry index, and the rank that the entry names. -/
  entry   : Option (Nat × Nat) := none
  rank    : Option Nat := none
  deriving DecidableEq, Repr

/-- The sending side of a class C stream (R133, R137, R139). -/
structure TxStream where
  next     : BitVec 16 := 0
  unacked  : List Unacked := []
  interval : Nat := 2
  /-- Time at which the retry timer expires, while it runs. -/
  timer    : Option Nat := none
  /-- A wait on C_NOTREADY: when it ends, when it began, and the ns of earlier waits (R139). -/
  retryAt  : Option Nat := none
  waitFrom : Nat := 0
  waited   : Nat := 0
  deriving DecidableEq, Repr

/-- The receiving side (R134, R136). -/
structure RxStream where
  a      : BitVec 16
  part   : Nat
  port   : Nat
  /-- Time of the oldest acceptance not yet acknowledged; an acknowledgement is due at once. -/
  ackAt  : Option Nat := none
  ackNow : Bool := false
  deriving DecidableEq, Repr

/-- The echo state of one source and context (R207). (DEDUCED, log 44) -/
structure Echo where
  marked : Nat := 0
  total  : Nat := 0
  /-- An echo is due: MSG of the frame that caused it, MARKED and TOTAL as they then stood, and when it arrived. -/
  due    : Option (BitVec 32 × Nat × Nat × Nat) := none
  /-- Tick of the last marked frame that caused an echo. -/
  tick   : Option Word := none
  part   : Nat := 0
  deriving DecidableEq, Repr

/-! ### Partitions, functions, gate -/

/-- What Gander holds of a partition outside the epoch tables (Table 13.1) and its cause register. -/
structure Part where
  carve  : Nat × Nat := (0, 0)
  ports  : BitVec 49 := 0
  minW   : Nat := 31
  minE   : Nat := 31
  cause  : BitVec 4 := 0
  /-- The cycle in which each cause bit was last set (R8). -/
  causeAt : Tbl Nat := []
  deriving DecidableEq, Repr

/-- The MSI-X and configuration state of a function (R367, R369, R370). (PRESUMED, log 11; PRESUMED, log 12) -/
structure Func where
  msixEnable : Bool := false
  fmask      : Bool := false
  /-- Entries that are unmasked; an entry not listed is masked. -/
  unmasked   : List Nat := []
  /-- Message address and data of each entry. -/
  vectors    : Tbl (Word × BitVec 32) := []
  pba        : List Nat := []
  /-- A Function Level Reset is in progress. -/
  flr        : Bool := false
  /-- Enable Relaxed Ordering (R359). -/
  relaxed    : Bool := true
  deriving DecidableEq, Repr

/-- A gate slot (R382, Table 15.2). -/
structure GateSlot where
  args    : Tbl Word := []
  pending : Bool := false
  lost    : Bool := false
  /-- The cycle in which LOST was last set (R8). -/
  lostAt  : Option Nat := none
  status  : Nat := 0
  detail  : Nat := 0
  deriving DecidableEq, Repr

/-- A call waiting at the gate, and when it came (R383). -/
structure GateWait where
  at_  : Nat
  slot : Nat
  rsv  : Bool
  req  : GateReq
  deriving DecidableEq, Repr

/-- A non-buffered change that is staged and has neither landed nor rolled back (R458): its row in Table 19.6, the
call, the caller's slot and call code, and the hinges begun since H0. -/
structure DrainPending where
  row   : Nat
  req   : GateReq
  slot  : Nat
  code  : Nat
  age   : Option Nat := none
  deriving DecidableEq, Repr

/-- The call gate. -/
structure Gate where
  slots   : Tbl GateSlot := []
  queue   : List GateWait := []
  drains  : List DrainPending := []
  /-- PF call codes that land at the next hinge and at the next switch, and those of the last hinge (GATE_LOG). -/
  staged  : List Nat := []
  stagedEpoch : List Nat := []
  log     : List Nat := []
  deriving DecidableEq, Repr

/-! ### Firmware, Mule and its services -/

/-- A measurement log entry (R393). -/
structure LogEntry where
  kind    : Nat
  subject : Nat
  svn     : Nat
  tick    : Word
  digest  : BitVec 384
  deriving DecidableEq, Repr

/-- A device log record (Table 23.4). (DESIGN CHOICE, log 96) -/
inductive DevLog where
  | spreadZero (entry : Nat)
  | degradeNone (part : Nat)
  | armPartial | armConflict
  | drainRollback (code : Nat)
  | decision (code : Nat) (tick : Word) (subject before after : Nat)
  | refusedCall (code status : Nat)
  | mapFailed (part : Nat)
  deriving DecidableEq, Repr

/-- FW_STATUS and what lies behind it (chapter 15, Table 20.8). -/
structure Fw where
  fatal     : Bool := false
  recovery  : Bool := false
  bootFailA : Bool := false
  bootFailB : Bool := false
  bootCopyB : Bool := false
  muleHeld  : Bool := false
  logFull   : Bool := false
  muleUp    : Bool := false
  minSvn    : Nat := Config.fusedMinSvn
  muleSvn   : Nat := 0
  /-- SEQ of the two copies in boot flash (R378). -/
  seqA      : BitVec 32 := 0
  seqB      : BitVec 32 := 0
  /-- Copies still to be checked, in order (true is B). -/
  bootTry   : List Bool := []
  /-- Ticks since MULE_PET; ticks of past restarts. -/
  petTicks  : Nat := 0
  restarts  : List Word := []
  restarting : Bool := false
  keys      : List (List Byte) := []
  /-- Loaded services and the SVN of each; services to restart at the next hinge. -/
  services  : Tbl Nat := []
  svcRestart : List Nat := []
  /-- Services loaded for the first time, which start at the next hinge. -/
  svcNew    : List Nat := []
  mreg0     : BitVec 384 := 0
  mreg1     : BitVec 384 := 0
  mreg2     : BitVec 384 := 0
  log       : List LogEntry := []
  devLog    : List DevLog := []
  deriving DecidableEq, Repr

/-- What the digest says of one port (Table 16.1). -/
structure PortDigest where
  widthIn    : Nat
  widthOut   : Nat
  down       : Bool
  quarantine : Bool
  sentBC     : Nat
  sentB      : Nat
  sentMark   : Nat
  queuedB    : Nat
  stalled    : Bool
  deriving DecidableEq, Repr

/-- What the digest says of one lane: EYE and the deltas of LANE_DROP and LANE_READMIT. -/
structure LaneDigest where
  eye     : Nat
  drops   : Nat
  readmits : Nat
  deriving DecidableEq, Repr

/-- The hinge digest (R395, Table 16.1). -/
structure Digest where
  tick    : Word
  ports   : Tbl PortDigest
  lanes   : Tbl LaneDigest
  samples : Samples
  henW    : Nat
  henE    : Nat
  rooster : RoosterState
  epoch   : BitVec 32
  variants : Tbl (BitVec 7)
  gateLog : List Nat
  mirror  : List Byte
  deriving DecidableEq, Repr

/-- A Depot shard (R407): CAP rounded up, three extents as offsets in the segment, the staged, latest and previous
versions as (version, size, extent). -/
structure Shard where
  ctx     : Nat
  seg     : Nat
  id      : Nat
  cap     : Nat
  ext     : List Nat
  staged  : Option (Nat × Nat) := none
  latest  : Option (Nat × Nat × Nat) := none
  prev    : Option (Nat × Nat × Nat) := none
  deriving DecidableEq, Repr

/-- A withheld ARRIVE (R409). -/
structure Arrival where
  rank    : Nat
  barrier : Nat
  msg     : SvcMsg
  tick    : Word
  deriving DecidableEq, Repr

/-- A Roll-call job (R409): members by rank as their addresses, GEN, arrivals, decided topics. -/
structure Job where
  parts    : Nat
  ranks    : Tbl (BitVec 32)
  gen      : Nat := 0
  arrivals : List Arrival := []
  topics   : Tbl (List Byte) := []
  deriving DecidableEq, Repr

/-- A part of a drain: sends so far, the MSG of the last send, bytes queued, done, tick of the last send.
(DEDUCED, log 107) -/
structure DrainPart where
  sends : Nat := 0
  msg   : BitVec 32 := 0
  built : Nat := 0
  done  : Bool := false
  /-- Its LOSS echo has arrived. -/
  lost  : Bool := false
  tick  : Word := 0
  deriving DecidableEq, Repr

/-- A Checkpoint drain (R412, R413). -/
structure Drain where
  id      : Nat
  req     : SvcMsg
  ctx     : Nat
  seg     : Nat
  offset  : Nat
  len     : Nat
  rank    : Nat
  obj     : Nat
  dq      : Nat
  parts   : Tbl DrainPart := []
  next    : Nat := 0
  deriving DecidableEq, Repr

/-- An arm request held by the GM's Mule, or made and not yet answered (R454, R455). (DEDUCED, log 108) -/
structure ArmWait where
  id    : BitVec 32
  t     : Word
  key   : Option (BitVec 24)
  msg   : Option SvcMsg
  tick  : Word
  deriving DecidableEq, Repr

/-- Mule (chapter 16, R454-R456). (DESIGN CHOICE, log 14) -/
structure Mule where
  digest   : Option Digest := none
  /-- What the digest buffer that was not written last holds; the buffer of tick n is n mod 2 (R395). -/
  digestOther : Option Digest := none
  reviewed : Bool := true
  inbox    : List SvcMsg := []
  /-- Write buffers of the eight service cores. -/
  wbs      : Tbl (List WbEntry) := []
  shards   : List Shard := []
  jobs     : Tbl Job := []
  drains   : List Drain := []
  nextDrain : Nat := 0
  msgNo    : BitVec 32 := 0
  /-- Pace and bucket of Mule's class B. -/
  rate     : Nat := 16384
  bucket   : Nat := 65536
  echoed   : Bool := false
  throttle : Nat := 0
  throttleStaged : Option Nat := none
  /-- Runs of hinges at or above each level's thresholds, and of cool hinges. -/
  hot1     : Nat := 0
  hot2     : Nat := 0
  hot3     : Nat := 0
  cool     : Nat := 0
  /-- By partition, the run of hinges at which the lowest normal variant has fitted (R400). -/
  fitRun   : Tbl Nat := []
  /-- Ticks at which PF calls of SET_SPREAD, SET_VARIANT, SET_PORT last landed (R397). -/
  holdSpread  : Option Word := none
  holdVariant : Option Word := none
  holdPort    : Option Word := none
  /-- The tick until which a refused call of a code is not repeated (R396). -/
  backoff  : Tbl Word := []
  /-- By partition, the swap key asked for while no variant fits, and whether DEGRADE_NONE has been logged since (R430). -/
  swapAsked : Tbl (BitVec 24 × Bool) := []
  /-- Epoch requests in flight and the number of the last, requests held at the GM, the tick of the flood pending, ARM_IDs
  seen, the flood sequence. -/
  requests : List ArmWait := []
  reqNo    : BitVec 32 := 0
  held     : List ArmWait := []
  flooded  : Option Word := none
  armSeen  : List Word := []
  armSeq   : Nat := 0
  /-- An ARM being staged: its tick and the swap-set calls not yet submitted. -/
  staging  : Option (Word × List GateReq) := none
  /-- Temperatures and power of the last hinge (R479). -/
  samples  : Samples := ⟨0, 0, 0, 0, 0, 0, 0⟩
  deriving DecidableEq, Repr

/-! ### Twin, power, registers -/

/-- TWIN_STATUS.STATE (Table 17.1). -/
inductive TwinState where
  | unpaired | paired | linkOnly | solo | standby | detached
  deriving DecidableEq, Repr

/-- The twin (chapter 17, Table 17.2). (DESIGN CHOICE, log 14) -/
structure Twin where
  st        : TwinState := .unpaired
  hbLast    : Bool := false
  pulseLast : Bool := false
  silent    : Nat := 0
  joiner    : Bool := false
  mirror    : List Byte := []
  /-- What was heard at the present hinge: marker, heartbeat payload, pulse. -/
  markNow   : Bool := false
  hbNow     : Option (List Byte) := none
  /-- That heartbeat lay within 64 ns of the hinge's start. -/
  hbHeard   : Bool := false
  pulseNow  : Bool := false
  /-- Consecutive hinges with a pulse and no heartbeat (R422). -/
  hbMiss    : Nat := 0
  /-- Hinges since READY; heard at one of them; the twin's STATE when heard. -/
  readyHinges : Nat := 0
  heardSince  : Bool := false
  farState    : Option Nat := none
  detachAt  : Option Word := none
  attachAt  : Option Word := none
  /-- An accepted heartbeat has named that tick; no hinge has been unheard since the arm. -/
  detachNamed : Option Word := none
  attachNamed : Option Word := none
  unheardSinceArm : Bool := false
  /-- The pair location is served as this Dolmo's own from slot 1 (R423). -/
  adopts    : Bool := false
  adoptsNext : Option Bool := none
  deriving DecidableEq, Repr

/-- PCIe link training of port HP (R442, R499). -/
inductive HpLink where
  | down | training | up
  deriving DecidableEq, Repr

/-- Resets, pins and power-up (chapters 19 and 22, Table 20.2). (PRESUMED, log 13) -/
structure Power2 where
  coldReset  : Bool := true
  /-- The COLD_RST_N pin is low. -/
  rstLow     : Bool := true
  ready      : Bool := false
  depotFail  : Bool := false
  stackFail  : BitVec 4 := 0
  loc        : BitVec 24 := 0
  strapBad   : Bool := false
  dup        : Bool := false
  zeroed     : Bool := false
  tripped    : Bool := false
  tap        : BitVec 8 := Config.idcodeIr
  hp         : HpLink := .down
  perstLow   : Bool := false
  /-- Functions answer configuration requests with Retry Status after PERST_N (R442). -/
  hpRetry    : Bool := false
  numVfs     : Nat := 0
  mgmtCause  : BitVec 4 := 0
  /-- The cycle in which each MGMT_CAUSE bit was last set (R8). -/
  mgmtAt     : Tbl Nat := []
  /-- C_NOTREADY frames sent in the present millisecond (R449). -/
  nrMs       : Nat := 0
  nrSent     : Nat := 0
  /-- Time from which the current scrub pass runs (R313). -/
  scrubFrom  : Option Nat := none
  deriving DecidableEq, Repr

/-- The write stagings and read latches of 64-bit registers (R10), keyed by path and register offset, and the
snapshot of the sequencer summary (R474). -/
structure Access where
  staged   : List ((Path × Nat) × BitVec 32) := []
  latched  : List ((Path × Nat) × BitVec 32) := []
  snapshot : Option (List Word) := none
  deriving DecidableEq, Repr

/-- The depot: bytes that differ from zero (R313), and the ECC units whose reads are uncorrectable or correctable. -/
structure Depot where
  mem    : List Host.Cell := []
  bad    : List Nat := []
  soft   : List Nat := []
  p3     : DepotPool
  p4     : DepotPool
  /-- The hinge drain of R322 is in progress. -/
  draining : Bool := false
  deriving DecidableEq, Repr

/-- The state of one Dolmo. -/
structure State where
  /-- Commands waiting, first in first out (the MODEL's own). -/
  pending  : List Instr
  /-- Nanoseconds of the sequencer clock since cold-reset end. -/
  time     : Nat
  /-- The number of the next free value (the MODEL's own). -/
  free     : Nat
  /-- What has crossed the package boundary outwards, oldest first (the MODEL's own). -/
  out      : List Out
  /-- The outgoing line of each port (R78-R85). -/
  wire     : Tbl Line
  /-- Every counter, keyed by its counter index (Table 23.1). -/
  counters : Tbl Word
  power    : Power2
  rooster  : Rooster
  ports    : Tbl Port
  /-- Keyed by port x 16 + physical lane. -/
  lanes    : Tbl Lane
  /-- Keyed by ingress x 2 + (1 for class C); ingress 0-48, 49 for port HP, 50 for Mule. -/
  accts    : Tbl Acct
  west     : Die
  east     : Die
  /-- Stored frames by descriptor: West 0-245,759, East from 245,760. -/
  descs    : Tbl Stored
  epoch    : Epoch
  engines  : Tbl Engine
  threads  : Tbl Thread
  depot    : Depot
  parts    : Tbl Part
  ctxs     : Tbl Ctx
  /-- Queue slots, keyed by context x 16 + slot; they exist whether or not the context does (R483). -/
  qslots   : Tbl QSlot
  queues   : Tbl Queue
  msgs     : List OpenMsg
  /-- Messages dropped, whose later frames are duplicates (R352). -/
  deadMsgs : List MsgKey
  txs      : List (StreamKey × TxStream)
  rxs      : List (StreamKey × RxStream)
  /-- Keyed by source address and context, plus 1,024 for the pairs of Mule. -/
  echoes   : List ((BitVec 32 × Nat) × Echo)
  funcs    : Tbl Func
  gate     : Gate
  fw       : Fw
  mule     : Mule
  twin     : Twin
  access   : Access
  deriving DecidableEq, Repr

/-- The machine in cold reset, with every register at the value the spec gives (Table 19.1).
(DESIGN CHOICE, log 3; DESIGN CHOICE, log 10) -/
def State.reset : State :=
  { pending := [], time := 0, free := 0, out := [], wire := [], counters := [], power := {}, rooster := {},
    ports := [], lanes := [], accts := [], west := {}, east := {}, descs := [], epoch := {},
    engines := [], threads := [],
    depot := { p3 := { head := 0 }, p4 := { head := 0x10000000 } },
    parts := [], ctxs := [], qslots := [], queues := [], msgs := [], deadMsgs := [], txs := [], rxs := [], echoes := [],
    funcs := [], gate := {}, fw := {}, mule := {}, twin := {}, access := {} }

end Sys2Proof.Machine
end

