-- ==== Sys2Proof/Machine/Tbl.lean ====
section
/-! DEFINITION. Reading and writing the sparse tables. A write keeps the numbers rising. -/

namespace Sys2Proof

/-- The entry of number `k`. -/
def Tbl.get? {α : Type} : Tbl α → Nat → Option α
  | [], _ => none
  | (j, v) :: t, k => if k = j then some v else Tbl.get? t k

/-- Number `k` now holds `v`. -/
def Tbl.set {α : Type} : Tbl α → Nat → α → Tbl α
  | [], k, v => [(k, v)]
  | (j, w) :: t, k, v =>
    if k < j then (k, v) :: (j, w) :: t
    else if k = j then (k, v) :: t
    else (j, w) :: Tbl.set t k v

/-- Number `k` is no longer listed. -/
def Tbl.erase {α : Type} (t : Tbl α) (k : Nat) : Tbl α := t.filter (fun e => e.1 ≠ k)

/-- The entry of number `k`, or `d`. -/
def Tbl.getD {α : Type} (t : Tbl α) (k : Nat) (d : α) : α := (t.get? k).getD d

/-- The numbers listed. -/
def Tbl.keys {α : Type} (t : Tbl α) : List Nat := t.map Prod.fst

/-- The entry of `k` in a list keyed by any type. -/
def assoc? {κ α : Type} [DecidableEq κ] : List (κ × α) → κ → Option α
  | [], _ => none
  | (j, v) :: t, k => if k = j then some v else assoc? t k

/-- `k` now holds `v`, in place where it was listed, else at the end. -/
def assocSet {κ α : Type} [DecidableEq κ] : List (κ × α) → κ → α → List (κ × α)
  | [], k, v => [(k, v)]
  | (j, w) :: t, k, v => if k = j then (k, v) :: t else (j, w) :: assocSet t k v

/-- `k` is no longer listed. -/
def assocErase {κ α : Type} [DecidableEq κ] (t : List (κ × α)) (k : κ) : List (κ × α) :=
  t.filter (fun e => e.1 ≠ k)

/-- The lowest number from `i` on, of at most `n` candidates, that the list does not hold. -/
def lowestFree (used : List Nat) : (i n : Nat) → Option Nat
  | _, 0 => none
  | i, n + 1 => if i ∈ used then lowestFree used (i + 1) n else some i

end Sys2Proof
end

