-- ==== Sys2Proof/Machine/LineCode.lean ====
section
/-! DEFINITION. The line code (chapter 3): the Reed-Solomon code, the scrambler, the PAM4 levels with stuffing and filler,
windows, shortened windows, markers and training blocks; how the frame stream of a direction is cut into rows between an
origin and a stop, and what a receiver reads from a window and from a marker. -/

namespace Sys2Proof.Machine

/-! ### GF(2^10) (R79) -/

/-- A field element times alpha; the field polynomial is x^10 + x^3 + 1. -/
def gfDouble (a : Nat) : Nat := let d := 2 * a; if 1024 ≤ d then d ^^^ 0x409 else d

/-- The product of two field elements. -/
def gfMul (a b : Nat) : Nat :=
  ((List.range 10).foldl (fun (r : Nat × Nat) i => (if b.testBit i then r.1 ^^^ r.2 else r.1, gfDouble r.2)) (0, a)).1

/-- A power of a field element. -/
def gfPow (a : Nat) : Nat → Nat
  | 0 => 1
  | n + 1 => gfMul a (gfPow a n)

/-- The powers of alpha, `n` of them. -/
def alphas (n : Nat) : List Nat := ((List.range (n - 1)).foldl (fun (l : List Nat) _ => l ++ [gfDouble (l.getLastD 1)]) [1]).take n

/-- The inverse of a field element: its power 1,022. -/
def gfInv (a : Nat) : Nat :=
  -- 1022 = 2 + 4 + ... + 512
  ((List.range 9).foldl (fun (r : Nat × Nat) _ => let q := gfMul r.2 r.2; (gfMul r.1 q, q)) (1, a)).1

/-- Two polynomials added; the shorter list ends first. -/
def polyAdd : List Nat → List Nat → List Nat
  | [], b => b
  | a, [] => a
  | x :: a, y :: b => (x ^^^ y) :: polyAdd a b

/-- The value of a polynomial given from its highest coefficient down. -/
def polyEval (p : List Nat) (x : Nat) : Nat := p.foldl (fun a c => gfMul a x ^^^ c) 0

/-! ### The code word (R79, R84) -/

/-- The generator, from its highest coefficient down: the product of (x - alpha^i) for i = 0 to 15. -/
def rsGen : List Nat := (alphas 16).foldl (fun g a => polyAdd (g ++ [0]) (0 :: g.map (gfMul a))) [1]

/-- The 16 parity symbols of a payload whose first symbol is the highest coefficient. (DEDUCED, log 158) -/
def rsParity (payload : List Nat) : List Nat :=
  let g := rsGen.drop 1
  payload.foldl (fun r d =>
    let fb := d ^^^ r.headD 0
    polyAdd (r.drop 1 ++ [0]) (g.map (gfMul fb))) (List.replicate 16 0)

/-- The systematic code word: payload symbols, then parity. A shortened one has fewer payload symbols. -/
def rsEncode (payload : List Nat) : List Nat := payload ++ rsParity payload

/-- The syndromes of a received word. -/
def rsSyndromes (word : List Nat) : List Nat := (alphas 16).map (polyEval word)

/-- The search for the error locator: the locator and the one before the last change of length, from the lowest
coefficient up, the length, the distance, and the discrepancy at that change. -/
structure Locator where
  cur  : List Nat := [1]
  prev : List Nat := [1]
  len  : Nat := 0
  gap  : Nat := 1
  disc : Nat := 1

/-- One syndrome more. -/
def Locator.step (v : Locator) (syn : List Nat) (n : Nat) : Locator :=
  let d := ((List.range (v.len + 1)).map (fun i => gfMul (v.cur.getD i 0) (syn.getD (n - i) 0))).foldl (· ^^^ ·) 0
  if d = 0 then { v with gap := v.gap + 1 }
  else
    let k := gfMul d (gfInv v.disc)
    let c := polyAdd v.cur (List.replicate v.gap 0 ++ v.prev.map (gfMul k))
    if 2 * v.len ≤ n then { cur := c, prev := v.cur, len := n + 1 - v.len, gap := 1, disc := d }
    else { v with cur := c, gap := v.gap + 1 }

/-- A received word of `n` symbols brought to the code word within 8 symbol errors, with their number; none where there is
no such code word. -/
def rsDecode (word : List Nat) : Option (List Nat × Nat) :=
  let syn := rsSyndromes word
  if syn.all (· = 0) then some (word, 0)
  else
    let n := word.length
    let v := (List.range 16).foldl (fun (a : Locator) k => a.step syn k) {}
    let loc := v.cur
    -- the evaluator: syndromes x locator, 16 coefficients
    let om := (List.range 16).map (fun k =>
      ((List.range (k + 1)).map (fun i => gfMul (syn.getD i 0) (loc.getD (k - i) 0))).foldl (· ^^^ ·) 0)
    let der := loc.zipIdx.filterMap (fun e => if e.2 % 2 = 1 then some (e.1, e.2 - 1) else none)
    let fixOne (k c : Nat) : Nat × Bool :=
      let x := gfPow 2 ((n - 1 - k) % 1023)
      let y := gfInv x
      if polyEval loc.reverse y ≠ 0 then (c, false)
      else
        let den := (der.map (fun e => gfMul e.1 (gfPow y e.2))).foldl (· ^^^ ·) 0
        (c ^^^ gfMul x (gfMul (polyEval om.reverse y) (gfInv den)), true)
    let r := word.zipIdx.map (fun e => fixOne e.2 e.1)
    let out := r.map Prod.fst
    let m := (r.filter (fun e => e.2)).length
    if v.len ≤ 8 && m = v.len && (rsSyndromes out).all (· = 0) then some (out, m) else none

/-! ### Bits and symbols -/

/-- A byte, bit 0 first (R113). -/
def byteBits (b : Byte) : List Bool := (List.range 8).map (fun i => b.getLsbD i)

/-- A number of `k` bits, bit 0 first. -/
def natBits (k v : Nat) : List Bool := (List.range k).map (fun i => v.testBit i)

/-- The number that bits spell, the first one bit 0. -/
def bitsNat : List Bool → Nat
  | [] => 0
  | b :: t => b2n b + 2 * bitsNat t

/-- A list cut into `n` pieces of `k`. -/
def cutInto {α : Type} (k : Nat) : (n : Nat) → List α → List (List α)
  | 0, _ => []
  | n + 1, l => l.take k :: cutInto k n (l.drop k)

/-- Ten bits to a symbol (R79). -/
def bytesToSyms (b : List Byte) : List Nat := (cutInto 10 (b.length * 8 / 10) (b.flatMap byteBits)).map bitsNat

/-- The bytes that symbols spell. -/
def symsToBytes (l : List Nat) : List Byte :=
  (cutInto 8 (l.length * 10 / 8) (l.flatMap (natBits 10))).map (fun b => BitVec.ofNat 8 (bitsNat b))

/-! ### The scrambler (R80) -/

/-- SEED(j). -/
def laneSeed (j : Nat) : BitVec 33 := BitVec.ofNat 33 (0x1B10C0000 + 0x0101 * (j + 1))

/-- One step: the key bit and the state after it. -/
def scrStep (s : BitVec 33) : Bool × BitVec 33 :=
  let k := s.getLsbD 32 ^^ s.getLsbD 12
  (k, (s <<< 1) ||| (if k then 1 else 0))

/-- The state S after `n` bits. -/
def scrAfter : (n : Nat) → BitVec 33 → BitVec 33
  | 0, s => s
  | n + 1, s => scrAfter n (scrStep s).2

/-- Bits scrambled; the same procedure takes the scrambling off. -/
def scramble : BitVec 33 → List Bool → List Bool
  | _, [] => []
  | s, d :: t => let r := scrStep s; (d ^^ r.1) :: scramble r.2 t

/-! ### Levels, stuffing and filler (R81-R83) -/

/-- The level of a pair of bits, b0 the first (Gray code). -/
def grayLevel (b0 b1 : Bool) : Level := if b1 then (if b0 then 2 else 3) else (if b0 then 1 else 0)

/-- The pair of bits of a level, b0 first. -/
def levelBits (x : Level) : List Bool := [x = 1 || x = 2, x = 2 || x = 3]

/-- Bits paired into levels. -/
def bitsToLevels : List Bool → List Level
  | b0 :: b1 :: t => grayLevel b0 b1 :: bitsToLevels t
  | _ => []

/-- The level of a stuffed symbol, and of filler after a level: the farthest one. -/
def farLevel (x : Level) : Level := if x ≤ 1 then 3 else 0

/-- An inverted lane shows each level x as 3 - x (R93). -/
def flipLevel (x : Level) : Level := 3 - x

/-- The run of identical data levels, with one level more. -/
def runAfter (prev : Option Level) (run : Nat) (x : Level) : Nat := if prev = some x then run + 1 else 1

/-- Data levels with a stuffed symbol after every 15 identical ones. -/
def stuff : (prev : Option Level) → (run : Nat) → List Level → List Level
  | _, _, [] => []
  | p, r, x :: t => if runAfter p r x = 15 then x :: farLevel x :: stuff none 0 t else x :: stuff (some x) (runAfter p r x) t

/-- The first `n` data levels with the stuffed symbols taken out, and the number of these that were not the expected level. -/
def unstuff : (prev : Option Level) → (run n : Nat) → List Level → List Level × Nat
  | _, _, 0, _ => ([], 0)
  | _, _, _, [] => ([], 0)
  | p, r, n + 1, x :: t =>
    if runAfter p r x = 15 then
      match t with
      | [] => ([x], 0)
      | y :: u => let q := unstuff none 0 n u; (x :: q.1, (if y = farLevel x then 0 else 1) + q.2)
    else let q := unstuff (some x) (runAfter p r x) n t; (x :: q.1, q.2)

/-- `n` filler symbols after a symbol. -/
def fillerAfter : (n : Nat) → Level → List Level
  | 0, _ => []
  | n + 1, x => farLevel x :: fillerAfter n (farLevel x)

/-! ### Windows (R83, R84) -/

/-- Line symbols of a full window, and code word bits that it carries. -/
def windowSyms : Nat := 1452
def windowBits : Nat := 2720

/-- The payload symbols of a shortened code word in `n` line symbols, 0 for filler alone (R84). -/
def shortWindow (n : Nat) : Nat :=
  let m := 4 * (((n - 2) * 15 / 16 / 5 - 16) / 4)
  if m < 4 then 0 else m

/-- The payload bytes of a window of `n` line symbols. -/
def windowBytes (n : Nat) : Nat := if n = windowSyms then 320 else 5 * shortWindow n / 4

/-- The line symbols of a window of logical lane `j`, after `bits` code word bits since the seed: code word, stuffing and
filler; filler alone where no code word fits, after symbol `prev`. -/
def windowLevels (j bits len : Nat) (payload : List Byte) (prev : Level) : List Level :=
  let k := windowBytes len
  if k = 0 then fillerAfter len prev
  else
    let code := rsEncode (bytesToSyms (padTo k payload))
    let data := stuff none 0 (bitsToLevels (scramble (scrAfter bits (laneSeed j)) (code.flatMap (natBits 10))))
    data ++ fillerAfter (len - data.length) (data.getLastD 0)

/-! ### Markers (R88, R89) -/

/-- A bit of a marker. -/
def markerBit (b : Bool) : Level := if b then 3 else 0

/-- The 64 symbols of a marker (Table 3.4). -/
def markerLevels (lane : BitVec 4) (info : BitVec 24) : List Level :=
  List.replicate 12 3 ++ List.replicate 12 0 ++ [1, 2, 1, 2, 1, 2, 1, 2] ++ (natBits 4 lane.toNat).map markerBit ++
    (natBits 4 (~~~lane).toNat).map markerBit ++ (natBits 24 info.toNat).map markerBit

/-- INFO with its CHECK field, from its low 18 bits (Table 3.5). -/
def markerInfo (v : BitVec 18) : BitVec 24 := (v.extractLsb' 0 6 ^^^ v.extractLsb' 6 6 ^^^ v.extractLsb' 12 6) ++ v

/-- INFO of a LINE marker. -/
def LineSub.info (s : LineSub) : BitVec 24 :=
  markerInfo (match s with
    | .hinge => 7 | .realign => 7 + 16 | .notice l r => BitVec.ofNat 18 (7 + 2 * 16 + 256 * (l % 16) + 4096 * b2n r)
    | .nap => 7 + 3 * 16 | .doze => 7 + 4 * 16 | .wake => 7 + 5 * 16)

end Sys2Proof.Machine

namespace Sys2Proof

open Sys2Proof.Machine

/-! ### What a receiver reads -/

/-- What a receiver reads from a window: its payload and the number of symbols corrected, or nothing where the code word cannot
be corrected (R79); and the stuffed symbols that were not the expected level (R82). -/
def RxWindow.read (w : RxWindow) : Option (List Byte × Nat) × Nat :=
  let k := windowBytes w.levels.length
  if k = 0 then (none, 0)
  else
    let n := (k * 8 / 10 + 16) * 5
    let r := unstuff none 0 n w.levels
    if r.1.length < n then (none, r.2)
    else
      let bits := scramble (scrAfter w.bits (laneSeed w.logical)) (r.1.flatMap levelBits)
      let word := (cutInto 10 (n / 5) bits).map bitsNat
      ((rsDecode word).map (fun d => (symsToBytes (d.1.take (n / 5 - 16)), d.2)), r.2)

/-- A code word that cannot be corrected; one that was. -/
def RxWindow.uncorrectable (w : RxWindow) : Bool := w.read.1.isNone
def RxWindow.corrected (w : RxWindow) : Bool :=
  match w.read.1 with
  | some (_, n) => n ≠ 0
  | none => false

/-- Physical lanes on which a code word that touches a frame could not be corrected, and was corrected, one for each. -/
def RxFrame.fecLanes (f : RxFrame) : List Nat := (f.windows.filter RxWindow.uncorrectable).map RxWindow.lane
def RxFrame.fecFixed (f : RxFrame) : List Nat := (f.windows.filter RxWindow.corrected).map RxWindow.lane
/-- Physical lanes on which a stuffed symbol was not the expected level, one for each symbol. -/
def RxFrame.stuffed (f : RxFrame) : List Nat := f.windows.flatMap (fun w => List.replicate w.read.2 w.lane)
/-- A header byte of the frame lies in a code word that cannot be corrected (R121). -/
def RxFrame.fecHeader (f : RxFrame) : Bool := f.windows.any (fun w => w.header && w.uncorrectable)

/-- The marker came on an inverted lane: its first 12 symbols are level 0 and the next 12 level 3 (R93). -/
def LaneMarker.inverted (m : LaneMarker) : Bool :=
  m.symbols.take 12 = List.replicate 12 (0 : Level) && (m.symbols.drop 12).take 12 = List.replicate 12 (3 : Level)

/-- `n` bits of a marker from symbol `i` on, polarity corrected; a level is read as the nearer of 0 and 3.
(DESIGN CHOICE, log 159) -/
def LaneMarker.field (m : LaneMarker) (i n : Nat) : Nat :=
  bitsNat ((List.range n).map (fun k =>
    let x := m.symbols.getD (i + k) 0
    decide (2 ≤ (if m.inverted then flipLevel x else x))))

/-- The logical lane number of a marker, its complement, and INFO. -/
def LaneMarker.lane (m : LaneMarker) : BitVec 4 := BitVec.ofNat 4 (m.field 32 4)
def LaneMarker.compl (m : LaneMarker) : BitVec 4 := BitVec.ofNat 4 (m.field 36 4)
def LaneMarker.info (m : LaneMarker) : BitVec 24 := BitVec.ofNat 24 (m.field 40 24)

end Sys2Proof

namespace Sys2Proof.Machine

/-! ### The stream of a direction (R78, R85, R114, R115) -/

/-- The bytes of a frame in the stream: header, payload, pad and trailer; a stomped one carries the complement of its CRC
(R114, R119, R123). -/
def frameStream (h : Header) (payload : List Byte) (stomped crowd : Bool) : List Byte :=
  let n := h.len.toNat
  let body := padTo n payload
  let c := frameCrc h body
  headerBytes h ++ body ++ List.replicate ((8 - n % 8) % 8) 0 ++
    leBytes 4 (if stomped then ~~~c else c).toNat ++ leBytes 1 (b2n stomped + 2 * b2n crowd) ++ List.replicate 3 0

/-- Symbol times in a nanosecond: 75 GBd (R76). -/
def symsPerNs : Nat := 75

/-- The lanes of a set, ascending. -/
def lanesOf (mask : BitVec 16) : List Nat := maskList 16 mask.toNat

/-- One row: codeword i goes to the i-th lane of the set, with bytes 320 i on (R78). -/
def Line.sendRow (l : Line) (bytes : List Byte) : Line :=
  { l with
    row := l.row + 1
    sent := l.sent ++ (lanesOf l.mask).zipIdx.map (fun e =>
      LineSent.window e.1 (windowBits * l.row) windowSyms (bytesAt bytes (320 * e.2) 320)) }

/-- Bytes of a row. -/
def Line.rowBytes (l : Line) : Nat := 320 * (lanesOf l.mask).length

/-- The rows of the grid that had begun at a symbol time. -/
def Line.rowAt (l : Line) (now : Nat) : Nat := (now - l.origin) / windowSyms

/-- The row that holds part of a frame is filled with idle words and sent. -/
def Line.flush (l : Line) : Line := if l.part.isEmpty then l else { (l.sendRow l.part) with part := [] }

/-- Rows of idle words up to row `r`. -/
def Line.idleTo (l : Line) (r : Nat) : Line :=
  if l.row < r then { l with row := r, sent := l.sent ++ [.idleRows l.mask l.row r] } else l

/-- The stream is cut into full rows, at most `n` of them. -/
def Line.cut : (n : Nat) → Line → Line
  | 0, l => l
  | n + 1, l =>
    if l.rowBytes = 0 || l.part.length < l.rowBytes then l
    else Line.cut n { (l.sendRow (l.part.take l.rowBytes)) with part := l.part.drop l.rowBytes }

/-- A frame joins the stream: behind what its row holds already, or at the start of the row that the grid has come to.
(DESIGN CHOICE, log 160) -/
def Line.frame (l : Line) (now : Nat) (bytes : List Byte) : Line :=
  if l.mask = 0 then l
  else
    let r := l.rowAt now
    let l1 := if l.row < r then l.flush.idleTo r else l
    Line.cut bytes.length { l1 with part := l1.part ++ bytes }

/-- The markers of a set. -/
def markersOn (mask : BitVec 16) (sub : LineSub) : List LineSent := (lanesOf mask).map (fun j => .marker j sub.info)

/-- A stop at symbol time `x`: what is begun is filled with idle words, the window that the stop cuts short carries a
shortened code word of idle words, and the marker follows (R84, R85, R115). -/
def Line.stop (l : Line) (x : Nat) (mask : BitVec 16) (sub : LineSub) : Line :=
  let n := x - l.origin
  let l1 := l.flush.idleTo (n / windowSyms)
  let rest := n % windowSyms
  let short := if rest = 0 then [] else
    (lanesOf l.mask).map (fun j => LineSent.window j (windowBits * l1.row) rest (List.replicate (windowBytes rest) 0))
  { l1 with sent := l1.sent ++ short ++ markersOn mask sub }

/-- A stop at the next window boundary, where no window is cut short and a row that holds part of a frame has been sent. -/
def Line.boundary (l : Line) (now : Nat) : Nat :=
  l.origin + windowSyms * max (ceilDiv (now - l.origin) windowSyms) (l.row + (if l.part.isEmpty then 0 else 1))

/-- A new origin: windows run from symbol time `x` on over a lane set, and every scrambler is seeded. -/
def Line.start (l : Line) (x : Nat) (mask : BitVec 16) : Line := { l with mask := mask, origin := x, row := 0, part := [] }

/-- Symbols of the wake burst before its marker, and of filler after it (Table 3.11). -/
def napBurst : Nat := 2336
def napFiller : Nat := 600
/-- Symbols of the 1,960 ns that precede them on leaving DOZE. -/
def dozeBurst : Nat := 147000

/-- A LINE marker goes out: the stop and the origin that Table 3.2 gives it; `mask` is the lane set after it, and `inHinge`
says that a REALIGN stands in the last 64 symbols of the hinge. (DESIGN CHOICE, log 160) -/
def Line.mark (l : Line) (now : Nat) (mask : BitVec 16) (inHinge : Bool) (sub : LineSub) : Line :=
  if l.mask = 0 && mask = 0 then l
  else
    match sub with
    | .hinge => (l.stop (now - 64) mask sub).start now mask
    | .realign =>
      if inHinge then (l.stop (now - 64) mask sub).start now mask
      else let x := l.boundary now; (l.stop x mask sub).start (x + 64) mask
    | .notice .. =>
      -- the stream continues behind the marker
      let r := ceilDiv (now - l.origin) windowSyms
      let l1 := if l.row < r then l.flush.idleTo r else l
      let x := l.origin + windowSyms * l1.row
      { l1 with sent := l1.sent ++ markersOn l.mask sub, origin := x + 64, row := 0 }
    | .nap => { (l.stop now mask sub) with asleep := some false }
    | .doze => { (l.stop now mask sub) with asleep := some true }
    | .wake =>
      let doze := l.asleep.getD false
      let lanes := lanesOf mask
      let n := (if doze then dozeBurst else 0) + napBurst
      Line.start { l with
        asleep := none
        sent := l.sent ++ lanes.map (fun j => LineSent.burst j n) ++ markersOn mask sub ++
          lanes.map (fun j => LineSent.filler j napFiller) } (now + n + 64 + napFiller) mask

/-! ### What a lane's symbols are -/

/-- Levels 0 and 3 in turn. -/
def burstLevels (n : Nat) : List Level := (List.range n).map (fun i => if i % 2 = 0 then 0 else 3)

/-- The symbols that an entry puts on a logical lane, after symbol `prev`. -/
def LineSent.levels (x : LineSent) (lane : Nat) (prev : Level) : List Level :=
  match x with
  | .window j bits len b => if j = lane then windowLevels j bits len b prev else []
  | .idleRows mask lo hi =>
    if (lanesOf mask).contains lane then
      (List.range (hi - lo)).flatMap (fun k => windowLevels lane (windowBits * (lo + k)) windowSyms [] prev)
    else []
  | .marker j info => if j = lane then markerLevels (BitVec.ofNat 4 j) info else []
  | .burst j n => if j = lane then burstLevels n else []
  | .filler j n => if j = lane then fillerAfter n prev else []

/-- The symbols that have gone out on a logical lane of a direction, oldest first. -/
def Line.levels (l : Line) (lane : Nat) : List Level :=
  l.sent.foldl (fun a x => a ++ x.levels lane (a.getLastD 0)) []

/-! ### Training blocks (R87) -/

/-- A training block of logical lane `j`: a marker and one window, its code word scrambled from SEED(j). -/
def trainingBlock (j : Nat) (info : BitVec 24) (payload : List Byte) : List Level :=
  let m := markerLevels (BitVec.ofNat 4 j) info
  m ++ windowLevels j 0 windowSyms payload (m.getLastD 0)

end Sys2Proof.Machine
end

