-- ==== Sys2Proof/Machine/Ops.lean ====
section
/-! DEFINITION. The operations every chapter shares: reading and writing the numbered things of the state,
counting (R11, R514), vectors and causes (R360-R368), completion records and events (R343, R344, R347, R365),
context faults (R338, R517), and the three stops a command can meet. -/

namespace Sys2Proof.Machine

/-- What a command answers. -/
abbrev Res := Host.Outcome State Fault Refusal

/-! ### Numbered things -/

/-- Lanes of a port: 16 on port 48, else 8. -/
def laneCount (p : Nat) : Nat := if p = 48 then 16 else 8

/-- PORT_CFG.REACH at reset (Tables 3.1, 21.3). -/
def resetReach (p : Nat) : Nat := if 32 ≤ p && p ≤ 47 && Config.isOptical then 3 else 1

/-- The taps (c-1, c+1) of preset `k` (Table 3.8). -/
def presetTaps : Nat → Int × Int
  | 1 => (0, -8) | 2 => (0, -16) | 3 => (0, -24) | 4 => (-4, -4)
  | 5 => (-8, -8) | 6 => (-8, -16) | 7 => (-16, 0) | _ => (0, 0)

/-- The default preset of a port's reach class (Table 3.1): co-packaged optics train at P0. -/
def reachPreset (p reach : Nat) : Nat :=
  if reach = 1 then 1 else if reach = 2 then 2 else if 32 ≤ p && p ≤ 47 && Config.isOptical then 0 else 4

/-- A port at its reset values (Tables 21.3, 21.4). -/
def resetPort (p : Nat) : Port := { reach := resetReach p }

/-- A lane at its reset values: the taps show the preset of the reset reach (Table 21.6). -/
def resetLane (p : Nat) : Lane :=
  let t := presetTaps (reachPreset p (resetReach p))
  { cm1 := t.1, cp1 := t.2 }

/-- An account at its reset minimum (R156). -/
def resetAcct (classC : Bool) : Acct := { gmin := if classC then 128 else 1024 }

/-- (DESIGN CHOICE, log 10) -/
def State.port (s : State) (p : Nat) : Port := s.ports.getD p (resetPort p)
def State.setPort (s : State) (p : Nat) (v : Port) : State := { s with ports := s.ports.set p v }
def State.modPort (s : State) (p : Nat) (f : Port → Port) : State := s.setPort p (f (s.port p))

/-- The key of a lane in the lane table and in a counter index (Table 23.1). -/
def laneKey (p j : Nat) : Nat := p * 16 + j

/-- (DESIGN CHOICE, log 10) -/
def State.lane (s : State) (p j : Nat) : Lane := s.lanes.getD (laneKey p j) (resetLane p)
def State.setLane (s : State) (p j : Nat) (v : Lane) : State := { s with lanes := s.lanes.set (laneKey p j) v }
def State.modLane (s : State) (p j : Nat) (f : Lane → Lane) : State := s.setLane p j (f (s.lane p j))

/-- The key of an account. -/
def acctKey (ingress : Nat) (classC : Bool) : Nat := ingress * 2 + b2n classC

/-- (DESIGN CHOICE, log 10) -/
def State.acct (s : State) (i : Nat) (c : Bool) : Acct := s.accts.getD (acctKey i c) (resetAcct c)
def State.setAcct (s : State) (i : Nat) (c : Bool) (v : Acct) : State :=
  { s with accts := s.accts.set (acctKey i c) v }

/-- The East die is die 1. -/
def State.die (s : State) (d : Nat) : Die := if d = 0 then s.west else s.east
def State.setDie (s : State) (d : Nat) (v : Die) : State :=
  if d = 0 then { s with west := v } else { s with east := v }

def State.engine (s : State) (e : Nat) : Engine := s.engines.getD e {}
def State.setEngine (s : State) (e : Nat) (v : Engine) : State := { s with engines := s.engines.set e v }

/-- (DESIGN CHOICE, log 10) -/
def State.thread (s : State) (p : Nat) : Thread := s.threads.getD p {}
def State.setThread (s : State) (p : Nat) (v : Thread) : State := { s with threads := s.threads.set p v }
def State.modThread (s : State) (p : Nat) (f : Thread → Thread) : State := s.setThread p (f (s.thread p))

def State.part (s : State) (p : Nat) : Part := s.parts.getD p {}
def State.setPart (s : State) (p : Nat) (v : Part) : State := { s with parts := s.parts.set p v }

def State.func (s : State) (n : Nat) : Func := s.funcs.getD n {}
def State.setFunc (s : State) (n : Nat) (v : Func) : State := { s with funcs := s.funcs.set n v }

def State.ctx? (s : State) (c : Nat) : Option Ctx := s.ctxs.get? c
def State.setCtx (s : State) (c : Nat) (v : Ctx) : State := { s with ctxs := s.ctxs.set c v }

def State.queue? (s : State) (q : Nat) : Option Queue := s.queues.get? q
def State.setQueue (s : State) (q : Nat) (v : Queue) : State := { s with queues := s.queues.set q v }

def State.qslot (s : State) (c k : Nat) : QSlot := s.qslots.getD (c * 16 + k) {}
def State.setQslot (s : State) (c k : Nat) (v : QSlot) : State := { s with qslots := s.qslots.set (c * 16 + k) v }

/-- The configuration of the queue slot that an enabled QID serves. -/
def State.slotOf (s : State) (q : Queue) : QSlot := s.qslot q.ctx q.slot

def Engine.window (e : Engine) (w : Nat) : WinAttr := e.windows.getD w {}
def Engine.setWindow (e : Engine) (w : Nat) (v : WinAttr) : Engine := { e with windows := e.windows.set w v }
def Engine.tile (e : Engine) (t : Nat) : Tile := e.tiles.getD t {}

def State.gateSlot (s : State) (k : Nat) : GateSlot := s.gate.slots.getD k {}
def State.setGateSlot (s : State) (k : Nat) (v : GateSlot) : State :=
  { s with gate := { s.gate with slots := s.gate.slots.set k v } }

/-! ### Counting -/

/-- A counter index (R515). -/
def ctrIndex (block inst k : Nat) : Nat := block * 2 ^ 28 + inst * 2 ^ 16 + k

def devCtr (k : Nat) : Nat := ctrIndex 0 0 k
def dieCtr (d k : Nat) : Nat := ctrIndex 1 d k
def engCtr (e k : Nat) : Nat := ctrIndex 2 e k
def portCtr (p k : Nat) : Nat := ctrIndex 3 p k
def laneCtr (p j k : Nat) : Nat := ctrIndex 4 (laneKey p j) k
def partCtr (p k : Nat) : Nat := ctrIndex 5 p k
def ctxCtr (c k : Nat) : Nat := ctrIndex 6 c k
def queueCtr (q : Nat) : Nat := ctrIndex 7 q 0
/-- GATE_STATUS.BYPASS_COUNT of the PF slot, 32 bits wide (Table 15.2). -/
def bypassCtr : Nat := ctrIndex 8 0 0

/-- The value of a counter. -/
def State.ctr (s : State) (i : Nat) : Word := s.counters.getD i 0

/-- The all-ones value at which a counter stays (R11, R467). -/
def ctrMax (i : Nat) : Nat := if i = bypassCtr then 2 ^ 32 - 1 else 2 ^ 64 - 1

/-- The value `v` of counter `i` after `n` more events (R11). -/
def satAdd (i : Nat) (v : Word) (n : Nat) : Word := BitVec.ofNat 64 (min (ctrMax i) (v.toNat + n))

/-- Counter `i` counts `n` events. -/
def State.count (s : State) (i n : Nat) : State :=
  if n = 0 then s else { s with counters := s.counters.set i (satAdd i (s.ctr i) n) }

/-- Counter `i` counts one event (R514). -/
def State.bump (s : State) (i : Nat) : State := s.count i 1

/-- Counters of a block instance go back to 0 (R441, R484): indices of the block with K below `n`. -/
def State.clearCtrs (s : State) (base n : Nat) : State :=
  { s with counters := s.counters.filter (fun e => !(base ≤ e.1 && e.1 < base + n)) }

/-- The line of a port. -/
def State.line (s : State) (p : Nat) : Line := s.wire.getD p {}
def State.setLine (s : State) (p : Nat) (v : Line) : State := { s with wire := s.wire.set p v }

/-- The lines after something has left the package: a frame joins the stream of its port, a LINE marker stops it. A REALIGN
of the first slot begins where the hinge ends. -/
def State.wireAfter (s : State) (o : Out) : Tbl Line :=
  let now := s.time * symsPerNs
  match o with
  | .frame p h b stomped crowd =>
    if (s.line p).mask = 0 then s.wire else s.wire.set p ((s.line p).frame now (frameStream h b stomped crowd))
  | .line p sub =>
    let m := (s.port p).maskOut
    if (s.line p).mask = 0 && m = 0 then s.wire
    else s.wire.set p ((s.line p).mark now m (s.rooster.slot = 1 && s.time = s.rooster.hingeTime + 128) sub)
  | _ => s.wire

/-- Something leaves the package. (DESIGN CHOICE, log 8) -/
def State.emit (s : State) (o : Out) : State := { s with out := s.out ++ [o], wire := s.wireAfter o }

/-- A device log record is written. (DESIGN CHOICE, log 96) -/
def State.log (s : State) (r : DevLog) : State := { s with fw := { s.fw with devLog := s.fw.devLog ++ [r] } }

/-- A fresh open value, and the state that will not give it again. (DESIGN CHOICE, log 16) -/
def State.fresh (s : State) : Word × State := (Config.freeWord s.free, { s with free := s.free + 1 })

/-! ### The stops -/

/-- (DESIGN CHOICE, log 6) -/
def withPort (p : Nat) (r : Res) : Res := if p < 49 then r else .fault .noSuchPort
/-- (DESIGN CHOICE, log 6) -/
def withLane (p j : Nat) (r : Res) : Res :=
  if p < 49 then (if j < laneCount p then r else .fault .noSuchLane) else .fault .noSuchPort
/-- (DESIGN CHOICE, log 6) -/
def withPart (p : Nat) (r : Res) : Res := if p < 128 then r else .fault .noSuchPartition
/-- (DESIGN CHOICE, log 6) -/
def withCtx (c : Nat) (r : Res) : Res := if c < 1024 then r else .fault .noSuchContext
/-- (DESIGN CHOICE, log 6) -/
def withQueue (q : Nat) (r : Res) : Res := if q < 4096 then r else .fault .noSuchQueue
/-- (DESIGN CHOICE, log 6) -/
def withFunc (n : Nat) (r : Res) : Res := if n < 129 then r else .fault .noSuchFunction
/-- (DESIGN CHOICE, log 6) -/
def withUnit (b : Bool) (r : Res) : Res := if b then r else .fault .noSuchUnit

/-- The step happens only where its condition holds; otherwise the event does not occur and nothing changes.
(DESIGN CHOICE, log 5) -/
def when_ (b : Bool) (s t : State) : State := if b then t else s

/-! ### Bits that a W1C write clears (R8) -/

/-- The bits that Dolmo set in the present cycle, which a W1C write leaves set. -/
def setNow (l : Tbl Nat) (now : Nat) : Nat := listMask ((l.filter (fun e => e.2 = now)).map Prod.fst)

/-- CFG_REJECT is set, and NO_QID where no QID is free. -/
def QSlot.rejected (q : QSlot) (now : Nat) (noFree : Bool) : QSlot :=
  { q with
    cfgReject := true, noQid := q.noQid || noFree
    setAt := if noFree then (q.setAt.set 1 now).set 2 now else q.setAt.set 1 now }

/-- OVERFLOW is set. -/
def QSlot.overflowed (q : QSlot) (now : Nat) : QSlot := { q with overflow := true, setAt := q.setAt.set 3 now }

/-! ### Functions, vectors and causes -/

/-- Function `n` exists (R360). -/
def State.funcExists (s : State) (n : Nat) : Bool := n = 0 || n ≤ s.power.numVfs

/-- The function whose requester ID carries partition `p`'s traffic (R358). -/
def State.fnOf (s : State) (p : Nat) : Nat := if s.funcExists (p + 1) then p + 1 else 0

/-- A vector fires: a message when its function exists and nothing masks it, else its pending bit (R360, R367). -/
def State.fire (s : State) (fn entry : Nat) : State :=
  let f := s.func fn
  if s.funcExists fn && f.msixEnable && !f.fmask && f.unmasked.contains entry then s.emit (.msix fn entry)
  else s.setFunc fn { f with pba := if f.pba.contains entry then f.pba else f.pba ++ [entry] }

/-- A MGMT_CAUSE bit is set; going from 0 to 1 it fires the management vector (R368, Table 14.4). -/
def State.mgmtCause (s : State) (bit : Nat) : State :=
  let v := s.power.mgmtCause
  let s' := { s with power := { s.power with mgmtCause := v ||| (1#4 <<< bit), mgmtAt := s.power.mgmtAt.set bit s.time } }
  if v.getLsbD bit then s' else s'.fire 0 0

/-- A FUNC_CAUSE bit of partition `p` is set (R368, Table 14.4). -/
def State.funcCause (s : State) (p bit : Nat) : State :=
  let q := s.part p
  let s' := s.setPart p { q with cause := q.cause ||| (1#4 <<< bit), causeAt := q.causeAt.set bit s.time }
  if q.cause.getLsbD bit then s' else s'.fire (p + 1) 32

/-! ### Completion queues -/

/-- Entries of a CQ that are neither written and unread nor reserved. -/
def State.cqFree (s : State) (q : Queue) : Nat :=
  (s.slotOf q).size - ((q.pi - q.ci).toNat + q.reserved)

/-- The partition that owns a context, 0 where there is none. -/
def State.ctxPart (s : State) (c : Nat) : Nat :=
  match s.ctx? c with
  | some x => x.part
  | none => 0

/-- The fire conditions of R365. -/
def Queue.fires (q : Queue) (now : Nat) : Bool :=
  q.armed && q.pending != 0 &&
    ((q.cqCount != 0 && q.cqCount ≤ q.pending) ||
      (match q.firstAt with
       | some t => t + q.cqDelay * 1000 ≤ now
       | none => false) || q.event)

/-- A CQ is tested, and fires its vector when a condition holds (R365). -/
def State.cqTest (s : State) (qid : Nat) : State :=
  match s.queue? qid with
  | none => s
  | some q =>
    if q.kind = 3 && q.fires s.time then
      (s.setQueue qid { q with armed := false, pending := 0, firstAt := none, event := false }).fire
        (s.ctxPart q.ctx + 1) (qid % 32)
    else s

/-- A record is written to CQ `qid`, then its producer index, then any message it causes (R343, R366). `reserved`
says that the record's entry was reserved (R344); `eligible` and `event` are R364 and R365. (DEDUCED, log 50) -/
def State.writeRecord (s : State) (qid : Nat) (rcd : List Byte) (reserved eligible event : Bool) : State :=
  match s.queue? qid with
  | none => s
  | some q =>
    let sl := s.slotOf q
    let fn := s.fnOf (s.ctxPart q.ctx)
    let addr := sl.base + BitVec.ofNat 64 (q.pi.toNat % sl.size * 32)
    let pi' := q.pi + 1
    let q' := { q with
      pi := pi'
      reserved := if reserved then q.reserved - 1 else q.reserved
      pending := if eligible then min 65535 (q.pending + 1) else q.pending
      firstAt := if eligible && q.pending = 0 then some s.time else q.firstAt
      event := q.event || event }
    let s1 := ((s.setQueue qid q').emit (.pcieWrite fn addr rcd false)).emit
      (.pcieWrite fn sl.wb (leBytes 4 pi'.toNat) false)
    s1.cqTest qid

/-- OVERFLOW is set on a full CQ (R344), and with it FUNC_CAUSE.CQ_OVERFLOW. -/
def State.cqOverflow (s : State) (qid : Nat) : State :=
  match s.queue? qid with
  | none => s
  | some q =>
    match s.ctx? q.ctx with
    | none => s
    | some c => (s.setQslot q.ctx q.slot ((s.qslot q.ctx q.slot).overflowed s.time)).funcCause c.part 2

/-- The QID of an enabled CQ in slot `k` of a context. -/
def State.cqAt (s : State) (c k : Nat) : Option Nat :=
  let q := s.qslot c k
  if k < 16 && q.enabled && q.kind = 3 then some q.qid else none

/-- EVENT_DROP counts on a context, and EVENT_LOST is set (Table 14.4). -/
def State.eventDrop (s : State) (c : Nat) : State := (s.bump (ctxCtr c 1)).funcCause (s.ctxPart c) 3

/-- An event record goes to the context's event queue, or is dropped (R344, R347, Table 13.7). (DEDUCED, log 50) -/
def State.postEvent (s : State) (c event : Nat) (w4 w8 : Nat) : State :=
  match s.ctx? c with
  | none => s
  | some x =>
    match s.cqAt c x.eq with
    | none => s.eventDrop c
    | some qid =>
      match s.queue? qid with
      | none => s.eventDrop c
      | some q =>
        if s.cqFree q = 0 then (s.eventDrop c).cqOverflow qid
        else
          let rcd := leBytes 1 18 ++ leBytes 1 event ++ leBytes 2 c ++ leBytes 4 w4 ++ leBytes 4 w8 ++
            List.replicate 16 0 ++ leBytes 4 (s.rooster.tickNo.toNat % 2 ^ 32)
          s.writeRecord qid rcd false true true

/-! ### Context faults -/

/-- A fault reaches a context: it is kept if none is held, else it counts in CTX_FAULT_MORE (R338); of two in one cycle the
lower is kept (R517). (DEDUCED, log 171) -/
def State.ctxFault (s : State) (c code : Nat) : State :=
  match s.ctx? c with
  | none => s
  | some x =>
    if x.fault = 0 then ((s.setCtx c { x with fault := code, faultAt := some s.time }).funcCause x.part 1).postEvent c 1 code 0
    else
      let lower := x.faultAt = some s.time && 0 < code && code < x.fault
      (if lower then s.setCtx c { x with fault := code } else s).bump (ctxCtr c 0)

/-- The contexts of a partition. -/
def State.ctxsOf (s : State) (p : Nat) : List Nat := (s.ctxs.filter (fun e => e.2.part = p)).map Prod.fst

/-- A plan fault reaches every context of the partition (R43, R251). -/
def State.faultAll (s : State) (p code : Nat) : State :=
  (s.ctxsOf p).foldl (fun t c => t.ctxFault c code) s

/-! ### Time -/

/-- Length of a tick in ns (R13). -/
def State.tickNs (s : State) : Nat := s.rooster.slots * 128

/-- A tick is held (R503: TICK_OUT pulses in these states). -/
def RoosterState.holds : RoosterState → Bool
  | .locked => true | .holdover => true | .gm => true | _ => false

/-- The device runs: not in cold reset, not stopped by FATAL or a trip. (DEDUCED, log 99) -/
def State.alive (s : State) : Bool := !s.power.coldReset && !s.fw.fatal && !s.power.tripped

end Sys2Proof.Machine
end

