-- ==== Sys2Proof/Machine/Counters.lean ====
section
/-! DEFINITION. The position K of every counter in its block's list (Tables 20.4, 20.11, 21.5-21.8, R473). -/

namespace Sys2Proof.Machine

/-! Device counters (Table 20.11). -/
def dkTickSlip : Nat := 0
def dkTickLenMismatch : Nat := 1
def dkRefDisagree : Nat := 2
def dkEpochAdopt : Nat := 3
def dkEpochSplit : Nat := 4
def dkDrainRollback : Nat := 5
def dkGateRefused : Nat := 6
def dkAdmitRefused : Nat := 7
def dkMuleRestart : Nat := 8
def dkMuleCTimeout : Nat := 9
def dkMuleDepotViol : Nat := 10
def dkKeySealBad : Nat := 11
def dkHenDepotEmpty : Nat := 12
def dkHenRebuild : Nat := 13
def dkDepotEccCorr : Nat := 14
def dkDepotEccUncorr : Nat := 15
def dkDepotScrubPass : Nat := 16
def dkNotreadyTx : Nat := 17
def dkNotreadySuppressed : Nat := 18
def dkEchoTx : Nat := 19
def dkEchoRx : Nat := 20
def dkEchoSkip : Nat := 21
def dkBDup : Nat := 22
def dkBMsgLost : Nat := 23
def dkBReasmFull : Nat := 24
def dkTwinTakeover : Nat := 25
def dkHbBad : Nat := 26
def dkTwinDrop : Nat := 27
def dkLocDup : Nat := 28

/-! Die counters (Table 20.4). -/
def ikNoBuffer : Nat := 0
def ikHenFallback : Nat := 1
def ikHenReserveUse : Nat := 2
def ikHenRefErr : Nat := 3
def ikHenAmberEnter : Nat := 4
def ikHenRedEnter : Nat := 5
def ikHenBlackEnter : Nat := 6
def ikBridgeErr : Nat := 7

/-! Engine counters (R473). -/
def ekBankWait : Nat := 0
def ekVoidRead : Nat := 1
def ekRenameWait : Nat := 2
def ekSquashed : Nat := 3
def ekSquashedBegun : Nat := 4
def ekEccCorr : Nat := 5
def ekTallyBad : Nat := 6

/-! Port counters (Table 21.5). -/
def pkMarkerMiss : Nat := 0
def pkLateTx : Nat := 1
def pkLateRx : Nat := 2
def pkStaleEpoch : Nat := 3
def pkTallyBad : Nat := 4
def pkCapsBad : Nat := 5
def pkQuarantineDrop : Nat := 6
def pkNapEnter : Nat := 7
def pkDozeEnter : Nat := 8
def pkWakeMiss : Nat := 9
def pkWidthLost : Nat := 10
def pkHdrCrcErr : Nat := 11
def pkLenErr : Nat := 12
def pkStompRx : Nat := 13
def pkCrcErr : Nat := 14
def pkTtlDrop : Nat := 15
def pkHuntCount : Nat := 16
def pkStompTx : Nat := 17
def pkCreditViol : Nat := 18
def pkCreditStall : Nat := 19
def pkSLimitDrop : Nat := 20
def pkDownDrop : Nat := 21
def pkMcClassErr : Nat := 22
def pkMcResidueDrop : Nat := 23
def pkMcDownDrop : Nat := 24
def pkNoRoute : Nat := 25
def pkRouteDrop : Nat := 26
def pkSpreadZero : Nat := 27
def pkSpreadFallback : Nat := 28
def pkCrowdTx : Nat := 29
def pkCtxDrop : Nat := 30
def pkPartDrop : Nat := 31
def pkRecvMismatch : Nat := 32
def pkEarlyDropS : Nat := 33
def pkEarlyDropB : Nat := 34
def pkEarlyDropC : Nat := 35
def pkLocMismatch : Nat := 36
def pkDelayOverPlan : Nat := 37
def pkNapMapCut : Nat := 38
def pkTwinAttachFail : Nat := 39
/-- C_DUP to C_RETRY, k = 40 to 46 on a port for Mule and k = 3 to 9 on a context (R488). -/
def pkCDup : Nat := 40
def pkLaneChangeFail : Nat := 47

/-! Lane counters (Table 21.6). -/
def lkFecCorr : Nat := 0
def lkFecUncorr : Nat := 1
def lkStuffErr : Nat := 2
def lkTrainFail : Nat := 3
def lkLol : Nat := 4
def lkDrop : Nat := 5
def lkReadmit : Nat := 6

/-! Partition counters (Table 21.7). -/
def rkTickOverrun : Nat := 0
def rkPlanFault : Nat := 1
def rkSquash : Nat := 2
def rkMisalign : Nat := 3
def rkPostDrop : Nat := 4
def rkDepotSlow : Nat := 5
def rkCtlIgnored : Nat := 6
def rkDbBad : Nat := 7
def rkRankInvalid : Nat := 8

/-! Context counters (Table 21.8). -/
def xkFaultMore : Nat := 0
def xkEventDrop : Nat := 1
def xkQueueDrop : Nat := 2
def xkCDup : Nat := 3

/-- The seven class C endpoint counters, in order from C_DUP. -/
inductive CKind where
  | dup | gap | seqBad | rxFull | streamFull | rstTx | retry
  deriving DecidableEq, Repr

def CKind.ofs : CKind → Nat
  | .dup => 0 | .gap => 1 | .seqBad => 2 | .rxFull => 3 | .streamFull => 4 | .rstTx => 5 | .retry => 6

def State.bumpDev (s : State) (k : Nat) : State := s.bump (devCtr k)
def State.bumpDie (s : State) (d k : Nat) : State := s.bump (dieCtr d k)
def State.bumpEng (s : State) (e k : Nat) : State := s.bump (engCtr e k)
def State.bumpPort (s : State) (p k : Nat) : State := s.bump (portCtr p k)
def State.bumpLane (s : State) (p j k : Nat) : State := s.bump (laneCtr p j k)
def State.bumpPart (s : State) (p k : Nat) : State := s.bump (partCtr p k)
def State.bumpCtx (s : State) (c k : Nat) : State := s.bump (ctxCtr c k)

/-- A class C counter, on the port for Mule and on the context for a host context (R488). -/
def State.bumpC (s : State) (mule : Bool) (port ctx : Nat) (k : CKind) : State :=
  if mule then (if port < 49 then s.bumpPort port (pkCDup + k.ofs) else s) else s.bumpCtx ctx (xkCDup + k.ofs)

/-- Counters in a block instance (Table 23.1): one number per block code. -/
def blockCounters : Nat → Nat
  | 0 => 29 | 1 => 8 | 2 => 7 | 3 => 48 | 4 => 7 | 5 => 9 | 6 => 10 | 7 => 1 | 8 => 1 | _ => 0

/-- Instances of a block (Table 23.1). -/
def blockInstances : Nat → Nat
  | 0 => 1 | 1 => 2 | 2 => 32 | 3 => 49 | 4 => 784 | 5 => 128 | 6 => 1024 | 7 => 4096 | 8 => 1 | _ => 0

/-- Whether a counter index names a counter (R516). -/
def ctrExists (block inst k : Nat) : Bool :=
  inst < blockInstances block && k < blockCounters block && !(block = 4 && inst < 768 && 8 ≤ inst % 16)

end Sys2Proof.Machine
end

