-- ==== Sys2Proof/Machine/Operands.lean ====
section
/-! DEFINITION. The operand forms: Guand words (Tables 10.1-10.14) and the registers an instruction names, depot
pointers (Table 10.7) and queue handles (Table 10.14). -/

namespace Sys2Proof.Machine

/-! ### Guand words -/

/-- A first word (Table 10.1). -/
def gword (op : BitVec 8) (h : GHead) (f : BitVec 38) : Word := op ++ h.at_ ++ h.gp ++ BitVec.ofBool h.gn ++ f

def fmtR (rd ra rb re : BitVec 5) : BitVec 38 := rd ++ ra ++ rb ++ re ++ 0#18
def fmtI (rd ra : BitVec 5) (imm : BitVec 28) : BitVec 38 := rd ++ ra ++ imm
def fmtLd (rd ra : BitVec 5) (sz : BitVec 2) (sx : Bool) (off : BitVec 25) : BitVec 38 :=
  rd ++ ra ++ sz ++ BitVec.ofBool sx ++ off
def fmtA (rd ra rb : BitVec 5) (off : BitVec 23) : BitVec 38 := rd ++ ra ++ rb ++ off
def fmtC (rd ra rb re : BitVec 5) (off : BitVec 18) : BitVec 38 := rd ++ ra ++ rb ++ re ++ off

/-- The words of a Guand instruction: the first, and the extension of a two-word instruction (R261). -/
def guandEncode : Instr → Option (Word × Option Word)
  | .nop _ h => some (gword 0x01 h 0, none)
  | .br _ h cp cn target => some (gword 0x02 h (cp ++ BitVec.ofBool cn ++ target ++ 0#18), none)
  | .loop _ h rc end_ max => some (gword 0x03 h (rc ++ end_ ++ max ++ 0#1), none)
  | .lend _ h rc start => some (gword 0x04 h (rc ++ start ++ 0#17), none)
  | .tickwait _ h => some (gword 0x05 h 0, none)
  | .cmp _ h pd cond ra imm rb imm26 =>
    some (gword 0x06 h (pd ++ cond ++ ra ++ BitVec.ofBool imm ++ (if imm then imm26 else rb ++ 0#21)), none)
  | .plog _ h pd opl pa pb => some (gword 0x07 h (pd ++ opl ++ pa ++ pb ++ 0#27), none)
  | .rdt _ h rd sel => some (gword 0x08 h (rd ++ 0#30 ++ sel), none)
  | .add _ h rd ra rb => some (gword 0x10 h (fmtR rd ra rb 0), none)
  | .sub _ h rd ra rb => some (gword 0x11 h (fmtR rd ra rb 0), none)
  | .mul _ h rd ra rb => some (gword 0x12 h (fmtR rd ra rb 0), none)
  | .divs _ h rd ra rb re => some (gword 0x13 h (fmtR rd ra rb re), none)
  | .divu _ h rd ra rb re => some (gword 0x14 h (fmtR rd ra rb re), none)
  | .neg _ h rd ra => some (gword 0x15 h (fmtR rd ra 0 0), none)
  | .abs _ h rd ra => some (gword 0x16 h (fmtR rd ra 0 0), none)
  | .and _ h rd ra rb => some (gword 0x17 h (fmtR rd ra rb 0), none)
  | .or _ h rd ra rb => some (gword 0x18 h (fmtR rd ra rb 0), none)
  | .xor _ h rd ra rb => some (gword 0x19 h (fmtR rd ra rb 0), none)
  | .shl _ h rd ra rb => some (gword 0x1A h (fmtR rd ra rb 0), none)
  | .shr _ h rd ra rb => some (gword 0x1B h (fmtR rd ra rb 0), none)
  | .sra _ h rd ra rb => some (gword 0x1C h (fmtR rd ra rb 0), none)
  | .adds _ h rd ra rb => some (gword 0x1D h (fmtR rd ra rb 0), none)
  | .subs _ h rd ra rb => some (gword 0x1E h (fmtR rd ra rb 0), none)
  | .muls _ h rd ra rb => some (gword 0x1F h (fmtR rd ra rb 0), none)
  | .adduS _ h rd ra rb => some (gword 0x20 h (fmtR rd ra rb 0), none)
  | .subuS _ h rd ra rb => some (gword 0x21 h (fmtR rd ra rb 0), none)
  | .addi _ h rd ra imm => some (gword 0x22 h (fmtI rd ra imm), none)
  | .movi _ h rd imm => some (gword 0x23 h (fmtI rd 0 imm), none)
  | .ori _ h rd ra imm => some (gword 0x24 h (fmtI rd ra imm), none)
  | .ld _ h rd ra sz sx off => some (gword 0x30 h (fmtLd rd ra sz sx off), none)
  | .st _ h rs ra sz off => some (gword 0x31 h (fmtLd rs ra sz false off), none)
  | .aadd _ h rd ra rb off => some (gword 0x32 h (fmtA rd ra rb off), none)
  | .aswp _ h rd ra rb off => some (gword 0x33 h (fmtA rd ra rb off), none)
  | .acas _ h rd ra rb re off => some (gword 0x34 h (fmtC rd ra rb re off), none)
  | .acas2 _ h rd ra rb re off => some (gword 0x35 h (fmtC rd ra rb re off), none)
  | .fenceDepot _ h => some (gword 0x36 h 0, none)
  | .fenceTick _ h => some (gword 0x36 h 1, none)
  | .recv _ h hd grant cr dl => some (gword 0x40 h (hd ++ grant ++ cr ++ dl ++ 0#3), none)
  | .send _ h port slot nf srck t rr cr fr dr slen ff lf eng =>
    some (gword 0x41 h (port ++ slot ++ nf ++ BitVec.ofBool srck ++ t ++ 0#3),
      some (rr ++ cr ++ fr ++ dr ++ slen ++ BitVec.ofBool ff ++ BitVec.ofBool lf ++ eng ++ 0#24))
  | .expect _ h pr hmask hf heng hw hole nfr =>
    some (gword 0x42 h (pr ++ hmask ++ BitVec.ofBool hf ++ heng ++ hw ++ 0#10), some (hole ++ nfr ++ 0#34))
  | .lclr _ h eng w base rows form oper sgn =>
    some (gword 0x50 h (eng ++ w ++ base ++ rows ++ form ++ oper ++ BitVec.ofBool sgn ++ 0#8), none)
  | .tld _ h eng t fmt src ra rows tr tc =>
    some (gword 0x51 h (eng ++ t ++ fmt ++ BitVec.ofBool src ++ ra ++ rows ++ tr ++ tc), none)
  | .tacc _ h eng t w k lane => some (gword 0x52 h (eng ++ t ++ w ++ k ++ lane ++ 0#10), none)
  | .emit _ h eng w t fmt rm clamp kr cr er n lane e0i =>
    some (gword 0x53 h (eng ++ w ++ t ++ fmt ++ rm ++ BitVec.ofBool clamp ++ kr ++ cr ++ er),
      some (n ++ lane ++ e0i ++ 0#16))
  | .tst _ h eng t ra rows tw tr tc =>
    some (gword 0x54 h (eng ++ t ++ ra ++ rows ++ tw ++ tr ++ tc ++ 0#4), none)
  | .post _ h rq ra fl eng w irq =>
    some (gword 0x60 h (rq ++ ra ++ BitVec.ofBool fl ++ eng ++ w ++ BitVec.ofBool irq ++ 0#18), none)
  | _ => none

/-- The instruction of thread `p` whose fields stand in the words, by opcode (Table 10.2), reserved bits unread. -/
def guandFields (p : Nat) (w x : Word) : Option Instr :=
  let h : GHead := { at_ := w.extractLsb' 42 14, gp := w.extractLsb' 39 3, gn := w.getLsbD 38 }
  let f := fun (lo n : Nat) => w.extractLsb' lo n
  let g := fun (lo n : Nat) => x.extractLsb' lo n
  match (w.extractLsb' 56 8).toNat with
  | 0x01 => some (.nop p h)
  | 0x02 => some (.br p h (f 35 3) (w.getLsbD 34) (f 18 16))
  | 0x03 => some (.loop p h (f 33 5) (f 17 16) (f 1 16))
  | 0x04 => some (.lend p h (f 33 5) (f 17 16))
  | 0x05 => some (.tickwait p h)
  | 0x06 =>
    if w.getLsbD 26 then some (.cmp p h (f 35 3) (f 32 3) (f 27 5) true 0 (f 0 26))
    else some (.cmp p h (f 35 3) (f 32 3) (f 27 5) false (f 21 5) 0)
  | 0x07 => some (.plog p h (f 35 3) (f 33 2) (f 30 3) (f 27 3))
  | 0x08 => some (.rdt p h (f 33 5) (f 0 3))
  | 0x10 => some (.add p h (f 33 5) (f 28 5) (f 23 5))
  | 0x11 => some (.sub p h (f 33 5) (f 28 5) (f 23 5))
  | 0x12 => some (.mul p h (f 33 5) (f 28 5) (f 23 5))
  | 0x13 => some (.divs p h (f 33 5) (f 28 5) (f 23 5) (f 18 5))
  | 0x14 => some (.divu p h (f 33 5) (f 28 5) (f 23 5) (f 18 5))
  | 0x15 => some (.neg p h (f 33 5) (f 28 5))
  | 0x16 => some (.abs p h (f 33 5) (f 28 5))
  | 0x17 => some (.and p h (f 33 5) (f 28 5) (f 23 5))
  | 0x18 => some (.or p h (f 33 5) (f 28 5) (f 23 5))
  | 0x19 => some (.xor p h (f 33 5) (f 28 5) (f 23 5))
  | 0x1A => some (.shl p h (f 33 5) (f 28 5) (f 23 5))
  | 0x1B => some (.shr p h (f 33 5) (f 28 5) (f 23 5))
  | 0x1C => some (.sra p h (f 33 5) (f 28 5) (f 23 5))
  | 0x1D => some (.adds p h (f 33 5) (f 28 5) (f 23 5))
  | 0x1E => some (.subs p h (f 33 5) (f 28 5) (f 23 5))
  | 0x1F => some (.muls p h (f 33 5) (f 28 5) (f 23 5))
  | 0x20 => some (.adduS p h (f 33 5) (f 28 5) (f 23 5))
  | 0x21 => some (.subuS p h (f 33 5) (f 28 5) (f 23 5))
  | 0x22 => some (.addi p h (f 33 5) (f 28 5) (f 0 28))
  | 0x23 => some (.movi p h (f 33 5) (f 0 28))
  | 0x24 => some (.ori p h (f 33 5) (f 28 5) (f 0 28))
  | 0x30 => some (.ld p h (f 33 5) (f 28 5) (f 26 2) (w.getLsbD 25) (f 0 25))
  | 0x31 => some (.st p h (f 33 5) (f 28 5) (f 26 2) (f 0 25))
  | 0x32 => some (.aadd p h (f 33 5) (f 28 5) (f 23 5) (f 0 23))
  | 0x33 => some (.aswp p h (f 33 5) (f 28 5) (f 23 5) (f 0 23))
  | 0x34 => some (.acas p h (f 33 5) (f 28 5) (f 23 5) (f 18 5) (f 0 18))
  | 0x35 => some (.acas2 p h (f 33 5) (f 28 5) (f 23 5) (f 18 5) (f 0 18))
  | 0x36 => if w.getLsbD 0 then some (.fenceTick p h) else some (.fenceDepot p h)
  | 0x40 => some (.recv p h (f 34 4) (f 22 12) (f 17 5) (f 3 14))
  | 0x41 => some (.send p h (f 32 6) (f 18 14) (f 10 8) (w.getLsbD 9) (f 3 6) (g 59 5) (g 54 5) (g 49 5) (g 44 5)
      (g 31 13) (x.getLsbD 30) (x.getLsbD 29) (g 24 5))
  | 0x42 => some (.expect p h (f 35 3) (f 19 16) (w.getLsbD 18) (f 13 5) (f 10 3) (g 48 16) (g 34 14))
  | 0x50 => some (.lclr p h (f 33 5) (f 30 3) (f 23 7) (f 15 8) (f 13 2) (f 9 4) (w.getLsbD 8))
  | 0x51 => some (.tld p h (f 33 5) (f 27 6) (f 22 5) (w.getLsbD 21) (f 16 5) (f 8 8) (f 4 4) (f 0 4))
  | 0x52 => some (.tacc p h (f 33 5) (f 27 6) (f 24 3) (f 20 4) (f 10 10))
  | 0x53 => some (.emit p h (f 33 5) (f 30 3) (f 24 6) (f 19 5) (f 16 3) (w.getLsbD 15) (f 10 5) (f 5 5) (f 0 5)
      (g 48 16) (g 38 10) (g 16 22))
  | 0x54 => some (.tst p h (f 33 5) (f 27 6) (f 22 5) (f 14 8) (f 12 2) (f 8 4) (f 4 4))
  | 0x60 => some (.post p h (f 33 5) (f 28 5) (w.getLsbD 27) (f 22 5) (f 19 3) (w.getLsbD 18))
  | _ => none

/-- Whether the words are exactly those of an instruction: an extension counts only for a two-word one. -/
def wordsMatch (w x : Word) : Option (Word × Option Word) → Bool
  | some (a, none) => a == w
  | some (a, some b) => a == w && b == x
  | none => false

/-- The instruction that the words at an index spell (R259): none for an undefined opcode or reserved bits that are
not 0. -/
def guandDecode (p : Nat) (w x : Word) : Option Instr :=
  match guandFields p w x with
  | some i => if wordsMatch w x (guandEncode i) then some i else none
  | none => none

/-- Words an instruction occupies (R261). -/
def guandLen : Instr → Nat
  | .send .. => 2
  | .expect .. => 2
  | .emit .. => 2
  | _ => 1

/-- The scalar registers an instruction reads or writes (R244, R263); s0 never awaits a result. -/
def guandRegs : Instr → List Nat
  | .loop _ _ rc _ _ => [rc.toNat]
  | .lend _ _ rc _ => [rc.toNat]
  | .cmp _ _ _ _ ra imm rb _ => if imm then [ra.toNat] else [ra.toNat, rb.toNat]
  | .rdt _ _ rd _ => [rd.toNat]
  | .add _ _ rd ra rb => [rd.toNat, ra.toNat, rb.toNat]
  | .sub _ _ rd ra rb => [rd.toNat, ra.toNat, rb.toNat]
  | .mul _ _ rd ra rb => [rd.toNat, ra.toNat, rb.toNat]
  | .divs _ _ rd ra rb re => [rd.toNat, ra.toNat, rb.toNat, re.toNat]
  | .divu _ _ rd ra rb re => [rd.toNat, ra.toNat, rb.toNat, re.toNat]
  | .neg _ _ rd ra => [rd.toNat, ra.toNat]
  | .abs _ _ rd ra => [rd.toNat, ra.toNat]
  | .and _ _ rd ra rb => [rd.toNat, ra.toNat, rb.toNat]
  | .or _ _ rd ra rb => [rd.toNat, ra.toNat, rb.toNat]
  | .xor _ _ rd ra rb => [rd.toNat, ra.toNat, rb.toNat]
  | .shl _ _ rd ra rb => [rd.toNat, ra.toNat, rb.toNat]
  | .shr _ _ rd ra rb => [rd.toNat, ra.toNat, rb.toNat]
  | .sra _ _ rd ra rb => [rd.toNat, ra.toNat, rb.toNat]
  | .adds _ _ rd ra rb => [rd.toNat, ra.toNat, rb.toNat]
  | .subs _ _ rd ra rb => [rd.toNat, ra.toNat, rb.toNat]
  | .muls _ _ rd ra rb => [rd.toNat, ra.toNat, rb.toNat]
  | .adduS _ _ rd ra rb => [rd.toNat, ra.toNat, rb.toNat]
  | .subuS _ _ rd ra rb => [rd.toNat, ra.toNat, rb.toNat]
  | .addi _ _ rd ra _ => [rd.toNat, ra.toNat]
  | .movi _ _ rd _ => [rd.toNat]
  | .ori _ _ rd ra _ => [rd.toNat, ra.toNat]
  | .ld _ _ rd ra _ _ _ => [rd.toNat, ra.toNat]
  | .st _ _ rs ra _ _ => [rs.toNat, ra.toNat]
  | .aadd _ _ rd ra rb _ => [rd.toNat, ra.toNat, rb.toNat]
  | .aswp _ _ rd ra rb _ => [rd.toNat, ra.toNat, rb.toNat]
  | .acas _ _ rd ra rb re _ => [rd.toNat, ra.toNat, rb.toNat, re.toNat]
  | .acas2 _ _ rd ra rb re _ =>
    [rd.toNat, rd.toNat + 1, ra.toNat, rb.toNat, rb.toNat + 1, re.toNat, re.toNat + 1]
  | .recv _ _ _ _ cr _ => [cr.toNat]
  | .send _ _ _ _ _ srck _ rr cr fr dr _ _ _ _ => [rr.toNat, cr.toNat, fr.toNat] ++ (if srck then [dr.toNat] else [])
  | .tld _ _ _ _ _ _ ra _ _ _ => [ra.toNat]
  | .emit _ _ _ _ _ _ _ _ kr cr er _ _ _ => [kr.toNat, cr.toNat, er.toNat]
  | .tst _ _ _ _ ra _ _ _ _ => [ra.toNat]
  | .post _ _ rq ra _ _ _ _ => [rq.toNat, ra.toNat, ra.toNat + 1, ra.toNat + 2]
  | _ => []

/-- The common fields of a Guand instruction. -/
def guandHead : Instr → GHead
  | .nop _ h => h | .br _ h _ _ _ => h | .loop _ h _ _ _ => h | .lend _ h _ _ => h | .tickwait _ h => h
  | .cmp _ h _ _ _ _ _ _ => h | .plog _ h _ _ _ _ => h | .rdt _ h _ _ => h
  | .add _ h _ _ _ => h | .sub _ h _ _ _ => h | .mul _ h _ _ _ => h | .divs _ h _ _ _ _ => h
  | .divu _ h _ _ _ _ => h | .neg _ h _ _ => h | .abs _ h _ _ => h | .and _ h _ _ _ => h | .or _ h _ _ _ => h
  | .xor _ h _ _ _ => h | .shl _ h _ _ _ => h | .shr _ h _ _ _ => h | .sra _ h _ _ _ => h | .adds _ h _ _ _ => h
  | .subs _ h _ _ _ => h | .muls _ h _ _ _ => h | .adduS _ h _ _ _ => h | .subuS _ h _ _ _ => h
  | .addi _ h _ _ _ => h | .movi _ h _ _ => h | .ori _ h _ _ _ => h
  | .ld _ h _ _ _ _ _ => h | .st _ h _ _ _ _ => h | .aadd _ h _ _ _ _ => h | .aswp _ h _ _ _ _ => h
  | .acas _ h _ _ _ _ _ => h | .acas2 _ h _ _ _ _ _ => h | .fenceDepot _ h => h | .fenceTick _ h => h
  | .recv _ h _ _ _ _ => h | .send _ h _ _ _ _ _ _ _ _ _ _ _ _ _ => h | .expect _ h _ _ _ _ _ _ _ => h
  | .lclr _ h _ _ _ _ _ _ _ => h | .tld _ h _ _ _ _ _ _ _ _ => h | .tacc _ h _ _ _ _ _ => h
  | .emit _ h _ _ _ _ _ _ _ _ _ _ _ _ => h | .tst _ h _ _ _ _ _ _ _ => h | .post _ h _ _ _ _ _ _ => h
  | _ => { at_ := 0, gp := 0, gn := false }

/-! ### Depot pointers and queue handles -/

/-- A depot pointer, read (Table 10.7): context, segment and offset; none where a reserved bit is set. -/
def ptrFields (w : Word) : Option (Nat × Nat × Nat) :=
  let v := w.toNat
  if bitsOf v 63 54 ≠ 0 then none else some (bitsOf v 53 44, bitsOf v 43 40, bitsOf v 39 0)

/-- The pointer with a signed offset added to OFFSET alone (R269): none where the sum leaves 0 to 2^40 - 1 or a
reserved bit is set. -/
def ptrPlus (w : Word) (off : Int) : Option (Nat × Nat × Nat) :=
  match ptrFields w with
  | none => none
  | some (c, g, o) =>
    let v := (o : Int) + off
    if 0 ≤ v && v < ((2 ^ 40 : Nat) : Int) then some (c, g, v.toNat) else none

end Sys2Proof.Machine
end

