-- ==== Sys2Proof/Machine/Hen.lean ====
section
/-! DEFINITION. Hen and the accounts of the switch core (chapters 5 and 6): charges, credit, buffer choice,
descriptors and references, levels, and the depot pools' free lists. -/

namespace Sys2Proof.Machine

/-! ### Ingress points, dies and charges -/

/-- The ingress point of port HP and of Mule. -/
def ingHP : Nat := 49
def ingMule : Nat := 50

/-- The home die of a port or ingress point: 0 West, 1 East (Table 5.1). -/
def homeDie (ing : Nat) : Nat := if ing < 24 || ing = 48 then 0 else 1

/-- The die of an engine (Table 8.1). -/
def engineDie (e : Nat) : Nat := if e < 16 then 0 else 1

/-- The ingress points of a die. -/
def dieIngress (d : Nat) : List Nat := (List.range 51).filter (fun i => homeDie i = d)

/-- The ports of a die. -/
def diePorts (d : Nat) : List Nat := (List.range 49).filter (fun i => homeDie i = d)

/-- Charge and credit cost of a frame (R128, chapter 5 terms). -/
def frameUnits (len : Nat) : Nat := max 1 (ceilDiv len 256)

/-- The ingress point that a port code of SET_GMIN names (R486). -/
def codeIngress (c : Nat) : Nat := if c = 0x40 then ingHP else if c = 0x41 then ingMule else c

/-! ### Pending drain-and-swap settings (Table 19.6) -/

/-- The change of a row of Table 19.6 that satisfies a test and is pending from its H0 on (R458). -/
def State.drainFor (s : State) (row : Nat) (f : GateReq → Bool) : Option DrainPending :=
  s.gate.drains.find? (fun d => d.row = row && d.age.isSome && f d.req)

/-- Reserve buffers that an owner may use on a die: the smaller of old and new minimum while a change is pending
(R181, R182); Mule's owner number is 128. -/
def State.reserveMin (s : State) (d owner : Nat) : Nat :=
  if owner = 128 then 128
  else
    let q := s.part owner
    let old := if d = 0 then q.minW else q.minE
    match s.drainFor 2 (fun r => match r with | .setHenMin p _ _ => p = owner | _ => false) with
    | some ⟨_, .setHenMin _ w e, _, _, _⟩ => min old (if d = 0 then w else e)
    | _ => old

/-- The new minima of an account while a SET_GMIN is pending. -/
def State.gminPending (s : State) (ing : Nat) (c : Bool) : Option Nat :=
  match s.drainFor 4 (fun r => match r with | .setGmin k _ _ => codeIngress k = ing | _ => false) with
  | some ⟨_, .setGmin _ b cc, _, _, _⟩ => some (if c then cc else b)
  | _ => none

/-- The minimum that credit is computed with: the smaller one while a change is pending (R458). -/
def State.gminCredit (s : State) (ing : Nat) (c : Bool) : Nat :=
  match s.gminPending ing c with
  | some g => min g (s.acct ing c).gmin
  | none => (s.acct ing c).gmin

/-- The minimum that SHARED is computed with: the larger one while a change is pending. -/
def State.gminShared (s : State) (ing : Nat) (c : Bool) : Nat :=
  match s.gminPending ing c with
  | some g => max g (s.acct ing c).gmin
  | none => (s.acct ing c).gmin

/-! ### The accounting regions -/

/-- Class S space of a die (Table 5.3). -/
def State.classSSpace (s : State) (d : Nat) : Nat :=
  ((diePorts d).map (fun p => (s.port p).sIn + (s.port p).sOut)).foldl (· + ·) 0

/-- SHARED for given class S space and minima, 0 where they exceed the budget. -/
def sharedOf (classS mins : Nat) : Nat := 655360 - (classS + mins)

/-- The guaranteed minima of a die, summed. -/
def minsOf (d : Nat) (g : Nat → Bool → Nat) : Nat :=
  ((dieIngress d).map (fun i => g i false + g i true)).foldl (· + ·) 0

/-- SWITCH_STATUS.SHARED (R471). -/
def State.shared (s : State) (d : Nat) : Nat := sharedOf (s.classSSpace d) (minsOf d s.gminShared)

/-- Credit promised and not yet used: LIMIT - RX modulo 2^32, none for port HP and Mule (R157, R159). -/
def State.promised (s : State) (ing : Nat) (c : Bool) : Nat :=
  let a := s.acct ing c
  if ing < 49 then (a.limit - a.rx).toNat else 0

/-- SU (R157). -/
def State.sharedUse (s : State) (ing : Nat) (c : Bool) (gmin : Nat) : Nat :=
  (s.acct ing c).h + s.promised ing c - gmin

/-- The total SU of a die under given minima. -/
def State.sharedUsed (s : State) (d : Nat) (g : Nat → Bool → Nat) : Nat :=
  ((dieIngress d).map (fun i => s.sharedUse i false (g i false) + s.sharedUse i true (g i true))).foldl (· + ·) 0

/-- F (R157). -/
def State.freeShared (s : State) (d : Nat) : Nat := s.shared d - s.sharedUsed d s.gminShared

/-- Floor of F x alpha (Table 5.4). -/
def alphaOf (a f : Nat) : Nat := if a ≤ 3 then f / 2 ^ (3 - a) else f * 2 ^ (a - 3)

/-- The level in force in a cycle: the level judged in the cycle before (R184). -/
def Die.levelIn (v : Die) (now : Nat) : Nat := if v.levelAt = now then v.levelWas else v.level

/-- S_ALLOW of a class on a die, under the stricter of Hen level and throttle level (R157, Table 6.3, R404). -/
def State.sAllow (s : State) (d : Nat) (c : Bool) : Nat :=
  let v := s.die d
  let l := v.levelIn s.time
  if c then (if l = 3 then 0 else alphaOf v.alpha (s.freeShared d))
  else if 2 ≤ l || 3 ≤ s.mule.throttle then 0
  else alphaOf (if l = 1 || 2 ≤ s.mule.throttle then min v.alpha 1 else v.alpha) (s.freeShared d)

/-! ### SRAM pools -/

def Die.pool (v : Die) : Nat → Pool | 0 => v.p0 | 1 => v.p1 | _ => v.p2
def Die.setPool (v : Die) (k : Nat) (p : Pool) : Die :=
  match k with | 0 => { v with p0 := p } | 1 => { v with p1 := p } | _ => { v with p2 := p }

/-- Size of a pool's buffers in units of 256 B (Table 6.1). -/
def poolStep : Nat → Nat | 0 => 1 | 1 => 4 | _ => 16

/-- First unit and number of units of pool `k` in a layout (R170: P2 from the base, then P1, then P0). -/
def poolRange (m0 m1 m2 : Nat) : Nat → Nat × Nat
  | 0 => ((m2 + m1) * 4096, m0 * 4096)
  | 1 => (m2 * 4096, m1 * 4096)
  | _ => (0, m2 * 4096)

def Die.range (v : Die) (k : Nat) : Nat × Nat := poolRange v.p0.mib v.p1.mib v.p2.mib k

/-- Whether a buffer of pool `k` at `off` stays in its pool under a new layout (R188). -/
def stays (lay : Nat × Nat × Nat) (k off : Nat) : Bool :=
  let r := poolRange lay.1 lay.2.1 lay.2.2 k
  r.1 ≤ off && off + poolStep k ≤ r.1 + r.2

/-- The first of `n` offsets from `off` in steps that passes a test. -/
def firstFrom (ok : Nat → Bool) (step : Nat) : (off n : Nat) → Option Nat
  | _, 0 => none
  | off, n + 1 => if ok off then some off else firstFrom ok step (off + step) n

/-- The free buffer of lowest index in pool `k` at a moment (R176, R188). -/
def Die.findFree (v : Die) (now k : Nat) : Option Nat :=
  let p := v.pool k
  let r := v.range k
  let ok (o : Nat) : Bool :=
    !p.used.contains o && !(p.freed.any (fun e => e.1 = o && now ≤ e.2)) &&
    (match v.resize with
     | some lay => stays lay k o
     | none => true)
  firstFrom ok (poolStep k) r.1 (r.2 / poolStep k)

/-- What a buffer request gives (R172, R176). -/
inductive Alloc where
  | got (b : Buffer) (fallback : Bool) | wait (pool : Nat) | none
  deriving DecidableEq, Repr

/-- The size class of a payload length (R172). -/
def sizeClass (len : Nat) : Nat := if len ≤ 256 then 0 else if len ≤ 1024 then 1 else 2

/-- Steps 1 and 2 of R172, over the pools of the list. A pool whose allocation of the cycle is taken is busy, not empty (R176).
`again` lets a waiting request take its turn. -/
def Die.tryPools (v : Die) (now k0 : Nat) (again : Bool) : List Nat → Alloc
  | [] => .none
  | k :: t =>
    if (v.pool k).allocAt = some now then .wait k
    else
      match v.findFree now k with
      | none => Die.tryPools v now k0 again t
      | some o =>
        if !again && v.waits.any (fun w => w.pool = k && !w.held) then .wait k
        else .got (.pool k o) (k ≠ k0)

/-- The owner of the reserve a frame may use (R172): 128 is Mule. (DESIGN CHOICE, log 49) -/
def reserveOwner (h : Header) : Nat := if h.srcPort = 0x41 || h.dstPort = 0x41 then 128 else h.part.toNat

/-- Step 3 of R172. -/
def State.tryReserve (s : State) (d owner : Nat) : Alloc :=
  if (s.die d).reserve.getD owner 0 < s.reserveMin d owner then .got (.reserve owner) false else .none

/-- The buffer a frame gets (R172-R174, R176, R184). A frame of LEN 0 needs none (R151). (DESIGN CHOICE, log 34) -/
def State.henChoose (s : State) (d : Nat) (h : Header) (reserveOnly again : Bool) : Alloc :=
  let len := h.len.toNat
  if len = 0 then .got .none false
  else
    let k0 := sizeClass len
    let r := if reserveOnly then Alloc.none
      else (s.die d).tryPools s.time k0 again ([0, 1, 2].filter (fun k => k0 ≤ k && ((s.die d).pool k).mib ≠ 0))
    match r with
    | .none => s.tryReserve d (reserveOwner h)
    | r => r

/-- A chosen buffer is taken, with the counters of R172. -/
def State.henTake (s : State) (d : Nat) (b : Buffer) (fallback : Bool) : State :=
  let v := s.die d
  match b with
  | .none => s
  | .pool k o =>
    let p := v.pool k
    let s1 := s.setDie d (v.setPool k { p with used := o :: p.used, allocAt := some s.time })
    if fallback then s1.bumpDie d ikHenFallback else s1
  | .reserve w =>
    (s.setDie d { v with reserve := v.reserve.set w (v.reserve.getD w 0 + 1) }).bumpDie d ikHenReserveUse

/-- A buffer is freed: each pool completes one free per cycle, and the buffer can be allocated again from the cycle after
(R176). -/
def State.henFree (s : State) (d : Nat) (b : Buffer) : State :=
  let v := s.die d
  match b with
  | .none => s
  | .pool k o =>
    let p := v.pool k
    let at_ := if p.freed.isEmpty || p.freedAt < s.time then s.time else p.freedAt + 1
    s.setDie d (v.setPool k { p with
      used := p.used.filter (· ≠ o)
      freedAt := at_
      freed := (o, at_) :: p.freed.filter (fun e => s.time ≤ e.2) })
  | .reserve w => s.setDie d { v with reserve := v.reserve.set w (v.reserve.getD w 0 - 1) }

/-! ### Descriptors and references -/

/-- First descriptor number of a die, and descriptors per die (R170). -/
def descBase (d : Nat) : Nat := d * 245760
def descCount : Nat := 245760
/-- The die that holds a descriptor. -/
def descDie (n : Nat) : Nat := if n < 245760 then 0 else 1

/-- The charge of a frame is taken or returned (R153, R158). -/
def State.charge (s : State) (c : Charge) (units : Nat) : State :=
  match c with
  | .acct i k => let a := s.acct i k; s.setAcct i k { a with h := a.h + units }
  | .sIn p => s.modPort p (fun q => { q with sInHeld := q.sInHeld + units })
  | .own _ => s
def State.uncharge (s : State) (c : Charge) (units : Nat) : State :=
  match c with
  | .acct i k =>
    let a := s.acct i k
    let s1 := s.setAcct i k { a with h := a.h - units }
    if i < 49 && (s1.port i).riseAt.isNone then s1.modPort i (fun q => { q with riseAt := some s.time }) else s1
  | .sIn p => s.modPort p (fun q => { q with sInHeld := q.sInHeld - units })
  | .own _ => s

/-- The lowest free descriptor of a die (R170). -/
def State.nextDesc (s : State) (d : Nat) : Option Nat :=
  lowestFree (s.descs.keys.filter (fun n => descDie n = d)) (descBase d) descCount

/-- No buffer or no descriptor: the frame is discarded, and a missing descriptor shows in DESC_EMPTY (R173). -/
def State.noBuffer (s : State) (d : Nat) : State :=
  let s1 := if (s.nextDesc d).isNone then s.setDie d { s.die d with descEmpty := true } else s
  s1.bumpDie d ikNoBuffer

/-- A frame whose buffer is chosen takes a descriptor and is stored with its references (R179). -/
def State.henStore (s : State) (d : Nat) (b : Buffer) (fallback : Bool) (h : Header) (payload : List Byte) (crowd : Bool)
    (refs : Nat) (c : Charge) : Option Nat × State :=
  match s.nextDesc d with
  | none => (none, s.noBuffer d)
  | some n =>
    let units := frameUnits h.len.toNat
    let s1 := (s.henTake d b fallback).charge c units
    let f : Stored :=
      { hdr := h, payload := payload, crowd := crowd, refs := refs, buf := b, charge := c, units := units }
    (some n, { s1 with descs := s1.descs.set n f })

/-- A reference is released; the last one frees the buffer, the descriptor and the charge (R180). -/
def State.release (s : State) (n : Nat) : State :=
  match s.descs.get? n with
  | none => (s.bumpDie (descDie n) ikHenRefErr).mgmtCause 0
  | some f =>
    if f.refs ≤ 1 then
      let d := descDie n
      let s1 := (State.henFree { s with descs := s.descs.erase n } d f.buf).uncharge f.charge f.units
      s1.setDie d { s1.die d with descEmpty := false }
    else { s with descs := s.descs.set n { f with refs := f.refs - 1 } }

def State.releaseAll (s : State) (l : List Nat) : State := l.foldl (fun t n => t.release n) s

/-! ### Levels -/

/-- Bytes in use (in units of 256 B) and total of the pools k to 2 (R183). -/
def Die.fill (v : Die) (k : Nat) : Nat × Nat :=
  let ks := [0, 1, 2].filter (fun j => k ≤ j)
  ((ks.map (fun j => (v.pool j).used.length * poolStep j)).foldl (· + ·) 0,
   (ks.map (fun j => (v.pool j).mib * 4096)).foldl (· + ·) 0)

/-- F is at least t / 256: some class's fill is. -/
def Die.fillGe (v : Die) (t : Nat) : Bool :=
  [0, 1, 2].any (fun k => let f := v.fill k; f.2 ≠ 0 && t * f.2 ≤ f.1 * 256)

/-- F is at most t / 256. -/
def Die.fillLe (v : Die) (t : Nat) : Bool :=
  [0, 1, 2].all (fun k => let f := v.fill k; f.1 * 256 ≤ t * f.2)

/-- The threshold that raises to a level. -/
def Die.thr (v : Die) : Nat → Nat | 1 => v.thrA | 2 => v.thrR | _ => v.thrB

/-- A level is entered: its counter, and the management vector at BLACK (R183). -/
def State.enterLevel (s : State) (d l : Nat) : State :=
  let s1 := s.setDie d { s.die d with level := l }
  match l with
  | 1 => s1.bumpDie d ikHenAmberEnter
  | 2 => s1.bumpDie d ikHenRedEnter
  | _ => (s1.bumpDie d ikHenBlackEnter).mgmtCause 0

/-- The levels above the present one that F has reached, each entered in turn. -/
def State.levelRise (s : State) (d : Nat) : State :=
  [1, 2, 3].foldl (fun t l =>
    if (t.die d).level < l && (t.die d).fillGe ((t.die d).thr l) then t.enterLevel d l else t) s

/-- The level falls one step where F lies 8/256 or more below the threshold that raised it. -/
def State.levelFall (s : State) (d : Nat) : State :=
  let v := s.die d
  if v.level ≠ 0 && v.fillLe (v.thr v.level - 8) then s.setDie d { v with level := v.level - 1 } else s

/-- What a judgement changes acts from the next cycle on (R184). -/
def State.levelHeld (s : State) (d : Nat) : State :=
  let v := s.die d
  s.setDie d { v with levelAt := s.time, levelWas := v.levelIn s.time }

/-- The level is judged (R183): it rises to the highest threshold reached, or falls one step. -/
def State.judgeLevel (s : State) (d : Nat) : State :=
  let s0 := s.levelHeld d
  let s1 := s0.levelRise d
  if (s1.die d).level = (s.die d).level then s1.levelFall d else s1

/-- The judgement after HEN_THR has changed: every fall that the new thresholds call for (R183). -/
def State.rejudgeLevel (s : State) (d : Nat) : State :=
  let s1 := (s.levelHeld d).levelRise d
  if (s1.die d).level = (s.die d).level then ((s1.levelFall d).levelFall d).levelFall d else s1

/-! ### Depot pools -/

/-- Depot pool 3 or 4. -/
def Depot.pool (m : Depot) (k : Nat) : DepotPool := if k = 3 then m.p3 else m.p4
def Depot.setPool (m : Depot) (k : Nat) (p : DepotPool) : Depot := if k = 3 then { m with p3 := p } else { m with p4 := p }
/-- Buffers of a depot pool (Table 6.1). -/
def depotCount (k mib : Nat) : Nat := if k = 3 then mib * 16 else mib

end Sys2Proof.Machine
end

