-- ==== Sys2Proof/Machine/Depot.lean ====
section
/-! DEFINITION. The depot: its bytes, its map and regions, its error code, and how accesses break into pieces
(chapter 12). -/

namespace Sys2Proof.Machine

/-! ### Bytes: what is not listed reads as 0 (R313) -/

/-- (DEDUCED, log 142) -/
def memGet : List Host.Cell → Nat → Byte
  | [], _ => 0
  | (a, b) :: t, k => if k = a then b else if k < a then 0 else memGet t k

def memSet : List Host.Cell → Nat → Byte → List Host.Cell
  | [], k, v => if v = 0 then [] else [(k, v)]
  | (a, b) :: t, k, v =>
    if k < a then (if v = 0 then (a, b) :: t else (k, v) :: (a, b) :: t)
    else if k = a then (if v = 0 then t else (k, v) :: t)
    else (a, b) :: memSet t k v

def memWrite (m : List Host.Cell) : Nat → List Byte → List Host.Cell
  | _, [] => m
  | k, b :: t => memWrite (memSet m k b) (k + 1) t

def memRead (m : List Host.Cell) (k n : Nat) : List Byte := (List.range n).map (fun i => memGet m (k + i))

/-- The bytes of a range become 0. -/
def memZero (m : List Host.Cell) (k n : Nat) : List Host.Cell := m.filter (fun c => !(k ≤ c.1 && c.1 < k + n))

/-- The canonical form: addresses rise from `lo` on, and no byte listed is 0. -/
def memOk : (lo : Nat) → List Host.Cell → Bool
  | _, [] => true
  | lo, (a, b) :: t => lo ≤ a && b != 0 && memOk (a + 1) t

/-- The depot's memory is in canonical form. (DEDUCED, log 142) -/
def Memory.wf (m : List Host.Cell) : Bool := memOk 0 m

/-! ### The map (Table 12.1) -/

def depotSize : Nat := 2 ^ 35
def muleBase : Nat := 0x20000000
def planBase : Nat := 0x30000000
/-- Partition p's buffer b of the plan-image region. -/
def planAddr (p b : Nat) : Nat := planBase + (2 * p + b) * 0x80000
def logBase : Nat := 0x38000000
def carveBase : Nat := 0x40000000
def granuleSize : Nat := 0x4000000
def granuleAddr (g : Nat) : Nat := carveBase + g * granuleSize

/-- The stack that holds a byte (R310). -/
def stackOf (a : Nat) : Nat := a / 256 % 4

/-! ### The error code (R311, R312) -/

/-- An ECC unit of a list lies in a range of bytes. -/
def unitIn (a n u : Nat) : Bool := n ≠ 0 && a / 32 ≤ u && u ≤ (a + (n - 1)) / 32

/-- Correctable errors of a range are corrected, written back and counted. -/
def State.eccCorrect (s : State) (a n : Nat) : State :=
  let hit := s.depot.soft.filter (unitIn a n)
  ({ s with depot := { s.depot with soft := s.depot.soft.filter (fun u => !unitIn a n u) } }).count
    (devCtr dkDepotEccCorr) hit.length

/-- A read: whether every unit could be read, the bytes, and the counts. -/
def State.depotRead (s : State) (a n : Nat) : Bool × List Byte × State :=
  let s1 := s.eccCorrect a n
  let hit := s.depot.bad.filter (unitIn a n)
  (hit.isEmpty, memRead s.depot.mem a n, s1.count (devCtr dkDepotEccUncorr) hit.length)

/-- A unit is covered whole by a range. -/
def unitWhole (a n u : Nat) : Bool := a ≤ u * 32 && u * 32 + 32 ≤ a + n

/-- One piece of a store (R312): it reads the units that it covers in part, and writes nothing where one of them cannot be read;
a unit covered whole gets a fresh code and is not read. -/
def State.depotPiece (s : State) (a : Nat) (bytes : List Byte) : Bool × State :=
  let n := bytes.length
  let s1 := ({ s with depot := { s.depot with soft := s.depot.soft.filter (fun u => !unitIn a n u) } }).count
    (devCtr dkDepotEccCorr) (s.depot.soft.filter (fun u => unitIn a n u && !unitWhole a n u)).length
  let partly := s.depot.bad.filter (fun u => unitIn a n u && !unitWhole a n u)
  if partly.isEmpty then
    (true, { s1 with depot := { s1.depot with
      mem := memWrite s1.depot.mem a bytes
      bad := s1.depot.bad.filter (fun u => !unitWhole a n u) } })
  else (false, s1.count (devCtr dkDepotEccUncorr) partly.length)

/-- Bytes from address `a` on, cut at every multiple of `k` (R325, R326); `n` bounds the number of pieces. -/
def cutPieces (k : Nat) : (n : Nat) → (a : Nat) → List Byte → List (Nat × List Byte)
  | 0, _, _ => []
  | _, _, [] => []
  | n + 1, a, b =>
    let w := k - a % k
    (a, b.take w) :: cutPieces k n (a + w) (b.drop w)

/-- A store in pieces cut at multiples of `k`, in ascending address order, with the number of pieces that were not written. -/
def State.depotStore (s : State) (k a : Nat) (bytes : List Byte) : Nat × State :=
  (cutPieces k bytes.length a bytes).foldl (fun r p =>
    let w := r.2.depotPiece p.1 p.2
    (if w.1 then r.1 else r.1 + 1, w.2)) (0, s)

/-- A stream store (R326): whether every piece was written. -/
def State.depotStream (s : State) (a : Nat) (bytes : List Byte) : Bool × State :=
  let r := s.depotStore 64 a bytes
  (r.1 = 0, r.2)

/-! ### Carve-outs and segments (R268, R333, R337) -/

/-- The granules of a partition that are usable: those in both the old and the new carve-out while a change is
pending. (DEDUCED, log 87) -/
def State.granuleUsable (s : State) (p g : Nat) : Bool :=
  let c := (s.part p).carve
  let inC (c : Nat × Nat) : Bool := c.1 ≤ g && g < c.1 + c.2
  inC c &&
  (match s.drainFor 0 (fun r => match r with | .setCarve q _ _ => q = p | _ => false) with
   | some ⟨_, .setCarve _ f n, _, _, _⟩ => inC (f, n)
   | _ => true)

/-- The depot address of `n` bytes from offset `off` of a segment, where all of them lie within it (R268). -/
def State.segAddr (s : State) (p ctx seg off n : Nat) : Option Nat :=
  match s.ctx? ctx with
  | none => none
  | some c =>
    let g := c.segs.getD seg (0, 0)
    let lo := g.1 * 4096 + off
    let f := (s.part p).carve.1
    let last := lo + (n - 1)
    if c.part = p && off + n ≤ g.2 * 4096 &&
        (n = 0 || (s.granuleUsable p (f + lo / granuleSize) && s.granuleUsable p (f + last / granuleSize))) then
      some (granuleAddr f + lo)
    else none

/-- The context is granted to a service on a segment, with write access where that is asked (R388, R407). -/
def State.granted (s : State) (ctx seg service : Nat) (write : Bool) : Bool :=
  match s.ctx? ctx with
  | some c => c.grants.any (fun g => g.1 = seg && g.2.1 = service && (g.2.2 || !write))
  | none => false

/-! ### The depot pools of Hen (R170, R175, R177, R178, R188) -/

/-- Buffer size of a depot pool (Table 6.1). -/
def depotStep (k : Nat) : Nat := if k = 3 then 65536 else 2 ^ 20
/-- First address of a depot pool (R170: P3 from the base, then P4). -/
def Depot.poolBase (m : Depot) (k : Nat) : Nat := if k = 3 then 0 else m.p3.mib * 2 ^ 20
/-- Depot address of buffer `i` of pool `k`. -/
def Depot.bufAddr (m : Depot) (k i : Nat) : Nat := m.poolBase k + i * depotStep k

/-- The link that ends a list (R177). -/
def linkEnd : Word := BitVec.allOnes 64

/-- The buffer that an address names: it lies in the pool and is aligned to the buffer size (R178). -/
def Depot.bufIndex (m : Depot) (k a : Nat) : Option Nat :=
  let o := a - m.poolBase k
  if m.poolBase k ≤ a && o % depotStep k = 0 && o / depotStep k < depotCount k (m.pool k).mib then some (o / depotStep k) else none

/-- The link in free buffer `i`. -/
def Depot.link (m : Depot) (k i : Nat) : Word :=
  match (m.pool k).links.get? i with
  | some w => w
  | none => if i + 1 < depotCount k (m.pool k).mib then BitVec.ofNat 64 (m.bufAddr k (i + 1)) else linkEnd

/-- The link of buffer `i` where it is good: it can be read, and it ends the list or names a free buffer of the pool (R178). -/
def Depot.goodLink (m : Depot) (k i : Nat) : Option Word :=
  let w := m.link k i
  if m.bad.contains (m.bufAddr k i / 32) then none
  else if w = linkEnd then some w
  else
    match m.bufIndex k w.toNat with
    | some j => if ((m.pool k).used.get? j).isNone then some w else none
    | none => none

/-- What an allocation finds at the head of a list: a bad link in a buffer, nothing, or a buffer with the one before it in
the list and its link. -/
inductive Pick where
  | bad (i : Nat) | empty | got (prev : Option Nat) (i : Nat) (next : Word)
  deriving DecidableEq, Repr

/-- The first buffer of a list, from the address `w` on, that is not skipped; `n` bounds the list. -/
def Depot.pick (m : Depot) (k : Nat) (skip : Nat → Bool) : (n : Nat) → (prev : Option Nat) → (w : Word) → Pick
  | 0, _, _ => .empty
  | n + 1, prev, w =>
    match m.bufIndex k w.toNat with
    | none => .empty
    | some i =>
      match m.goodLink k i with
      | none => .bad i
      | some x => if skip i then Depot.pick m k skip n (some i) x else .got prev i x

/-- Buffer `i` of pool `k` changes pool under the pending SET_POOLS (R188). -/
def State.depotMoving (s : State) (k i : Nat) : Bool :=
  match s.drainFor 3 (fun r => match r with | .setPools (.depot _) => true | _ => false) with
  | some ⟨_, .setPools (.depot n), _, _, _⟩ =>
    if k = 3 then n * 16 ≤ i else s.depot.p3.mib + i < n
  | _ => false

/-- An agent asks for a buffer of depot pool `k` with its tag (R175, R177, R178, R188): the head of the list, or the first
buffer that does not lie in a moving range. (DESIGN CHOICE, log 34) -/
def State.depotTake (s : State) (k tag : Nat) : Option Nat × State :=
  let p := s.depot.pool k
  let r := if p.bad then Pick.empty else s.depot.pick k (s.depotMoving k) (depotCount k p.mib) none p.head
  match r with
  | .empty => (none, s.bumpDev dkHenDepotEmpty)
  | .bad i =>
    let s1 := (s.depotRead (s.depot.bufAddr k i) 8).2.2
    (none, (({ s1 with depot := s1.depot.setPool k { p with bad := true } }).mgmtCause 0).bumpDev dkHenDepotEmpty)
  | .got prev i x =>
    let s1 := (s.depotRead (s.depot.bufAddr k i) 8).2.2
    let links := p.links.erase i
    let p1 := match prev with
      | none => { p with head := x, links := links, used := p.used.set i tag }
      | some j => { p with links := links.set j x, used := p.used.set i tag }
    (some i, { s1 with depot := s1.depot.setPool k p1 })

/-- A depot buffer is freed: the head register goes into its link, and it becomes the head of the list (R177). -/
def State.depotFree (s : State) (k i : Nat) : State :=
  let p := s.depot.pool k
  { s with depot := s.depot.setPool k { p with
      head := BitVec.ofNat 64 (s.depot.bufAddr k i), links := p.links.set i p.head, used := p.used.erase i } }

/-- The links of an ascending list of free buffers. -/
def Depot.linksOf (m : Depot) (k : Nat) : List Nat → Tbl Word
  | [] => []
  | [i] => if i + 1 = depotCount k (m.pool k).mib then [] else [(i, linkEnd)]
  | i :: j :: t =>
    let rest := Depot.linksOf m k (j :: t)
    if j = i + 1 then rest else (i, BitVec.ofNat 64 (m.bufAddr k j)) :: rest

/-- The list is rebuilt from the in-use bits in ascending address order (R178, R188). -/
def Depot.rebuild (m : Depot) (k : Nat) : Depot :=
  let p := m.pool k
  let free := (List.range (depotCount k p.mib)).filter (fun i => (p.used.get? i).isNone)
  let head := match free with
    | [] => linkEnd
    | i :: _ => BitVec.ofNat 64 (m.bufAddr k i)
  m.setPool k { p with head := head, links := m.linksOf k free, bad := false }

end Sys2Proof.Machine
end

