-- ==== Sys2Proof/Machine/Tally.lean ====
section
/-! DEFINITION. Tally arithmetic (chapter 2): conversion in, accumulation, rounding out, keyed stochastic
rounding, chunk flags and the tally block. -/

namespace Sys2Proof.Machine

/-! ### Forms and formats -/

/-- Width of a lane in bits (Table 2.1). -/
def Form.width : Form → Nat | .t32 => 320 | .t16 => 64 | .i64 => 64
/-- Bits of one contribution's magnitude (Table 2.1, R70). -/
def Form.valueBits : Form → Nat | .t32 => 277 | .t16 => 40 | .i64 => 64
/-- Count limit (Table 2.1). -/
def Form.limit : Form → Nat | .t32 => 2 ^ 42 | .t16 => 2 ^ 23 | .i64 => 2 ^ 31
/-- Lanes in one ledger row (R226). -/
def Form.rowLanes : Form → Nat | .t32 => 32 | .t16 => 160 | .i64 => 160
/-- Lanes in one tally block (Table 2.7). -/
def Form.blockLanes : Form → Nat | .t32 => 96 | .t16 => 448 | .i64 => 448
/-- FORM codes (Tables 2.7, 10.13). -/
def Form.code : Form → Nat | .t32 => 1 | .t16 => 2 | .i64 => 3
def formOf : Nat → Option Form | 1 => some .t32 | 2 => some .t16 | 3 => some .i64 | _ => none

/-- Operation codes (Table 8.3). -/
def operOf : Nat → Option Oper
  | 0 => some .sum | 1 => some .avg | 2 => some .max | 3 => some .min
  | 4 => some .amax | 5 => some .and | 6 => some .or | 7 => some .xor | _ => none
def Oper.bitwise : Oper → Bool | .and => true | .or => true | .xor => true | _ => false
def Oper.adds : Oper → Bool | .sum => true | .avg => true | _ => false

/-- Bytes of one element of a format code (Table 8.2). -/
def fmtSize : Nat → Nat
  | 0 => 4 | 1 => 2 | 2 => 2 | 3 => 1 | 4 => 1 | 8 => 1 | 9 => 2 | 10 => 4 | 11 => 8
  | 12 => 1 | 13 => 2 | 14 => 4 | 15 => 8 | _ => 1
def fmtFloat (f : Nat) : Bool := f ≤ 4
def fmtSigned (f : Nat) : Bool := 8 ≤ f && f ≤ 11
def fmtInt (f : Nat) : Bool := 8 ≤ f && f ≤ 15
/-- The format codes of Table 8.2. -/
def fmtDefined (f : Nat) : Bool := fmtFloat f || fmtInt f || f = 16 || f = 17

/-! ### Conversion in -/

/-- Exponent bits and fraction bits of a float format, and whether it has infinities (R45). -/
def floatBits : Nat → Nat × Nat × Bool
  | 0 => (8, 23, true) | 1 => (8, 7, true) | 2 => (5, 10, true) | 3 => (5, 2, true) | _ => (4, 3, false)

/-- The value of a float source in units of 2^-149, with its special bits (R48, R49, Table 2.2). (DEDUCED, log 19) -/
def floatIn (fmt bits : Nat) : LaneVal :=
  let (eb, fb, hasInf) := floatBits fmt
  let f := bits % 2 ^ fb
  let e := bits / 2 ^ fb % 2 ^ eb
  let neg := bits.testBit (eb + fb)
  -- the weight of the last fraction bit of a subnormal, above 2^-149
  let sh := 150 - (2 ^ (eb - 1) - 1) - fb
  let mag := if e = 0 then f * 2 ^ sh else (2 ^ fb + f) * 2 ^ (sh + (e - 1))
  let v : Int := if neg then -(mag : Int) else (mag : Int)
  if hasInf && e = 2 ^ eb - 1 then
    if f = 0 then { v := 0, pinf := !neg, ninf := neg } else { v := 0, nan := true }
  else if !hasInf && e = 2 ^ eb - 1 && f = 2 ^ fb - 1 then { v := 0, nan := true }
  else { v := v }

/-- The binary32 tile word of a float source (R222): the same value, sign and NaN payload. -/
def toBinary32 (fmt bits : Nat) : Nat :=
  let (eb, fb, hasInf) := floatBits fmt
  let f := bits % 2 ^ fb
  let e := bits / 2 ^ fb % 2 ^ eb
  let sign := if bits.testBit (eb + fb) then 2 ^ 31 else 0
  let bias := 2 ^ (eb - 1) - 1
  let nanE4 := !hasInf && e = 2 ^ eb - 1 && f = 2 ^ fb - 1
  if (hasInf && e = 2 ^ eb - 1) || nanE4 then sign + 255 * 2 ^ 23 + f * 2 ^ (23 - fb)
  else if e ≠ 0 then sign + (e + 127 - bias) * 2 ^ 23 + f * 2 ^ (23 - fb)
  else if f = 0 then sign
  else if fb = 23 || fmt = 1 then sign + f * 2 ^ (23 - fb)
  else
    -- a subnormal of a narrow format is normal in binary32
    let k := f.log2
    sign + (127 - bias + 1 + k - fb) * 2 ^ 23 + (f - 2 ^ k) * 2 ^ (23 - k)

/-- A value in units of 2^-149 in the units of a form (R48). (DEDUCED, log 19) -/
def toForm (fm : Form) (l : LaneVal) : LaneVal :=
  match fm with
  | .t16 => { l with v := l.v / ((2 ^ 125 : Nat) : Int) }
  | _ => l

/-! ### Accumulation -/

/-- A value as the lane's two's-complement register reads it: I64 lanes are unsigned when the window is. -/
def wrapLane (fm : Form) (sgn : Bool) (v : Int) : Int :=
  let u := unsigned fm.width v
  if fm = .i64 && !sgn then (u : Int) else signed fm.width u

/-- Lanes of an AMAX window hold magnitudes, which an I64 lane reads unsigned (Table 2.10). -/
def laneSigned (fm : Form) (op : Oper) (sgn : Bool) : Bool := !(fm = .i64) || (sgn && !(op = .amax))

/-- The most negative and most positive values of a form (R54), as a lane reads them. (DEDUCED, log 150) -/
def laneMin (fm : Form) (sgn : Bool) : Int := wrapLane fm sgn (-((2 ^ (fm.width - 1) : Nat) : Int))
/-- (DEDUCED, log 150) -/
def laneMax (fm : Form) (sgn : Bool) : Int := wrapLane fm sgn (((2 ^ (fm.width - 1) : Nat) : Int) - 1)

/-- The empty state of a lane (R54, R55, R227). (DEDUCED, log 150) -/
def emptyVal (fm : Form) (op : Oper) (sgn : Bool) : Int :=
  match op with
  | .max => laneMin fm sgn
  | .min => laneMax fm sgn
  | .and => wrapLane fm sgn (-1)
  | _ => 0

/-- The first 64 bits of a lane, for the bitwise operations. -/
def laneBits (v : Int) : Nat := unsigned 64 v

/-- One contribution meets a lane (R51, R53-R55). `finite` says that the contribution carries a finite value, which
an infinity or NaN element does not (R49, R54). -/
def combineLane (fm : Form) (op : Oper) (sgn : Bool) (l c : LaneVal) (finite : Bool) : LaneVal :=
  let sp : LaneVal :=
    if op = .amax then { l with pinf := l.pinf || c.pinf || c.ninf, nan := l.nan || c.nan }
    else { l with pinf := l.pinf || c.pinf, ninf := l.ninf || c.ninf, nan := l.nan || c.nan }
  let w := wrapLane fm (laneSigned fm op sgn)
  let none_ : Bool := l.v = emptyVal fm op sgn
  match op with
  | .sum => { sp with v := w (l.v + c.v) }
  | .avg => { sp with v := w (l.v + c.v) }
  | .max => if finite && (none_ || l.v < c.v) then { sp with v := c.v } else sp
  | .min => if finite && (none_ || c.v < l.v) then { sp with v := c.v } else sp
  | .amax => if finite && l.v < (c.v.natAbs : Int) then { sp with v := w (c.v.natAbs : Int) } else sp
  | .and => { sp with v := w ((laneBits l.v &&& laneBits c.v : Nat) : Int) }
  | .or => { sp with v := w ((laneBits l.v ||| laneBits c.v : Nat) : Int) }
  | .xor => { sp with v := w ((laneBits l.v ^^^ laneBits c.v : Nat) : Int) }

/-- Counts are added; past the limit, or with OVERCOUNT, the group is OVERCOUNT (R51, R52). -/
def addCnt (fm : Form) : Cnt → Cnt → Cnt
  | .count a, .count b => if a + b ≤ fm.limit then .count (a + b) else .overcount
  | _, _ => .overcount

def Window.nlanes (w : Window) : Nat := w.rows * w.form.rowLanes
def Window.emptyLane (w : Window) : LaneVal := { v := emptyVal w.form w.oper w.sgn }
def Window.lane (w : Window) (n : Nat) : LaneVal := w.lanes.getD n w.emptyLane
def Window.cnt (w : Window) (g : Nat) : Cnt := w.cnts.getD g (.count 0)

/-- A contribution reaches lane `n`. -/
def Window.put (w : Window) (n : Nat) (c : LaneVal) (finite : Bool) : Window :=
  { w with lanes := w.lanes.set n (combineLane w.form w.oper w.sgn (w.lane n) c finite) }

/-- Group `g` takes a count. -/
def Window.addCnt (w : Window) (g : Nat) (c : Cnt) : Window :=
  { w with cnts := w.cnts.set g (Sys2Proof.Machine.addCnt w.form (w.cnt g) c) }

/-! ### Rounding out -/

def fINEXACT : Nat := 1
def fOVERFLOW : Nat := 2
def fUNDERFLOW : Nat := 4
def fINVALID : Nat := 8
def fEMPTY : Nat := 16
def fSAT : Nat := 32
def fDZ : Nat := 64
def fHOLE : Nat := 128

/-- The parameters of an output float format (Table 2.3): p, emin, emax, the significand of the largest finite value,
its width, and the codes of +Inf (E4M3 has none) and of the canonical NaN. -/
structure OutFmt where
  p : Nat
  emin : Int
  emax : Int
  maxSig : Nat
  width : Nat
  inf : Option Nat
  nan : Nat
  deriving DecidableEq, Repr

def outFmt : Nat → OutFmt
  | 0 => ⟨24, -126, 127, 2 ^ 24 - 1, 32, some 0x7F800000, 0x7FC00000⟩
  | 1 => ⟨8, -126, 127, 2 ^ 8 - 1, 16, some 0x7F80, 0x7FC0⟩
  | 2 => ⟨11, -14, 15, 2 ^ 11 - 1, 16, some 0x7C00, 0x7E00⟩
  | 3 => ⟨3, -14, 15, 2 ^ 3 - 1, 8, some 0x7C, 0x7E⟩
  | _ => ⟨4, -6, 8, 14, 8, none, 0x7F⟩

/-- The code of the largest finite value. -/
def OutFmt.maxCode (o : OutFmt) : Nat := (o.emax - o.emin).toNat * 2 ^ (o.p - 1) + o.maxSig

/-- A code with a sign bit. -/
def OutFmt.signedCode (o : OutFmt) (neg : Bool) (c : Nat) : Nat := if neg then 2 ^ (o.width - 1) + c else c

/-- The rounding modes (Table 2.4). -/
inductive RMode where
  | rne | rtz | rup | rdn | srk
  deriving DecidableEq, Repr
def rmodeOf : Nat → RMode | 0 => .rne | 1 => .rtz | 2 => .rup | 3 => .rdn | _ => .srk

/-- m1 for m = num / den (R58). -/
def roundUpMag (rm : RMode) (neg : Bool) (draw : Nat) (num den : Nat) : Nat :=
  let m0 := num / den
  let r := num % den
  let up : Bool := match rm with
    | .rne => den < 2 * r || (2 * r = den && m0 % 2 = 1)
    | .rtz => false
    | .rup => 0 < r && !neg
    | .rdn => 0 < r && neg
    | .srk => 2 ^ 32 ≤ r * 2 ^ 32 / den + draw
  if up then m0 + 1 else m0

/-- ⌊log₂ (n / d)⌋ for positive n and d. -/
def ratLog2 (n d : Nat) : Int :=
  let k : Int := (n.log2 : Int) - (d.log2 : Int)
  let below : Bool := if 0 ≤ k then n < d * 2 ^ k.toNat else n * 2 ^ (-k).toNat < d
  if below then k - 1 else k

/-- The overflow result (R59): code and flags. -/
def overflowOut (o : OutFmt) (rm : RMode) (clamp neg : Bool) : Nat × Nat :=
  if clamp then (o.signedCode neg o.maxCode, fSAT ||| fINEXACT)
  else
    let toInf : Bool := match rm with
      | .rne => true | .srk => true | .rtz => false | .rup => !neg | .rdn => neg
    let c := if toInf then
        (match o.inf with
         | some i => o.signedCode neg i
         | none => o.nan)
      else o.signedCode neg o.maxCode
    (c, fOVERFLOW ||| fINEXACT)

/-- An infinity reaches the output (R62 step 2). -/
def infOut (o : OutFmt) (clamp neg : Bool) : Nat × Nat :=
  match o.inf with
  | some i => (o.signedCode neg i, 0)
  | none => if clamp then (o.signedCode neg o.maxCode, fSAT) else (o.nan, fINVALID)

/-- A finite exact result n / d x 2^u, rounded once (R58-R61). -/
def finiteOut (o : OutFmt) (rm : RMode) (clamp : Bool) (draw : Nat) (n : Int) (d : Nat) (u : Int) : Nat × Nat :=
  if n = 0 then (o.signedCode (rm = .rdn) 0, 0)
  else
    let neg : Bool := n < 0
    let a := n.natAbs
    let lg := ratLog2 a d + u
    let e := max lg o.emin
    let sh : Int := u - e + (o.p : Int) - 1
    let num := if 0 ≤ sh then a * 2 ^ sh.toNat else a
    let den := if 0 ≤ sh then d else d * 2 ^ (-sh).toNat
    let m1 := roundUpMag rm neg draw num den
    let inexact : Bool := num % den ≠ 0
    let rel := (e - o.emin).toNat
    if o.maxSig * 2 ^ (o.emax - o.emin).toNat < m1 * 2 ^ rel then overflowOut o rm clamp neg
    else
      (o.signedCode neg (rel * 2 ^ (o.p - 1) + m1),
        if inexact then fINEXACT ||| (if lg < o.emin then fUNDERFLOW else 0) else 0)

/-- The identity of Table 2.5. -/
def identityOut (fmt : Nat) (op : Oper) : Nat :=
  if fmtFloat fmt then
    let o := outFmt fmt
    let big := o.inf.getD o.maxCode
    match op with
    | .max => o.signedCode true big
    | .min => big
    | _ => 0
  else
    let w := 8 * fmtSize fmt
    match op with
    | .max => if fmtSigned fmt then 2 ^ (w - 1) else 0
    | .min => if fmtSigned fmt then 2 ^ (w - 1) - 1 else 2 ^ w - 1
    | .and => 2 ^ w - 1
    | _ => 0

/-- An integer result n / d (R63). -/
def intOut (fmt : Nat) (rm : RMode) (clamp : Bool) (draw : Nat) (n : Int) (d : Nat) : Nat × Nat :=
  let w := 8 * fmtSize fmt
  let neg : Bool := n < 0
  let m1 := roundUpMag rm neg draw n.natAbs d
  let v : Int := if neg then -(m1 : Int) else (m1 : Int)
  let ix := if n.natAbs % d ≠ 0 then fINEXACT else 0
  let lo : Int := if fmtSigned fmt then -((2 ^ (w - 1) : Nat) : Int) else 0
  let hi : Int := if fmtSigned fmt then ((2 ^ (w - 1) : Nat) : Int) - 1 else ((2 ^ w : Nat) : Int) - 1
  if lo ≤ v && v ≤ hi then (unsigned w v, ix)
  else if clamp then (unsigned w (if v < lo then lo else hi), ix ||| fSAT)
  else (unsigned w v, ix ||| fOVERFLOW)

/-- The keyed draw (R65). -/
def srkDraw (key : Word) (chunk elem : BitVec 32) : Nat :=
  let ce : Word := (chunk.zeroExtend 64 <<< 32) ||| elem.zeroExtend 64
  let z0 : Word := key + ce * 0x9E3779B97F4A7C15
  let z1 : Word := (z0 ^^^ (z0 >>> 30)) * 0xBF58476D1CE4E5B9
  let z2 : Word := (z1 ^^^ (z1 >>> 27)) * 0x94D049BB133111EB
  let z3 : Word := z2 ^^^ (z2 >>> 31)
  (z3 >>> 32).toNat

/-- The weight of a form's unit, as a power of two. -/
def Form.unit : Form → Int | .t32 => -149 | .t16 => -24 | .i64 => 0

/-- One lane emitted to an element format: code and flags (R53, R58-R64). (DESIGN CHOICE, log 149) -/
def emitLane (w : Window) (fmt : Nat) (rm : RMode) (clamp : Bool) (draw : Nat) (cnt : Cnt) (l : LaneVal) : Nat × Nat :=
  let fl := fmtFloat fmt
  let o := outFmt fmt
  match cnt with
  | .overcount => (if fl then o.nan else 0, fINVALID)
  | .count 0 => (identityOut fmt w.oper, fEMPTY ||| (if w.oper = .avg then fDZ else 0))
  | .count n =>
    let d := if w.oper = .avg then n else 1
    let ext := w.oper = .max || w.oper = .min
    let finite := !(ext && l.v = emptyVal w.form w.oper w.sgn)
    let val : Nat × Nat :=
      if fl = decide (w.form = .i64) then
        let x := Config.otherEmit fmt w.form.code l.v
        (x.1 % 2 ^ (8 * fmtSize fmt), x.2 % 128)
      else if fl then finiteOut o rm clamp draw l.v d w.form.unit
      else intOut fmt rm clamp draw l.v d
    let ident := (identityOut fmt w.oper, fEMPTY)
    if !fl then (if finite then val else ident)
    else
      match w.oper with
      | .max =>
        if l.nan then (o.nan, 0) else if l.pinf then infOut o clamp false else if finite then val
        else if l.ninf then infOut o clamp true else ident
      | .min =>
        if l.nan then (o.nan, 0) else if l.ninf then infOut o clamp true else if finite then val
        else if l.pinf then infOut o clamp false else ident
      | .amax =>
        if l.nan then (o.nan, 0) else if l.pinf || l.ninf then infOut o clamp false else val
      | _ =>
        if l.nan then (o.nan, 0)
        else if l.pinf && l.ninf then (o.nan, fINVALID)
        else if l.pinf then infOut o clamp false
        else if l.ninf then infOut o clamp true
        else val

/-- The chunk flags that a tally block carries (R68, R69). -/
def wireFlags (f : Nat) : Nat := f &&& (fINVALID ||| fHOLE)

/-! ### Element emission of a run of lanes -/

/-- Lanes `lane` to `lane + n - 1` in element format: the bytes and the flags (R231, R284). -/
def emitElems (w : Window) (fmt : Nat) (rm : RMode) (clamp : Bool) (key : Word) (chunk e0 : BitVec 32) (lane n : Nat) :
    List Byte × Nat :=
  let sz := fmtSize fmt
  let r := (List.range n).map fun m =>
    emitLane w fmt rm clamp (srkDraw key chunk (e0 + BitVec.ofNat 32 m)) (w.cnt ((lane + m) / 32)) (w.lane (lane + m))
  (r.flatMap (fun x => leBytes sz x.1), r.foldl (fun a x => a ||| x.2) 0)

/-! ### The tally block -/

/-- A tally block, read (Table 2.7). -/
structure Block where
  form  : Form
  lanes : Nat
  first : Nat
  flags : Nat
  cnts  : List Nat
  vals  : List LaneVal
  deriving DecidableEq, Repr

def overCode : Nat := 2 ^ 64 - 1

/-- The count an entry encodes. -/
def cntOf (n : Nat) : Cnt := if n = overCode then .overcount else .count n
def Cnt.enc : Cnt → Nat | .overcount => overCode | .count n => n

/-- Offsets of the three bitmaps and their size, offset and size of the lane values (Table 2.7). -/
def Form.layout : Form → Nat × Nat × Nat × Nat × Nat × Nat
  | .t32 => (40, 52, 64, 12, 128, 40)
  | _ => (128, 184, 240, 56, 296, 8)

/-- The bytes cut into pieces of `k`. -/
def pieces (k : Nat) : (n : Nat) → List Byte → List (List Byte)
  | 0, _ => []
  | n + 1, b => bytesAt b 0 k :: pieces k n (b.drop k)

/-- The block that 4,096 bytes spell; none for an unknown FORM. -/
def readBlock (b : List Byte) : Option Block :=
  match formOf (natAt b 0 1) with
  | none => none
  | some fm =>
    let (po, no, ao, ms, vo, vs) := fm.layout
    let pm := natAt b po ms
    let nm := natAt b no ms
    let am := natAt b ao ms
    let vals := (pieces vs fm.blockLanes (b.drop vo)).zipIdx.map fun (x, j) =>
      let u := leNat x
      ({ v := if fm = .i64 then (u : Int) else signed fm.width u, pinf := pm.testBit j, ninf := nm.testBit j,
         nan := am.testBit j } : LaneVal)
    some { form := fm, lanes := natAt b 2 2, first := natAt b 4 4, flags := natAt b 8 4,
           cnts := (pieces 8 (fm.blockLanes / 32) (b.drop 16)).map leNat, vals := vals }

/-- The conditions of R70 other than LEN and the receiving ledger's form: every count entry and every lane of the block is
tested, those beyond LANES as well. -/
def Block.ok (b : Block) : Bool :=
  let lv := b.vals.zipIdx
  1 ≤ b.lanes && b.lanes ≤ b.form.blockLanes && b.first % 32 = 0 &&
  b.cnts.all (fun c => c = overCode || c ≤ b.form.limit) &&
  lv.all (fun (l, j) =>
    let c := b.cnts.getD (j / 32) 0
    let special := l.pinf || l.ninf || l.nan
    if c = 0 then l.v = 0 && !special
    else b.form = .i64 || c = overCode || l.v = laneMin b.form true || l.v = laneMax b.form true ||
      l.v.natAbs < c * 2 ^ b.form.valueBits) &&
  (!(b.form = .i64) || b.vals.all (fun l => !(l.pinf || l.ninf || l.nan)))

/-- A T16 lane in a T32 window (R71). -/
def widenLane (l : LaneVal) : LaneVal :=
  if l.v = laneMin .t16 true then { l with v := laneMin .t32 true }
  else if l.v = laneMax .t16 true then { l with v := laneMax .t32 true }
  else { l with v := l.v * ((2 ^ 125 : Nat) : Int) }

/-- The forms a window takes from a block (Table 8.4). -/
def formAccepts (win blk : Form) : Bool := win = blk || (win = .t32 && blk = .t16)

/-- A block's lanes and counts reach a window from lane `at_` on (R51, R230, R519). -/
def Window.addBlock (w : Window) (at_ : Nat) (b : Block) : Window :=
  let conv (l : LaneVal) : LaneVal :=
    if w.form = .t32 && b.form = .t16 then widenLane l
    else if b.form = .i64 then { l with v := wrapLane .i64 w.sgn l.v } else l
  -- a sentinel that arrives marks a lane with no finite value (R54)
  let finite (l : LaneVal) : Bool := !((w.oper = .max || w.oper = .min) && l.v = emptyVal w.form w.oper w.sgn)
  let w1 := (List.range (ceilDiv b.lanes 32)).foldl (fun a g => a.addCnt (at_ / 32 + g) (cntOf (b.cnts.getD g 0))) w
  (b.vals.take b.lanes).zipIdx.foldl
    (fun a (l, j) => if b.cnts.getD (j / 32) 0 = 0 then a else a.put (at_ + j) (conv l) (finite (conv l))) w1

/-- The block of lanes `lane` to `lane + n - 1` of a window, whose first element index is `first` (R69). -/
def writeBlock (w : Window) (lane n first flags : Nat) : List Byte :=
  let (_, _, _, ms, vo, vs) := w.form.layout
  let groups := w.form.blockLanes / 32
  let ls := (List.range n).map fun j => if w.cnt ((lane + j) / 32) = .count 0 then { v := 0 } else w.lane (lane + j)
  let mask (f : LaneVal → Bool) : Nat :=
    if w.form = .i64 then 0 else listMask ((ls.zipIdx.filter (fun x => f x.1)).map Prod.snd)
  let cnts := (List.range groups).map fun g => if g * 32 < n then (w.cnt (lane / 32 + g)).enc else 0
  let head := leBytes 1 w.form.code ++ leBytes 1 0 ++ leBytes 2 n ++ leBytes 4 first ++ leBytes 4 (wireFlags flags) ++
    leBytes 4 0 ++ cnts.flatMap (leBytes 8) ++ leBytes ms (mask LaneVal.pinf) ++ leBytes ms (mask LaneVal.ninf) ++
    leBytes ms (mask LaneVal.nan)
  padTo 4096 (padTo vo head ++ ls.flatMap (fun l => leBytes vs (unsigned w.form.width l.v)))

end Sys2Proof.Machine
end

