-- ==== Sys2Proof/Machine/Fabric.lean ====
section
/-! DEFINITION. Frames through the switch: header fields and checks (chapter 4), plans and grants in force, route lookup
and path choice (chapter 7), storing and queueing, and the egress choice (chapter 5). -/

namespace Sys2Proof.Machine

/-! ### Headers -/

/-- A header that this Dolmo builds: its location as source, TTL 8, the epoch bit of EPOCH.CURRENT (R37, R143). -/
def State.ownHeader (s : State) (typ : Nat) (srcPort : Nat) (dst : BitVec 32) (part ctx len : Nat) : Header :=
  { blankHeader typ with
    epoch := s.epoch.current.getLsbD 0, first := true, last := true, len := BitVec.ofNat 13 len,
    dstLoc := addrLoc dst, dstPort := addrPort dst, srcLoc := s.power.loc, srcPort := BitVec.ofNat 8 srcPort,
    part := BitVec.ofNat 7 part, ttl := 8, ctx := BitVec.ofNat 10 ctx }

/-- The epoch bits that are acceptable: the present one, and during the tick of a switch either (R38). -/
def State.epochOk (s : State) (bit : Bool) : Bool :=
  bit == s.epoch.current.getLsbD 0 || s.epoch.lastTick = some s.rooster.tickNo

/-- The location word of the twin (R414). -/
def State.pairLoc (s : State) : BitVec 24 := s.power.loc ^^^ 1

/-- The TTL rule (R120, R423). -/
def State.ttlOk (s : State) (h : Header) : Bool :=
  h.ttl ≠ 0 || h.dstLoc = s.power.loc || (s.twin.adopts && h.dstLoc = s.pairLoc)

/-- What the lanes did to a frame and still delivered: corrected codewords and stuffing errors are counted (R79, R82).
(DESIGN CHOICE, log 143) -/
def State.lineCounts (s : State) (p : Nat) (f : RxFrame) : State :=
  f.stuffed.foldl (fun t j => t.bumpLane p j lkStuffErr) (f.fecFixed.foldl (fun t j => t.bumpLane p j lkFecCorr) s)

/-- A frame has lost bytes with a lane: one of its bytes was carried by a lost lane, or it comes between the loss of a lane
and the REALIGN (R106). -/
def State.lostToLane (s : State) (p : Nat) (f : RxFrame) : Bool := f.lostLane || !(s.port p).noticed.isEmpty

/-- The first check that a frame fails on a port (R121). -/
def State.rxFail (s : State) (p : Nat) (f : RxFrame) : Option RxFail :=
  if s.lostToLane p f then some .lost
  else if !f.fecLanes.isEmpty then some .fec
  else if f.hcrc ≠ hcrc16 f.hdr.bytes then some .hcrc
  else if !headerLegal f.hdr then some .len
  else if f.status.getLsbD 0 then some .stomp
  else if f.crc ≠ frameCrc f.hdr f.body then some .crc
  else if f.hdr.cls ≠ .link && !s.epochOk f.hdr.epoch then some .epoch
  else if f.hdr.cls ≠ .link && !s.ttlOk f.hdr then some .ttl
  else none

/-- Hunt is entered (R122). -/
def State.enterHunt (s : State) (p : Nat) : State :=
  if (s.port p).hunt then s else (s.modPort p (fun q => { q with hunt := true })).bumpPort p pkHuntCount

/-- The discard of Table 4.6, counted once; in hunt, a candidate that fails checks 3 or 4 is passed over, and one that
passes its trailer CRC ends hunt whatever later check it fails (R122). -/
def State.rxDiscard (s : State) (p : Nat) (f : RxFrame) (r : RxFail) : State :=
  let hunting := (s.port p).hunt
  match r with
  | .lost => s.bumpPort p pkWidthLost
  | .fec =>
    let s1 := f.fecLanes.foldl (fun t j => t.bumpLane p j lkFecUncorr) s
    if f.fecHeader then s1.enterHunt p else s1
  | .hcrc => if hunting then s else (s.bumpPort p pkHdrCrcErr).enterHunt p
  | .len => if hunting then s else s.bumpPort p pkLenErr
  | .stomp =>
    (if f.crc = frameCrc f.hdr f.body then s.modPort p (fun q => { q with hunt := false }) else s).bumpPort p pkStompRx
  | .crc => s.bumpPort p pkCrcErr
  | .epoch => (s.modPort p (fun q => { q with hunt := false })).bumpPort p pkStaleEpoch
  | .ttl => (s.modPort p (fun q => { q with hunt := false })).bumpPort p pkTtlDrop

/-- A link-local frame of one type passes its checks on a live port: hunt ends, and the payload may be used. -/
def State.linkRx (s : State) (p typ : Nat) (f : RxFrame) : State × Option (List Byte) :=
  if !s.alive || !(s.port p).active then (s, none)
  else
    match s.rxFail p f with
    | some r => ((s.lineCounts p f).rxDiscard p f r, none)
    | none =>
      let s1 := (s.lineCounts p f).modPort p (fun q => { q with hunt := false })
      (s1, if f.hdr.typ.toNat = typ then some f.body else none)

/-! ### Plans, grants and reservations in force -/

def State.planOf (s : State) (p : Nat) : Option Plan := s.epoch.cur.plans.get? p

/-- The variant in force of a partition (R257, R423). -/
def State.variantOf (s : State) (p : Nat) : Option Variant :=
  match s.planOf p with
  | some pl => pl.variants[(s.thread p).variant]?
  | none => none

/-- The grants of the variants in force, with their partitions. -/
def State.grantsInForce (s : State) : List (Nat × Grant) :=
  s.epoch.cur.plans.flatMap (fun e =>
    match s.variantOf e.1 with
    | some v => v.grants.map (fun g => (e.1, g))
    | none => [])

/-- The partition granted a slot of an egress direction. -/
def State.grantee (s : State) (port slot : Nat) : Option Nat :=
  (s.grantsInForce.find? (fun e => e.2.covers port slot true)).map Prod.fst

/-- Whether a partition has a granted slot on an egress in the rest of the tick, from slot `a` on (R162). -/
def State.grantedLater (s : State) (part port a : Nat) : Bool :=
  s.grantsInForce.any (fun e => e.1 = part && e.2.port = port && e.2.out && a < e.2.first + e.2.count)

/-- The next slot after the present one that class S is granted on an egress direction. -/
def State.nextGranted (s : State) (port : Nat) : Option Nat :=
  let now := s.rooster.slot
  (s.grantsInForce.filter (fun e => e.2.port = port && e.2.out && now + 1 < e.2.first + e.2.count)).foldl
    (fun a e => let n := max e.2.first (now + 1)
      match a with
      | some m => some (min m n)
      | none => some n) none

/-- PART_PORTS as it admits frames: both sets while a change is pending (R334, R458). -/
def State.portsUsable (s : State) (p : Nat) : BitVec 49 :=
  let old := (s.part p).ports
  match s.drainFor 1 (fun r => match r with | .setPorts q _ => q = p | _ => false) with
  | some ⟨_, .setPorts _ v, _, _, _⟩ => old &&& v
  | _ => old

/-- A frame of Mule, exempt from PART_PORTS (R334). -/
def muleFrame (h : Header) : Bool := h.srcPort = 0x41 || h.dstPort = 0x41

/-- The partition's frames may use a port (R334). A C_NOTREADY sent before READY is Dolmo's own answer (R139). -/
def State.mayUse (s : State) (h : Header) (port : Nat) : Bool :=
  muleFrame h || (!s.power.ready && h.typ.toNat = tyCNotready) || (s.portsUsable h.part.toNat).getLsbD port

/-! ### Widths and times -/

/-- Window capacity in stream bytes per slot (Table 3.3). -/
def slotCapacity : Nat → Nat
  | 16 => 33851 | 12 => 25388 | 8 => 16925 | 6 => 12694 | 4 => 8462 | 2 => 4231 | 1 => 2115 | _ => 0

/-- Class S frames of 4,096 B per slot (Table 3.3). -/
def slotFrames : Nat → Nat
  | 16 => 8 | 12 => 6 | 8 => 4 | 6 => 3 | 4 => 2 | 2 => 1 | _ => 0

/-- Stream bytes of a frame (R114). -/
def streamBytes (len : Nat) : Nat := 40 + ceilDiv len 8 * 8

/-- Time a frame takes on a direction, in ns. -/
def frameNs (width len : Nat) : Nat := ceilDiv (streamBytes len * 128) (slotCapacity width)

/-- Start of a slot of the present tick. -/
def State.slotTime (s : State) (k : Nat) : Nat := s.rooster.hingeTime + k * 128

/-- The next sleep window of an egress direction after the present slot. -/
def Port.nextSleep (q : Port) (slot : Nat) : Option Nat :=
  (q.napMap.filter (fun w => slot < w.1)).foldl (fun a w =>
    match a with
    | some m => some (min m w.1)
    | none => some w.1) none

/-- When a class B or C frame must have ended on a direction (R160). -/
def State.egressEnd (s : State) (port : Nat) : Nat :=
  let e0 := s.slotTime s.rooster.slots
  let e1 := match s.nextGranted port with
    | some n => min e0 (s.slotTime n)
    | none => e0
  match (s.port port).nextSleep s.rooster.slot with
  | some n => min e1 (s.slotTime n)
  | none => e1

/-! ### Route lookup (chapter 7) -/

/-- The route and spread tables of the epoch an epoch bit names (R38, R204). -/
def State.routeTable (s : State) (bit : Bool) : Tbl (BitVec 128) :=
  if bit != s.epoch.current.getLsbD 0 && s.epoch.lastTick = some s.rooster.tickNo then s.epoch.oldRoute
  else s.epoch.cur.route
def State.spreadTable (s : State) (bit : Bool) : Tbl (List Nat) :=
  if bit != s.epoch.current.getLsbD 0 && s.epoch.lastTick = some s.rooster.tickNo then s.epoch.oldSpread
  else s.epoch.cur.spread

/-- Fields of a route entry (Table 7.1). -/
def reMatch (e : BitVec 128) : BitVec 24 := e.extractLsb' 0 24
def reMask (e : BitVec 128) : BitVec 24 := e.extractLsb' 24 24
def reKind (e : BitVec 128) : Nat := (e.extractLsb' 48 2).toNat
def reSPort (e : BitVec 128) : Nat := (e.extractLsb' 50 6).toNat
def reSpread (e : BitVec 128) : Nat := (e.extractLsb' 56 6).toNat
def reSet (e : BitVec 128) : Nat := (e.extractLsb' 64 51).toNat

/-- The valid entry of lowest index that matches (R191). -/
def routeFind (t : Tbl (BitVec 128)) (loc : BitVec 24) : Option (BitVec 128) :=
  (t.find? (fun e => reKind e.2 ≠ 0 && (loc &&& reMask e.2) = reMatch e.2)).map Prod.snd

/-- The member of a set that a class C stream takes (R200). -/
def classCPort (h : Header) (set : List Nat) : Option Nat :=
  let x : Word := (h.srcLoc.zeroExtend 64 <<< 40) ||| (h.srcPort.zeroExtend 64 <<< 32) |||
    (h.dstLoc.zeroExtend 64 <<< 8) ||| h.dstPort.zeroExtend 64
  let v := srkDraw x (h.ctx.zeroExtend 32) 0xFFFFFFFF
  set[v * set.length / 2 ^ 32]?

/-- The first member at which the running sum exceeds u (R201). -/
def walkWeights (u : Nat) : (sum : Nat) → List (Nat × Nat) → Option Nat
  | _, [] => none
  | sum, (p, w) :: t => if u < sum + w then some p else walkWeights u (sum + w) t

/-- The member of weighted eligible ports that a flowlet takes (R201). -/
def classBPort (h : Header) (l : List (Nat × Nat)) : Option Nat :=
  let x : Word := (h.srcLoc.zeroExtend 64 <<< 40) ||| (h.srcPort.zeroExtend 64 <<< 32) ||| h.msg.zeroExtend 64
  let fl := if h.typ.toNat = tyBEcho then 0 else h.flowlet
  let v := srkDraw x (h.ctx.zeroExtend 32) (BitVec.ofNat 32 fl)
  let w := (l.map Prod.snd).foldl (· + ·) 0
  walkWeights (v * w / 2 ^ 32) 0 l

/-- A counter of an ingress point. Port HP and Mule have no port block, so that what they discard counts nowhere.
(DESIGN CHOICE, log 166) -/
def State.bumpIng (s : State) (ing k : Nat) : State := if ing < 49 then s.bumpPort ing k else s

/-- Carries nothing of class B: down or quarantined (R201). (DEDUCED, log 43) -/
def Port.quarantined (q : Port) : Bool := q.qLoc || q.qRole || q.qLanes
def State.bEligible (s : State) (p : Nat) : Bool := !(s.port p).down && !(s.port p).quarantined

/-- Where a frame addressed to a port code of this Dolmo goes: never out of the port it came in on (R193). Class S has no
receiver at port HP or Mule. (DEDUCED, log 40) -/
def localDest (ing : Nat) (h : Header) : Option Dest :=
  if h.dstPort = 0x40 then (if h.cls = .s then none else some { host := true })
  else if h.dstPort = 0x41 then (if h.cls = .s then none else some { mule := true })
  else if h.dstPort.toNat = ing then none
  else some { ports := [h.dstPort.toNat] }

/-- Routes a frame (R190-R194, R198, R200-R202, R423): its destinations, or its discard, counted. (DEDUCED, log 40) -/
def State.route (s : State) (ing : Nat) (h : Header) : State × Option Dest :=
  if h.dstLoc = s.power.loc then
    match localDest ing h with
    | some d => (s, some d)
    | none => (s.bumpIng ing pkNoRoute, none)
  else if s.twin.adopts && h.dstLoc = s.pairLoc then
    if h.dstPort.toNat ≤ 47 then
      match localDest ing h with
      | some d => (s, some d)
      | none => (s.bumpIng ing pkNoRoute, none)
    else (s.bumpDev dkTwinDrop, none)
  else
    match routeFind (s.routeTable h.epoch) h.dstLoc with
    | none => (s.bumpIng ing pkNoRoute, none)
    | some e =>
      let m := reSet e
      let ports := (maskList 49 m).filter (· ≠ ing)
      match reKind e with
      | 3 => (s.bumpIng ing pkRouteDrop, none)
      | 2 =>
        if h.cls = .c then (s.bumpIng ing pkMcClassErr, none)
        else
          let d : Dest := { ports := ports, mc := true, host := m.testBit 49 && ing ≠ ingHP, mule := m.testBit 50 && ing ≠ ingMule }
          if ports.isEmpty && !d.host && !d.mule then (s.bumpIng ing pkNoRoute, none) else (s, some d)
      | _ =>
        match h.cls with
        | .s =>
          let sp := reSPort e
          if sp ≤ 48 && sp ≠ ing then (s, some { ports := [sp] }) else (s.bumpIng ing pkNoRoute, none)
        | .c =>
          match classCPort h ports with
          | some q => (s, some { ports := [q] })
          | none => (s.bumpIng ing pkNoRoute, none)
        | _ =>
          if ports.isEmpty then (s.bumpIng ing pkNoRoute, none)
          else
            let ws := (s.spreadTable h.epoch).getD (reSpread e) []
            let el := (ports.filter (fun q => s.bEligible q && ws.getD q 0 ≠ 0)).map (fun q => (q, ws.getD q 0))
            let up := (ports.filter s.bEligible).map (fun q => (q, 1))
            if !el.isEmpty then (s, (classBPort h el).map (fun q => { ports := [q] }))
            else if !up.isEmpty then
              (s.bumpIng ing pkSpreadFallback, (classBPort h up).map (fun q => { ports := [q] }))
            else (s.bumpIng ing pkDownDrop, none)

/-! ### Egress -/

/-- The charge of an entry counted in S_OUT of its egress. -/
def QEntry.units (e : QEntry) : Nat := frameUnits e.hdr.len.toNat

/-- The reference of an entry is released. -/
def State.releaseEntry (s : State) (e : QEntry) : State :=
  match e.desc with
  | some n => s.release n
  | none => s

/-- An entry leaves a queue or its egress without being sent: S_OUT is returned and the reference released. -/
def State.dropEntry (s : State) (port : Nat) (e : QEntry) : State :=
  let s1 := if e.hdr.cls = .s then s.modPort port (fun q => { q with sOutHeld := q.sOutHeld - e.units }) else s
  s1.releaseEntry e

/-- Credit for a class B or C frame on a direction (R129). -/
def Credit.allows (c : Credit) (cost : Nat) : Bool :=
  let d := (c.txLimit - c.txUsed).toNat
  cost ≤ d && d < 2 ^ 31

/-- The die whose buffer holds an entry. -/
def QEntry.die (e : QEntry) : Nat :=
  match e.desc with
  | some n => descDie n
  | none => homeDie e.ingress

/-- An entry of a direction comes over the die bridge (R145). -/
def QEntry.crosses (e : QEntry) (port : Nat) : Bool := e.die ≠ homeDie port

/-- Payload bytes leave a die over the bridge (R146). (DESIGN CHOICE, log 162) -/
def State.crossBridge (s : State) (d n : Nat) : State := s.setDie d { s.die d with bridge := (s.die d).bridge + n }

/-- Whether a B_DATA frame that starts now is marked (R205, Table 6.3). -/
def State.crowds (s : State) (port : Nat) (e : QEntry) : Bool :=
  let q := s.port port
  let depth := (q.qB.map QEntry.units).foldl (· + ·) 0
  e.hdr.typ.toNat = tyBData && ((q.crowdThr ≠ 0 && q.crowdThr * 4 ≤ depth) || 1 ≤ (s.die e.die).levelIn s.time)

/-- The egress direction can carry anything now. -/
def Port.canSend (q : Port) : Bool := q.active && !q.down && q.pwrOut = .awake && q.busy.isNone && q.widthOut ≠ 0

/-- A class S frame started now ends within the present slot: by the bytes already sent in it and by the time left, and at
width 1 only a frame shorter than 2,068 B (R40, R86). -/
def State.sFits (s : State) (port : Nat) (e : QEntry) : Bool :=
  let q := s.port port
  let n := streamBytes e.hdr.len.toNat
  q.slotUsed + n ≤ slotCapacity q.widthOut && (q.widthOut ≠ 1 || n < 2068) &&
  s.time + frameNs q.widthOut e.hdr.len.toNat ≤ s.slotTime (s.rooster.slot + 1)

/-- An earlier frame of the same ingress point and partition waits for the same slots (R150, R162). (DEDUCED, log 163) -/
def Port.behindS (q : Port) (e : QEntry) : Bool :=
  e.own.isNone &&
  (q.qS.takeWhile (fun x => x != e)).any (fun x => x.own.isNone && x.ingress = e.ingress && x.hdr.part = e.hdr.part)

/-- A class S entry may start in the present slot (R40, R150, R160, R162): a forwarded one in no slot that began before it
came. (DEDUCED, log 163) -/
def State.sReady (s : State) (port : Nat) (e : QEntry) : Bool :=
  let q := s.port port
  let slot := s.rooster.slot
  slot ≠ 0 && e.hdr.tick = s.rooster.tickNo.setWidth 32 &&
  (match e.own with
   | some (p, k) => k = slot && s.grantee port slot = some p
   | none => s.grantee port slot = some e.hdr.part.toNat && e.at_ ≤ s.slotTime slot) &&
  !q.behindS e && s.sFits port e

/-- A class B or C entry may start now, bridge apart (R16, R129, R160). -/
def State.bcFree (s : State) (port : Nat) (e : QEntry) : Bool :=
  let q := s.port port
  let cr := if e.hdr.cls = .c then q.credC else q.credB
  s.rooster.slot ≠ 0 && cr.allows e.units && s.time + frameNs q.widthOut e.hdr.len.toNat ≤ s.egressEnd port

/-- A port still wants to take an entry over the bridge. (DESIGN CHOICE, log 162) -/
def State.wantsBridge (s : State) (d port : Nat) : Bool :=
  let q := s.port port
  (q.qB ++ q.qC).any (fun e => e.die = d && e.crosses port && s.bcFree port e)

/-- The bridge takes a class B or C entry now: the slot has capacity left for it, and no port that asked earlier still waits
(R146). (DESIGN CHOICE, log 162) -/
def State.bridgeFree (s : State) (port : Nat) (e : QEntry) : Bool :=
  let v := s.die e.die
  v.bridge + e.hdr.len.toNat ≤ 512000 && (v.bridgeWaits.find? (s.wantsBridge e.die)).getD port = port

/-- A class B or C entry may start now (R16, R129, R146, R160). -/
def State.bcReady (s : State) (port : Nat) (e : QEntry) : Bool :=
  s.bcFree port e && (!e.crosses port || s.bridgeFree port e)

/-- A class B frame that could start is waiting (R161). -/
def State.bWaits (s : State) (port : Nat) : Bool := (s.port port).qB.any (s.bcReady port)

/-- An entry starts on a free direction: TTL falls for a forwarded frame and stays 0 where it was 0, credit is used, marks
are set, and what crosses the bridge counts there (R120, R129, R146, R161, R205). `stomped`
completes a cut-through frame that turned out bad (R123). (DESIGN CHOICE, log 164) -/
def State.startEntry (s : State) (port : Nat) (e : QEntry) (stomped : Bool) : State :=
  let q := s.port port
  let crowd := e.crowd || s.crowds port e
  let marked := s.crowds port e
  let h := if e.ingress < 49 && e.own.isNone then { e.hdr with ttl := BitVec.ofNat 8 (e.hdr.ttl.toNat - 1) } else e.hdr
  let u := BitVec.ofNat 32 e.units
  let q1 := { q with busy := some e, slotUsed := q.slotUsed + streamBytes e.hdr.len.toNat }
  let q2 := match e.hdr.cls with
    | .s => q1
    | .b => { q1 with credB := { q.credB with txUsed := q.credB.txUsed + u, wait := 0, waited := false, stalled := false }
                      cRun := 0, rrB := e.ingress, sentBC := q.sentBC + 1, sentB := q.sentB + 1
                      sentMark := q.sentMark + b2n crowd }
    | .c => { q1 with credC := { q.credC with txUsed := q.credC.txUsed + u, wait := 0, waited := false, stalled := false }
                      cRun := if s.bWaits port then q.cRun + 1 else 0, rrC := e.ingress, sentBC := q.sentBC + 1 }
    | .link => q1
  let s0 := if e.crosses port then
      (s.crossBridge e.die e.hdr.len.toNat).setDie e.die { (s.crossBridge e.die e.hdr.len.toNat).die e.die with
        bridgeWaits := (s.die e.die).bridgeWaits.filter (fun p => p ≠ port) }
    else s
  let s1 := (s0.setPort port q2).emit (.frame port h e.payload stomped crowd)
  let s2 := if marked then s1.bumpPort port pkCrowdTx else s1
  if stomped then s2.bumpPort port pkStompTx else s2

/-- The discard that an unsendable entry of a DOWN port gets (R166, R167). -/
def State.downDiscard (s : State) (port : Nat) (e : QEntry) : State :=
  (s.dropEntry port e).bumpPort port (if e.hdr.cls = .s then pkLateTx else pkDownDrop)

/-- A stored frame is queued for an egress, or dropped there (R26, R155, R166, R167, R334, R95). -/
def State.enqueue (s : State) (port : Nat) (e : QEntry) : State :=
  let q := s.port port
  if !s.mayUse e.hdr port then (s.releaseEntry e).bumpPort port pkPartDrop
  else if q.quarantined && !(e.hdr.cls = .c && muleFrame e.hdr) then (s.releaseEntry e).bumpPort port pkQuarantineDrop
  else
    match e.hdr.cls with
    | .s =>
      if (q.down && !e.mc) || q.delayOver then (s.releaseEntry e).bumpPort port pkLateTx
      else if q.sOut < q.sOutHeld + e.units then (s.releaseEntry e).bumpPort port pkSLimitDrop
      else s.setPort port { q with qS := q.qS ++ [e], sOutHeld := q.sOutHeld + e.units }
    | .b =>
      if q.down && !e.mc then (s.releaseEntry e).bumpPort port pkDownDrop
      else s.setPort port { q with qB := q.qB ++ [e] }
    | _ =>
      if q.down then (s.releaseEntry e).bumpPort port pkDownDrop
      else s.setPort port { q with qC := q.qC ++ [e] }

/-- What a quarantined port does not carry leaves its queues, each frame counted in QUARANTINE_DROP (R95). -/
def State.quarantineQueues (s : State) (port : Nat) : State :=
  let q := s.port port
  if !q.quarantined then s
  else
    let stays (e : QEntry) : Bool := e.hdr.cls = .c && muleFrame e.hdr
    let gone := q.qS ++ q.qB ++ q.qC.filter (fun e => !stays e)
    gone.foldl (fun t e => (t.dropEntry port e).bumpPort port pkQuarantineDrop)
      (s.setPort port { q with qS := [], qB := [], qC := q.qC.filter stays })

/-- The entry at its round-robin turn: the first ready one whose ingress follows the pointer. -/
def rrPick (ok : QEntry → Bool) (ptr : Nat) (l : List QEntry) : Option QEntry :=
  let heads := (List.range 51).filterMap (fun i => l.find? (fun e => e.ingress = i))
  let ready := heads.filter ok
  match ready.find? (fun e => ptr < e.ingress) with
  | some e => some e
  | none => ready.head?

/-- The next frame of a direction (Table 5.5, R160, R161). -/
def State.egressChoose (s : State) (port : Nat) : Option QEntry :=
  let q := s.port port
  match q.qS.find? (fun e => e.own.isSome && s.sReady port e) with
  | some e => some e
  | none =>
    match q.qS.find? (fun e => e.own.isNone && s.sReady port e) with
    | some e => some e
    | none =>
      let c := rrPick (s.bcReady port) q.rrC q.qC
      let b := rrPick (s.bcReady port) q.rrB q.qB
      if 16 ≤ q.cRun && b.isSome then b else c.or b

/-- A CREDIT frame is due, and goes before any class B or C frame (R130, R160). -/
def State.creditGoes (s : State) (port : Nat) : Bool :=
  let q := s.port port
  q.creditDue && !q.qS.any (fun e => s.sReady port e) && s.time + frameNs q.widthOut 16 ≤ s.egressEnd port

/-- The direction as it would be with an entry at the end of its queue. -/
def Port.withEntry (q : Port) (e : QEntry) : Port :=
  match e.hdr.cls with
  | .s => { q with qS := q.qS ++ [e] }
  | .b => { q with qB := q.qB ++ [e] }
  | _ => { q with qC := q.qC ++ [e] }

/-- An entry could start on a direction at this moment: of all that waits there, it is what the direction would choose
(R150, R160, R164). -/
def State.startsNow (s : State) (port : Nat) (e : QEntry) : Bool :=
  let q := s.port port
  q.canSend && !(q.quarantined && !(e.hdr.cls = .c && muleFrame e.hdr)) && s.mayUse e.hdr port &&
  (e.hdr.cls ≠ .s || (!q.delayOver && q.sOutHeld + e.units ≤ q.sOut)) &&
  (e.hdr.cls = .s || !s.creditGoes port) &&
  (s.setPort port (q.withEntry e)).egressChoose port = some e

/-- Cut-through of a received frame to an egress (Table 5.2); the slot it leaves in is the one in which its header came. -/
def State.cutsThrough (s : State) (ing port : Nat) (e : QEntry) : Bool :=
  ing < 49 && !(s.port ing).hunt && (s.port port).widthOut ≤ (s.port ing).widthIn && s.startsNow port { e with at_ := 0 }

/-- A frame that can start does, and takes its share of S_OUT. -/
def State.startNow (s : State) (port : Nat) (e : QEntry) (stomped : Bool) : State :=
  let s1 := if e.hdr.cls = .s then s.modPort port (fun q => { q with sOutHeld := q.sOutHeld + e.units }) else s
  s1.startEntry port e stomped

/-- One copy of a stored frame goes to its egress (R148, R164, R165). -/
def State.place (s : State) (ing : Nat) (hold : Nat) (e : QEntry) (port : Nat) : State :=
  if s.cutsThrough ing port e || (e.mc && s.startsNow port e) then s.startNow port e false
  else if e.mc && hold = 0 && (e.hdr.cls = .b || (s.port port).down) then
    (s.releaseEntry e).bumpPort port (if (s.port port).down then pkMcDownDrop else pkMcResidueDrop)
  else s.enqueue port e

/-- Removes the first occurrence of an entry. -/
def dropFirst (e : QEntry) : List QEntry → List QEntry
  | [] => []
  | x :: t => if x = e then t else x :: dropFirst e t

/-- Queued class S frames that can no longer be sent are discarded (R26, R40, R162). A multicast copy for a DOWN port stays
until its hold expires (R166). -/
def State.purgeLate (s : State) (port : Nat) : State :=
  let q := s.port port
  let slot := s.rooster.slot
  let now := s.rooster.tickNo.setWidth 32
  let late (e : QEntry) : Bool :=
    !(e.mc && q.down) &&
    ((e.hdr.tick - now).msb || q.delayOver || q.down || (e.hdr.tick = now &&
    (match e.own with
     | some (_, k) => k < slot || (k = slot && !s.sFits port e)
     | none => !s.grantedLater e.hdr.part.toNat port
         (if s.sFits port e && e.at_ ≤ s.slotTime slot then slot else slot + 1))))
  let gone := q.qS.filter late
  gone.foldl (fun t e => (t.dropEntry port e).bumpPort port pkLateTx)
    (s.setPort port { q with qS := q.qS.filter (fun e => !late e) })

/-- Queued frames whose epoch bit is no longer acceptable are discarded (R38, R168). -/
def State.purgeStale (s : State) (port : Nat) : State :=
  let q := s.port port
  let bad (e : QEntry) : Bool := !s.epochOk e.hdr.epoch
  let gone := (q.qS ++ q.qB ++ q.qC).filter bad
  gone.foldl (fun t e => (t.dropEntry port e).bumpPort port pkStaleEpoch)
    (s.setPort port { q with qS := q.qS.filter (fun e => !bad e), qB := q.qB.filter (fun e => !bad e)
                             qC := q.qC.filter (fun e => !bad e) })

/-- The CREDIT payload (Table 4.7). -/
def State.creditPayload (s : State) (port : Nat) : List Byte :=
  leBytes 4 (s.acct port false).limit.toNat ++ leBytes 4 (s.acct port true).limit.toNat ++ List.replicate 8 0

/-- An entry that goes to the wire, or is discarded where a codeword of it is lost on the bridge (R147). -/
def State.egressLaunch (s : State) (port : Nat) (e : QEntry) (bridgeBad : Bool) : State :=
  let q := s.port port
  let s1 := s.setPort port { q with qS := dropFirst e q.qS, qB := dropFirst e q.qB, qC := dropFirst e q.qC }
  if bridgeBad && e.crosses port then (s1.dropEntry port e).bumpDie (homeDie port) ikBridgeErr
  else s1.startEntry port e false

/-- Frames that wait for want of credit (R131), and a port that asks for bridge capacity (R146). -/
def State.egressWaits (s : State) (port : Nat) : State :=
  let q := s.port port
  let wait (c : Credit) (l : List QEntry) : Credit :=
    if !l.isEmpty && !l.any (fun e => c.allows e.units) then { c with waited := true } else c
  let s1 := s.setPort port { q with credB := wait q.credB q.qB, credC := wait q.credC q.qC }
  let d := 1 - homeDie port
  if s1.wantsBridge d port && !(s1.die d).bridgeWaits.contains port then
    s1.setDie d { s1.die d with bridgeWaits := (s1.die d).bridgeWaits ++ [port] }
  else s1

/-- The direction starts its next frame (R160). A codeword may be lost where the frame crosses the bridge. -/
def State.egressStart (s : State) (port : Nat) (bridgeBad : Bool) : State :=
  if !(s.port port).canSend || s.rooster.slot = 0 then s
  else
    let s0 := ((s.purgeStale port).purgeLate port).egressWaits port
    let q := s0.port port
    if s0.creditGoes port then
      (s0.setPort port { q with creditDue := false, slotUsed := q.slotUsed + streamBytes 16 }).emit
        (.frame port (linkHeader tyCredit 16) (s0.creditPayload port) false false)
    else
      match s0.egressChoose port with
      | none => s0
      | some e => s0.egressLaunch port e bridgeBad

/-- The trailer of the frame on an egress has left (R168). -/
def State.egressEndFrame (s : State) (port : Nat) : State :=
  let q := s.port port
  match q.busy with
  | none => s
  | some e => (s.setPort port { q with busy := none }).dropEntry port e

/-- A frame on a direction is lost with the link, and everything queued for a DOWN port is handled as R166 and R167
say; multicast copies stay in the residue. -/
def State.portDownQueues (s : State) (port : Nat) : State :=
  let q := s.port port
  let s1 := match q.busy with
    | some e => (s.setPort port { q with busy := none }).dropEntry port e
    | none => s
  let q1 := s1.port port
  let gone := q1.qS.filter (fun e => !e.mc) ++ q1.qB.filter (fun e => !e.mc) ++ q1.qC
  gone.foldl (fun t e => t.downDiscard port e)
    (s1.setPort port { q1 with qS := q1.qS.filter (fun e => e.mc), qB := q1.qB.filter (fun e => e.mc), qC := [] })

/-- Every queued class S frame of a partition is discarded and counted in LATE_TX (R43, R251). -/
def State.dropPartS (s : State) (p : Nat) : State :=
  (List.range 49).foldl (fun t port =>
    let q := t.port port
    let bad (e : QEntry) : Bool := e.hdr.part.toNat = p
    let gone := q.qS.filter bad
    if gone.isEmpty then t
    else gone.foldl (fun u e => (u.dropEntry port e).bumpPort port pkLateTx)
      (t.setPort port { q with qS := q.qS.filter (fun e => !bad e) })) s

end Sys2Proof.Machine
end

