-- ==== Sys2Proof/Machine/Streams.lean ====
section
/-! DEFINITION. Frames at the endpoints of this Dolmo, port HP and Mule: storing and placing a frame, echoes and class B
messages (chapters 7 and 13), class C streams (chapter 4), and the receive queues (chapter 13). -/

namespace Sys2Proof.Machine

/-! ### Storing a frame and placing its copies -/

/-- One copy of a stored frame whose crossing of the die bridge may have failed (R147). -/
def State.placeCopy (s : State) (ing hold : Nat) (bad : Bool) (e : QEntry) (port : Nat) : State :=
  if bad && homeDie ing ≠ homeDie port then
    let s1 := s.bumpDie (homeDie port) ikBridgeErr
    if s1.cutsThrough ing port e then s1.startNow port e true else s1.releaseEntry e
  else s.place ing hold e port

/-- Who is charged for a frame (R153, R154). (DESIGN CHOICE, log 165) -/
def chargeOf (ing : Nat) (h : Header) (own : Bool) : Charge :=
  match h.cls with
  | .s => if own then .own ing else .sIn ing
  | .c => .acct ing true
  | _ => .acct ing false

/-- References of a frame (R163, R168). -/
def Dest.refs (d : Dest) : Nat := d.ports.length + b2n d.host + b2n d.mule + b2n d.handle.isSome

/-- A frame with its buffer is stored, and its copies go to their egress ports (R148, R163-R165, R179). What is lost of it
on the bridge is found where an engine of the other die loads it (R147). -/
def State.storeCopies (s : State) (ing : Nat) (h : Header) (payload : List Byte) (crowd : Bool) (d : Dest) (b : Buffer)
    (fb bad : Bool) (own : Option (Nat × Nat)) : Option Nat × State :=
  match s.henStore (homeDie ing) b fb h payload crowd d.refs (chargeOf ing h own.isSome) with
  | (none, s1) => (none, s1)
  | (some n, s1) =>
    let s2 := if bad then { s1 with descs := s1.descs.map (fun e => if e.1 = n then (e.1, { e.2 with bad := true }) else e) } else s1
    let e : QEntry := {
      desc := some n, hdr := h, payload := payload, ingress := ing, crowd := crowd, mc := d.mc, at_ := s.time, own := own }
    (some n, d.ports.foldl (fun t p =>
      if own.isSome then t.enqueue p e else t.placeCopy ing (s.die (homeDie ing)).mcHold bad e p) s2)

/-- The pool of the list a frame waits for. -/
def insertWait (w : HenWait) : List HenWait → List HenWait
  | [] => [w]
  | x :: t => if x.at_ = w.at_ && w.ingress < x.ingress then w :: x :: t else x :: insertWait w t

/-- A frame waits for its pool's allocation (R176), charged as it will be when it is stored (R153), or not built yet (R159).
(DESIGN CHOICE, log 34) -/
def State.addWait (s : State) (w : HenWait) : State :=
  let d := homeDie w.ingress
  let s1 := s.setDie d { s.die d with waits := insertWait w (s.die d).waits }
  if w.held then s1 else s1.charge (chargeOf w.ingress w.hdr w.own.isSome) (frameUnits w.hdr.len.toNat)

/-- Waiting frames leave the list of their die, and their charges are returned. -/
def State.dropWaits (s : State) (d : Nat) (p : HenWait → Bool) : State :=
  let v := s.die d
  (v.waits.filter p).foldl (fun t w =>
    if w.held then t else t.uncharge (chargeOf w.ingress w.hdr w.own.isSome) (frameUnits w.hdr.len.toNat))
    (s.setDie d { v with waits := v.waits.filter (fun w => !p w) })

/-- At BLACK, frames that send queues of port HP and Mule build use only their reserve (Table 6.3, R184). -/
def State.reserveOnly (s : State) (ing : Nat) (limited : Bool) : Bool :=
  limited && 3 ≤ (s.die (homeDie ing)).levelIn s.time

/-- The account at port HP or Mule lets a frame be built (R159), and at BLACK a reserve buffer is there for it (R184). -/
def State.mayBuild (s : State) (ing : Nat) (h : Header) : Bool :=
  let c := decide (h.cls = .c)
  let a := s.acct ing c
  a.h + frameUnits h.len.toNat ≤ s.gminCredit ing c + s.sAllow 1 c &&
  (!s.reserveOnly ing true || s.henChoose 1 h true false ≠ .none)

/-- An earlier frame of the same ingress point and class waits for its buffer, so a later one waits behind it (R150).
(DESIGN CHOICE, log 34) -/
def Die.behind (v : Die) (ing : Nat) (h : Header) : Bool := v.waits.any (fun w => w.ingress = ing && w.hdr.cls = h.cls && !w.held)

/-- A frame that this Dolmo builds on its own account is routed and stored; one for an endpoint of this Dolmo waits
for its turn at Hen, and one of Mule that its account does not let it build waits as R159 says. (DESIGN CHOICE, log 35) -/
def State.sendLocal (s : State) (ing : Nat) (h : Header) (payload : List Byte) : State :=
  match s.route ing h with
  | (s1, none) => s1
  | (s1, some d) =>
    let limited := decide (ing = ingMule)
    let w (k : Nat) (held : Bool) : HenWait :=
      { pool := k, ingress := ing, at_ := s1.time, hdr := h, payload := payload, crowd := false, dest := d, limited := limited
        held := held }
    let k0 := sizeClass h.len.toNat
    if limited && !s1.mayBuild ing h then s1.addWait (w k0 true)
    else if d.host || d.mule || (s1.die (homeDie ing)).behind ing h then s1.addWait (w k0 false)
    else
      match s1.henChoose (homeDie ing) h (s1.reserveOnly ing limited) false with
      | .none => s1.noBuffer (homeDie ing)
      | .wait k => s1.addWait (w k false)
      | .got b fb => (s1.storeCopies ing h payload false d b fb false none).2

/-! ### Echoes (R206, R207) -/

/-- The ingress point and port code of an endpoint. -/
def endIng (mule : Bool) : Nat := if mule then ingMule else ingHP
def endPort (mule : Bool) : Nat := if mule then 0x41 else 0x40

/-- The key of an echo pair: Mule's pairs stand beside those of port HP. -/
def echoKey (src : BitVec 32) (ctx : Nat) (mule : Bool) : BitVec 32 × Nat := (src, ctx + 1024 * b2n mule)

def maxPairs : Nat := 4096
def sat32 (n : Nat) : Nat := min n (2 ^ 32 - 1)

/-- A class B frame reaches an endpoint: the pair counts it, and the first marked frame of a tick makes an echo due. A pair is
never freed. (DEDUCED, log 44; DESIGN CHOICE, log 167) -/
def State.echoAccount (s : State) (h : Header) (crowd mule : Bool) : State :=
  let k := echoKey h.src h.ctx.toNat mule
  match assoc? s.echoes k with
  | none =>
    if maxPairs ≤ (s.echoes.filter (fun e => decide (1024 ≤ e.1.2) == mule)).length then
      if crowd then s.bumpDev dkEchoSkip else s
    else
      let e : Echo := if crowd then
          { due := some (h.msg, 1, 1, s.time), tick := some s.rooster.tickNo, part := h.part.toNat }
        else { total := 1, part := h.part.toNat }
      { s with echoes := assocSet s.echoes k e }
  | some e =>
    let total := sat32 (e.total + 1)
    let marked := if crowd then sat32 (e.marked + 1) else e.marked
    let e' : Echo :=
      if crowd && e.tick ≠ some s.rooster.tickNo && e.due.isNone then
        { e with marked := 0, total := 0, due := some (h.msg, marked, total, s.time), tick := some s.rooster.tickNo
                 part := h.part.toNat }
      else { e with marked := marked, total := total, part := h.part.toNat }
    { s with echoes := assocSet s.echoes k e' }

/-- A B_ECHO frame is built and sent (R206, Table 7.3): KIND 1 CROWD, 2 LOSS. -/
def State.sendEcho (s : State) (mule : Bool) (dst : BitVec 32) (part ctx : Nat) (msg : BitVec 32)
    (marked total kind : Nat) : State :=
  let h : Header := { s.ownHeader tyBEcho (endPort mule) dst part ctx 16 with w16 := msg }
  let p := leBytes 4 marked ++ leBytes 4 total ++ leBytes 4 (s.rooster.tickNo.toNat % 2 ^ 32) ++ leBytes 1 kind ++
    List.replicate 3 0
  (s.bumpDev dkEchoTx).sendLocal (endIng mule) h p

/-- A LOSS echo naming a message (R212, R352): it takes the pair's counts with it. (DEDUCED, log 45) -/
def State.lossEcho (s : State) (k : MsgKey) (part : Nat) (mule : Bool) : State :=
  let ek := echoKey k.src k.ctx mule
  match assoc? s.echoes ek with
  | some e =>
    ({ s with echoes := assocSet s.echoes ek { e with marked := 0, total := 0 } }).sendEcho mule k.src part k.ctx k.msg
      e.marked e.total 2
  | none => s.sendEcho mule k.src part k.ctx k.msg 0 0 2

/-! ### Receive queues -/

/-- The context a frame for port HP names exists and is in its PART (R144). -/
def State.ctxTakes (s : State) (h : Header) : Bool :=
  match s.ctx? h.ctx.toNat with
  | some c => c.part = h.part.toNat
  | none => false

/-- The QID of the enabled RQ in slot `dq` of a context (R348). -/
def State.rqOf (s : State) (ctx dq : Nat) : Option Nat :=
  let q := s.qslot ctx dq
  if dq < 16 && q.enabled && q.kind = 2 then some q.qid else none

/-- The enabled CQ paired with a queue. -/
def State.cqOf (s : State) (q : Queue) : Option Nat := s.cqAt q.ctx (s.slotOf q).cq

/-- The paired CQ has an entry to reserve (R344). -/
def State.cqRoom (s : State) (q : Queue) : Bool :=
  match (s.cqOf q).bind s.queue? with
  | some c => 0 < s.cqFree c
  | none => false

/-- An entry of the paired CQ is reserved. -/
def State.cqReserve (s : State) (q : Queue) : State :=
  match s.cqOf q with
  | some n =>
    match s.queue? n with
    | some c => s.setQueue n { c with reserved := c.reserved + 1 }
    | none => s
  | none => s

/-- The next buffer of an RQ is taken with a CQ entry reserved; its ring index (R343, R344). -/
def State.rqTake (s : State) (qid : Nat) : Option Nat × State :=
  match s.queue? qid with
  | none => (none, s)
  | some q =>
    if q.pi ≠ q.ci && s.cqRoom q then
      (some (q.ci.toNat % (s.slotOf q).size), (s.cqReserve q).setQueue qid { q with ci := q.ci + 1 })
    else (none, s)

/-- Up to `n` more buffers of an RQ, after those held. -/
def State.takeBufs (s : State) (qid : Nat) : (n : Nat) → List Nat → List Nat × State
  | 0, acc => (acc, s)
  | n + 1, acc =>
    match s.rqTake qid with
    | (some r, t) => State.takeBufs t qid n (acc ++ [r])
    | (none, t) => (acc, t)

/-- Bytes go into a receive buffer (R359). -/
def State.bufWrite (s : State) (qid part ring off : Nat) (bytes : List Byte) : State :=
  let fn := s.fnOf part
  s.emit (.rqWrite fn qid ring off bytes (s.func fn).relaxed)

/-- A KIND 17 record (Table 13.6), into an entry that was reserved. -/
def State.recvRecord (s : State) (qid status marks : Nat) (src msg : BitVec 32) (index bytes ring : Nat) : State :=
  match s.queue? qid with
  | none => s
  | some q =>
    match s.cqOf q with
    | none => s
    | some n =>
      s.writeRecord n (leBytes 1 17 ++ leBytes 1 status ++ leBytes 1 q.slot ++ leBytes 1 marks ++ leBytes 4 src.toNat ++
        leBytes 4 msg.toNat ++ leBytes 4 index ++ leBytes 4 bytes ++ leBytes 4 ring ++ leBytes 4 0 ++
        leBytes 4 (s.rooster.tickNo.toNat % 2 ^ 32)) true true false

/-! ### Class B messages (R212, R350-R352) -/

/-- The message has every MOFF from 0 to that of its LAST frame. -/
def OpenMsg.complete (m : OpenMsg) : Bool :=
  match m.lastMoff with
  | some l => (List.range (l + 1)).all (fun k => m.moffs.contains k)
  | none => false

/-- Bytes of the message. -/
def OpenMsg.size (m : OpenMsg) : Nat := m.lastMoff.getD 0 * 4096 + m.lastLen

/-- QID that stands for Mule. (DESIGN CHOICE, log 49) -/
def muleQid : Nat := 4096

def State.setMsg (s : State) (m : OpenMsg) : State :=
  { s with msgs := s.msgs.map (fun x => if x.key = m.key then m else x) }

/-- The message becomes the newest of the list, which keeps held messages in the order in which their holds began. -/
def State.moveMsg (s : State) (m : OpenMsg) : State :=
  { s with msgs := s.msgs.filter (fun x => x.key ≠ m.key) ++ [m] }

def State.dropMsgEntry (s : State) (k : MsgKey) : State := { s with msgs := s.msgs.filter (fun x => x.key ≠ k) }

/-- Log2 of the buffer size of the RQ with a QID. -/
def State.bufLog2 (s : State) (qid : Nat) : Nat :=
  match s.queue? qid with
  | some q => (s.slotOf q).bufLog2
  | none => 12

/-- A complete message writes one OK record per buffer in index order (R350). -/
def State.finishMsg (s : State) (m : OpenMsg) : State :=
  let s1 := s.dropMsgEntry m.key
  let sz := 2 ^ s.bufLog2 m.qid
  let n := m.bufs.length
  m.bufs.zipIdx.foldl (fun t (r, i) =>
    t.recvRecord m.qid 0 (b2n (i = 0) + 2 * b2n (i + 1 = n)) m.key.src m.key.msg i (min sz (m.size - i * sz)) r) s1

/-- Steps 1 and 2 of R352: VOID records for the ring buffers and the P3 buffers freed; later frames are duplicates.
(DEDUCED, log 45) -/
def State.voidMsg (s : State) (m : OpenMsg) : State :=
  let s1 := s.dropMsgEntry m.key
  let s2 := m.bufs.zipIdx.foldl (fun t (r, i) => t.recvRecord m.qid 1 0 m.key.src m.key.msg i 0 r) s1
  let s3 := m.p3.foldl (fun t i => t.depotFree 3 i) s2
  { s3 with deadMsgs := s3.deadMsgs ++ [m.key] }

/-- A message is dropped with a LOSS echo, and its counter (R352, R212). (DEDUCED, log 45; DEDUCED, log 46) -/
def State.dropMsg (s : State) (m : OpenMsg) (ctr : Nat) : State :=
  ((s.voidMsg m).bump ctr).lossEcho m.key m.part (m.qid = muleQid)

/-- The buffer index a frame needs. -/
def bufIndex (moff log2 : Nat) : Nat := moff * 4096 / 2 ^ log2

/-- A frame that lacks a buffer is copied into a P3 buffer, 16 frames to each (R351), or its message is dropped (R352). -/
def State.holdFrame (s : State) (m : OpenMsg) (moff : Nat) (payload : List Byte) (ringHold : Nat) : State :=
  if ringHold = 0 then s.dropMsg m (queueCtr m.qid)
  else
    let go (t0 : State) (p3 : List Nat) : State :=
      let a := t0.depot.bufAddr 3 (p3.getLastD 0) + m.held.length % 16 * 4096
      let t := (t0.depotStore 64 a payload).2
      let m1 := { m with held := m.held ++ [(moff, payload)], p3 := p3, hold := some (m.hold.getD 0) }
      if m.hold.isSome then t.setMsg m1 else t.moveMsg m1
    if m.held.length % 16 = 0 then
      match s.depotTake 3 m.part with
      | (some i, t) => go t (m.p3 ++ [i])
      | (none, t) => t.dropMsg m (queueCtr m.qid)
    else go s m.p3

/-- A new frame of an open message is placed (R350, R351). (DEDUCED, log 169) -/
def State.takeFrame (s : State) (m : OpenMsg) (h : Header) (payload : List Byte) : State :=
  let m1 : OpenMsg := { m with
    moffs := m.moffs ++ [h.moff]
    lastMoff := if h.last then some h.moff else m.lastMoff
    lastLen := if h.last then h.len.toNat else m.lastLen
    lastAt := s.time }
  if m.qid = muleQid then (if m1.complete then s.dropMsgEntry m.key else s.setMsg m1)
  else
    let lg := s.bufLog2 m.qid
    let k := bufIndex h.moff lg
    let r := s.takeBufs m.qid (k + 1 - m.bufs.length) m.bufs
    let m2 := { m1 with bufs := r.1 }
    match m2.bufs[k]? with
    | some ring =>
      let s1 := r.2.bufWrite m.qid m.part ring (h.moff * 4096 % 2 ^ lg) payload
      if m2.complete && m2.held.isEmpty then s1.finishMsg m2 else s1.setMsg m2
    | none =>
      let hold := match r.2.queue? m.qid with
        | some q => (r.2.slotOf q).ringHold
        | none => 0
      (r.2.setMsg m2).holdFrame m2 h.moff payload hold

/-- The buffers a held message still needs are taken; when every held byte has one, the bytes are copied across and the
message goes on (R351). -/
def State.serveHeld (s : State) (m : OpenMsg) : State :=
  let lg := s.bufLog2 m.qid
  let need := (m.held.map (fun f => bufIndex f.1 lg + 1)).foldl max 0
  let r := s.takeBufs m.qid (need - m.bufs.length) m.bufs
  let m1 := { m with bufs := r.1 }
  if need ≤ m1.bufs.length then
    let s1 := m.held.foldl (fun t f =>
      t.bufWrite m.qid m.part (m1.bufs.getD (bufIndex f.1 lg) 0) (f.1 * 4096 % 2 ^ lg) f.2) r.2
    let s2 := m.p3.foldl (fun t i => t.depotFree 3 i) s1
    let m2 := { m1 with held := [], p3 := [], hold := none }
    if m2.complete then s2.finishMsg m2 else s2.setMsg m2
  else r.2.setMsg m1

/-- Buffers newly posted to an RQ go first to its held messages, in the order in which their holds began (R351). -/
def State.serveRing (s : State) (qid : Nat) : State :=
  (s.msgs.filter (fun m => m.qid = qid && m.hold.isSome)).foldl (fun t m => t.serveHeld m) s

/-- A class B data frame reaches port HP or Mule (R143, R144, R212, R348, R350). An open message counts toward the home die
of the ingress point of its first frame, and a repeat that is discarded leaves its timer alone.
(DEDUCED, log 46; DESIGN CHOICE, log 168; DEDUCED, log 169) -/
def State.deliverB (s : State) (ing : Nat) (h : Header) (payload : List Byte) (crowd mule : Bool) : State :=
  let c := h.ctx.toNat
  if !mule && !s.ctxTakes h then s.bumpIng ing pkCtxDrop
  else
    let s1 := s.echoAccount h crowd mule
    match (if mule then some muleQid else s1.rqOf c h.bQueue) with
    | none => s1.bumpCtx c xkQueueDrop
    | some qid =>
      let key : MsgKey := { src := h.src, ctx := c, msg := h.msg }
      if s1.deadMsgs.contains key then s1.bumpDev dkBDup
      else
        match s1.msgs.find? (fun m => m.key = key) with
        | some m => if m.moffs.contains h.moff then s1.bumpDev dkBDup else s1.takeFrame m h payload
        | none =>
          let d := homeDie ing
          if 1024 ≤ (s1.msgs.filter (fun m => m.die = d)).length then
            (s1.bumpDev dkBReasmFull).lossEcho key h.part.toNat mule
          else
            let m : OpenMsg := { key := key, die := d, part := h.part.toNat, qid := qid }
            State.takeFrame { s1 with msgs := s1.msgs ++ [m] } m h payload

/-! ### Class C streams (R132-R139) -/

def State.setTx (s : State) (k : StreamKey) (t : TxStream) : State := { s with txs := assocSet s.txs k t }
def State.setRx (s : State) (k : StreamKey) (r : RxStream) : State := { s with rxs := assocSet s.rxs k r }

/-- Status of a started send entry (R346). -/
def State.setEntry (s : State) (e : Nat × Nat) (f : Started → Started) : State :=
  match s.queue? e.1 with
  | none => s
  | some q => s.setQueue e.1 { q with started := q.started.map (fun x => if x.idx = e.2 then f x else x) }

/-- A C_DATA, C_ACK or C_NOTREADY header of an endpoint of this Dolmo. -/
def State.cHeader (s : State) (typ : Nat) (k : StreamKey) (part len queue : Nat) (seq ack : BitVec 16)
    (ackv syn rst : Bool) : Header :=
  let w := cWords seq ack queue ackv syn rst
  { s.ownHeader typ k.localPort.toNat k.far part k.ctx len with w16 := w.1, w20 := w.2 }

/-- A stream's local endpoint is Mule. -/
def muleEnd (k : StreamKey) : Bool := k.localPort = 0x41

/-- A C_ACK for A (R136). -/
def State.sendAck (s : State) (k : StreamKey) (r : RxStream) : State :=
  (s.setRx k { r with ackAt := none, ackNow := false }).sendLocal (endIng (muleEnd k))
    (s.cHeader tyCAck k r.part 0 0 0 r.a true false false) []

/-- A C_ACK with RST (R134, R144); the spec gives its ACK field no value. (DESIGN CHOICE, log 16; DESIGN CHOICE, log 37) -/
def State.sendRst (s : State) (k : StreamKey) (part port : Nat) : State :=
  let f := s.fresh
  let s1 := f.2.bumpC (muleEnd k) port k.ctx .rstTx
  s1.sendLocal (endIng (muleEnd k)) (s1.cHeader tyCAck k part 0 0 0 (f.1.setWidth 16) true false true) []

/-- A frame is put at the end of a stream, numbered (R133). -/
def State.queueC (s : State) (k : StreamKey) (part dq : Nat) (payload : List Byte) (entry : Option (Nat × Nat))
    (rank : Option Nat) : State :=
  let t := (assoc? s.txs k).getD {}
  s.setTx k { t with
    next := t.next + 1
    unacked := t.unacked ++ [{
      seq := t.next, syn := (assoc? s.txs k).isNone, part := part, dq := dq, payload := payload, entry := entry, rank := rank }] }

/-- The address of a rank under the table of EPOCH.CURRENT (R195, R196). -/
def State.rankAddr (s : State) (p rank : Nat) : Option (BitVec 32) :=
  if rank < 4096 then s.epoch.cur.remap.get? (p * 4096 + rank) else none

/-- A frame that has not been sent leaves its stream, and the unsent frames behind it take its place in the numbering. -/
def TxStream.withdraw (t : TxStream) (u : Unacked) : TxStream :=
  let before := t.unacked.takeWhile (fun x => x.seq ≠ u.seq)
  let after := match t.unacked.drop (before.length + 1) with
    | [] => []
    | x :: r => { x with syn := u.syn || x.syn } :: r
  { t with next := t.next - 1, unacked := before ++ after.map (fun x => { x with seq := x.seq - 1 }) }

def State.withdrawC (s : State) (k : StreamKey) (t : TxStream) (u : Unacked) : State :=
  let t1 := t.withdraw u
  if u.syn && t1.unacked.isEmpty then { s with txs := s.txs.filter (fun e => e.1 ≠ k) } else s.setTx k t1

/-- The stream of a frame that is about to be built for the first time: the address of its rank is looked up now (R195, R196).
(DEDUCED, log 30) -/
def State.aimC (s : State) (k : StreamKey) (t : TxStream) (u : Unacked) : Option StreamKey × State :=
  match u.rank with
  | none => (some k, s)
  | some r =>
    if u.sends ≠ 0 then (some k, s)
    else
      match s.rankAddr u.part r with
      | none =>
        let s1 := (s.withdrawC k t u).bumpPart u.part rkRankInvalid
        (none, match u.entry with | some e => s1.setEntry e (fun x => { x with status := some 2 }) | none => s1)
      | some d =>
        if d = k.far then (some k, s)
        else
          let k1 := { k with far := d }
          (some k1, (s.withdrawC k t u).queueC k1 u.part u.dq u.payload u.entry u.rank)

/-- Mule sends a class C message. (DESIGN CHOICE, log 18) -/
def State.muleSendC (s : State) (dst : BitVec 32) (part ctx : Nat) (bytes : List Byte) : State :=
  s.queueC { localPort := 0x41, far := dst, ctx := ctx } part Config.muleQueue bytes none none

/-- The reply to a service request (R405, Table 16.3): the same SERVICE, REQ_ID and SCOPE, and OP with bit 7 set. -/
def State.svcReply (s : State) (m : SvcMsg) (status : Nat) (body : List Byte) : State :=
  s.muleSendC m.src m.part m.ctx
    (bytesAt m.bytes 0 1 ++ leBytes 1 (natAt m.bytes 1 1 % 128 + 128) ++ leBytes 1 status ++ leBytes 1 0 ++
      bytesAt m.bytes 4 8 ++ leBytes 4 body.length ++ body)

/-- A rank of a Roll-call job is removed (R409, R410). -/
def Job.leave (j : Job) (gone : BitVec 32 → Bool) : Job := { j with ranks := j.ranks.filter (fun e => !gone e.2) }

/-- A Mule stream has failed: its peer's ranks leave their jobs (R410), and a MAP stream is logged (R411).
(DEDUCED, log 47) -/
def State.muleStreamFailed (s : State) (k : StreamKey) (t : TxStream) : State :=
  let s1 := s.bumpDev dkMuleCTimeout
  let s2 := { s1 with mule := { s1.mule with jobs := s1.mule.jobs.map (fun e => (e.1, e.2.leave (· = k.far))) } }
  match t.unacked.find? (fun u => natAt u.payload 0 1 = 2 && natAt u.payload 1 1 = 7) with
  | some u => s2.log (.mapFailed (natAt u.payload 8 4))
  | none => s2

/-- A stream fails with C_TIMEOUT (16) or C_RESET (17), and its entries with the status of Table 13.8 (R138, R139). -/
def State.failStream (s : State) (k : StreamKey) (code : Nat) : State :=
  match assoc? s.txs k with
  | none => s
  | some t =>
    let s1 := { s with txs := assocErase s.txs k }
    if (muleEnd k) then s1.muleStreamFailed k t
    else
      let s2 := t.unacked.foldl (fun a u =>
        match u.entry with
        | some e => a.setEntry e (fun x => { x with status := some (x.status.getD (code - 11)) })
        | none => a) s1
      s2.ctxFault k.ctx code

/-- An acknowledgement arrives (R137). -/
def State.ackArrives (s : State) (k : StreamKey) (ack : BitVec 16) : State :=
  match assoc? s.txs k with
  | none => s
  | some t =>
    match t.unacked with
    | [] => s
    | u :: _ =>
      let n := (ack - u.seq).toNat
      if 256 ≤ n then s
      else
        let covered (x : Unacked) : Bool := (x.seq - u.seq).toNat ≤ n && x.sends ≠ 0
        let done := t.unacked.filter covered
        if done.isEmpty then s
        else
          let rest := t.unacked.filter (fun x => !covered x)
          let running := rest.any (fun x => x.sends ≠ 0)
          let t1 := { t with unacked := rest, interval := 2
                             timer := if running && t.retryAt.isNone then some (s.time + 2 * s.tickNs) else none }
          done.foldl (fun a x =>
            match x.entry with
            | some e => a.setEntry e (fun y => { y with status := some (y.status.getD 0), moved := x.payload.length })
            | none => a) (s.setTx k t1)

/-- The stream that a frame for an endpoint of this Dolmo belongs to. -/
def streamKey (h : Header) : StreamKey := { localPort := h.dstPort, far := h.src, ctx := h.ctx.toNat }

/-- A class C message is delivered (R135, R349); none where it finds no room. -/
def State.deliverMsg (s : State) (h : Header) (payload : List Byte) (mule : Bool) : Option State :=
  if mule then
    if s.fw.muleUp then
      some { s with mule := { s.mule with
        inbox := s.mule.inbox ++ [{ src := h.src, part := h.part.toNat, ctx := h.ctx.toNat, bytes := payload }] } }
    else none
  else
    match s.rqOf h.ctx.toNat h.cQueue with
    | none => none
    | some qid =>
      match s.rqTake qid with
      | (none, _) => none
      | (some ring, t) =>
        some ((t.bufWrite qid h.part.toNat ring 0 payload).recvRecord qid 0 7 h.src (h.seq.setWidth 32) 0
          h.len.toNat ring)

/-- Streams the table holds (R134). (DEDUCED, log 36) -/
def maxStreams : Nat := 16384

/-- A frame in order is accepted, or finds no room (R134, R136). (DEDUCED, log 36) -/
def State.acceptC (s : State) (ing : Nat) (h : Header) (payload : List Byte) (mule : Bool) (old : Option RxStream) : State :=
  let k := streamKey h
  if old.isNone && maxStreams ≤ s.rxs.length then s.bumpC mule ing k.ctx .streamFull
  else
    match s.deliverMsg h payload mule with
    | none => s.bumpC mule ing k.ctx .rxFull
    | some t =>
      let due := (old.bind RxStream.ackAt).getD s.time
      t.setRx k { a := h.seq, part := h.part.toNat, port := ing, ackAt := some due
                  ackNow := (old.map RxStream.ackNow).getD false }

/-- A C_DATA frame is judged by its sequence number (R134). (DEDUCED, log 38; DEDUCED, log 39) -/
def State.judgeC (s : State) (ing : Nat) (h : Header) (payload : List Byte) (mule : Bool) : State :=
  let k := streamKey h
  match assoc? s.rxs k with
  | none =>
    if h.syn then
      if h.seq = 0 then s.acceptC ing h payload mule none else s.bumpC mule ing k.ctx .seqBad
    else s.sendRst k h.part.toNat ing
  | some r =>
    let d := (h.seq - r.a).toNat
    if d = 1 then s.acceptC ing h payload mule (some r)
    else if d = 0 || 65280 ≤ d then (s.bumpC mule ing k.ctx .dup).sendAck k r
    else if d ≤ 256 then (s.bumpC mule ing k.ctx .gap).sendAck k r
    else s.bumpC mule ing k.ctx .seqBad

/-- The answer to a class C frame discarded for its context or queue (R144, R348): a C_DATA frame belongs to the stream it is
numbered in, a C_ACK or C_NOTREADY to the one it answers. (DEDUCED, log 38) -/
def State.refuseC (s : State) (ing : Nat) (h : Header) : State :=
  let k := streamKey h
  let none_ : Bool := if h.typ.toNat = tyCData then (assoc? s.rxs k).isNone else (assoc? s.txs k).isNone
  if h.syn || none_ then s.sendRst k h.part.toNat ing else s

/-- A class C frame reaches port HP or Mule. -/
def State.deliverC (s : State) (ing : Nat) (h : Header) (payload : List Byte) (mule : Bool) : State :=
  let k := streamKey h
  if !mule && !s.ctxTakes h then (s.bumpIng ing pkCtxDrop).refuseC ing h
  else
    let s1 := if h.ackv && !h.rst then s.ackArrives k h.ack else s
    match h.typ.toNat with
    | 0x04 => if h.rst then s1.failStream k 17 else s1
    | 0x06 =>
      match assoc? s1.txs k with
      | none => s1
      | some t =>
        if t.unacked.isEmpty then s1
        else
          s1.setTx k { t with
            timer := none
            retryAt := some (s.time + natAt payload 0 4 * 1000)
            waited := t.waited + (match t.retryAt with | some _ => s.time - t.waitFrom | none => 0)
            waitFrom := s.time
            unacked := t.unacked.map (fun u => if u.seq = h.ack then { u with sends := u.sends - 1 } else u) }
    | _ =>
      if !mule && (s1.rqOf h.ctx.toNat h.cQueue).isNone then (s1.bumpCtx h.ctx.toNat xkQueueDrop).refuseC ing h
      else s1.judgeC ing h payload mule

/-! ### Echoes received (R209, R213) -/

/-- The queue of a context that used a message number. -/
def State.echoQueue (s : State) (ctx : Nat) (msg : BitVec 32) : Option (Nat × Queue) :=
  s.queues.find? (fun e => e.2.ctx = ctx && e.2.kind = 1 && e.2.sent.contains msg)

/-- A B_ECHO frame reaches an endpoint. -/
def State.deliverEcho (s : State) (ing : Nat) (h : Header) (payload : List Byte) (mule : Bool) : State :=
  if !mule && !s.ctxTakes h then s.bumpIng ing pkCtxDrop
  else
    let s1 := (s.echoAccount h false mule).bumpDev dkEchoRx
    let kind := natAt payload 12 1
    if mule then
      match kind with
      | 1 =>
        if s1.mule.drains.any (fun d => d.parts.any (fun e => e.2.msg = h.msg && e.2.sends ≠ 0)) then
          { s1 with mule := { s1.mule with echoed := true } }
        else s1
      | 2 =>
        { s1 with mule := { s1.mule with drains := s1.mule.drains.map (fun d =>
            { d with parts := d.parts.map (fun e =>
                (e.1, if e.2.msg = h.msg && e.2.sends ≠ 0 && !e.2.done then { e.2 with lost := true } else e.2)) }) } }
      | _ => s1
    else
      match kind with
      | 1 =>
        match s1.echoQueue h.ctx.toNat h.msg with
        | some (qid, q) => s1.setQueue qid { q with echoed := true }
        | none => s1
      | 2 => s1.postEvent h.ctx.toNat 2 h.msg.toNat h.src.toNat
      | _ => s1

/-! ### Delivery -/

/-- A stored frame reaches port HP or Mule (R143). A multicast copy of class S finds no receiver there.
(DESIGN CHOICE, log 35; DEDUCED, log 40) -/
def State.deliver (s : State) (ing : Nat) (h : Header) (payload : List Byte) (crowd mule : Bool) : State :=
  match h.typ.toNat with
  | 0x01 => s.bumpIng ing pkNoRoute
  | 0x02 => s.deliverB ing h payload crowd mule
  | 0x05 => s.deliverEcho ing h payload mule
  | _ => s.deliverC ing h payload mule

/-- A delivery whose crossing of the die bridge failed discards the frame (R147). -/
def State.deliverAcross (s : State) (ing : Nat) (h : Header) (payload : List Byte) (crowd mule bad : Bool) : State :=
  if bad && homeDie ing ≠ 1 then s.bumpDie 1 ikBridgeErr else s.deliver ing h payload crowd mule

/-- A consumed frame is held in its handle (R272), or released at once where a squash removed its claim (R281).
(DEDUCED, log 42) -/
def State.bindFrame (s : State) (d : Option (Nat × Nat)) (h : Header) (n : Nat) : State :=
  match d with
  | none => s
  | some (p, k) =>
    match (s.thread p).handles.get? k with
    | none => s.release n
    | some v =>
      let s1 := s.modThread p (fun t => { t with handles := t.handles.set k { v with frames := v.frames.set h.frame n } })
      if v.dead.contains h.frame then s1.release n else s1

/-- A frame with its buffer is stored, its copies placed, and its local deliveries made (R168). -/
def State.finishStore (s : State) (ing : Nat) (h : Header) (payload : List Byte) (crowd : Bool) (d : Dest) (b : Buffer)
    (fb bad : Bool) (own : Option (Nat × Nat)) : State :=
  match s.storeCopies ing h payload crowd d b fb bad own with
  | (none, s1) => s1
  | (some n, s1) =>
    let s2 := s1.bindFrame d.handle h n
    let s3 := if d.host then (s2.deliverAcross ing h payload crowd false bad).release n else s2
    if d.mule then (s3.deliverAcross ing h payload crowd true bad).release n else s3

/-- A routed frame asks Hen for its buffer (R172-R176), behind every earlier frame of its ingress point and class (R150). -/
def State.admitFrame (s : State) (ing : Nat) (h : Header) (payload : List Byte) (crowd : Bool) (d : Dest)
    (bad limited : Bool) : State :=
  let w (k : Nat) : HenWait :=
    { pool := k, ingress := ing, at_ := s.time, hdr := h, payload := payload, crowd := crowd, dest := d, bad := bad
      limited := limited }
  if (s.die (homeDie ing)).behind ing h then s.addWait (w (sizeClass h.len.toNat))
  else
    match s.henChoose (homeDie ing) h (s.reserveOnly ing limited) false with
    | .none => s.noBuffer (homeDie ing)
    | .wait k => s.addWait (w k)
    | .got b fb => s.finishStore ing h payload crowd d b fb bad none

/-- A waiting frame may take its turn: it is built if R159 lets it be, no earlier frame of its ingress point and class waits
(R150), and a frame of a send queue or of Mule finds a reserve buffer at BLACK (R184). (DESIGN CHOICE, log 34) -/
def State.waitReady (s : State) (d : Nat) (w : HenWait) : Bool :=
  (!w.held || s.mayBuild w.ingress w.hdr) &&
  !((s.die d).waits.takeWhile (fun x => x != w)).any (fun x => x.ingress = w.ingress && x.hdr.cls = w.hdr.cls) &&
  !(s.reserveOnly w.ingress w.limited && s.henChoose d w.hdr true true = .none)

/-- A waiting frame takes its turn (R176). -/
def State.serveWait (s : State) (d : Nat) (w : HenWait) : State :=
  let s1 := s.dropWaits d (fun x => x == w)
  match s1.henChoose d w.hdr (s1.reserveOnly w.ingress w.limited) true with
  | .none => s1.noBuffer d
  | .wait k => s1.addWait { w with pool := k, held := false }
  | .got b fb => s1.finishStore w.ingress w.hdr w.payload w.crowd w.dest b fb w.bad w.own

end Sys2Proof.Machine
end

