-- ==== Sys2Proof/Machine/Frames.lean ====
section
/-! DEFINITION. The commands of frames on links: received frames, credits, class C timers, the egress, frames built at port
HP and by Mule, Hen, echoes and class B messages. -/

namespace Sys2Proof.Machine

/-! ### Received frames -/

/-- The sender has credit for a frame, by this Dolmo's own count (R131). -/
def State.rxAllows (s : State) (p : Nat) (h : Header) : Bool :=
  match h.cls with
  | .s => true
  | .link => true
  | k =>
    let a := s.acct p (k = .c)
    let d := (a.limit - a.rx).toNat
    frameUnits h.len.toNat ≤ d && d < 2 ^ 31

/-- The units of a class B or C frame received count in RX (R157). (DEDUCED, log 31) -/
def State.countRx (s : State) (p : Nat) (h : Header) : State :=
  if (h.cls = .b || h.cls = .c) && s.rxAllows p h then
    let c := decide (h.cls = .c)
    let a := s.acct p c
    s.setAcct p c { a with rx := a.rx + BitVec.ofNat 32 (frameUnits h.len.toNat) }
  else s

/-- The counter of a frame that this Dolmo does not take further on its port: before READY (R448), in quarantine (R95),
outside PART_PORTS (R334). -/
def State.turnedAway (s : State) (p : Nat) (h : Header) : Option Nat :=
  if !s.power.ready then
    some (match h.cls with | .s => pkEarlyDropS | .b => pkEarlyDropB | _ => pkEarlyDropC)
  else if (s.port p).quarantined && !(h.cls = .c && muleFrame h) then some pkQuarantineDrop
  else if !s.mayUse h p then some pkPartDrop
  else none

/-- The bound handle that consumes a class S frame (R190, R272): thread, handle number, handle. -/
def State.handleFor (s : State) (p : Nat) (h : Header) : Option (Nat × Nat × Handle) :=
  let part := h.part.toNat
  if h.tick = s.rooster.tickNo.setWidth 32 then
    ((s.thread part).handles.find? (fun e => e.2.grant.covers p h.slot false)).map (fun e => (part, e.1, e.2))
  else none

/-- The header of a frame is good: checks 3 and 4 (R121). -/
def headerGood (f : RxFrame) : Bool := !f.fecHeader && f.hcrc = hcrc16 f.hdr.bytes && headerLegal f.hdr

/-- S_IN has room for a class S frame (R155). -/
def Port.roomS (q : Port) (h : Header) : Bool := q.sInHeld + frameUnits h.len.toNat ≤ q.sIn

/-- A frame that turned out bad after its header could be forwarded: every copy that has begun is stomped (R123). -/
def State.stompCopies (s : State) (p : Nat) (f : RxFrame) (r : RxFail) : State :=
  let h := f.hdr
  if (r = .lost || r = .fec || r = .stomp || r = .crc) && h.cls ≠ .link && s.epochOk h.epoch && s.ttlOk h &&
      (s.turnedAway p h).isNone && s.rxAllows p h && !(h.cls = .s && ((s.handleFor p h).isSome || !(s.port p).roomS h)) then
    match (s.route p h).2 with
    | none => s
    | some d =>
      let e : QEntry := { desc := none, hdr := h, payload := f.body, ingress := p, mc := d.mc }
      d.ports.foldl (fun t q => if t.cutsThrough p q e then t.startNow q e true else t) s
  else s

/-- C_NOTREADY answers a class C frame for an endpoint of this Dolmo before READY (R139, R448, R449). -/
def State.notReady (s : State) (h : Header) : State :=
  let ms := s.time / 1000000
  let sent := if s.power.nrMs = ms then s.power.nrSent else 0
  if 64 ≤ sent then s.bumpDev dkNotreadySuppressed
  else
    let ra := max 1000 (ceilDiv (1000000000 - s.time) 1000)
    let k := streamKey h
    let s1 := { s with power := { s.power with nrMs := ms, nrSent := sent + 1 } }
    (s1.bumpDev dkNotreadyTx).sendLocal (endIng (muleEnd k))
      (s1.cHeader tyCNotready k h.part.toNat 8 0 0 h.seq false false false) (leBytes 4 ra ++ leBytes 4 0)

/-- A frame takes its class S charge within S_IN, or is discarded (R155). -/
def State.admitS (s : State) (p : Nat) (f : RxFrame) (d : Dest) : State :=
  if !(s.port p).roomS f.hdr then s.bumpPort p pkSLimitDrop
  else s.admitFrame p f.hdr f.body (f.status.getLsbD 1) d f.bridgeBad false

/-- A class S frame that passed its checks (R26, R42, R190, R272, R273). (DEDUCED, log 41; DEDUCED, log 42) -/
def State.arriveS (s : State) (p : Nat) (f : RxFrame) : State :=
  let h := f.hdr
  if s.twin.st = .detached then s
  else if (h.tick - s.rooster.tickNo.setWidth 32).msb || (s.port p).delayOver then s.bumpPort p pkLateRx
  else
    match s.handleFor p h with
    | some (part, k, v) =>
      if v.dl < s.rooster.slot then s.bumpPort p pkLateRx
      else if h.chunk ≠ v.chunk || (v.frames.get? h.frame).isSome then
        s.bumpPort p pkRecvMismatch
      else s.admitS p f { handle := some (part, k) }
    | none =>
      match s.route p h with
      | (s1, none) => s1
      | (s1, some d) => s1.admitS p f d

/-- A class B or C frame that passed its checks. (DEDUCED, log 43) -/
def State.arriveBC (s : State) (p : Nat) (f : RxFrame) : State :=
  match s.route p f.hdr with
  | (s1, none) => s1
  | (s1, some d) => s1.admitFrame p f.hdr f.body (f.status.getLsbD 1) d f.bridgeBad false

/-- A frame other than a link-local one comes off the lanes (R121, R122, R131, R148, R190, R334, R448). -/
def State.judge (s : State) (p typ : Nat) (f : RxFrame) : State :=
  match s.rxFail p f with
  | some r =>
    let s1 := if headerGood f && !(s.port p).hunt then (s.stompCopies p f r).countRx p f.hdr else s
    s1.rxDiscard p f r
  | none =>
    let h := f.hdr
    if h.typ.toNat ≠ typ then s
    else
      let done (t : State) : State := t.modPort p (fun q => { q with hunt := false })
      if !s.rxAllows p h then done (s.bumpPort p pkCreditViol)
      else
        let s1 := s.countRx p h
        if !s1.power.ready && h.cls = .c && h.dstLoc = s1.power.loc && (h.dstPort = 0x40 || h.dstPort = 0x41) then
          done (s1.notReady h)
        else
          match s1.turnedAway p h with
          | some k => done (s1.bumpPort p k)
          | none => done (if h.cls = .s then s1.arriveS p f else s1.arriveBC p f)

/-- A frame other than a link-local one arrives on a port: a live, active port counts what its lanes did and judges it. -/
def State.arrive (s : State) (p typ : Nat) (f : RxFrame) : State :=
  if !s.alive || !(s.port p).active then s else (s.lineCounts p f).judge p typ f

def execSData (port : Nat) (f : RxFrame) (s : State) : Res := withPort port (.next (s.arrive port tySData f))
def execBData (port : Nat) (f : RxFrame) (s : State) : Res := withPort port (.next (s.arrive port tyBData f))
def execCData (port : Nat) (f : RxFrame) (s : State) : Res := withPort port (.next (s.arrive port tyCData f))
def execCAck (port : Nat) (f : RxFrame) (s : State) : Res := withPort port (.next (s.arrive port tyCAck f))
def execBEcho (port : Nat) (f : RxFrame) (s : State) : Res := withPort port (.next (s.arrive port tyBEcho f))
def execCNotready (port : Nat) (f : RxFrame) (s : State) : Res := withPort port (.next (s.arrive port tyCNotready f))

/-! ### Credits (R129-R131, R157) -/

/-- CREDIT: the limits of the partner's receiver (Table 4.7). -/
def execCredit (port : Nat) (f : RxFrame) (s : State) : Res :=
  withPort port (.next
    (match s.linkRx port tyCredit f with
     | (s1, some b) =>
       s1.modPort port (fun q => { q with
         credB := { q.credB with txLimit := BitVec.ofNat 32 (natAt b 0 4) }
         credC := { q.credC with txLimit := BitVec.ofNat 32 (natAt b 4 4) } })
     | (s1, none) => s1))

/-- How far a CREDIT frame built now moves LIMIT (R130, R157). -/
def State.limitRise (s : State) (port : Nat) (c : Bool) : Nat :=
  let a := s.acct port c
  let g := s.gminCredit port c
  if !(s.port port).creditFirst then g
  else g + s.sAllow (homeDie port) c - (a.h + (a.limit - a.rx).toNat)

/-- LIMIT is raised. (DESIGN CHOICE, log 32) -/
def State.raiseLimit (s : State) (port : Nat) (c : Bool) : State :=
  let a := s.acct port c
  s.setAcct port c { a with limit := a.limit + BitVec.ofNat 32 (s.limitRise port c) }

/-- A CREDIT frame is to be built (R130): the first of a link, after 16 slots, when a LIMIT has advanced by 64, or 512 ns
after a smaller advance. (DEDUCED, log 33) -/
def State.creditWanted (s : State) (port : Nat) : Bool :=
  let q := s.port port
  let rise := max (s.limitRise port false) (s.limitRise port true)
  !q.creditFirst || 16 ≤ q.creditSlots || 64 ≤ rise ||
  (rise ≠ 0 && (match q.riseAt with | some t => t + 512 ≤ s.time | none => false))

/-- CREDIT_SEND: the receiver builds a CREDIT frame, class B first, and the frame waits at the head of its egress.
(DESIGN CHOICE, log 32; DEDUCED, log 33) -/
def execCreditSend (port : Nat) (s : State) : Res :=
  withPort port (.next
    (let q := s.port port
     if s.alive && q.active && s.creditWanted port then
       let s1 := (s.raiseLimit port false).raiseLimit port true
       s1.modPort port (fun q => { q with creditFirst := true, creditSlots := 0, riseAt := none, creditDue := true })
     else s))

/-- CREDIT_STALL: frames of a class have waited 64 ticks with no credit (R131). (DESIGN CHOICE, log 7) -/
def execCreditStall (port : Nat) (classC : Bool) (s : State) : Res :=
  withPort port (.next
    (let q := s.port port
     let c := if classC then q.credC else q.credB
     if 64 ≤ c.wait && !c.stalled then
       let c' := { c with stalled := true }
       (s.setPort port (if classC then { q with credC := c' } else { q with credB := c' })).bumpPort port pkCreditStall
     else s))

/-! ### Class C timers (R136-R139) -/

/-- The port over which a Mule stream's frames leave (R488), 49 where there is none. -/
def State.portTo (s : State) (k : StreamKey) : Nat :=
  match (s.route ingMule (s.cHeader tyCData k 0 0 0 0 0 false false false)).2 with
  | some d => d.ports.headD 49
  | none => 49

/-- C_RETRY_TIMEOUT. (DESIGN CHOICE, log 7) -/
def execCRetryTimeout (k : StreamKey) (s : State) : Res :=
  .next
    (match assoc? s.txs k with
     | none => s
     | some t =>
       match t.timer, t.unacked with
       | some at_, u :: _ =>
         if s.time < at_ then s
         else if 8 ≤ u.sends then s.failStream k 16
         else
           let iv := min 32 (2 * t.interval)
           (s.setTx k { t with unacked := t.unacked.map (fun x => { x with due := true }), interval := iv
                               timer := some (s.time + iv * s.tickNs) }).bumpC (muleEnd k) (s.portTo k) k.ctx .retry
       | _, _ => s)

/-- C_ACK_SEND: an acceptance not yet acknowledged is, within 64 slots. -/
def execCAckSend (k : StreamKey) (s : State) : Res :=
  .next
    (match assoc? s.rxs k with
     | none => s
     | some r => if r.ackAt.isSome then s.sendAck k r else s)

/-- NOTREADY_RETRY: the wait of a C_NOTREADY ends, or has lasted more than 2 s in all. -/
def execNotreadyRetry (k : StreamKey) (s : State) : Res :=
  .next
    (match assoc? s.txs k with
     | none => s
     | some t =>
       match t.retryAt with
       | none => s
       | some at_ =>
         let spent := t.waited + (s.time - t.waitFrom)
         if 2000000000 < spent then s.failStream k 16
         else if s.time < at_ then s
         else s.setTx k { t with retryAt := none, waited := spent
                                 unacked := t.unacked.map (fun x => { x with due := true })
                                 timer := some (s.time + t.interval * s.tickNs) })

/-! ### The egress -/

/-- EGRESS_FRAME_START (R160). -/
def execEgressFrameStart (start : EgressStart) (s : State) : Res :=
  withPort start.port (.next (if s.alive then s.egressStart start.port start.bridgeBad else s))

/-- EGRESS_FRAME_END (R168). -/
def execEgressFrameEnd (port : Nat) (s : State) : Res := withPort port (.next (s.egressEndFrame port))

/-- MC_HOLD_EXPIRY: a class B residue copy that has not started is dropped, and a copy of either class for a DOWN port
(R165, R166). -/
def execMcHoldExpiry (port desc : Nat) (s : State) : Res :=
  withPort port (.next
    (let q := s.port port
     match (q.qB ++ (if q.down then q.qS else [])).find? (fun e => e.mc && e.desc = some desc) with
     | none => s
     | some e =>
       if s.time < e.at_ + (s.die e.die).mcHold * s.tickNs then s
       else ((s.setPort port { q with qB := dropFirst e q.qB, qS := dropFirst e q.qS }).dropEntry port e).bumpPort port
         (if q.down then pkMcDownDrop else pkMcResidueDrop)))

/-! ### Frames built at port HP and by Mule (R143, R159, R184, R195, R210) -/

/-- A built frame is routed and stored. -/
def State.launch (s : State) (ing : Nat) (h : Header) (payload : List Byte) : State :=
  match s.route ing h with
  | (s1, none) => s1
  | (s1, some d) => s1.admitFrame ing h payload false d false true

/-- The frame of a stream that is to be built next: the oldest due one of the first 256, where no C_NOTREADY wait runs. -/
def TxStream.nextDue (t : TxStream) : Option Unacked :=
  if t.retryAt.isSome then none else (t.unacked.take 256).find? Unacked.due

/-- A C_DATA frame of a stream is built, with the acknowledgement of the reverse stream (R133, R136). -/
def State.buildC (s : State) (k : StreamKey) (t : TxStream) (u : Unacked) : State :=
  let rx := assoc? s.rxs k
  let a := match rx with
    | some r => r.a
    | none => 0
  let h := s.cHeader tyCData k u.part u.payload.length u.dq u.seq a rx.isSome u.syn false
  let ing := endIng (muleEnd k)
  if s.mayBuild ing h then
    let t1 := { t with
      unacked := t.unacked.map (fun x => if x.seq = u.seq then { x with sends := x.sends + 1, due := false } else x)
      timer := some (t.timer.getD (s.time + t.interval * s.tickNs)) }
    let s1 := s.setTx k t1
    let s2 := match rx with
      | some r => s1.setRx k { r with ackAt := none, ackNow := false }
      | none => s1
    s2.launch ing h u.payload
  else s

/-- The header of a B_DATA frame (R126). -/
def State.bHeader (s : State) (srcPort : Nat) (dst : BitVec 32) (part ctx dq n : Nat) (msg : BitVec 32)
    (moff : Nat) (last : Bool) : Header :=
  { s.ownHeader tyBData srcPort dst part ctx n with
    first := moff = 0, last := last, w16 := msg, w20 := BitVec.ofNat 32 moff, w24 := BitVec.ofNat 32 (moff / 16 % 65536)
    w28 := BitVec.ofNat 16 (dq % 4096) }

/-- The next frame of a B_SEND in progress (R346). (DEDUCED, log 30) -/
def State.buildB (s : State) (qid : Nat) (q : Queue) (e : Started) (data : List Byte) : State :=
  let p := s.ctxPart q.ctx
  match s.rankAddr p e.rank with
  | none =>
    (s.setEntry (qid, e.idx) (fun x => { x with status := some 2 })).bumpPart p rkRankInvalid
  | some dst =>
    let n := min 4096 (e.len - e.built)
    let last : Bool := e.len ≤ e.built + n
    let h := s.bHeader 0x40 dst p q.ctx e.dq n e.msg (e.built / 4096) last
    if n ≤ q.bucket && s.mayBuild ingHP h then
      let x := { e with built := e.built + n, moved := e.built + n, status := if last then some 0 else none }
      let s1 := (s.setQueue qid { q with bucket := q.bucket - n
                                         started := q.started.map (fun y => if y.idx = e.idx then x else y) }).emit
        (.pcieRead (s.fnOf p) (e.host + BitVec.ofNat 64 e.built) n)
      s1.launch ingHP h (padTo n data)
    else s

/-- The streams whose next frame belongs to a queue (0-4,095) or to Mule. -/
def State.dueStream (s : State) (src : Nat) : Option (StreamKey × TxStream × Unacked) :=
  s.txs.findSome? (fun e =>
    match e.2.nextDue with
    | some u =>
      let mine : Bool := match u.entry with
        | some x => x.1 = src
        | none => src = muleQid
      if mine then some (e.1, e.2, u) else none
    | none => none)

/-- Bytes of part `k` of a drain. (DESIGN CHOICE, log 48) -/
def Drain.partLen (d : Drain) (k : Nat) : Nat := min 0x1000000 (d.len - k * 0x1000000)

/-- The part of a drain that is being sent. -/
def Drain.sending (d : Drain) : Option (Nat × DrainPart) :=
  d.parts.find? (fun e => e.2.sends ≠ 0 && !e.2.done && !e.2.lost && e.2.built < d.partLen e.1)

def State.setDrain (s : State) (d : Drain) : State :=
  { s with mule := { s.mule with drains := s.mule.drains.map (fun x => if x.id = d.id then d else x) } }

/-- A drain ends with a reply (R413). -/
def State.endDrain (s : State) (d : Drain) (status : Nat) (body : List Byte) : State :=
  State.svcReply { s with mule := { s.mule with drains := s.mule.drains.filter (fun x => x.id ≠ d.id) } } d.req status body

/-- The next frame of a drain part (R412). (DESIGN CHOICE, log 48) -/
def State.buildDrain (s : State) (d : Drain) (k : Nat) (x : DrainPart) : State :=
  let p := d.req.part
  let n := min 4096 (d.partLen k - x.built)
  let last : Bool := d.partLen k ≤ x.built + n
  match s.segAddr p d.ctx d.seg (d.offset + k * 0x1000000 + x.built) n with
  | none => s.endDrain d 2 []
  | some a =>
    let set (t : State) (bucket : Nat) : State :=
      State.setDrain { t with mule := { t.mule with bucket := bucket } }
        { d with parts := d.parts.set k { x with built := x.built + n } }
    match s.rankAddr p d.rank with
    | none => (set s s.mule.bucket).bumpPart p rkRankInvalid
    | some dst =>
      let h := s.bHeader 0x41 dst p d.ctx d.dq n x.msg (x.built / 4096) last
      if n ≤ s.mule.bucket && s.mayBuild ingMule h && !s.depot.draining then
        let r := s.depotRead a n
        if r.1 then (set r.2.2 (s.mule.bucket - n)).launch ingMule h r.2.1 else r.2.2.endDrain d 6 []
      else s

/-- HOST_FRAME_BUILD: the next frame of a send queue, or of Mule (source 4,096). (DESIGN CHOICE, log 9) -/
def execHostFrameBuild (src : Nat) (data : List Byte) (s : State) : Res :=
  if 4096 < src then .fault .noSuchQueue
  else
    .next
      (if !s.alive || !s.power.ready then s
       else
         match s.dueStream src with
         | some (k, t, u) =>
           match s.aimC k t u with
           | (none, s1) => s1
           | (some k1, s1) =>
             match assoc? s1.txs k1 with
             | none => s1
             | some t1 =>
               match t1.nextDue with
               | some u1 => s1.buildC k1 t1 u1
               | none => s1
         | none =>
           if src = muleQid then
             match s.mule.drains.findSome? (fun d => d.sending.map (fun e => (d, e))) with
             | some (d, k, x) => s.buildDrain d k x
             | none => s
           else
             match s.queue? src with
             | none => s
             | some q =>
               match q.started.find? (fun e => e.opc = 1 && e.status.isNone) with
               | some e => s.buildB src q e data
               | none => s)

/-! ### Hen -/

/-- HEN_ALLOCATION: the first waiting request of a pool that may go takes its turn in the next cycle (R150, R159, R176, R184).
(DESIGN CHOICE, log 34) -/
def execHenAllocation (die pool : Nat) (s : State) : Res :=
  withUnit (die < 2 && pool < 3) (.next
    (let v := s.die die
     match v.waits.find? (fun w => w.pool = pool && s.waitReady die w) with
     | none => s
     | some w =>
       let busy : Bool := (v.pool pool).allocAt = some s.time || w.at_ = s.time
       let s1 := { s with time := if busy then s.time + 1 else s.time }
       s1.serveWait die w))

/-- HEN_LIST_REBUILD: at a hinge, a bad list is rebuilt (R178). -/
def execHenListRebuild (pool : Nat) (s : State) : Res :=
  withUnit (pool = 3 || pool = 4) (.next
    (let p := s.depot.pool pool
     if p.bad && s.rooster.slot = 0 then
       State.bumpDev { s with depot := s.depot.rebuild pool } dkHenRebuild
     else s))

/-- HEN_LEVEL_CHANGE (R183). -/
def execHenLevelChange (die : Nat) (s : State) : Res := withUnit (die < 2) (.next (s.judgeLevel die))

/-! ### Echoes and class B messages -/

/-- ECHO_SEND: the CROWD echo of a pair leaves (R207). Pairs of Mule have `ctx` raised by 1,024. -/
def execEchoSend (src : BitVec 32) (ctx : Nat) (s : State) : Res :=
  .next
    (match assoc? s.echoes (src, ctx) with
     | none => s
     | some e =>
       match e.due with
       | none => s
       | some (msg, marked, total, _) =>
         State.sendEcho { s with echoes := assocSet s.echoes (src, ctx) { e with due := none } } (1024 ≤ ctx) src e.part
           (ctx % 1024) msg marked total 1)

/-- B_MSG_TIMEOUT: a message incomplete 4 ticks after its latest frame is dropped (R212). -/
def execBMsgTimeout (k : MsgKey) (s : State) : Res :=
  .next
    (match s.msgs.find? (fun m => m.key = k) with
     | none => s
     | some m =>
       if m.complete || s.time < m.lastAt + 4 * s.tickNs then s else s.dropMsg m (devCtr dkBMsgLost))

end Sys2Proof.Machine
end

