-- ==== Sys2Proof/Machine/Epoch.lean ====
section
/-! DEFINITION. The epoch tables as they will stand after the next switch, their staging in the shadow (R15, R452), and
what plans give a port (R154, R437). -/

namespace Sys2Proof.Machine

/-! ### The tables after the next switch -/

def State.nextSlots (s : State) : Nat := if s.epoch.dirty.slots then s.epoch.shadow.slots else s.rooster.slots
def State.nextRoute (s : State) : Tbl (BitVec 128) := if s.epoch.dirty.route then s.epoch.shadow.route else s.epoch.cur.route
def State.nextSpread (s : State) : Tbl (List Nat) := if s.epoch.dirty.spread then s.epoch.shadow.spread else s.epoch.cur.spread
def State.nextGrants (s : State) : Tbl (List Grant) := if s.epoch.dirty.grants then s.epoch.shadow.grants else s.epoch.cur.grants
def State.nextVariants (s : State) : Tbl (BitVec 7) :=
  if s.epoch.dirty.variant then s.epoch.shadow.variant else s.epoch.cur.variant
def State.nextPlan (s : State) (p : Nat) : Option Plan :=
  (if s.epoch.dirty.plans.contains p then s.epoch.shadow.plans else s.epoch.cur.plans).get? p

/-- The plans of every partition after the next switch. (DEDUCED, log 82) -/
def State.nextPlans (s : State) : List (Nat × Plan) :=
  (List.range 128).filterMap (fun p => (s.nextPlan p).map (fun pl => (p, pl)))

/-- The VALID remap entries of a partition in a table. -/
def remapOf (t : Tbl (BitVec 32)) (p : Nat) : Tbl (BitVec 32) :=
  t.filter (fun e => p * 4096 ≤ e.1 && e.1 < (p + 1) * 4096)

def State.nextRemap (s : State) (p : Nat) : Tbl (BitVec 32) :=
  remapOf (if s.epoch.dirty.remap.contains p then s.epoch.shadow.remap else s.epoch.cur.remap) p

/-! ### Staging (R452) -/

/-- The kind is dirty, and its shadow a copy of the table in force, before the first write. -/
def State.openRoute (s : State) : State :=
  if s.epoch.dirty.route then s
  else { s with epoch := { s.epoch with shadow := { s.epoch.shadow with route := s.epoch.cur.route }
                                        dirty := { s.epoch.dirty with route := true } } }
def State.openSpread (s : State) : State :=
  if s.epoch.dirty.spread then s
  else { s with epoch := { s.epoch with shadow := { s.epoch.shadow with spread := s.epoch.cur.spread }
                                        dirty := { s.epoch.dirty with spread := true } } }
def State.openGrants (s : State) : State :=
  if s.epoch.dirty.grants then s
  else { s with epoch := { s.epoch with shadow := { s.epoch.shadow with grants := s.epoch.cur.grants }
                                        dirty := { s.epoch.dirty with grants := true } } }
def State.openVariant (s : State) : State :=
  if s.epoch.dirty.variant then s
  else { s with epoch := { s.epoch with shadow := { s.epoch.shadow with variant := s.epoch.cur.variant }
                                        dirty := { s.epoch.dirty with variant := true } } }
def State.openRemap (s : State) (p : Nat) : State :=
  if s.epoch.dirty.remap.contains p then s
  else
    let others : Tbl (BitVec 32) := s.epoch.shadow.remap.filter (fun e => !(p * 4096 ≤ e.1 && e.1 < (p + 1) * 4096))
    let t := (remapOf s.epoch.cur.remap p).foldl (fun a e => a.set e.1 e.2) others
    { s with epoch := { s.epoch with shadow := { s.epoch.shadow with remap := t }
                                     dirty := { s.epoch.dirty with remap := s.epoch.dirty.remap ++ [p] } } }

def State.modShadow (s : State) (f : Tables → Tables) : State := { s with epoch := { s.epoch with shadow := f s.epoch.shadow } }

def State.stageRoute (s : State) (i : Nat) (e : BitVec 128) : State :=
  s.openRoute.modShadow (fun t => { t with route := t.route.set i e })
def State.stageSpread (s : State) (i : Nat) (w : List Nat) : State :=
  s.openSpread.modShadow (fun t => { t with spread := t.spread.set i w })
def State.stageGrants (s : State) (p : Nat) (g : List Grant) : State :=
  s.openGrants.modShadow (fun t => { t with grants := t.grants.set p g })
def State.stageVariant (s : State) (p : Nat) (v : BitVec 7) : State :=
  s.openVariant.modShadow (fun t => { t with variant := t.variant.set p v })
def State.stageRemap (s : State) (p : Nat) (l : List (Nat × BitVec 32 × Bool)) : State :=
  (s.openRemap p).modShadow (fun t => { t with
    remap := l.foldl (fun a e => if e.2.2 then a.set (p * 4096 + e.1) e.2.1 else a.erase (p * 4096 + e.1)) t.remap })
def State.stageSlots (s : State) (n : Nat) : State :=
  { s with
    rooster := { s.rooster with cfgSlots := n }
    epoch := { s.epoch with shadow := { s.epoch.shadow with slots := n }, dirty := { s.epoch.dirty with slots := true } } }

/-- The plan of a partition is staged, or its absence. -/
def State.stagePlan (s : State) (p : Nat) (pl : Option Plan) : State :=
  let plans := match pl with
    | some x => s.epoch.shadow.plans.set p x
    | none => s.epoch.shadow.plans.erase p
  { s with epoch := { s.epoch with
      shadow := { s.epoch.shadow with plans := plans }
      dirty := { s.epoch.dirty with plans := if s.epoch.dirty.plans.contains p then s.epoch.dirty.plans
                                             else s.epoch.dirty.plans ++ [p] } } }

/-! ### What plans give a port -/

/-- Frames of 4,096 B per slot of a variant on a port (R276). -/
def Variant.frames (v : Variant) (port : Nat) : Nat := slotFrames (if port = 48 then v.minTwin else v.minWidth)

/-- Units that a variant's frames on a port and direction may hold: 16 for each frame of each granted slot (R154). -/
def Variant.units (v : Variant) (port : Nat) (out : Bool) : Nat :=
  ((v.grants.filter (fun g => g.port = port && g.out == out)).map (fun g => g.count * v.frames port * 16)).foldl (· + ·) 0

/-- A plan needs the most that any variant of it needs. -/
def Plan.units (pl : Plan) (port : Nat) (out : Bool) : Nat :=
  (pl.variants.map (fun v => v.units port out)).foldl max 0

/-- PORT_SLIM of a port under a set of plans (R154). (DEDUCED, log 80) -/
def slimOf (l : List (Nat × Plan)) (port : Nat) (out : Bool) : Nat :=
  (l.map (fun e => e.2.units port out)).foldl (· + ·) 0

/-- Class S space of a die under a set of plans (Table 5.3). -/
def classSOf (l : List (Nat × Plan)) (d : Nat) : Nat :=
  ((diePorts d).map (fun p => slimOf l p false + slimOf l p true)).foldl (· + ·) 0

/-- D of a received contribution, in 1/4 ns (R437, Table 18.4): an active link's class, else the port's own.
(DEDUCED, log 82) -/
def State.budgetIn (s : State) (port : Nat) : Nat :=
  let q := s.port port
  let r := if q.active then q.linkReach else q.reach
  max (match r with | 1 => 192 | 2 => 384 | _ => 640) (if q.ranged then q.delayIn else 0)

/-- PORT_SLIM and the D used follow the plans that come into force (R154, R438). -/
def State.applyPlans (s : State) (l : List (Nat × Plan)) (fresh : List Nat) : State :=
  (List.range 49).foldl (fun t p =>
    let i := slimOf l p false
    let o := slimOf l p true
    let q := t.port p
    let renewed := l.any (fun e => fresh.contains e.1 && e.2.units p false ≠ 0)
    let d := if i = 0 then 0 else if renewed then t.budgetIn p else q.planD
    if q.sIn = i && q.sOut = o && q.planD = d && !(renewed && q.delayPlan) then t
    else t.setPort p { q with sIn := i, sOut := o, planD := d, delayPlan := q.delayPlan && !renewed && i ≠ 0 }) s

end Sys2Proof.Machine
end

