-- ==== Sys2Proof/Machine/Ox.lean ====
section
/-! DEFINITION. What Ox operations compute (chapter 8): tiles loaded, windows accumulated, lanes emitted, bytes stored. -/

namespace Sys2Proof.Machine

/-! ### Tiles -/

/-- A tile that holds nothing (R218). -/
def voidTile : Tile := {}

/-- Bytes of a tile word (chapter 8 terms): 8 for 64-bit sources, 1 for RAW, else 4. -/
def wordSize (fmt : Nat) : Nat := if fmt = 11 || fmt = 15 then 8 else if fmt = 16 then 1 else 4

/-- Tile words that fill one tile. -/
def tileWords (fmt : Nat) : Nat := 4096 / wordSize fmt

/-- KIND of a tile loaded from a source (Tables 8.1, 8.2). -/
def loadKind (fmt : Nat) : TileKind :=
  if fmtFloat fmt then .f32
  else if fmt = 11 then .s64w
  else if fmt = 15 then .u64w
  else if fmtSigned fmt then .s32w
  else if fmtInt fmt then .u32w
  else .raw

/-- The tile word of a source element (Table 8.2, R222). -/
def tileWord (fmt bits : Nat) : Nat :=
  if fmtFloat fmt then toBinary32 fmt bits
  else if fmtSigned fmt && fmt ≠ 11 then unsigned 32 (signed (8 * fmtSize fmt) bits)
  else bits

/-- Elements of `w` bytes each. -/
def elemsOf (w : Nat) (b : List Byte) : List Nat := (pieces w (b.length / w) b).map leNat

/-- An R x C matrix in row-major order, delivered in column-major order (R225). -/
def transposed (r c : Nat) (l : List Nat) : List Nat :=
  (List.range c).flatMap (fun j => (List.range r).map (fun i => l.getD (i * c + j) 0))

/-- Transposed when TR and TC are not 0. -/
def maybeTransposed (tr tc : Nat) (l : List Nat) : List Nat :=
  if tr = 0 && tc = 0 then l else transposed (2 ^ tr) (2 ^ tc) l

/-- Cuts a list into `n` runs of `k`. -/
def runs (k : Nat) : (n : Nat) → List Nat → List (List Nat)
  | 0, _ => []
  | n + 1, l => l.take k :: runs k n (l.drop k)

/-- Tiles filled in order with tile words (R282). -/
def fillTiles (fmt origin n : Nat) (words : List Nat) : List Tile :=
  (runs (tileWords fmt) n words).map (fun l =>
    { kind := loadKind fmt, src := fmt, count := l.length, origin := origin, bytes := l.flatMap (leBytes (wordSize fmt)) })

/-- A tally block loaded unchanged and checked, with the origin on which a failure counts (R223). -/
def loadBlock (origin : Nat) (lenOk : Bool) (b : List Byte) : Tile × List Nat :=
  match readBlock b with
  | some k =>
    if lenOk && k.ok then ({ kind := .tally, src := 17, count := k.lanes, origin := origin, bytes := b }, [])
    else ({ origin := origin }, [origin])
  | none => ({ origin := origin }, [origin])

/-- Tiles that one load of 4,096 source bytes fills (Table 8.2). -/
def loadTiles (fmt : Nat) : Nat := if fmt = 16 || fmt = 17 then 1 else ceilDiv (4096 / fmtSize fmt) (tileWords fmt)

/-- A frame's payload in tiles (R221, R282). -/
def frameTiles (fmt tr tc origin len : Nat) (payload : List Byte) : List Tile × List Nat :=
  if fmt = 17 then
    let r := loadBlock origin (len = 4096) (padTo 4096 payload)
    ([r.1], r.2)
  else
    let b := if tr = 0 && tc = 0 then payload.take len else padTo 4096 (payload.take len)
    (fillTiles fmt origin (loadTiles fmt) (maybeTransposed tr tc ((elemsOf (fmtSize fmt) b).map (tileWord fmt))), [])

/-- Source bytes of a depot load of `rows` tile rows (R281). -/
def depotBytes (fmt rows : Nat) : Nat := if fmt = 17 then 4096 else rows * (128 / wordSize fmt) * fmtSize fmt

/-- A depot range in tiles. -/
def depotTiles (fmt tr tc rows : Nat) (b : List Byte) : List Tile × List Nat :=
  if fmt = 17 then
    let r := loadBlock 0xFF true b
    ([r.1], r.2)
  else
    (fillTiles fmt 0xFF (ceilDiv rows 32) (maybeTransposed tr tc ((elemsOf (fmtSize fmt) b).map (tileWord fmt))), [])

/-! ### Accumulation (R228-R230) -/

/-- A window takes a tile (Table 8.4); VOID and TALLY tiles are judged apart. -/
def tagAccepted (w : Window) (t : Tile) : Bool :=
  match t.kind with
  | .void => true
  | .tally => true
  | .f32 => match w.form with
    | .t32 => t.src ≤ 4
    | .t16 => 2 ≤ t.src && t.src ≤ 4
    | .i64 => false
  | .s32w => w.form = .i64 && w.sgn
  | .s64w => w.form = .i64 && w.sgn
  | .u32w => w.form = .i64 && !w.sgn
  | .u64w => w.form = .i64 && !w.sgn
  | _ => false

/-- Bytes of the words a tile holds. -/
def Tile.wordBytes (t : Tile) : Nat := match t.kind with | .s64w => 8 | .u64w => 8 | _ => 4

/-- The contribution of tile word `i`, and whether it is finite. -/
def Tile.contribution (t : Tile) (fm : Form) (i : Nat) : LaneVal × Bool :=
  let n := natAt t.bytes (i * t.wordBytes) t.wordBytes
  match t.kind with
  | .f32 =>
    let l := floatIn 0 n
    (toForm fm l, !(l.pinf || l.ninf || l.nan))
  | .s32w => ({ v := signed 32 n }, true)
  | .s64w => ({ v := signed 64 n }, true)
  | _ => ({ v := (n : Int) }, true)

/-- One tile of tile words reaches a window from lane `base` on (R228, R519). -/
def Window.addTile (w : Window) (base : Nat) (t : Tile) : Window :=
  let w1 := (List.range (ceilDiv t.count 32)).foldl (fun a g => a.addCnt (base / 32 + g) (.count 1)) w
  (List.range t.count).foldl (fun a i =>
    if base + i < w.nlanes then
      let c := t.contribution w.form i
      a.put (base + i) c.1 c.2
    else a) w1

/-- Rows of a window that lanes `a` to `a + n - 1` lie in. -/
def rowsOf (fm : Form) (a n : Nat) : List Nat :=
  if n = 0 then [] else (List.range ((a + (n - 1)) / fm.rowLanes - a / fm.rowLanes + 1)).map (a / fm.rowLanes + ·)

/-- The progress of a TACC: the window, lanes that blocks have taken, FLAGS of its blocks, TALLY_BAD origins and the frames of
refused blocks, tag fault, rows written. -/
structure AccState where
  win   : Window
  ofs   : Nat := 0
  flags : Nat := 0
  bad   : List Nat := []
  lost  : List (Word × Nat × Nat) := []
  tag   : Bool := false
  rows  : List Nat := []
  deriving DecidableEq, Repr

/-- Rows join those written. -/
def AccState.touch (a : AccState) (l : List Nat) : AccState := { a with rows := a.rows ++ l.filter (fun r => !a.rows.contains r) }

/-- A block is refused. (DEDUCED, log 151) -/
def AccState.refuse (a : AccState) (t : Tile) : AccState :=
  { a with bad := a.bad ++ [t.origin], lost := a.lost ++ t.via.toList }

/-- One tile of a TACC, the j-th (R228, R230). -/
def AccState.step (a : AccState) (lane j : Nat) (t : Tile) : AccState :=
  match t.kind with
  | .void => { a with ofs := a.ofs + 32 * Config.voidBlockGroups a.win.form.code }
  | .tally =>
    match readBlock (padTo 4096 t.bytes) with
    | none => a.refuse t
    | some b =>
      let at_ := lane + a.ofs
      let a1 := { a with ofs := a.ofs + b.form.blockLanes }
      if formAccepts a.win.form b.form && at_ + b.lanes ≤ a.win.nlanes then
        AccState.touch { a1 with win := a.win.addBlock at_ b, flags := a.flags ||| wireFlags b.flags }
          (rowsOf a.win.form at_ b.lanes)
      else a1.refuse t
  | _ =>
    let at_ := lane + j * (4096 / t.wordBytes)
    if tagAccepted a.win t then
      AccState.touch { a with win := a.win.addTile at_ t } (rowsOf a.win.form at_ (min t.count (a.win.nlanes - at_)))
    else { a with tag := true }

/-- A TACC over its tiles. (DEDUCED, log 20) -/
def accumulate (w : Window) (lane : Nat) (ts : List Tile) : AccState :=
  ts.zipIdx.foldl (fun a (t, j) => a.step lane j t) { win := w }

/-- Ledger rows that lanes `a` to `a + n - 1` of a form touch. -/
def rowsTouched (fm : Form) (a n : Nat) : Nat := (rowsOf fm a n).length

/-! ### The ledger (R226, R227, R236) -/

/-- A row of a window, as the ledger holds it. -/
def Window.row (w : Window) (r : Nat) : LedgerRow :=
  let k := w.form.rowLanes
  { form := w.form, fill := w.emptyLane.v
    lanes := (w.lanes.filter (fun e => r * k ≤ e.1 && e.1 < (r + 1) * k)).map (fun e => (e.1 - r * k, e.2))
    cnts := (w.cnts.filter (fun e => r * (k / 32) ≤ e.1 && e.1 < (r + 1) * (k / 32))).map (fun e => (e.1 - r * (k / 32), e.2)) }

/-- A ledger row as row `r` of a window reads it: lanes and counts. (DESIGN CHOICE, log 152) -/
def WinAttr.readRow (a : WinAttr) (r : Nat) (x : LedgerRow) : Tbl LaneVal × Tbl Cnt :=
  let k := a.form.rowLanes
  let wrap := wrapLane a.form (laneSigned a.form a.oper a.sgn)
  if x.form.rowLanes = k then
    let lanes : Tbl LaneVal :=
      if wrap x.fill = emptyVal a.form a.oper a.sgn then x.lanes
      else (List.range k).map (fun i => (i, x.lanes.getD i { v := x.fill }))
    (lanes.map (fun e => (r * k + e.1, { e.2 with v := wrap e.2.v })), x.cnts.map (fun e => (r * (k / 32) + e.1, e.2)))
  else
    ((List.range k).map (fun i => (r * k + i, { v := wrap (Config.staleLane (a.base + r) i) })),
      (List.range (k / 32)).map (fun g => (r * (k / 32) + g, .count (Config.staleCnt (a.base + r) g % (a.form.limit + 1)))))

/-- A window with what its rows hold. -/
def Engine.view (e : Engine) (w : Nat) : Window :=
  let a := e.window w
  let rows := (e.ledger.filter (fun x => a.base ≤ x.1 && x.1 < a.base + a.rows)).map (fun x => a.readRow (x.1 - a.base) x.2)
  { a with lanes := rows.flatMap Prod.fst, cnts := rows.flatMap Prod.snd }

/-- Rows of a window become current. -/
def Engine.storeRows (e : Engine) (v : Window) (rows : List Nat) : Engine :=
  { e with ledger := rows.foldl (fun t r => t.set (v.base + r) (v.row r)) e.ledger }

/-! ### Emission (R231, R284) -/

/-- The tiles an EMIT writes, in order, and the flags it raises. -/
def emitTiles (w : Window) (fmt : Nat) (rm : RMode) (clamp : Bool) (key : Word) (chunk e0 : BitVec 32) (lane n : Nat) :
    List Tile × Nat :=
  if fmt = 31 then
    let k := w.form.blockLanes
    ((List.range (ceilDiv n k)).map (fun b =>
      let m := min k (n - b * k)
      { kind := .tally, src := 17, count := m, origin := 0xFF,
        bytes := writeBlock w (lane + b * k) m ((e0 + BitVec.ofNat 32 (b * k)).toNat) w.flags.toNat }), 0)
  else
    let k := 4096 / fmtSize fmt
    (List.range (ceilDiv n k)).foldl (fun a b =>
      let m := min k (n - b * k)
      let r := emitElems w fmt rm clamp key chunk (e0 + BitVec.ofNat 32 (b * k)) (lane + b * k) m
      (a.1 ++ [{ kind := .packed, src := fmt, count := m, origin := 0xFF, bytes := r.1 }], a.2 ||| r.2)) ([], 0)

/-! ### Stores (R225, R232, R285) -/

/-- Element width of a transposing TST, by its first tile (R225). -/
def tstWidth (t : Tile) (tw : Nat) : Nat :=
  match t.kind with
  | .f32 => 4 | .s32w => 4 | .u32w => 4 | .s64w => 8 | .u64w => 8
  | .packed => fmtSize t.src
  | _ => 2 ^ tw

/-- The bytes a TST of `rows` rows writes: always rows x 128 of them (R218, R285). (DEDUCED, log 153) -/
def tstBytes (ts : List Tile) (rows tw tr tc : Nat) : List Byte :=
  let b := bytesAt (ts.flatMap (fun t => padTo 4096 t.bytes)) 0 (rows * 128)
  if tr = 0 && tc = 0 then b
  else
    let w := tstWidth (ts.headD voidTile) tw
    padTo (rows * 128) ((transposed (2 ^ tr) (2 ^ tc) (elemsOf w b)).flatMap (leBytes w))

/-- Payload length of a SEND from a tile (R232, R277). -/
def tileLen (t : Tile) (slen : Nat) : Nat :=
  match t.kind with
  | .packed => t.count * fmtSize t.src
  | .tally => 4096
  | _ => slen

end Sys2Proof.Machine
end

