-- ==== Sys2Proof/Machine/Admit.lean ====
section
/-! DEFINITION. Plan admission (chapter 9): the plan image, the checks of Table 9.7 in their order, and the worst-case
walk. -/

namespace Sys2Proof.Machine

/-! ### The plan image (Tables 9.4-9.6) -/

/-- A grant entry. -/
def grantOf (w : Nat) : Grant := { port := bitsOf w 5 0, out := bitOf w 6, first := bitsOf w 21 8, count := bitsOf w 35 22 }

/-- Number and place of the grant list of the variant record at `o`. -/
def grantList (b : List Byte) (o : Nat) : Nat × Nat := (natAt b (o + 8) 4, natAt b (o + 12) 2)

/-- A variant record. -/
def variantAt (b : List Byte) (o : Nat) : Variant :=
  let g := grantList b o
  { entry := natAt b o 4, oxMask := BitVec.ofNat 32 (natAt b (o + 4) 4)
    grants := (List.range g.2).map (fun i => grantOf (natAt b (g.1 + 8 * i) 8))
    limp := natAt b (o + 14) 1 = 1, minWidth := natAt b (o + 15) 1, uses := BitVec.ofNat 49 (natAt b (o + 16) 7)
    minTwin := natAt b (o + 23) 1 }

/-- Offsets of the variant records. -/
def recordOffsets (b : List Byte) : List Nat := (List.range (natAt b 7 1)).map (fun i => natAt b 20 4 + 32 * i)

/-- Two byte ranges share no byte. -/
def apart (a b : Nat × Nat) : Bool := !overlaps' a.1 a.2 b.1 b.2
where
  overlaps' (x n y m : Nat) : Bool := n ≠ 0 && m ≠ 0 && x < y + m && y < x + n

/-- Every pair of a list satisfies a test. -/
def allPairs {α : Type} (f : α → α → Bool) : List α → Bool
  | [] => true
  | x :: t => t.all (f x) && allPairs f t

/-- Check 1 on an image of `b.length` bytes (R253, Tables 9.4-9.7). (DEDUCED, log 75) -/
def imageOk (b : List Byte) (part slots : Nat) : Bool :=
  let size := natAt b 24 4
  let recs := recordOffsets b
  let words := natAt b 12 4
  let lists := recs.map (fun o => let g := grantList b o; (g.1, 8 * g.2))
  let fixed := [(0, 32), (natAt b 20 4, 32 * recs.length), (natAt b 16 4, 8 * words)]
  natAt b 0 4 = 0x4E415547 && natAt b 4 2 = 1 && natAt b 6 1 = part && 1 ≤ natAt b 7 1 && natAt b 7 1 ≤ 8 &&
  natAt b 8 2 = slots && natAt b 10 2 = 0 && 1 ≤ words && words ≤ 65528 && natAt b 16 4 % 8 = 0 && natAt b 20 4 % 8 = 0 &&
  size = b.length && size ≤ 524288 && natAt b 28 4 = (crc32c (overlay b 28 [0, 0, 0, 0])).toNat &&
  (fixed ++ lists).all (fun r => r.1 + r.2 ≤ size) && allPairs apart fixed &&
  lists.all (fun l => fixed.all (apart l)) && allPairs (fun x y => x = y || apart x y) lists &&
  recs.all (fun o =>
    let g := grantList b o
    g.2 ≤ 4096 && natAt b (o + 14) 1 ≤ 1 && natAt b (o + 16) 7 < 2 ^ 49 && natAt b (o + 24) 8 = 0 &&
    (List.range g.2).all (fun i => let w := natAt b (g.1 + 8 * i) 8; !bitOf w 7 && w < 2 ^ 36))

/-- The plan that an image spells. -/
def planOfImage (b : List Byte) (ctx : Nat) : Plan :=
  { homeCtx := ctx, slots := natAt b 8 2, variants := (recordOffsets b).map (variantAt b)
    code := (List.range (natAt b 12 4)).map (fun i => BitVec.ofNat 64 (natAt b (natAt b 16 4 + 8 * i) 8))
    digest := Config.sha384 b, bytes := b.length }

/-! ### Code (checks 2 and 3) -/

/-- The instruction of each index, none at the second word of a two-word one; none for a word that does not decode or a
two-word instruction at the end (R259, R261). -/
def decodeCode (p : Nat) : List Word → Option (List (Option Instr))
  | [] => some []
  | [w] =>
    match guandDecode p w 0 with
    | some i => if guandLen i = 1 then some [some i] else none
    | none => none
  | w :: x :: t =>
    match guandDecode p w x with
    | none => none
    | some i =>
      if guandLen i = 1 then (decodeCode p (x :: t)).map (fun l => some i :: l)
      else (decodeCode p t).map (fun l => some i :: none :: l)

/-- A guard of GP 0, GN 0 (R260). -/
def unguarded (h : GHead) : Bool := h.gp = 0 && !h.gn

/-- Transposition fields (R283). (DEDUCED, log 76) -/
def transOk (tr tc : BitVec 4) : Bool := tr.toNat ≤ 10 && tc.toNat ≤ 10 && (tr = 0) == (tc = 0)

/-- The rules of check 2 that one instruction decides (R57, R243, R260, R265, R269, R279, R283, R287). -/
def wordOk (slots : Nat) (i : Instr) : Bool :=
  let h := guandHead i
  h.at_.toNat < slots &&
  (match i with
   | .br .. => unguarded h
   | .loop _ _ _ _ max => unguarded h && max ≠ 0
   | .lend .. => unguarded h
   | .tickwait .. => unguarded h
   | .recv .. => unguarded h
   | .expect .. => unguarded h
   | .cmp _ _ _ cond _ _ _ _ => cond.toNat ≤ 5
   | .rdt _ _ _ sel => sel.toNat ≤ 5
   | .acas2 _ _ rd _ rb re _ => rd.toNat % 2 = 0 && rb.toNat % 2 = 0 && re.toNat % 2 = 0
   | .send _ _ _ _ _ srck _ _ _ _ _ _ _ _ eng => !srck || eng = 0
   | .lclr _ _ _ _ _ _ form oper _ => form ≠ 0 && oper.toNat ≤ 7
   | .tld _ _ _ _ fmt _ _ _ tr tc => fmtListed' fmt.toNat && transOk tr tc
   | .emit _ _ _ _ _ fmt rm clamp _ _ _ _ _ _ =>
     rm.toNat ≤ 4 && (if fmt = 31 then rm = 0 && !clamp else fmtListed' fmt.toNat)
   | .tst _ _ _ _ _ _ _ tr tc => transOk tr tc
   | .post _ _ _ ra _ _ _ _ => ra.toNat ≤ 29
   | _ => true)
where
  fmtListed' (f : Nat) : Bool := fmtFloat f || fmtInt f || f = 16 || f = 17

/-- The instruction at an index. -/
def at? (code : List (Option Instr)) (k : Nat) : Option Instr :=
  match code[k]? with
  | some (some i) => some i
  | _ => none

/-- The indices at which an instruction begins. -/
def heads (code : List (Option Instr)) : List (Nat × Instr) :=
  code.zipIdx.filterMap (fun e => e.1.map (fun i => (e.2, i)))

/-- A LOOP by its index, the index of its LEND, its RC and MAX. -/
structure LoopOf where
  start : Nat
  end_  : Nat
  rc    : Nat
  max   : Nat
  deriving DecidableEq, Repr

/-- (DEDUCED, log 76) -/
def loopsOf (code : List (Option Instr)) : List LoopOf :=
  (heads code).filterMap (fun e =>
    match e.2 with
    | .loop _ _ rc end_ max => some { start := e.1, end_ := end_.toNat, rc := rc.toNat, max := max.toNat }
    | _ => none)

/-- An index lies in a loop's body, its LEND included. -/
def LoopOf.holds (l : LoopOf) (k : Nat) : Bool := l.start < k && k ≤ l.end_

/-- Where control may jump from an index, other than to the next instruction. (DEDUCED, log 76) -/
def jumpsOf (i : Instr) : List Nat :=
  match i with
  | .br _ _ _ _ t => [t.toNat]
  | .loop _ _ _ e _ => [e.toNat + 1]
  | .lend _ _ _ t => [t.toNat]
  | .expect _ _ _ _ _ _ _ hole _ => [hole.toNat]
  | _ => []

/-- Control may pass to the next instruction. -/
def fallsOn (i : Instr) : Bool :=
  match i with
  | .br _ _ cp cn _ => !(cp = 0 && !cn)
  | .tickwait .. => false
  | _ => true

/-- The registers an instruction can write. -/
def regsWritten (i : Instr) : List Nat :=
  match i with
  | .loop _ _ rc _ _ => [rc.toNat]
  | .lend _ _ rc _ => [rc.toNat]
  | .divs _ _ rd _ _ re => [rd.toNat, re.toNat]
  | .divu _ _ rd _ _ re => [rd.toNat, re.toNat]
  | .acas2 _ _ rd .. => [rd.toNat, rd.toNat + 1]
  | .cmp .. => [] | .st .. => [] | .recv .. => [] | .send .. => [] | .tld .. => [] | .emit .. => [] | .tst .. => []
  | .post .. => []
  | i => (guandRegs i).take 1

/-- The rules of check 3 that the code alone decides (R255, R261, R265, R274, R275): a LEND goes back only as the end of a
LOOP. -/
def flowOk (code : List (Option Instr)) : Bool :=
  let n := code.length
  let ls := loopsOf code
  (heads code).all (fun e =>
    let k := e.1
    (match e.2 with
     | .br _ _ _ _ t => k < t.toNat
     | .loop _ _ rc end_ _ =>
       (match at? code end_.toNat with
        | some (.lend _ _ rc2 st) => rc2 = rc && st.toNat = k + 1
        | _ => false)
     | .lend _ _ rc st => ls.any (fun l => l.end_ = k && l.rc = rc.toNat && st.toNat = l.start + 1)
     | .expect _ _ _ _ _ _ _ hole _ => k < hole.toNat
     | .recv .. => !ls.any (fun l => l.holds k)
     | _ => true) &&
    (jumpsOf e.2).all (fun t => t < n && (at? code t).isSome && ls.all (fun l => !l.holds t || l.holds k)) &&
    (ls.filter (fun l => l.holds k)).length ≤ 4 &&
    (regsWritten e.2).all (fun r => ls.all (fun l => !(l.holds k && k ≠ l.end_ && l.rc = r && r ≠ 0))))

/-- What an index may be followed by. -/
def succsOf (k : Nat) (i : Instr) : List Nat := (if fallsOn i then [k + guandLen i] else []) ++ jumpsOf i

/-- Indices that can be reached, one ascending pass over the code; forward jumps only need one. -/
def reachPass (code : List (Option Instr)) (stop : Instr → Bool) (r : List Nat) : List Nat :=
  (heads code).foldl (fun a e =>
    if a.contains e.1 && !stop e.2 then a ++ (succsOf e.1 e.2).filter (fun t => !a.contains t) else a) r

/-- The indices that can execute from `entry`, those behind a stopping instruction left out. -/
def reachFrom (code : List (Option Instr)) (stop : Instr → Bool) (entry : Nat) : List Nat := reachPass code stop [entry]

/-- An Ox operation. -/
def isOx (i : Instr) : Bool :=
  match i with
  | .lclr .. => true | .tld .. => true | .tacc .. => true | .emit .. => true | .tst .. => true
  | _ => false

/-- What ends the prologue. -/
def endsPrologue (i : Instr) : Bool :=
  isOx i || (match i with | .expect .. => true | .send .. => true | _ => false)

/-- The instructions of a variant, by index. -/
def Variant.instrs (v : Variant) (code : List (Option Instr)) : List (Nat × Instr) :=
  let r := reachFrom code (fun _ => false) v.entry
  (heads code).filter (fun e => r.contains e.1)

/-! ### What is bound, loaded and open at each index -/

/-- What a tile may hold: a format code it was loaded from, 32 + format where it was emitted, 64 + form code for an
emitted tally block; and the most elements it can hold. -/
abbrev Content := Nat × Nat

/-- The flow facts: handles bound on every path and on some path, with their latest DL; contents of tiles by engine x 64 +
tile; windows opened by engine x 8 + window. -/
structure Facts where
  must  : List Nat := []
  may   : Tbl Nat := []
  tiles : Tbl (List Content) := []
  wins  : Tbl (List (Nat × Nat × Form × Nat)) := []
  deriving DecidableEq, Repr

def joinList {α : Type} [DecidableEq α] (a b : List α) : List α := a ++ b.filter (fun x => !a.contains x)

/-- Tables that list sets join entry by entry. -/
def joinTbl {α : Type} [DecidableEq α] (a b : Tbl (List α)) : Tbl (List α) :=
  b.foldl (fun t e => t.set e.1 (joinList (t.getD e.1 []) e.2)) a

/-- (DEDUCED, log 77) -/
def Facts.join (a b : Facts) : Facts :=
  { must := a.must.filter (fun h => b.must.contains h)
    may := b.may.foldl (fun t e => t.set e.1 (max (t.getD e.1 0) e.2)) a.may
    tiles := joinTbl a.tiles b.tiles, wins := joinTbl a.wins b.wins }

/-- Tiles that a TLD writes. -/
def tldTiles (fmt : Nat) (depot : Bool) (rows : Nat) : Nat := if depot then ceilDiv rows 32 else loadTiles fmt

/-- Elements of a TLD in all. -/
def tldElems (fmt : Nat) (depot : Bool) (rows : Nat) : Nat :=
  if depot then rows * (128 / wordSize fmt) else 4096 / fmtSize fmt

/-- Tiles that an EMIT writes from a window of a form. -/
def emitCount (fm : Form) (fmt n : Nat) : Nat := ceilDiv n (if fmt = 31 then fm.blockLanes else 4096 / fmtSize fmt)

/-- The facts after an instruction that acts. -/
def Facts.acted (f : Facts) (i : Instr) : Facts :=
  match i with
  | .recv _ _ hd _ _ dl =>
    { f with must := if f.must.contains hd.toNat then f.must else f.must ++ [hd.toNat]
             may := f.may.set hd.toNat (max (f.may.getD hd.toNat 0) dl.toNat) }
  | .lclr _ _ eng w base rows form oper _ =>
    match formOf form.toNat with
    | some fm => { f with wins := f.wins.set (eng.toNat * 8 + w.toNat) [(base.toNat, rows.toNat, fm, oper.toNat)] }
    | none => f
  | .tld _ _ eng t fmt src _ rows _ _ =>
    let r := rows.toNat + 1
    let total := tldElems fmt.toNat src r
    let per := if fmt = 17 then 1 else tileWords fmt.toNat
    { f with tiles := (List.range (tldTiles fmt.toNat src r)).foldl (fun a j =>
        a.set (eng.toNat * 64 + t.toNat + j) [(fmt.toNat, min per (total - j * per))]) f.tiles }
  | .emit _ _ eng w t fmt _ _ _ _ _ n _ _ =>
    let opened := f.wins.getD (eng.toNat * 8 + w.toNat) []
    let forms := opened.map (fun x => x.2.2.1)
    { f with tiles := (List.range 8).foldl (fun a j =>
        let c := (forms.filter (fun fm => j < emitCount fm fmt.toNat n.toNat)).map (fun fm =>
          if fmt = 31 then (64 + fm.code, 0) else (32 + fmt.toNat, 0))
        if c.isEmpty then a else a.set (eng.toNat * 64 + t.toNat + j) c) f.tiles }
  | _ => f

/-- The facts after an instruction: under a guard it may act or not (R260). (DEDUCED, log 77) -/
def Facts.after (f : Facts) (i : Instr) : Facts :=
  let h := guandHead i
  if h.gp = 0 then (if h.gn then f else f.acted i) else f.join (f.acted i)

/-- One ascending pass that carries facts along every edge. -/
def factsPass (code : List (Option Instr)) (a : Tbl Facts) : Tbl Facts :=
  (heads code).foldl (fun a e =>
    match a.get? e.1 with
    | none => a
    | some f =>
      let g := f.after e.2
      (succsOf e.1 e.2).foldl (fun b t =>
        b.set t (match b.get? t with
          | some o => o.join g
          | none => g)) a) a

/-- The facts on entry to each index of a variant that starts with some facts: a pass for each loop's back edge, and one
more. (DEDUCED, log 77) -/
def factsOf (code : List (Option Instr)) (start : Facts) (entry : Nat) : Tbl Facts :=
  (List.range ((loopsOf code).length + 1)).foldl (fun a _ => factsPass code a) [(entry, start)]

/-- What a tick of a variant leaves for the next one: tiles and windows, but no handle (R215, R273). -/
def tickLeaves (code : List (Option Instr)) (a : Tbl Facts) : Facts :=
  (heads code).foldl (fun g e =>
    match e.2, a.get? e.1 with
    | .tickwait .., some f => g.join { f with must := [], may := [] }
    | _, _ => g) {}

/-- The tiles and windows that a tick of a plan may find, from ticks of any of its variants: none at first, what one tick
leaves, and what a second adds. (DEDUCED, log 77) -/
def Plan.carried (pl : Plan) (code : List (Option Instr)) : Facts :=
  ([0, 1] : List Nat).foldl (fun g _ =>
    pl.variants.foldl (fun h v => h.join (tickLeaves code (factsOf code g v.entry))) g) {}

/-! ### Grants, deadlines and engines (checks 4 to 6) -/

/-- Slots that a SEND names, from its first on (R276). (DEDUCED, log 75) -/
def sendSlots (nf f : Nat) : Nat := if nf = 0 || f = 0 then 1 else ceilDiv nf f

/-- Check 4 for one variant (R274, R276, R279). (DEDUCED, log 75) -/
def Variant.grantsOk (v : Variant) (code : List (Option Instr)) (slots : Nat) (resv : List Grant) : Bool :=
  [8, 6, 4, 2, 1].contains v.minWidth &&
  (if v.uses.getLsbD 48 then [16, 12, 8, 4, 2, 1].contains v.minTwin else v.minTwin = 0) &&
  v.grants.all (fun g =>
    g.port ≤ 48 && 1 ≤ g.first && 1 ≤ g.count && g.first + g.count ≤ slots && v.uses.getLsbD g.port &&
    (List.range g.count).all (fun k => resv.any (fun r => r.covers g.port (g.first + k) g.out))) &&
  (v.instrs code).all (fun e =>
    match e.2 with
    | .recv _ _ _ grant _ _ =>
      (match v.grants[grant.toNat]? with
       | some g => !g.out
       | none => false)
    | .send _ _ port slot nf _ _ _ _ _ _ slen _ _ _ =>
      let f := v.frames port.toNat
      (nf = 0 || f ≠ 0) && 1 ≤ slen.toNat && slen.toNat ≤ 4096 && port.toNat ≤ 48 && v.uses.getLsbD port.toNat &&
      (List.range (sendSlots nf.toNat f)).all (fun k =>
        v.grants.any (fun g => g.covers port.toNat (slot.toNat + k) true))
    | _ => true)

/-- The slots by which D delays a deadline, D in 1/4 ns (R41). -/
def deadlineOffset (d : Nat) : Nat := ceilDiv (d + 320) 512

/-- Check 5 for one variant (R41, R274, R275). -/
def Variant.deadlinesOk (v : Variant) (code : List (Option Instr)) (facts : Tbl Facts) (slots : Nat) (d : Nat → Nat) : Bool :=
  (v.instrs code).all (fun e =>
    match e.2 with
    | .recv _ _ _ grant _ dl =>
      (match v.grants[grant.toNat]? with
       | some g => g.first + (g.count - 1) + deadlineOffset (d g.port) ≤ dl.toNat && dl.toNat < slots
       | none => true)
    | .expect _ _ _ hmask _ _ _ _ _ =>
      let f := facts.getD e.1 {}
      (maskList 16 hmask.toNat).all (fun h => f.must.contains h)
    | _ => true)

/-- A source and a window's form and operation go together (R47, Table 2.1). -/
def pairOk (fmt : Nat) (fm : Form) (oper : Nat) : Bool :=
  (match fm with
   | .t32 => fmtFloat fmt
   | .t16 => 2 ≤ fmt && fmt ≤ 4
   | .i64 => fmtInt fmt) &&
  !(oper ≤ 1 && (fmt = 11 || fmt = 15)) && !(5 ≤ oper && fmtFloat fmt)

/-- What a tile holds may meet a window's form and operation (R47): tile words and RAW bytes by their source, emitted
blocks by their form. Blocks of WIRE loads and packed tiles are judged when they are added (R229, R230). (DEDUCED, log 77) -/
def contentOk (c : Nat) (fm : Form) (oper : Nat) : Bool :=
  if c = 17 || (32 ≤ c && c < 64) then true
  else if 64 ≤ c then ((formOf (c - 64)).map (formAccepts fm)).getD true
  else pairOk c fm oper

/-- R47 over every TACC of a variant. (DEDUCED, log 77) -/
def Variant.pairsOk (v : Variant) (code : List (Option Instr)) (facts : Tbl Facts) : Bool :=
  (v.instrs code).all (fun e =>
    match e.2 with
    | .tacc _ _ eng t w k _ =>
      let f := facts.getD e.1 {}
      (List.range k.toNat).all (fun j =>
        (f.tiles.getD (eng.toNat * 64 + t.toNat + j) []).all (fun c =>
          (f.wins.getD (eng.toNat * 8 + w.toNat) []).all (fun x => contentOk c.1 x.2.2.1 x.2.2.2)))
    | _ => true)

/-- Bytes of an element of a tile with a content, as TST transposes it (R225). (DESIGN CHOICE, log 156) -/
def contentWidth (c : Nat) (tw : Nat) : Nat :=
  if c < 16 then wordSize c else if c = 16 then 2 ^ tw else if c < 64 then fmtSize (c - 32) else 0

/-- Lanes that a tile takes as a block, at most: none for tile words, the larger capacity for a block of unknown form
(R230). (DEDUCED, log 77) -/
def blockReach (c : Nat) : Nat :=
  if c = 17 then 448 else if 64 ≤ c then ((formOf (c - 64)).map Form.blockLanes).getD 0 else 0

/-- Lanes that the blocks among a TACC's tiles take, at most. -/
def taccBlocks (f : Facts) (eng t k : Nat) : Nat :=
  ((List.range k).map (fun j =>
    ((f.tiles.getD (eng * 64 + t + j) []).map (fun c => blockReach c.1)).foldl max 0)).foldl (· + ·) 0

/-- Lanes, past the first lane of a TACC, that the tile words of its tiles can reach. -/
def taccLanes (f : Facts) (eng t k : Nat) : Nat :=
  ((List.range k).map (fun j =>
    ((f.tiles.getD (eng * 64 + t + j) []).map (fun c =>
      if c.1 < 16 then j * tileWords c.1 + c.2 else 0)).foldl max 0)).foldl max 0

/-- Check 6 for one instruction (R214, R221, R225, R227, R228, R231, R275, R279, R280, R283, R287).
(DEDUCED, log 77; DEDUCED, log 78; DESIGN CHOICE, log 149; DEDUCED, log 155; DESIGN CHOICE, log 156) -/
def oxOk (v : Variant) (f : Facts) (i : Instr) : Bool :=
  let inMask (e : BitVec 5) : Bool := v.oxMask.getLsbD e.toNat
  let wins (e : BitVec 5) (w : BitVec 3) := f.wins.getD (e.toNat * 8 + w.toNat) []
  match i with
  | .lclr _ _ eng w base rows form oper _ =>
    let b := base.toNat
    let n := rows.toNat
    inMask eng && 1 ≤ n && b + n ≤ 128 && (form = 3 || oper.toNat ≤ 4) &&
    f.wins.all (fun x => x.1 / 8 ≠ eng.toNat || x.1 % 8 = w.toNat ||
      x.2.all (fun y => b + n ≤ y.1 || y.1 + y.2.1 ≤ b))
  | .tld _ _ eng t fmt src _ rows tr tc =>
    let n := tldTiles fmt.toNat src (rows.toNat + 1)
    inMask eng && (src || rows = 0) && (fmt ≠ 17 || !src || rows = 31) && n ≤ 8 && t.toNat + n ≤ 64 &&
    (tr = 0 || (fmt ≠ 17 && 2 ^ (tr.toNat + tc.toNat) = tldElems fmt.toNat src (rows.toNat + 1)))
  | .tacc _ _ eng t w k lane =>
    let n := taccLanes f eng.toNat t.toNat k.toNat
    let z := taccBlocks f eng.toNat t.toNat k.toNat
    let a := lane.toNat * 32
    inMask eng && 1 ≤ k.toNat && k.toNat ≤ 8 && t.toNat + k.toNat ≤ 64 &&
    (wins eng w).all (fun x =>
      let all := x.2.1 * x.2.2.1.rowLanes
      (n = 0 || a + n ≤ all) && rowsTouched x.2.2.1 a (min (max n z) (all - a)) ≤ 64)
  | .emit _ _ eng w t fmt _ _ _ _ _ n lane _ =>
    let least := ceilDiv n.toNat (if fmt = 31 then 448 else 4096 / fmtSize fmt.toNat)
    inMask eng && n ≠ 0 && fmt ≠ 16 && fmt ≠ 17 && least ≤ 8 && t.toNat + least ≤ 64 &&
    (wins eng w).all (fun x =>
      let k := emitCount x.2.2.1 fmt.toNat n.toNat
      lane.toNat * 32 + n.toNat ≤ x.2.1 * x.2.2.1.rowLanes && k ≤ 8 && t.toNat + k ≤ 64)
  | .tst _ _ eng t _ rows tw tr tc =>
    let r := rows.toNat + 1
    let n := ceilDiv r 32
    let cs := f.tiles.getD (eng.toNat * 64 + t.toNat) []
    inMask eng && t.toNat + n ≤ 64 &&
    (tr = 0 ||
      ((List.range n).all (fun j => (f.tiles.getD (eng.toNat * 64 + t.toNat + j) []).all (fun c => c.1 ≠ 17 && c.1 < 64)) &&
       (if cs.isEmpty then [2 ^ tw.toNat] else cs.map (fun c => contentWidth c.1 tw.toNat)).all (fun w =>
         2 ^ (tr.toNat + tc.toNat) * w = r * 128)))
  | .send _ _ _ _ nf srck t _ _ _ _ _ _ _ eng => srck || (inMask eng && t.toNat + nf.toNat ≤ 64)
  | .expect _ _ _ _ _ heng hw _ _ => inMask heng && !(wins heng hw).isEmpty
  | .post _ _ _ _ fl eng _ _ => !fl || inMask eng
  | _ => true

/-- Engines a plan holds in any variant. -/
def Plan.engines (pl : Plan) : BitVec 32 := pl.variants.foldl (fun m v => m ||| v.oxMask) 0

/-! ### Forwarding and the bridge (checks 7 and 8) -/

/-- Grants of a variant that a RECV of it names. -/
def Variant.bound (v : Variant) (code : List (Option Instr)) : List Nat :=
  (v.instrs code).filterMap (fun e =>
    match e.2 with
    | .recv _ _ _ g _ _ => some g.toNat
    | _ => none)

/-- Inbound grants whose frames are forwarded (R272). (DESIGN CHOICE, log 79) -/
def Variant.forwarded (v : Variant) (code : List (Option Instr)) : List Grant :=
  (v.grants.zipIdx.filter (fun e => !e.1.out && !(v.bound code).contains e.2)).map Prod.fst

/-- Egress ports of a class S frame from an ingress point to an address under a route table (R191, R193, R198). -/
def classSPorts (t : Tbl (BitVec 128)) (own : BitVec 24) (ing : Nat) (a : BitVec 32) : List Nat :=
  let l := if addrLoc a = own then [(addrPort a).toNat]
    else
      match routeFind t (addrLoc a) with
      | none => []
      | some e =>
        match reKind e with
        | 1 => [reSPort e]
        | 2 => maskList 49 (reSet e)
        | _ => []
  l.filter (· ≠ ing)

/-- Check 7 for one variant: every frame forwarded resolves to granted ports (R199). (DESIGN CHOICE, log 79) -/
def State.forwardOk (s : State) (p : Nat) (v : Variant) (code : List (Option Instr)) : Bool :=
  (v.forwarded code).all (fun g =>
    (s.nextRemap p).all (fun e => !Config.forwardsTo p g e.2 ||
      (let l := classSPorts s.nextRoute s.power.loc g.port e.2
       !l.isEmpty && l.all (fun q => v.grants.any (fun o => o.out && o.port = q)))))

/-- Frames that a variant takes across the bridge from die `d` in a slot: received frames loaded or forwarded on the
other die, and frames built from tiles of this one for a port of the other. -/
def Variant.crossing (v : Variant) (code : List (Option Instr)) (d slot : Nat) : Nat :=
  let l := v.instrs code
  let loads := l.any (fun e => match e.2 with
    | .tld _ _ eng _ _ src _ _ _ _ => !src && engineDie eng.toNat ≠ d
    | _ => false)
  let leaves := v.grants.any (fun g => g.out && homeDie g.port ≠ d)
  let inn := (v.grants.zipIdx.map (fun e =>
    let g := e.1
    if !g.out && homeDie g.port = d && g.covers g.port slot false &&
        (if (v.bound code).contains e.2 then loads else leaves) then v.frames g.port else 0)).foldl (· + ·) 0
  let out := (l.map (fun e => match e.2 with
    | .send _ _ port sl nf srck _ _ _ _ _ _ _ _ eng =>
      let f := v.frames port.toNat
      if !srck && engineDie eng.toNat = d && homeDie port.toNat ≠ d && sl.toNat ≤ slot then
        min f (nf.toNat - (slot - sl.toNat) * f)
      else 0
    | _ => 0)).foldl (· + ·) 0
  inn + out

/-- Frames of 4,096 B that the bridge takes in a slot and direction: 416 KiB (R146). (DEDUCED, log 80) -/
def bridgeFrames : Nat := 104

/-- Check 8: the variant beside the most that any other plan can put on the bridge. (DEDUCED, log 80) -/
def State.bridgeOk (s : State) (p slots : Nat) (v : Variant) (code : List (Option Instr)) : Bool :=
  let others := (s.nextPlans.filter (fun e => e.1 ≠ p)).map (fun e => (e.2, (decodeCode e.1 e.2.code).getD []))
  (List.range slots).all (fun k => [0, 1].all (fun d =>
    v.crossing code d k +
      (others.map (fun e => (e.1.variants.map (fun u => u.crossing e.2 d k)).foldl max 0)).foldl (· + ·) 0 ≤ bridgeFrames))

/-! ### The worst-case walk (check 9: R234, R256, R274, R324) -/

/-- Half nanoseconds, the Ox cycle: a slot has 256, a sequencer cycle 2. The state of the walk on entry to an index:
earliest next issue, latest retire so far, end of the slots SENDs have named, what is busy on each engine (begin of the
last operation, load path and emission path), and when each tile and window has its first row and its last. -/
structure Walk where
  next  : Nat := 0
  ret   : Nat := 0
  sent  : Nat := 0
  begun : Tbl Nat := []
  load  : Tbl Nat := []
  emit  : Tbl Nat := []
  first : Tbl Nat := []
  last  : Tbl Nat := []
  bad   : Bool := false
  deriving DecidableEq, Repr

def joinMax (a b : Tbl Nat) : Tbl Nat := b.foldl (fun t e => t.set e.1 (max (t.getD e.1 0) e.2)) a

/-- Paths that meet go on with the later of every time. -/
def Walk.join (a b : Walk) : Walk :=
  { next := max a.next b.next, ret := max a.ret b.ret, sent := max a.sent b.sent, begun := joinMax a.begun b.begun
    load := joinMax a.load b.load, emit := joinMax a.emit b.emit, first := joinMax a.first b.first
    last := joinMax a.last b.last, bad := a.bad || b.bad }

/-- Keys of an engine's tiles and windows. -/
def tileKey (e t : Nat) : Nat := e * 128 + t
def winKey (e w : Nat) : Nat := e * 128 + 64 + w

/-- An Ox operation of R rows: it begins when it has issued, the operation before it on the engine has begun, its path is
free and its inputs have their first row; it ends by L + R x m, and no sooner than its inputs' last rows plus L. -/
def Walk.ox (w : Walk) (e lat rows m : Nat) (path : Nat) (ins outs : List Nat) : Walk :=
  let free := match path with
    | 1 => w.load.getD e 0
    | 2 => w.emit.getD e 0
    | _ => 0
  let b := (ins.map (fun k => w.first.getD k 0)).foldl max (max (max w.next (w.begun.getD e 0)) free)
  let end_ := max (b + lat + rows * m) ((ins.map (fun k => w.last.getD k 0)).foldl max 0 + lat)
  { w with
    ret := max w.ret end_
    begun := w.begun.set e b
    load := if path = 1 then w.load.set e (b + rows * m) else w.load
    emit := if path = 2 then w.emit.set e (b + rows * m) else w.emit
    first := outs.foldl (fun t k => t.set k (b + lat)) w.first
    last := outs.foldl (fun t k => t.set k end_) w.last }

/-- What the walk needs to know of a variant beside its code: facts, f of each port, m of each engine, whether a frame
load may come from the other die. -/
structure WalkEnv where
  slots : Nat
  v     : Variant
  facts : Tbl Facts
  m     : Nat → Nat
  far   : Nat → Bool

/-- The issue of an instruction (R256): 8 cycles after the one before it, or at its AT slot. (DEDUCED, log 81) -/
def Walk.issue (w : Walk) (env : WalkEnv) (k : Nat) (i : Instr) : Walk :=
  let at_ := (guandHead i).at_.toNat
  let t := max w.next (at_ * 256)
  let w0 := { w with next := t, bad := w.bad || (at_ ≠ 0 && (at_ + 1) * 256 < t) }
  let f := env.facts.getD k {}
  let w1 : Walk :=
    match i with
    | .recv _ _ _ g _ _ =>
      (match env.v.grants[g.toNat]? with
       | some g => { w0 with bad := w0.bad || g.first * 256 < t }
       | none => w0)
    | .ld .. => { w0 with ret := max w0.ret (t + 200) }
    | .st .. => { w0 with ret := max w0.ret (t + 2) }
    | .aadd .. => { w0 with ret := max w0.ret (t + 2) }
    | .aswp .. => { w0 with ret := max w0.ret (t + 2) }
    | .acas .. => { w0 with ret := max w0.ret (t + 2) }
    | .acas2 .. => { w0 with ret := max w0.ret (t + 2) }
    | .post .. => { w0 with ret := max w0.ret (t + 2) }
    | .fenceDepot .. => { w0 with ret := max w0.ret (t + 400) }
    | .fenceTick .. => { w0 with ret := max w0.ret (t + 2000) }
    | .expect _ _ _ hmask _ _ _ _ _ =>
      let dl := ((maskList 16 hmask.toNat).map (fun h => f.may.getD h 0)).foldl max 0
      { w0 with ret := max w0.ret (max (t + 2) (if hmask = 0 then 0 else (dl + 1) * 256)) }
    | .send _ _ port slot nf _ _ _ _ _ _ _ _ _ _ =>
      let r := max w0.ret (t + 2)
      let z := slot.toNat + sendSlots nf.toNat (env.v.frames port.toNat) - 1
      { w0 with ret := r, sent := max w0.sent ((z + 1) * 256), bad := w0.bad || z * 256 < r }
    | .lclr _ _ eng w _ _ _ _ _ => w0.ox eng.toNat 4 0 0 0 [] [winKey eng.toNat w.toNat]
    | .tld _ _ eng tt fmt src _ rows tr _ =>
      let e := eng.toNat
      let n := tldTiles fmt.toNat src (rows.toNat + 1)
      let lat := (if src then 200 else if env.far e then 56 else 24) + (if tr = 0 then 0 else 32)
      w0.ox e lat (if src then rows.toNat + 1 else n * 32) (env.m e) 1 [] ((List.range n).map (fun j => tileKey e (tt.toNat + j)))
    | .tacc _ _ eng tt w k _ =>
      let e := eng.toNat
      w0.ox e 8 (k.toNat * 32) (env.m e) 0
        (winKey e w.toNat :: (List.range k.toNat).map (fun j => tileKey e (tt.toNat + j))) [winKey e w.toNat]
    | .emit _ _ eng w tt fmt _ _ _ _ _ n _ _ =>
      let e := eng.toNat
      let ws := f.wins.getD (e * 8 + w.toNat) []
      let cnt := (ws.map (fun x => emitCount x.2.2.1 fmt.toNat n.toNat)).foldl max 0
      let lanes := if ws.any (fun x => x.2.2.2 = 1) then 8 else 32
      let rows := if fmt = 31 then cnt * 32 else ceilDiv n.toNat lanes
      w0.ox e 12 rows (env.m e) 2 [winKey e w.toNat] ((List.range cnt).map (fun j => tileKey e (tt.toNat + j)))
    | .tst _ _ eng tt _ rows _ tr _ =>
      let e := eng.toNat
      let r := rows.toNat + 1
      w0.ox e (16 + (if tr = 0 then 0 else 32)) r (env.m e) 0
        ((List.range (ceilDiv r 32)).map (fun j => tileKey e (tt.toNat + j))) []
    | .tickwait .. => { w0 with bad := w0.bad || env.slots * 256 < max t (max w0.ret w0.sent) }
    | _ => w0
  { w1 with next := t + 16 }

/-- Paths waiting to go on from an index. -/
abbrev Fronts := Tbl Walk

def Fronts.add (a : Fronts) (k : Nat) (w : Walk) : Fronts :=
  Tbl.set a k (match Tbl.get? a k with
    | some o => o.join w
    | none => w)

/-- Where the walk keeps the paths that pass the LEND at an index, apart from those that leave the body by a jump. -/
def backKey (code : List (Option Instr)) (k : Nat) : Nat := code.length + 1 + k

/-- The walk over the indices from `lo` on, `n` of them; `fuel` bounds the nesting of loops. Paths that leave the range
stay in the table. (DEDUCED, log 81) -/
def walkRange (env : WalkEnv) (code : List (Option Instr)) : (fuel lo n : Nat) → Fronts → Fronts
  | 0, _, _, a => a
  | _, _, 0, a => a
  | fuel + 1, lo, n + 1, a =>
    match Tbl.get? a lo, at? code lo with
    | some w, some i =>
      let a0 : Fronts := Tbl.erase a lo
      let w1 := w.issue env lo i
      match i with
      | .loop _ _ _ end_ max =>
        -- the body MAX times, each time from where its LEND left off
        let back := backKey code end_.toNat
        let body := end_.toNat - lo
        let step (x : Fronts × Option Walk) : Fronts × Option Walk :=
          match x.2 with
          | none => x
          | some v =>
            let r := walkRange env code fuel (lo + 1) body (Fronts.add x.1 (lo + 1) v)
            (Tbl.erase (Tbl.erase r back) (lo + 1), Tbl.get? r back)
        let run := (List.range max.toNat).foldl (fun x _ => step x) (a0, some w1)
        let out := match run.2 with
          | some v => Fronts.add run.1 (end_.toNat + 1) v
          | none => run.1
        let m := Nat.min n body
        walkRange env code fuel (lo + 1 + m) (n - m) out
      | .lend .. => walkRange env code fuel (lo + 1) n (Fronts.add a0 (backKey code lo) w1)
      | .br _ _ _ _ t =>
        let b := if fallsOn i then Fronts.add a0 (lo + 1) w1 else a0
        walkRange env code fuel (lo + 1) n (Fronts.add b t.toNat w1)
      | .expect _ _ _ _ _ _ _ hole _ =>
        -- a failed test resumes at HOLE when the EXPECT has retired
        let h := { w1 with next := max w1.next w1.ret }
        walkRange env code fuel (lo + 1) n (Fronts.add (Fronts.add a0 (lo + 2) w1) hole.toNat h)
      | .tickwait .. =>
        walkRange env code fuel (lo + 1) n (if w1.bad then Fronts.add a0 code.length w1 else a0)
      | _ => walkRange env code fuel (lo + 1) n (Fronts.add a0 (lo + guandLen i) w1)
    | _, _ => walkRange env code fuel (lo + 1) n a

/-- The tiles of an engine that an instruction reads as streams: the first one and how many (R219). -/
def tilesRead (i : Instr) (e : Nat) : Nat × Nat :=
  match i with
  | .tacc _ _ eng t _ k _ => if eng.toNat = e then (t.toNat, k.toNat) else (0, 0)
  | .tst _ _ eng t _ rows _ _ _ => if eng.toNat = e then (t.toNat, ceilDiv (rows.toNat + 1) 32) else (0, 0)
  | .send _ _ _ _ nf srck t _ _ _ _ _ _ _ eng => if eng.toNat = e && !srck then (t.toNat, nf.toNat) else (0, 0)
  | _ => (0, 0)

/-- Instances of an instruction that can stream at once: one for each time its loops run it, but no more than there are
collectors (R219, R234). -/
def atOnce (ls : List LoopOf) (k : Nat) : Nat := min 4 (((ls.filter (fun l => l.holds k)).map LoopOf.max).foldl (· * ·) 1)

/-- m of R234 for an engine: streams of one bank at once, one for each reader since it holds one collector at a time, plus
the copy-backs, at most 5, and the largest of any bank. (DEDUCED, log 81) -/
def bankLoad (ls : List LoopOf) (l : List (Nat × Instr)) (e : Nat) : Nat :=
  let uses (x : Nat × Instr) (b : Nat) : Nat :=
    let r := tilesRead x.2 e
    if (List.range r.2).any (fun j => (r.1 + j) % 32 = b) then atOnce ls x.1 else 0
  min 5 (1 + ((List.range 32).map (fun b => (l.map (fun x => uses x b)).foldl (· + ·) 0)).foldl max 0)

/-- Check 9: the walk of a variant reaches no refused point. (DEDUCED, log 81) -/
def Variant.walkOk (v : Variant) (code : List (Option Instr)) (facts : Tbl Facts) (slots : Nat) : Bool :=
  let l := v.instrs code
  let env : WalkEnv := {
    slots := slots, v := v, facts := facts, m := bankLoad (loopsOf code) l
    far := fun e => v.grants.any (fun g => !g.out && homeDie g.port ≠ engineDie e) }
  let r := walkRange env code (5 * code.length + 5) 0 code.length [(v.entry, {})]
  !r.any (fun e => e.2.bad)

/-! ### The checks in order -/

/-- The result of admission: DETAIL of BAD_PLAN (1 to 9), 10 for BAD_BUDGET, 11 for BAD_POOL, or a plan.
(DESIGN CHOICE, log 74) -/
def State.judgeImage (s : State) (p ctx : Nat) (b : List Byte) : Except Nat Plan :=
  let n := s.nextSlots
  if !imageOk b p n then .error 1
  else
    let pl := planOfImage b ctx
    match decodeCode p pl.code with
    | none => .error 2
    | some code =>
      let start := pl.carried code
      let vs := pl.variants.map (fun v => (v, factsOf code start v.entry))
      let resv := s.nextGrants.getD p []
      let others := s.nextPlans.filter (fun e => e.1 ≠ p)
      let all := others ++ [(p, pl)]
      if !((heads code).all (fun e => wordOk n e.2) && vs.all (fun v => v.1.pairsOk code v.2)) then .error 2
      else if !(flowOk code && vs.all (fun v =>
          let l := v.1.instrs code
          let pro := reachFrom code endsPrologue v.1.entry
          (at? code v.1.entry).isSome && (loopsOf code).all (fun x => !x.holds v.1.entry) &&
          l.all (fun e => (succsOf e.1 e.2).all (fun t => (at? code t).isSome) &&
            (match e.2 with
             | .recv _ _ hd _ _ _ => pro.contains e.1 && ((v.2.getD e.1 {}).may.get? hd.toNat).isNone
             | _ => true)))) then .error 3
      else if !vs.all (fun v => v.1.grantsOk code n resv) then .error 4
      else if !vs.all (fun v => v.1.deadlinesOk code v.2 n s.budgetIn) then .error 5
      else if !(vs.all (fun v => (v.1.instrs code).all (fun e => oxOk v.1 (v.2.getD e.1 {}) e.2)) &&
          others.all (fun e => e.2.engines &&& pl.engines = 0)) then .error 6
      else if !vs.all (fun v => s.forwardOk p v.1 code) then .error 7
      else if !vs.all (fun v => s.bridgeOk p n v.1 code) then .error 8
      else if !vs.all (fun v => v.1.walkOk code v.2 n) then .error 9
      else if !([0, 1] : List Nat).all (fun d => 16384 ≤ sharedOf (classSOf all d) (minsOf d s.gminShared)) then .error 10
      else if !([0, 1] : List Nat).all (fun d => classSOf all d + 65536 ≤ (s.die d).p2.mib * 4096) then .error 11
      else .ok pl

end Sys2Proof.Machine
end

