-- ==== Sys2Proof/Machine/Lanes.lean ====
section
/-! DEFINITION. Lanes (chapter 3): bring-up, CAPS, the lane set, equalisation, loss of lock, drop and readmission, power
states; ranging (chapter 1); and how a port enters ACTIVE, goes DOWN and restarts. -/

namespace Sys2Proof.Machine

/-! ### Lane sets (R96) -/

/-- The legal widths of a port, widest first. -/
def legalWidths (p : Nat) : List Nat := if p = 48 then [16, 12, 8, 4, 2, 1] else [8, 6, 4, 2, 1]

/-- The width that a number of healthy lanes gives. -/
def widthOf (p n : Nat) : Nat := ((legalWidths p).find? (· ≤ n)).getD 0

/-- The lane set: the lowest-numbered healthy lanes up to the width. -/
def laneSet (p : Nat) (healthy : BitVec 16) : BitVec 16 :=
  let l := maskList 16 healthy.toNat
  BitVec.ofNat 16 (listMask (l.take (widthOf p l.length)))

/-- The number of lanes in a set. -/
def maskWidth (m : BitVec 16) : Nat := (maskList 16 m.toNat).length

/-- The mask of one logical lane. -/
def laneBit (l : Nat) : BitVec 16 := 1#16 <<< l

/-- A lane that the operator or Mule holds out of its port (R486, R398). -/
def State.laneHeld (s : State) (p j : Nat) : Bool := (s.port p).exclude.getLsbD j || (s.lane p j).muleHeld

/-- The physical lane that carries logical lane `l`. -/
def State.physOf (s : State) (p l : Nat) : Option Nat :=
  (List.range (laneCount p)).find? (fun j => (s.lane p j).capsDone && (s.lane p j).logical = l)

/-- Logical lanes that are held out. -/
def State.heldMask (s : State) (p : Nat) : BitVec 16 :=
  (List.range (laneCount p)).foldl (fun m j => if s.laneHeld p j then m ||| laneBit (s.lane p j).logical else m) 0

/-- On DX-48O port 32 to port 47 the taps stay at P0 (R97). (DEDUCED, log 59) -/
def coPackaged (p : Nat) : Bool := 32 ≤ p && p ≤ 47 && Config.isOptical

/-! ### Port states -/

/-- PORT_STATUS.DOWN goes to 1 (R166, R167, R368). -/
def State.setDown (s : State) (p : Nat) : State :=
  if (s.port p).down then s
  else ((s.modPort p (fun q => { q with down := true })).portDownQueues p).mgmtCause 2

/-- The taps at which a lane starts TRAIN (R97, R489). -/
def State.startTaps (s : State) (p j : Nat) : Int × Int :=
  let l := s.lane p j
  if coPackaged p then presetTaps 0
  else presetTaps (if l.presetOvr then l.preset else reachPreset p (s.port p).reach)

/-- What bring-up has gathered is forgotten; the lane stands in `st`. (DEDUCED, log 58) -/
def Lane.begin (l : Lane) (st : LaneState) : Lane :=
  { l with
    st := st, marks := 0, eyeGood := 0, ackSeen := false, capsAcks := 0, capsOk := false, move := 0, waiting := false
    undo := false, fresh := false, reqOut := 0, respOut := 0, reqIn := 0, reqLate := 0, marginal := 0, parked := false }

/-- A lane enters TRAIN at its preset. -/
def State.laneTrain (s : State) (p j : Nat) : State :=
  let t := s.startTaps p j
  s.modLane p j (fun l => { l.begin .train with cm1 := t.1, cp1 := t.2 })

/-- Every lane of a port starts anew in `st`, those held out in OFF (R90, R107, R486). -/
def State.lanesFrom (s : State) (p : Nat) (st : LaneState) : State :=
  (List.range (laneCount p)).foldl (fun t j =>
    let st1 := if t.laneHeld p j then LaneState.off else st
    t.modLane p j (fun l => { l.begin st1 with capsDone := false, detectFails := 0, fails := 0 })) s

/-- The port's link is gone: nothing of it holds any more but the port's own settings and its quarantine (Table 19.1).
(DEDUCED, log 62) -/
def Port.unlink (q : Port) : Port :=
  { q with
    active := false, reversed := false, caps := none, linkReach := 0, widthIn := 0, widthOut := 0, maskIn := 0, maskOut := 0
    healthyIn := 0, healthyOut := 0, pwrOut := .off, pwrIn := .off, hunt := false, credB := {}, credC := {}
    creditFirst := false, creditSlots := 0, creditDue := false, resume := none, waking := false, noticed := []
    proposed := 0, proposing := false, nextOut := none, outLate := none, qLocNext := none, range := none
    delayOut := 0, delayIn := 0, delayOver := false, ranged := false, slotUsed := 0, cRun := 0 }

/-- A port restart (Table 19.1). (DEDUCED, log 51; DEDUCED, log 62) -/
def State.restartPort (s : State) (p : Nat) (st : LaneState) : State :=
  let t := (s.modPort p Port.unlink).lanesFrom p st
  { t with wire := t.wire.map (fun e => if e.1 = p then (p, { e.2 with mask := 0, part := [], asleep := none }) else e) }

/-- Whether a partner Dolmo at `loc` is not the expected neighbour of a port (R435, R434). -/
def State.neighbourBad (s : State) (p : Nat) (loc : BitVec 24) : Bool :=
  loc = s.power.loc ||
  (if p = 48 then loc ≠ s.pairLoc
   else
    loc.extractLsb' 21 3 ≠ s.power.loc.extractLsb' 21 3 ||
    (match s.epoch.cur.route.find? (fun e => reKind e.2 = 1 && reMask e.2 = 0xFFFFFF && reSPort e.2 = p) with
     | some e => reMatch e.2 ≠ loc
     | none => false))

/-! ### Ranging (R22-R24, R140) -/

/-- A RANGE frame (Table 4.8). (DESIGN CHOICE, log 16; DESIGN CHOICE, log 52) -/
def State.sendRange (s : State) (p kind index : Nat) (t2 t3 : Word) (ab ba : Nat) : State :=
  let lat := if kind = 2 then leBytes 2 Config.latTx.toNat ++ leBytes 2 Config.latRx.toNat else List.replicate 4 0
  s.emit (.frame p (linkHeader tyRange 32)
    (leBytes 1 kind ++ leBytes 1 index ++ List.replicate 6 0 ++ leBytes 8 t2.toNat ++ leBytes 8 t3.toNat ++ lat ++
      leBytes 2 ab ++ leBytes 2 ba) false false)

/-- The initiator sends the request of its present exchange, whose T1 stamp is `t1`. -/
def State.sendRangeReq (s : State) (p : Nat) (r : RangeRun) (t1 : Word) : State :=
  (s.modPort p (fun q => { q with range := some { r with t1 := t1 } })).sendRange p 1 r.index 0 0 0 0

/-- This Dolmo initiates on the port's link (R22). (DEDUCED, log 54) -/
def State.initiates (s : State) (p : Nat) : Bool :=
  match (s.port p).caps with
  | some c => !c.dolmo || decide (s.power.loc.toNat < c.loc.toNat)
  | none => false

/-- A ranging run starts; before the tick is acquired its first exchange goes out at once (R23). -/
def State.startRange (s : State) (p : Nat) : State :=
  if s.initiates p then
    let r : RangeRun := { initiator := true }
    if s.rooster.st = .free then let (t1, s1) := s.fresh; s1.sendRangeReq p r t1
    else s.modPort p (fun q => { q with range := some r })
  else s

/-- PORT_RANGE_START. (DEDUCED, log 54) -/
def execPortRangeStart (path : Path) (port : Nat) (s : State) : Res :=
  withPort port (.next
    (if path = .pf && s.alive && s.power.ready && (s.port port).active && (s.port port).range.isNone then s.startRange port else s))

/-- Insertion into a rising list. -/
def insertInt (v : Int) : List Int → List Int
  | [] => [v]
  | x :: t => if v ≤ x then v :: x :: t else x :: insertInt v t

/-- The trimmed mean of doubled delays, in 1/4 ns (R24). -/
def trimmedDelay (l : List Int) : Nat :=
  let kept := ((l.foldr insertInt []).drop 8).take 48
  (clampInt 0 65535 (roundEven (kept.foldl (· + ·) 0) 96)).toNat

/-- PORT_DELAY is written, with OVER above 12,800 ns (R26) and DELAY_PLAN above the D of the plan in force (R438). -/
def State.setDelays (s : State) (p out inn : Nat) : State :=
  let q := s.port p
  let worse := q.planD ≠ 0 && q.planD < inn
  let s1 := s.setPort p { q with
    delayOut := out, delayIn := inn, ranged := true, rangedWidth := q.widthIn, range := none
    delayOver := 51200 < out || 51200 < inn
    delayPlan := q.delayPlan || worse }
  if worse then s1.bumpPort p pkDelayOverPlan else s1

/-- The responder answers a request (R23). -/
def State.answerRange (s : State) (port index : Nat) (stamp reply : Word) : State :=
  (s.modPort port (fun q => { q with range := some { initiator := false, index := index } })).sendRange port 2 index stamp reply 0 0

/-- RANGE: a request is answered, a reply ends an exchange, a result is taken over. (DEDUCED, log 53) -/
def execRange (port : Nat) (f : RxFrame) (stamp reply : Word) (s : State) : Res :=
  withPort port (.next
    (match s.linkRx port tyRange f with
     | (s1, none) => s1
     | (s1, some b) =>
       let q := s1.port port
       let kind := natAt b 0 1
       let index := natAt b 1 1
       if kind = 1 then
         let now := match q.range with
           | some r => if r.initiator then none else some r.index
           | none => none
         match now with
         | none => if q.range.isNone && index = 0 then s1.answerRange port index stamp reply else s1
         | some k =>
           if index < 64 && (index = 0 || index = k || index = k + 1) then
             s1.answerRange port index stamp reply
           else s1
       else
         match q.range with
         | none => s1
         | some r =>
           if kind = 2 && r.initiator && r.index = index && index < 64 then
             let rtt := (stamp - r.t1).toInt - (BitVec.ofNat 64 (natAt b 16 8) - BitVec.ofNat 64 (natAt b 8 8)).toInt
             let asym := ((Config.latTx.toNat : Int) + natAt b 26 2) - ((natAt b 24 2 : Int) + Config.latRx.toNat) + q.asym.toInt
             let r1 : RangeRun := { r with index := index + 1, out2 := r.out2 ++ [rtt + asym], in2 := r.in2 ++ [rtt - asym] }
             let s2 := s1.setPort port { q with range := some r1 }
             if r1.index < 64 && s.rooster.st = .free then s2.sendRangeReq port r1 reply else s2
           else if kind = 3 && !r.initiator && r.index = index then s1.setDelays port (natAt b 30 2) (natAt b 28 2)
           else s1))

/-- RANGING_COMPLETE: the initiator computes both delays, tells the responder and writes its own. -/
def execRangingComplete (port : Nat) (s : State) : Res :=
  withPort port (.next
    (match (s.port port).range with
     | some r =>
       if r.initiator && r.index = 64 then
         let ab := trimmedDelay r.out2
         let ba := trimmedDelay r.in2
         (s.sendRange port 3 63 0 0 ab ba).setDelays port ab ba
       else s
     | none => s))

/-! ### Entering ACTIVE (R92, R95, R96) -/

/-- The account of a port restarts with its credits (R129). -/
def State.resetCredits (s : State) (p : Nat) : State :=
  let f (t : State) (c : Bool) : State := let a := t.acct p c; t.setAcct p c { a with rx := 0, limit := 0 }
  f (f s false) true

/-- Lane states follow the incoming lane set; lanes that left it without being healthy retrain (R108). -/
def State.settleLanes (s : State) (p : Nat) (old : BitVec 16) : State :=
  let q := s.port p
  (List.range (laneCount p)).foldl (fun t j =>
    let l := t.lane p j
    if !l.capsDone then t
    else if q.maskIn.getLsbD l.logical then t.setLane p j { l with st := .active }
    else if q.healthyIn.getLsbD l.logical then t.setLane p j { l with st := .standby }
    else if old.getLsbD l.logical && l.st = .active then
      if t.laneHeld p j then t.setLane p j (l.begin .off) else t.laneTrain p j
    else t) s

/-- A new incoming lane set takes effect; lanes taken in count LANE_READMIT (R108), and the link is ranged again (R22);
with no lane left the port restarts. (DEDUCED, log 147) -/
def State.takeMaskIn (s : State) (p : Nat) (m : BitVec 16) (readmit : Bool) : State :=
  let q := s.port p
  let s1 := s.setPort p { q with maskIn := m, widthIn := maskWidth m, hunt := false, proposing := false, noticed := [] }
  let s2 := s1.settleLanes p q.maskIn
  let taken := maskList 16 (m &&& ~~~q.maskIn).toNat
  let s3 := if readmit then taken.foldl (fun t l => match t.physOf p l with
    | some j => t.bumpLane p j lkReadmit
    | none => t) s2 else s2
  if m = 0 then (s3.setDown p).restartPort p .quiet else s3.startRange p

/-- A new outgoing lane set takes effect behind a REALIGN marker (R105, R108), where a frame that is under way breaks off,
since no frame crosses that stop (R115); with no lane left the port restarts. (DEDUCED, log 147; DESIGN CHOICE, log 161) -/
def State.takeMaskOut (s : State) (p : Nat) (m : BitVec 16) (readmit : Bool) : State :=
  let s0 := s.egressEndFrame p
  let q := s0.port p
  let s1 := s0.setPort p { q with maskOut := m, widthOut := maskWidth m }
  let s2 := s1.emit (.line p .realign)
  let s3 := if readmit then (maskList 16 (m &&& ~~~q.maskOut).toNat).foldl (fun t l => match t.physOf p l with
    | some j => t.bumpLane p j lkReadmit
    | none => t) s2 else s2
  if m = 0 then (s0.setDown p).restartPort p .quiet else if m = q.maskOut then s3 else s3.startRange p

/-- The port's directions enter ACTIVE, and the outgoing one has its first origin (Table 3.2). -/
def State.enterActive (s : State) (p : Nat) (c : Caps) (inn out : BitVec 16) : State :=
  let q := s.port p
  let loc := c.dolmo && s.neighbourBad p c.loc
  let dup := c.dolmo && c.loc = s.power.loc
  let q1 := { q with
    active := true, down := false, linkReach := max q.reach c.reach, healthyIn := inn, healthyOut := out
    maskIn := laneSet p inn, maskOut := laneSet p out, widthIn := maskWidth (laneSet p inn)
    widthOut := maskWidth (laneSet p out), pwrIn := .awake, pwrOut := .awake
    qLoc := loc, qRole := !c.dolmo && p = 48, qLanes := c.maxLanes ≠ laneCount p
    credB := {}, credC := {}, creditFirst := false, creditSlots := 0, creditDue := false }
  let s0 := s.setLine p ((s.line p).start (s.time * symsPerNs) (laneSet p out))
  let s1 := (((s0.setPort p q1).quarantineQueues p).resetCredits p).settleLanes p 0
  let s2 := if loc then s1.bumpPort p pkLocMismatch else s1
  let s3 := if dup then ({ s2 with power := { s2.power with dup := true } }).bumpDev dkLocDup else s2
  s3.startRange p

/-- The logical lanes that have completed CAPS. -/
def State.capsMask (s : State) (p : Nat) : BitVec 16 :=
  (List.range (laneCount p)).foldl (fun m j =>
    if (s.lane p j).capsDone && !s.laneHeld p j then m ||| laneBit (s.lane p j).logical else m) 0

/-- PORT_ACTIVE: judged whenever a lane completes CAPS or is excluded (R92). -/
def State.tryActive (s : State) (p : Nat) : State :=
  let q := s.port p
  if q.active || !q.enable || !q.admitted then s
  else
    let lanes := List.range (laneCount p)
    let out (j : Nat) : Bool := s.laneHeld p j || (s.lane p j).excluded
    if lanes.all out then s.setDown p
    else if lanes.all (fun j => out j || (s.lane p j).capsDone) then
      match q.caps with
      | none => s
      | some c =>
        let inn := s.capsMask p
        if inn = 0 || c.rxMask &&& inn = 0 then s else s.enterActive p c inn (c.rxMask &&& inn)
    else s

/-! ### Bring-up (Table 3.6) -/

/-- A partner receiver or light is present. -/
def Lane.detected (l : Lane) : Lane := { l.begin .quiet with detectFails := 0, absent := false }

/-- LANE_DETECT_PULSE: one attempt of DETECT; on OPT ports the light is looked at, and nothing is sent. -/
def execLaneDetectPulse (port lane : Nat) (found : Bool) (s : State) : Res :=
  withLane port lane (.next
    (let l := s.lane port lane
     if s.alive && l.st = .detect then
       let s1 := if (s.port port).reach = 3 then s else s.emit (.detectPulse port lane)
       if found then s1.setLane port lane l.detected
       else s1.setLane port lane { l with detectFails := l.detectFails + 1, absent := l.absent || 100 ≤ l.detectFails + 1 }
     else s))

/-- RECEIVED_LIGHT. -/
def execReceivedLight (port lane : Nat) (s : State) : Res :=
  withLane port lane (.next
    (let l := s.lane port lane
     if s.alive && l.st = .detect && (s.port port).reach = 3 then s.setLane port lane l.detected else s))

/-- QUIET_EXPIRY. (DESIGN CHOICE, log 7) -/
def execQuietExpiry (port lane : Nat) (s : State) : Res :=
  withLane port lane (.next
    (if s.alive && (s.lane port lane).st = .quiet && !(s.lane port lane).parked then s.laneTrain port lane else s))

/-- BIT_LOCK. (DESIGN CHOICE, log 7) -/
def execBitLock (port lane : Nat) (s : State) : Res :=
  withLane port lane (.next
    (if s.alive && (s.lane port lane).st = .train then s.modLane port lane (fun l => { l with st := .lock, marks := 0 }) else s))

/-- The lane and CHECK fields of a marker agree (R89). -/
def markerOk (m : LaneMarker) : Bool :=
  m.compl = ~~~m.lane &&
  m.info.extractLsb' 18 6 = m.info.extractLsb' 0 6 ^^^ m.info.extractLsb' 6 6 ^^^ m.info.extractLsb' 12 6


/-- Taps that satisfy R97. -/
def tapsLegal (cm1 cp1 : Int) : Bool :=
  -16 ≤ cm1 && cm1 ≤ 0 && -24 ≤ cp1 && cp1 ≤ 0 && 16 ≤ 64 + 2 * (cm1 + cp1)

/-- A REQ is carried out by this end's transmitter, and its RESP stands ready (Table 3.8). -/
def Lane.request (l : Lane) (fixed : Bool) (code : Nat) : Lane :=
  if code = 0 then l
  else if fixed || 13 ≤ code then { l with respOut := 3 }
  else if 5 ≤ code then
    if l.st = .eq then
      let t := presetTaps (code - 5)
      { l with cm1 := t.1, cp1 := t.2, respOut := 1 }
    else { l with respOut := 3 }
  else
    let d1 : Int := if code = 1 then 1 else if code = 2 then -1 else 0
    let d2 : Int := if code = 3 then 1 else if code = 4 then -1 else 0
    if tapsLegal (l.cm1 + d1) (l.cp1 + d2) then { l with cm1 := l.cm1 + d1, cp1 := l.cp1 + d2, respOut := 1 }
    else { l with respOut := 2 }

/-- The REQ codes of the trial moves in order, and of their undoing (R101). -/
def moveCode (undo : Bool) : Nat → Nat
  | 0 => if undo then 3 else 4
  | 1 => if undo then 4 else 3
  | 2 => if undo then 1 else 2
  | _ => if undo then 2 else 1

/-- A request goes out and its effect is awaited. -/
def Lane.ask (l : Lane) (undo : Bool) : Lane :=
  { l with reqOut := moveCode undo l.move, undo := undo, waiting := true, applied := false, fresh := false, baseEye := l.eye }

/-- The loop passes to the next trial move. -/
def Lane.nextMove (l : Lane) : Lane := { l with move := (l.move + 1) % 4, waiting := false, undo := false, reqOut := 0 }

/-- A RESP to this end's last REQ. (DEDUCED, log 59) -/
def Lane.answered (l : Lane) (resp : Nat) : Lane :=
  if !l.waiting then l
  else if resp = 1 then { l with reqOut := 0, applied := true, fresh := false }
  else if resp = 2 || resp = 3 then l.nextMove
  else l

/-- A window of measurement has ended with `l.eye`: the adaptation loop (R99, R101). A step is judged by the first window that
began after its RESP. -/
def Lane.adapt (l : Lane) (fixed : Bool) : Lane :=
  if fixed || 96 ≤ l.eye then { l with waiting := false, undo := false, reqOut := 0 }
  else if !l.waiting then l.ask false
  else if !l.applied then l
  else if !l.fresh then { l with fresh := true }
  else if l.undo then l.nextMove.ask false
  else if l.baseEye + 2 ≤ l.eye then l.ask false
  else l.ask true

/-- EQ is left for CAPS (Table 3.6). -/
def Lane.eqDone (l : Lane) : Lane :=
  if l.st = .eq && 4 ≤ l.eyeGood && l.ackSeen then { l with st := .caps, capsAcks := 0, capsOk := false } else l

/-- The CAPS record that this Dolmo sends on a port (Table 3.7): it receives healthily the lanes that have left EQ.
(DESIGN CHOICE, log 64) -/
def State.capsBytes (s : State) (p : Nat) : List Byte :=
  let rx := (List.range (laneCount p)).foldl (fun m j =>
    match (s.lane p j).st with
    | .caps => m ||| laneBit (s.lane p j).logical
    | .standby => m ||| laneBit (s.lane p j).logical
    | .active => m ||| laneBit (s.lane p j).logical
    | _ => m) 0
  let r := s.rooster
  let b := [1, 1] ++ leBytes 2 rx.toNat ++ leBytes 1 (s.port p).reach ++
    leBytes 1 (1 + 2 * b2n r.refLive + 4 * b2n r.gmEligible) ++ leBytes 3 s.power.loc.toNat ++ leBytes 1 (laneCount p) ++
    leBytes 4 s.epoch.current.toNat ++ leBytes 2 (if r.st = .free then 0 else r.slots) ++ List.replicate 300 0
  b ++ leBytes 4 (crc32c b).toNat

/-- STATE of a training marker (Table 3.5), 0 where the lane sends none. -/
def LaneState.code : LaneState → Nat
  | .train => 1 | .lock => 2 | .orient => 3 | .eq => 4 | .caps => 5 | .standby => 6 | _ => 0

/-- INFO of the training markers that a lane sends (Table 3.5): ACK once it has symbol lock. -/
def State.trainInfo (s : State) (p j : Nat) : BitVec 24 :=
  let l := s.lane p j
  let lock := 3 ≤ l.st.code
  markerInfo (BitVec.ofNat 18 (l.st.code + 8 * b2n lock + 16 * (l.reqOut % 16) + 256 * (l.respOut % 4) + 1024 * (l.eye % 256)))

/-- What a lane sends (Table 3.6, R87, R109): nothing, a detect pulse every 100 µs, electrical idle, training blocks back to
back with a marker and a payload, or its windows of the direction's stream. -/
inductive LaneSends where
  | nothing | pulses | idle | blocks (info : BitVec 24) (payload : List Byte) | stream
  deriving DecidableEq, Repr

/-- (DESIGN CHOICE, log 64) -/
def State.laneSends (s : State) (p j : Nat) : LaneSends :=
  match (s.lane p j).st with
  | .off => .nothing
  | .detect => if (s.port p).reach = 3 then .nothing else .pulses
  | .quiet => .idle
  | .active => .stream
  | .caps => .blocks (s.trainInfo p j) (s.capsBytes p)
  | _ => .blocks (s.trainInfo p j) (List.replicate 320 0)

/-- The symbols of one training block that a lane sends; its transmitter numbers it by its place on the port.
(DESIGN CHOICE, log 64) -/
def State.blockLevels (s : State) (p j : Nat) : List Level :=
  match s.laneSends p j with
  | .blocks info payload => trainingBlock j info payload
  | _ => []

/-- A lane in EQ goes on; where it enters CAPS, its blocks carry the CAPS record. -/
def State.eqLane (s : State) (p j : Nat) (l : Lane) : State :=
  let s1 := s.setLane p j l.eqDone
  if l.eqDone.st = .caps then s1.emit (.caps p j (s1.capsBytes p)) else s1

/-- The order of a port's lanes is reversed on a majority of the lanes read (R93). (DEDUCED, log 60) -/
def State.orderReversed (s : State) (p : Nat) : Bool :=
  let read := (List.range (laneCount p)).filter (fun j =>
    match (s.lane p j).st with
    | .orient => 0 < (s.lane p j).marks
    | .eq => true | .caps => true | .active => true | .standby => true
    | _ => false)
  (read.filter (fun j => (s.lane p j).logical = j)).length <
    (read.filter (fun j => (s.lane p j).logical = laneCount p - 1 - j)).length

/-- An accepted training marker in ORIENT. (DEDUCED, log 60) -/
def State.orient (s : State) (p j : Nat) (m : LaneMarker) : State :=
  let l := s.lane p j
  let same := l.marks ≠ 0 && l.logical = m.lane.toNat && l.inverted = m.inverted
  let l1 := { l with marks := if same then l.marks + 1 else 1, logical := m.lane.toNat, inverted := m.inverted }
  let s1 := s.setLane p j l1
  if l1.marks < 8 then s1
  else
    let s2 := s1.modPort p (fun q => { q with reversed := s1.orderReversed p })
    if l1.logical = j || l1.logical + 1 + j = laneCount p then
      s2.setLane p j { l1 with st := .eq, marks := 0, miswired := false, eyeGood := 0, ackSeen := false }
    else
      (s2.setLane p j { l1.begin .quiet with excluded := true, miswired := true, parked := true, capsDone := false }).tryActive p

/-- The SUB code of an accepted LINE marker. -/
def markerSub (m : LaneMarker) : Option Nat :=
  if markerOk m && m.info.extractLsb' 0 3 = 7 then some (m.info.extractLsb' 4 4).toNat else none

/-- TRAINING_MARKER. An unaccepted marker is ignored, and breaks a run of consecutive ones; in LOCK they are to be one block
apart (R90). A HINGE LINE marker on an ACTIVE lane, wherever it falls, marks a stop and the next origin, which ends hunt
(R89, R122). -/
def execTrainingMarker (port lane : Nat) (m : LaneMarker) (s : State) : Res :=
  withLane port lane (.next
    (let l := s.lane port lane
     if !s.alive then s
     else if m.info.extractLsb' 0 3 = 7 then
       (if markerSub m = some 0 && (s.port port).active && l.st = .active then s.modPort port (fun q => { q with hunt := false })
        else s)
     else if !markerOk m then
       match l.st with
       | .lock => s.setLane port lane { l with marks := 0 }
       | .orient => s.setLane port lane { l with marks := 0 }
       | _ => s
     else
       let ack := m.info.getLsbD 3
       match l.st with
       | .lock =>
         let n := if m.gap = 1516 then l.marks + 1 else 1
         s.setLane port lane (if 8 ≤ n then { l with st := .orient, marks := 0 } else { l with marks := n })
       | .orient => s.orient port lane m
       | .eq =>
         let l1 := (l.request (coPackaged port) (m.info.extractLsb' 4 4).toNat).answered (m.info.extractLsb' 8 2).toNat
         s.eqLane port lane { l1 with ackSeen := l.ackSeen || ack, farEye := (m.info.extractLsb' 10 8).toNat }
       | .caps => if ack then s else s.setLane port lane { l with capsAcks := 0 }
       | _ => s))

/-- The CAPS record of Table 3.7, where R95 finds it valid. -/
def capsOf (b : List Byte) : Option Caps :=
  let role := natAt b 1 1
  let reach := natAt b 4 1
  let lanes := natAt b 9 1
  if natAt b 316 4 = (crc32c (bytesAt b 0 316)).toNat && natAt b 0 1 = 1 && (role = 1 || role = 2) &&
      1 ≤ reach && reach ≤ 3 && (lanes = 8 || lanes = 16) && natAt b 2 2 ≠ 0 then
    some { dolmo := role = 1, rxMask := BitVec.ofNat 16 (natAt b 2 2), reach := reach, loc := BitVec.ofNat 24 (natAt b 6 3)
           maxLanes := lanes, epoch := BitVec.ofNat 32 (natAt b 10 4), tickSlots := natAt b 14 2 }
  else none

/-- CAPS_RECORD: a CAPS window of 320 B ends; `acks` says that its block's marker carried ACK.
(DEDUCED, log 57; DESIGN CHOICE, log 64) -/
def execCapsRecord (port lane : Nat) (bytes : List Byte) (acks : Bool) (s : State) : Res :=
  withLane port lane (.next
    (let l := s.lane port lane
     if !s.alive || l.st ≠ .caps then s
     else
       let n := if acks then l.capsAcks + 1 else 0
       let (s1, ok) := match capsOf bytes with
         | some c => (s.modPort port (fun q => { q with caps := some c, lastLoc := some c.loc }), true)
         | none => (s.bumpPort port pkCapsBad, l.capsOk)
       if ok && 8 ≤ n then
         (s1.setLane port lane { l with st := .standby, capsAcks := n, capsOk := true, capsDone := true, excluded := false
                                        miswired := false, fails := 0, eyeGood := 0 }).tryActive port
       else s1.setLane port lane { l with capsAcks := n, capsOk := ok }))

/-- The bring-up states that time out. -/
def LaneState.trains : LaneState → Bool
  | .train => true | .lock => true | .orient => true | .eq => true | .caps => true | _ => false

/-- LANE_TRAIN_TIMEOUT. (DEDUCED, log 58) -/
def execLaneTrainTimeout (port lane : Nat) (s : State) : Res :=
  withLane port lane (.next
    (let l := s.lane port lane
     if s.alive && l.st.trains then
       let n := l.fails + 1
       ((s.setLane port lane { l.begin .quiet with
           fails := n,
           excluded := l.excluded || 3 ≤ n, parked := 3 ≤ n, capsDone := false }).bumpLane port lane lkTrainFail).tryActive port
     else s))

/-- EXCLUDED_LANE_RETRY. (DEDUCED, log 58) -/
def execExcludedLaneRetry (port lane : Nat) (s : State) : Res :=
  withLane port lane (.next
    (let l := s.lane port lane
     if s.alive && l.excluded && l.parked && l.st = .quiet then s.setLane port lane { l with parked := false } else s))

/-! ### Drop and notice (R103-R107) -/

/-- NOTICE markers naming a lane at the next three window boundaries; a sleeping direction is woken first (R104). -/
def State.sendNotices (s : State) (p l : Nat) (byEye : Bool) : State :=
  let q := s.port p
  let asleep := q.pwrOut = .nap || q.pwrOut = .doze
  let s1 := if asleep then (s.setPort p { q with pwrOut := .awake, resume := none, waking := false }).emit (.line p .wake) else s
  let n : Out := .line p (.notice l byEye)
  ((s1.emit n).emit n).emit n

/-- A lane of the lane set is dropped at once. -/
def State.dropLane (s : State) (p j : Nat) (byEye : Bool) : State :=
  let l := s.lane p j
  let tick := s.rooster.tickNo
  let s1 := (s.bumpLane p j lkDrop).laneTrain p j
  let s2 := s1.modLane p j (fun x => { x with drops := x.drops ++ [tick] })
  let s3 := s2.modPort p (fun q => { q with
    healthyIn := q.healthyIn &&& ~~~laneBit l.logical
    noticed := if q.noticed.contains l.logical then q.noticed else q.noticed ++ [l.logical], proposing := false })
  s3.sendNotices p l.logical byEye

/-- A standby lane fails: it is no longer healthy and retrains (Table 3.9). (DEDUCED, log 56) -/
def State.dropStandby (s : State) (p j : Nat) : State :=
  let l := s.lane p j
  (s.laneTrain p j).modPort p (fun q => { q with healthyIn := q.healthyIn &&& ~~~laneBit l.logical })

/-- LOSS_OF_LOCK. -/
def execLossOfLock (port lane : Nat) (_ : LolCause) (s : State) : Res :=
  withLane port lane (.next
    (if s.alive && (s.port port).active && (s.lane port lane).st = .active then
       (s.bumpLane port lane lkLol).dropLane port lane false
     else s))

/-- The eye figure of three eyes: the smallest opening, vertical or horizontal, times 255 and rounded down (R98). -/
def eyeFigure (eyes : List EyeOpening) : Nat :=
  (eyes.flatMap (fun e => [255 * e.vNum / e.vDen, 255 * e.hNum / e.hDen])).foldl min 255

/-- EYE_WINDOW_END. (DEDUCED, log 57) -/
def execEyeWindowEnd (port lane : Nat) (eyes : List EyeOpening) (s : State) : Res :=
  withLane port lane (.next
    (let l := { s.lane port lane with eye := eyeFigure eyes }
     let good := if 96 ≤ l.eye then l.eyeGood + 1 else 0
     if !s.alive then s
     else
       match l.st with
       | .eq => s.eqLane port lane { l.adapt (coPackaged port) with eyeGood := good }
       | .active =>
         if l.eye < 32 && (s.port port).active then (s.setLane port lane l).dropLane port lane true
         else s.setLane port lane (l.adapt (coPackaged port))
       | .standby =>
         if l.eye < 32 then (s.setLane port lane l).dropStandby port lane
         else
           let s1 := s.setLane port lane { l.adapt (coPackaged port) with eyeGood := good }
           if 4 ≤ good && (s.port port).active then
             s1.modPort port (fun q => { q with healthyIn := q.healthyIn ||| laneBit l.logical })
           else s1
       | .off => s
       | .detect => s
       | .quiet => s
       | _ => s.setLane port lane l))

/-- MARGINAL_LANE_DROP: the lane is left out of the set this end proposes at the next hinge (R99, R108). (DEDUCED, log 55) -/
def execMarginalLaneDrop (port lane : Nat) (s : State) : Res :=
  withLane port lane (.next
    (let l := s.lane port lane
     let tick := s.rooster.tickNo
     if s.alive && (s.port port).active && l.st = .active && 16 ≤ l.marginal &&
         (s.port port).healthyIn.getLsbD l.logical then
       ((s.setLane port lane { l with drops := l.drops ++ [tick] }).bumpLane port lane lkDrop).modPort port (fun q =>
         { q with healthyIn := q.healthyIn &&& ~~~laneBit l.logical })
     else s))

/-- NOTICE: the transmitter removes the lane and realigns, in a hinge at slot 1 (R105); a proposal that has not taken effect
gives way to it (R108). (DEDUCED, log 56; DEDUCED, log 61) -/
def execNotice (port : Nat) (m : LaneMarker) (s : State) : Res :=
  withPort port (.next
    (let q := s.port port
     if s.alive && q.active && markerSub m = some 2 then
       let h := q.healthyOut &&& ~~~laneBit (m.info.extractLsb' 8 4).toNat
       let s1 := s.setPort port { q with healthyOut := h, hunt := false, nextOut := none, outLate := none }
       if s.rooster.slot = 0 && s.rooster.st ≠ .free then s1.modPort port (fun q => { q with nextOut := some (laneSet port h) })
       else s1.takeMaskOut port (laneSet port h) false
     else s))

/-- REALIGN: accepted only after this receiver has proposed or notified a change (R89). -/
def execRealign (port : Nat) (m : LaneMarker) (s : State) : Res :=
  withPort port (.next
    (let q := s.port port
     if s.alive && q.active && markerSub m = some 1 then
       if !q.noticed.isEmpty then s.takeMaskIn port (laneSet port q.healthyIn) false
       else if q.proposing then s.takeMaskIn port q.proposed true
       else s
     else s))

/-- NOTICE_REPEAT: the notice sequence again, once every µs (R107). -/
def execNoticeRepeat (port : Nat) (s : State) : Res :=
  withPort port (.next
    (let q := s.port port
     if s.alive && q.active then
       q.noticed.foldl (fun t l =>
         let byEye := match t.physOf port l with
           | some j => decide ((t.lane port j).eye < 32)
           | none => false
         t.sendNotices port l byEye) s
     else s))

/-- DIRECTION_FAILED: the port goes DOWN and restarts from QUIET (R107). -/
def execDirectionFailed (port : Nat) (s : State) : Res :=
  withPort port (.next
    (let q := s.port port
     if s.alive && q.active && !q.noticed.isEmpty then (s.setDown port).restartPort port .quiet else s))

/-! ### Adaptation frames (R100-R102, R108) -/

/-- The lane behind a logical number, a blank one where no lane carries it. -/
def State.logicalLane (s : State) (p l : Nat) : Lane :=
  match s.physOf p l with
  | some j => s.lane p j
  | none => {}

/-- The set this end wants for its incoming direction. -/
def State.proposal (s : State) (p : Nat) : BitVec 16 := laneSet p (s.port p).healthyIn

/-- The EYE that an adaptation frame reports for a logical lane: 0 for a lane that is not trained (Table 3.10). -/
def Lane.eyeReport (l : Lane) : Nat := if l.st = .active || l.st = .standby then l.eye else 0

/-- The ADAPT payload (Table 3.10). -/
def State.adaptPayload (s : State) (p : Nat) : List Byte :=
  let lanes := List.range 16
  let nib := lanes.foldl (fun a l => a + (s.logicalLane p l).reqOut * 16 ^ l) 0
  let rsp := lanes.foldl (fun a l => a + (s.logicalLane p l).respOut * 4 ^ l) 0
  let eyes := lanes.map (fun l => BitVec.ofNat 8 (s.logicalLane p l).eyeReport)
  let prop := s.proposal p
  eyes ++ leBytes 8 nib ++ leBytes 4 rsp ++ leBytes 2 prop.toNat ++
    leBytes 2 ((s.port p).healthyIn &&& ~~~prop).toNat ++ List.replicate 32 0

/-- ADAPT_SEND: the adaptation frame of a hinge; the change it proposes is remembered, and each REQ and RESP is sent
once. -/
def State.sendAdapt (s : State) (p : Nat) : State :=
  let q := s.port p
  let prop := s.proposal p
  let s1 := s.emit (.frame p (linkHeader tyAdapt 64) (s.adaptPayload p) false false)
  let s2 := s1.setPort p (if prop ≠ q.maskIn && q.noticed.isEmpty then { q with proposed := prop, proposing := true }
    else { q with proposing := false })
  (List.range (laneCount p)).foldl (fun t j =>
    let l := t.lane p j
    if l.capsDone then t.setLane p j { l with respOut := 0, reqOut := 0 } else t) s2

/-- ADAPT: tap requests, responses and lane-set proposals. -/
def execAdapt (port : Nat) (f : RxFrame) (early : Bool) (s : State) : Res :=
  withPort port (.next
    (match s.linkRx port tyAdapt f with
     | (s1, none) => s1
     | (s1, some b) =>
       let s2 := (List.range 16).foldl (fun t l =>
         match t.physOf port l with
         | none => t
         | some j =>
           let x := t.lane port j
           let req := natAt b (16 + l / 2) 1 / 16 ^ (l % 2) % 16
           let x1 := (x.answered (natAt b 24 4 / 4 ^ l % 4))
           let x2 := { x1 with farEye := natAt b l 1 }
           t.setLane port j (if early then { x2 with reqIn := req } else { x2 with reqLate := req })) s1
       let prop := BitVec.ofNat 16 (natAt b 28 2)
       let stand := BitVec.ofNat 16 (natAt b 30 2)
       let held := s.heldMask port
       let h := (prop ||| stand) &&& ~~~held
       let want := if prop &&& held = 0 then prop else laneSet port h
       s2.modPort port (fun q =>
         let q1 := { q with healthyOut := h }
         if want = 0 || want = q.maskOut then q1
         else if early then { q1 with nextOut := some want } else { q1 with outLate := some want })))

/-- What slot 1 of a hinge does to a port: lane-set changes, tap steps and quarantine for location (R18, R102, R436).
(DEDUCED, log 63) -/
def State.portSlot1 (s : State) (p : Nat) : State :=
  let q := s.port p
  let s1 := match q.nextOut with
    | some m => (s.setPort p { q with nextOut := none }).takeMaskOut p m true
    | none => s
  let s2 := (List.range (laneCount p)).foldl (fun t j =>
    let l := t.lane p j
    if l.reqIn = 0 then t else t.setLane p j { l.request (coPackaged p) l.reqIn with reqIn := 0 }) s1
  match q.qLocNext with
  | none => s2
  | some v =>
    let s3 := (s2.modPort p (fun q => { q with qLoc := v, qLocNext := none })).quarantineQueues p
    if v && !q.qLoc then s3.bumpPort p pkLocMismatch else s3

/-- What a hinge begins on a port: requests and proposals that came late move up (R102, R108). -/
def State.portHingeMove (s : State) (p : Nat) : State :=
  let s1 := s.modPort p (fun q => { q with nextOut := q.outLate, outLate := none })
  (List.range (laneCount p)).foldl (fun t j =>
    let l := t.lane p j
    let m := if 32 ≤ l.eye && l.eye < 64 && l.st = .active then l.marginal + 1 else 0
    if l.reqLate = 0 && m = l.marginal then t
    else t.setLane p j { l with reqIn := l.reqLate, reqLate := 0, marginal := m }) s1

/-! ### Power states (R109-R112) -/

/-- SLEEP_WINDOW_START: at the first slot of a nap-map window. -/
def execSleepWindowStart (port : Nat) (s : State) : Res :=
  withPort port (.next
    (let q := s.port port
     if s.alive && q.active && !q.down && q.pwrOut = .awake && q.busy.isNone then
       match q.napMap.find? (fun w => w.1 = s.rooster.slot) with
       | none => s
       | some w =>
         let doze := 64 ≤ w.2
         ((s.setPort port { q with pwrOut := if doze then .doze else .nap, resume := some (w.1 + w.2), waking := false }).emit
           (.line port (if doze then .doze else .nap))).bumpPort port (if doze then pkDozeEnter else pkNapEnter)
     else s))

/-- WAKE_BURST: the exit sequence starts; the direction is awake at the resume point. -/
def execWakeBurst (port : Nat) (s : State) : Res :=
  withPort port (.next
    (let q := s.port port
     if s.alive && q.active && (q.pwrOut = .nap || q.pwrOut = .doze) && !q.waking then
       (s.setPort port { q with waking := true }).emit (.line port .wake)
     else s))

/-- A direction whose resume point has come is awake. -/
def Port.resumeAt (q : Port) (slot : Nat) : Port :=
  match q.resume with
  | some r => if q.waking && r ≤ slot then { q with pwrOut := .awake, resume := none, waking := false } else q
  | none => q

/-- WAKE_MARKER. -/
def execWakeMarker (port : Nat) (m : LaneMarker) (s : State) : Res :=
  withPort port (.next
    (let q := s.port port
     if s.alive && q.active && (q.pwrIn = .nap || q.pwrIn = .doze) && markerSub m = some 5 then
       s.setPort port { q with pwrIn := .awake, hunt := false }
     else s))

/-- NAP_OR_DOZE_MARKER. -/
def execNapOrDozeMarker (port : Nat) (m : LaneMarker) (s : State) : Res :=
  withPort port (.next
    (let q := s.port port
     if s.alive && q.active && q.pwrIn = .awake then
       if markerSub m = some 3 then s.setPort port { q with pwrIn := .nap }
       else if markerSub m = some 4 then s.setPort port { q with pwrIn := .doze }
       else s
     else s))

/-- WAKE_MISS: loss of lock on every lane of the incoming direction. -/
def execWakeMiss (port : Nat) (s : State) : Res :=
  withPort port (.next
    (let q := s.port port
     if s.alive && q.active && (q.pwrIn = .nap || q.pwrIn = .doze) then
       let s1 := (s.setPort port { q with pwrIn := .awake }).bumpPort port pkWakeMiss
       (List.range (laneCount port)).foldl (fun t j =>
         if (t.lane port j).st = .active then (t.bumpLane port j lkLol).dropLane port j false else t) s1
     else s))

/-- FRAMING_ERROR: hunt is entered at a word boundary between frames (R116, R122). -/
def execFramingError (port : Nat) (badHeader : Bool) (s : State) : Res :=
  withPort port (.next
    (if s.alive && (s.port port).active && !(s.port port).hunt then
       (if badHeader then s.bumpPort port pkHdrCrcErr else s).enterHunt port
     else s))

end Sys2Proof.Machine
end

