-- ==== Sys2Proof/Machine/Queues.lean ====
section
/-! DEFINITION. Partitions, contexts and queues (chapter 13) as the driver commands them: thread control, queue enable and
disable, doorbells, send entries, collective START (chapter 11), holds; and what software may write by each path. -/

namespace Sys2Proof.Machine

/-! ### Paths (R10, R369, R374, R481) -/

/-- A VF is there and answers memory requests. -/
def State.vfUp (s : State) (n : Nat) : Bool := 1 ≤ n && n ≤ 128 && s.funcExists n && !(s.func n).flr

/-- A write by a path has an effect: memory requests before READY have none (R369), and SMBus writes nothing. -/
def State.pathOpen (s : State) (path : Path) : Bool :=
  s.alive && s.power.ready &&
  (match path with
   | .pf => true
   | .vf n => s.vfUp n
   | .bell n => s.vfUp n
   | .smbus => false)

/-- The path reaches the partition block of `p`. -/
def State.reachesPart (s : State) (path : Path) (p : Nat) : Bool :=
  s.pathOpen path && (match path with | .vf n => n = p + 1 | .bell _ => false | _ => true)

/-- The path reaches the block of a context. -/
def State.reachesCtx (s : State) (path : Path) (c : Nat) : Bool :=
  match s.ctx? c with
  | some x => s.reachesPart path x.part
  | none => path = .pf && s.pathOpen path

/-! ### PART_CTL (R335) -/

/-- A PART_CTL command is staged for the next hinge where it is legal, and otherwise counted. (DEDUCED, log 73) -/
def State.partCtl (s : State) (path : Path) (p : Nat) (legal : ThreadState) (c : ThreadCmd) : State :=
  if !s.reachesPart path p then s
  else if (s.thread p).st = legal && (s.thread p).cmd ≠ some .flr then s.modThread p (fun t => { t with cmd := some c })
  else s.bumpPart p rkCtlIgnored

def execPartCtlStart (path : Path) (p : Nat) (s : State) : Res := withPart p (.next (s.partCtl path p .halted .start))
def execPartCtlStop (path : Path) (p : Nat) (s : State) : Res := withPart p (.next (s.partCtl path p .running .stop))
def execPartCtlRestart (path : Path) (p : Nat) (s : State) : Res := withPart p (.next (s.partCtl path p .stopped .restart))

/-! ### Context registers (R338, R491) -/

/-- CLEAR_FAULT reaches a context: a fault set in this cycle stays (R8, R491). -/
def Ctx.clearedFault (x : Ctx) (now : Nat) : Ctx := if x.faultAt = some now then x else { x with fault := 0 }

/-- CLEAR_FAULT. -/
def execClearFault (path : Path) (ctx : Nat) (s : State) : Res :=
  withCtx ctx (.next
    (match s.ctx? ctx with
     | some x => if s.reachesCtx path ctx then s.setCtx ctx (x.clearedFault s.time) else s
     | none => s))

/-- EQ_WRITE: CTX_CFG.EQ takes an enabled CQ of the context, or 31 for none. -/
def execEqWrite (path : Path) (ctx : Nat) (v : BitVec 32) (s : State) : Res :=
  withCtx ctx (.next
    (match s.ctx? ctx with
     | some x =>
       let k := v.toNat % 32
       if s.reachesCtx path ctx && (k = 31 || (s.cqAt ctx k).isSome) then s.setCtx ctx { x with eq := k } else s
     | none => s))

/-! ### Queue enable and disable (R341, R342, R492) -/

/-- The lowest free QID of a partition. -/
def State.freeQid (s : State) (p : Nat) : Option Nat := lowestFree s.queues.keys (32 * p) 32

/-- The fields of QUEUE_CFG (Table 21.9). -/
def QSlot.withCfg (q : QSlot) (cfg : Word) : QSlot :=
  let v := cfg.toNat
  { q with kind := bitsOf v 1 0, size := bitsOf v 19 4, cq := bitsOf v 23 20, bufLog2 := bitsOf v 28 24, ringHold := bitsOf v 35 32 }

/-- The legal ring sizes. -/
def ringSizes : List Nat := (List.range 15).map (fun k => 2 ^ (k + 1))

/-- Every field is in its range (Table 13.4). -/
def QSlot.inRange (q : QSlot) : Bool :=
  1 ≤ q.kind && q.kind ≤ 3 && ringSizes.contains q.size && q.base.toNat % 4096 = 0 &&
  (q.kind ≠ 2 || (12 ≤ q.bufLog2 && q.bufLog2 ≤ 20)) && (q.kind ≠ 3 || q.wb.toNat % 4 = 0)

/-- The queue of a slot that is configured is enabled, or refused. (DEDUCED, log 69) -/
def State.enableQueue (s : State) (ctx k : Nat) (x : Ctx) (q : QSlot) : State :=
  let reject (n : Bool) : State := s.setQslot ctx k (q.rejected s.time n)
  if !q.inRange || (q.kind ≠ 3 && (s.cqAt ctx q.cq).isNone) then reject false
  else
    match s.freeQid x.part with
    | none => reject true
    | some qid =>
      ((s.setQslot ctx k { q with enabled := true, qid := qid, disabling := false }).setQueue qid
        { ctx := ctx, slot := k, kind := q.kind }).clearCtrs (queueCtr qid) 1

/-- An enabled SQ or RQ of the context names the CQ in slot `k`. -/
def State.cqNamed (s : State) (ctx k : Nat) : Bool :=
  (List.range 16).any (fun j => let q := s.qslot ctx j; q.enabled && q.kind ≠ 3 && q.cq = k)

/-- The pending bit of a QID's queue vector is cleared. -/
def State.clearPending (s : State) (qid : Nat) : State :=
  let fn := qid / 32 + 1
  let f := s.func fn
  if f.pba.contains (qid % 32) then s.setFunc fn { f with pba := f.pba.filter (· ≠ qid % 32) } else s

/-- The queue of a slot is gone: ENABLED clears and its QID is free, and with a CQ its moderation state and the pending
bit of its vector (R365). -/
def State.endQueue (s : State) (ctx k : Nat) : State :=
  let q := s.qslot ctx k
  let q0 : QSlot := match q.written with
    | some w => { q.withCfg w with written := none }
    | none => q
  let s1 : State := { s.setQslot ctx k { q0 with enabled := false, disabling := false, qid := 0 } with
    queues := s.queues.erase q.qid }
  if q.kind = 3 then s1.clearPending q.qid else s1

/-- The messages that hold buffers of an RQ, or wait for some, are dropped with VOID completions. -/
def State.voidQueue (s : State) (qid : Nat) : State :=
  (s.msgs.filter (fun m => m.qid = qid)).foldl (fun t m => t.voidMsg m) s

/-- An SQ that is being disabled is gone once nothing that started is left. -/
def State.sqSettle (s : State) (qid : Nat) : State :=
  match s.queue? qid with
  | some q => if (s.slotOf q).disabling && q.started.isEmpty then s.endQueue q.ctx q.slot else s
  | none => s

/-- SIZE is set to 0 on an enabled queue. -/
def State.disableQueue (s : State) (ctx k : Nat) : State :=
  let q := s.qslot ctx k
  if !q.enabled then s
  else if q.kind = 1 then (s.setQslot ctx k { q with size := q.size, disabling := true }).sqSettle q.qid
  else if q.kind = 2 then (s.voidQueue q.qid).endQueue ctx k
  else if s.cqNamed ctx k then s
  else s.endQueue ctx k

/-- QUEUE_CFG is written with SIZE 0: what was written is what the register reads (R6), while an SQ that still has started
entries goes on under the fields it was enabled with (R342). -/
def State.writeSize0 (s : State) (ctx k : Nat) (w : Word) : State :=
  let q := s.qslot ctx k
  if !q.enabled then s.setQslot ctx k (q.withCfg w)
  else if q.kind = 3 && s.cqNamed ctx k then s
  else (s.setQslot ctx k { q with written := some w }).disableQueue ctx k

/-- The word that QUEUE_CFG reads (Table 21.9). -/
def QSlot.cfgWord (q : QSlot) : Nat :=
  let r := match q.written with | some w => q.withCfg w | none => q
  r.kind + 2 ^ 4 * r.size + 2 ^ 20 * r.cq + 2 ^ 24 * r.bufLog2 + 2 ^ 32 * r.ringHold

/-- QUEUE_ENABLE: a nonzero SIZE is committed. -/
def execQueueEnable (path : Path) (ctx k : Nat) (cfg : Word) (s : State) : Res :=
  withCtx ctx (withUnit (k < 16) (.next
    (if !s.reachesCtx path ctx then s
     else
       let q := s.qslot ctx k
       if bitsOf cfg.toNat 19 4 = 0 then s
       else if q.enabled then s.setQslot ctx k (q.rejected s.time false)
       else
         match s.ctx? ctx with
         | none => s.setQslot ctx k (q.withCfg cfg)
         | some x => s.enableQueue ctx k x (q.withCfg cfg))))

/-- QUEUE_DISABLE: SIZE 0 is committed. -/
def execQueueDisable (path : Path) (ctx k : Nat) (s : State) : Res :=
  withCtx ctx (withUnit (k < 16) (.next
    (if !s.reachesCtx path ctx then s
     else s.writeSize0 ctx k (BitVec.ofNat 64 { s.qslot ctx k with size := 0 }.cfgWord))))

/-! ### Doorbells (R343, R361, R362, R365) -/

/-- RQs that name a CQ as theirs. -/
def State.rqsOn (s : State) (q : Queue) : List Nat :=
  (List.range 16).filterMap (fun j =>
    let x := s.qslot q.ctx j
    if x.enabled && x.kind = 2 && x.cq = q.slot then some x.qid else none)

/-- A doorbell write to an SQ or RQ. -/
def State.postEntries (s : State) (p qid : Nat) (q : Queue) (v : BitVec 32) : State :=
  let pi' := v.setWidth 16
  if (s.slotOf q).size < (pi' - q.ci).toNat then s.bumpPart p rkDbBad
  else
    let s1 := s.setQueue qid { q with pi := pi', lastDb := pi' }
    if q.kind = 2 then s1.serveRing qid else s1

/-- A doorbell write to a CQ: entries are freed, held messages may go on, and with ARM the CQ is armed and tested. -/
def State.freeEntries (s : State) (p qid : Nat) (q : Queue) (v : BitVec 32) : State :=
  let ci' := v.setWidth 16
  if (s.slotOf q).size < (q.pi - ci').toNat then s.bumpPart p rkDbBad
  else
    let s1 := s.setQueue qid { q with ci := ci', lastDb := ci', armed := q.armed || v.getLsbD 16 }
    let s2 := if v.getLsbD 16 then s1.cqTest qid else s1
    (s.rqsOn q).foldl (fun t r => t.serveRing r) s2

/-- A doorbell write by VF `vf` to its page. (DEDUCED, log 71) -/
def State.doorbell (s : State) (vf page : Nat) (v : BitVec 32) (kinds : List Nat) : State :=
  if !s.pathOpen (.vf vf) then s
  else
    let p := vf - 1
    let qid := 32 * p + page
    match s.queue? qid with
    | none => s.bumpPart p rkDbBad
    | some q =>
      if v.toNat / 2 ^ 17 ≠ 0 then s.bumpPart p rkDbBad
      else if !kinds.contains q.kind then s
      else if q.kind = 3 then s.freeEntries p qid q v
      else s.postEntries p qid q v

/-- The function and the page exist. -/
def withPage (vf page : Nat) (r : Res) : Res := withFunc vf (withUnit (page < 32) r)

def execSqDoorbell (vf page : Nat) (v : BitVec 32) (s : State) : Res := withPage vf page (.next (s.doorbell vf page v [1]))
def execRqDoorbell (vf page : Nat) (v : BitVec 32) (s : State) : Res := withPage vf page (.next (s.doorbell vf page v [2]))
def execCqDoorbell (vf page : Nat) (v : BitVec 32) (s : State) : Res := withPage vf page (.next (s.doorbell vf page v [3]))

/-- CQ_ARM: a doorbell with ARM set. -/
def execCqArm (vf page : Nat) (v : BitVec 32) (s : State) : Res :=
  withPage vf page (.next (s.doorbell vf page (v ||| 0x10000) [3]))

/-! ### Send entries (R339, R345, R346) -/

/-- Reserved bytes of a send entry, by OPC (Table 13.5). -/
def reservedBytes (opc : Nat) : List (Nat × Nat) :=
  match opc with
  | 1 => [(2, 2), (14, 2), (20, 4), (32, 32)]
  | 2 => [(2, 2), (14, 2), (20, 4), (32, 32)]
  | 3 => [(2, 2), (12, 4), (20, 4), (40, 24)]
  | _ => [(2, 2), (9, 3), (56, 8)]

/-- The entry is well formed. (DEDUCED, log 67) -/
def entryOk (e : List Byte) : Bool :=
  let opc := natAt e 0 1
  1 ≤ opc && opc ≤ 4 && (reservedBytes opc).all (fun r => natAt e r.1 r.2 = 0) &&
  (opc ≠ 2 || natAt e 16 4 ≤ 4096) && (opc ≠ 3 || natAt e 8 4 ≤ 1)

/-- The next entry of an SQ can start: the queue fetches, its context is not faulted, the CQ has an entry to reserve,
and a FENCE finds every earlier entry complete. -/
def State.sqReady (s : State) (q : Queue) (e : List Byte) : Bool :=
  q.kind = 1 && !(s.slotOf q).disabling && q.pi ≠ q.ci && s.cqRoom q && s.alive &&
  (match s.ctx? q.ctx with | some x => x.fault = 0 | none => false) &&
  (!(natAt e 1 1).testBit 0 || q.started.isEmpty)

/-- Starts the next entry of an SQ as `act` says; a malformed entry starts and ends with BAD_ENTRY. `mine` says that
the entry is of the kind that this command starts. -/
def State.startEntryOf (s : State) (qid : Nat) (e : List Byte) (mine : Bool)
    (act : State → Queue → Started → Started × State) : State :=
  match s.queue? qid with
  | none => s
  | some q =>
    if !s.sqReady q e then s
    else
      let fn := s.fnOf (s.ctxPart q.ctx)
      let sl := s.slotOf q
      let x : Started := { idx := q.ci.toNat, opc := natAt e 0 1, tag := BitVec.ofNat 32 (natAt e 4 4) }
      let fetched : State := ((s.cqReserve q).emit
        (.pcieRead fn (sl.base + BitVec.ofNat 64 (q.ci.toNat % sl.size * 64)) 64)).setQueue qid { q with ci := q.ci + 1 }
      let add (t : State) (y : Started) : State :=
        match t.queue? qid with
        | some z => t.setQueue qid { z with started := z.started ++ [y] }
        | none => t
      if !entryOk e then add fetched { x with status := some 8 }
      else if !mine then s
      else let r := act fetched q x; add r.2 r.1

/-- B_SEND. (DESIGN CHOICE, log 9; DEDUCED, log 30; DEDUCED, log 67) -/
def execBSend (qid : Nat) (e : List Byte) (s : State) : Res :=
  withQueue qid (.next (s.startEntryOf qid e (natAt e 0 1 = 1) (fun t q x =>
    let len := natAt e 16 4
    let rank := natAt e 8 4
    if len = 0 then ({ x with status := some 0 }, t)
    else
      match t.ctx? q.ctx with
      | none => ({ x with status := some 8 }, t)
      | some c =>
        match t.rankAddr c.part rank with
        | none => ({ x with status := some 2 }, t.bumpPart c.part rkRankInvalid)
        | some _ =>
          let t1 := t.setCtx q.ctx { c with msg := c.msg + 1 }
          let t2 := match t1.queue? qid with
            | some z => t1.setQueue qid { z with sent := z.sent ++ [c.msg] }
            | none => t1
          ({ x with msg := c.msg, rank := rank, dq := natAt e 12 2, host := BitVec.ofNat 64 (natAt e 24 8), len := len }, t2))))

/-- C_SEND: the frame joins the stream that its rank names now, and is aimed anew when it is built.
(DEDUCED, log 30; DEDUCED, log 67) -/
def execCSend (qid : Nat) (e : List Byte) (data : List Byte) (s : State) : Res :=
  withQueue qid (.next (s.startEntryOf qid e (natAt e 0 1 = 2) (fun t q x =>
    let len := natAt e 16 4
    let p := t.ctxPart q.ctx
    match t.rankAddr p (natAt e 8 4) with
    | none => ({ x with status := some 2 }, t.bumpPart p rkRankInvalid)
    | some dst =>
      let t1 := if len = 0 then t else t.emit (.pcieRead (t.fnOf p) (BitVec.ofNat 64 (natAt e 24 8)) len)
      (x, t1.queueC { localPort := 0x40, far := dst, ctx := q.ctx } p (natAt e 12 2) (padTo len data) (some (qid, x.idx))
        (some (natAt e 8 4))))))

/-- The depot range of a DMA entry. -/
def State.dmaRange (s : State) (p : Nat) (e : List Byte) (len : Nat) : Option Nat :=
  match ptrFields (BitVec.ofNat 64 (natAt e 32 8)) with
  | some (c, g, o) => s.segAddr p c g o len
  | none => none

/-- The read requests of `len` bytes from host address `a`: at most 4,096 B each (R358). -/
def State.readHost (s : State) (fn : Nat) (a : Word) (len : Nat) : State :=
  (List.range (ceilDiv len 4096)).foldl (fun t i =>
    t.emit (.pcieRead fn (a + BitVec.ofNat 64 (4096 * i)) (Nat.min 4096 (len - 4096 * i)))) s

/-- DMA_TO_DEPOT: the copy is a stream access, piece by piece (R312, R326). (DEDUCED, log 67; DEDUCED, log 70) -/
def execDmaToDepot (qid : Nat) (e : List Byte) (data : List Byte) (s : State) : Res :=
  withQueue qid (.next
    (let len := natAt e 16 4
     if s.depot.draining && len ≠ 0 then s
     else s.startEntryOf qid e (natAt e 0 1 = 3 && natAt e 8 4 = 0 && (len = 0 || data.length = len)) (fun t q x =>
       let p := t.ctxPart q.ctx
       if len = 0 then ({ x with status := some 0 }, t)
       else
         match t.dmaRange p e len with
         | none => ({ x with status := some 3 }, t)
         | some a =>
           let t1 := t.readHost (t.fnOf p) (BitVec.ofNat 64 (natAt e 24 8)) len
           let r := (cutPieces 64 len a data).foldl (fun (r : Nat × State) c =>
             let w := r.2.depotPiece c.1 c.2
             (if w.1 then r.1 + c.2.length else r.1, w.2)) (0, t1)
           ({ x with status := some (if r.1 = len then 0 else 4), moved := r.1 }, r.2))))

/-- DMA_TO_HOST: pieces that read well are written to the host in ascending order. (DEDUCED, log 70) -/
def execDmaToHost (qid : Nat) (e : List Byte) (s : State) : Res :=
  withQueue qid (.next
    (let len := natAt e 16 4
     if s.depot.draining && len ≠ 0 then s
     else s.startEntryOf qid e (natAt e 0 1 = 3 && natAt e 8 4 = 1) (fun t q x =>
       let p := t.ctxPart q.ctx
       if len = 0 then ({ x with status := some 0 }, t)
       else
         match t.dmaRange p e len with
         | none => ({ x with status := some 3 }, t)
         | some a =>
           let fn := t.fnOf p
           let host := BitVec.ofNat 64 (natAt e 24 8)
           let relaxed := (t.func fn).relaxed
           let r := (cutPieces 64 len a (memRead t.depot.mem a len)).foldl (fun (r : Nat × State) c =>
             let w := r.2.depotRead c.1 c.2.length
             if w.1 then (r.1 + c.2.length, w.2.2.emit (.pcieWrite fn (host + BitVec.ofNat 64 (c.1 - a)) c.2 relaxed))
             else (r.1, w.2.2)) (0, t)
           ({ x with status := some (if r.1 = len then 0 else 4), moved := r.1 }, r.2))))

/-! ### START (R290, R291) -/

/-- Codes of Table 8.2. (DEDUCED, log 68) -/
def fmtListed (f : Nat) : Bool := fmtFloat f || fmtInt f || f = 16 || f = 17

/-- Check 4 of Table 11.3 on bytes 0-43 of a collective entry. (DEDUCED, log 68) -/
def collOk (c : List Byte) : Bool :=
  let kind := natAt c 16 1
  let oper := natAt c 17 1
  let fin := natAt c 18 1
  let fout := natAt c 19 1
  let rm := natAt c 20 1
  let clamp := natAt c 21 1 % 2
  let parts := natAt c 36 4
  let elements := natAt c 8 8
  let combines := kind = 1 || kind = 2 || kind = 5 || kind = 7
  let sum := oper = 0 || oper = 1
  let bitwise := 5 ≤ oper
  1 ≤ kind && kind ≤ 7 && 1 ≤ parts && parts ≤ 4096 && natAt c 40 4 < parts && rm ≤ 4 &&
  (if combines then
     oper ≤ 7 && (fmtFloat fin || fmtInt fin || fin = 17) && (fout = 31 || fmtFloat fout || fmtInt fout) &&
     !(sum && (fin = 11 || fin = 15)) && !(bitwise && fmtFloat fin)
   else oper = 0 && fmtListed fin && (fout = 31 || fmtListed fout)) &&
  (fout ≠ 31 || (rm = 0 && clamp = 0)) &&
  (kind ≠ 2 || elements % parts = 0) &&
  (kind ≠ 7 || (elements = 1 && oper = 0 && fin = 14 && fout = 14))

/-- CHUNKS (R293). -/
def collChunks (c : List Byte) : Nat :=
  let fin := natAt c 18 1
  let size := if fin = 17 then 4096 else fmtSize fin
  ceilDiv (natAt c 8 8) (2 ^ natAt c 22 1 / size)

/-- The checks of Table 11.3 after the first, in order; 0 where all hold. (DEDUCED, log 68) -/
def startStatus (c : List Byte) (state : Nat) (tick : Word) : Nat :=
  if state = 1 then 10
  else if natAt c 8 8 = 0 then 9
  else if !collOk c then 11
  else if natAt c 22 1 < 16 || 26 < natAt c 22 1 || 2 ^ 32 - 1 < collChunks c then 12
  else if natAt c 24 8 < tick.toNat + 2 then 13
  else 0

/-- Segment 15 of the home context of the plan in force, where it is at least 1 KiB long; the table's address.
(DEDUCED, log 68) -/
def State.collTable (s : State) (p : Nat) : Option Nat :=
  match s.planOf p with
  | some pl => s.segAddr p pl.homeCtx 15 0 1024
  | none => none

/-- START: a collective is checked, and its table entry armed. -/
def execStart (qid : Nat) (e : List Byte) (s : State) : Res :=
  withQueue qid (.next
    (if s.depot.draining then s
     else s.startEntryOf qid e (natAt e 0 1 = 4) (fun t q x =>
       let c := bytesAt e 12 44
       match t.collTable (t.ctxPart q.ctx) with
       | none => ({ x with status := some 14 }, t)
       | some base =>
         let a := base + natAt e 8 1 % 16 * 64
         let r := t.depotRead a 48
         if !r.1 then ({ x with status := some 4 }, r.2.2)
         else
           let st := startStatus c (natAt r.2.1 23 1) t.rooster.tickNo
           if st ≠ 0 then ({ x with status := some st }, r.2.2)
           else
             let gen := (natAt r.2.1 44 4 + 1) % 2 ^ 32
             let body := bytesAt c 0 23 ++ leBytes 1 1 ++ bytesAt c 24 8 ++ leBytes 4 (collChunks c) ++ bytesAt c 36 8 ++ leBytes 4 gen
             let w := r.2.2.depotStream a body
             ({ x with status := some (if w.1 then 0 else 4) }, w.2))))

/-! ### Completion (R347, Table 13.6) -/

/-- SEND_ENTRY_COMPLETE: a started entry whose outcome is known writes its KIND 16 record. -/
def execSendEntryComplete (qid idx : Nat) (s : State) : Res :=
  withQueue qid (.next
    (match s.queue? qid with
     | none => s
     | some q =>
       match q.started.find? (fun x => x.idx = idx) with
       | none => s
       | some x =>
         match x.status with
         | none => s
         | some st =>
           let s1 := s.setQueue qid { q with started := q.started.filter (fun y => y.idx ≠ idx) }
           let rcd := leBytes 1 16 ++ leBytes 1 st ++ leBytes 1 q.slot ++ leBytes 1 x.opc ++ leBytes 4 x.tag.toNat ++
             leBytes 4 (if x.opc = 1 then x.msg.toNat else 0) ++ leBytes 4 0 ++ leBytes 8 x.moved ++ leBytes 4 0 ++
             leBytes 4 (s.rooster.tickNo.toNat % 2 ^ 32)
           (match s.cqOf q with
            | some n => s1.writeRecord n rcd true true false
            | none => s1).sqSettle qid))

/-- The frames of a C_SEND whose read failed and that were never built leave their stream. -/
def State.withdrawEntry (s : State) (e : Nat × Nat) : State :=
  s.txs.foldl (fun (t : State) p =>
    match p.2.unacked.find? (fun u => u.entry = some e && u.sends = 0) with
    | some u => t.withdrawC p.1 p.2 u
    | none => t) s

/-- DMA_READ_ERROR: a DMA read that ended badly fails its entry with MEM_ERR; a failed fetch is recorded with TAG 0 and
OPC 0 (R372). -/
def execDmaReadError (qid : Nat) (idx : Nat) (fetch : Bool) (e : List Byte) (s : State) : Res :=
  withQueue qid (.next
    (match s.queue? qid with
     | none => s
     | some q =>
       if !fetch && q.started.any (fun x => x.idx = idx) then
         (s.withdrawEntry (qid, idx)).setEntry (qid, idx) (fun x => { x with status := some (x.status.getD 4) })
       else if q.ci.toNat = idx && s.sqReady q (if fetch then [] else e) then
         (s.cqReserve q).setQueue qid { q with
           ci := q.ci + 1
           started := q.started ++ [{ idx := idx, opc := if fetch then 0 else natAt e 0 1
                                      tag := if fetch then 0 else BitVec.ofNat 32 (natAt e 4 4), status := some 4 }] }
       else s))

/-- RING_HOLD_EXPIRY: a held message is dropped at the RING_HOLD-th hinge of its hold (R352). -/
def execRingHoldExpiry (k : MsgKey) (s : State) : Res :=
  .next
    (match s.msgs.find? (fun m => m.key = k) with
     | none => s
     | some m =>
       match m.hold, s.queue? m.qid with
       | some n, some q => if (s.slotOf q).ringHold ≤ n then s.dropMsg m (queueCtr m.qid) else s
       | _, _ => s)

end Sys2Proof.Machine
end

