-- ==== Sys2Proof/Machine/Gate.lean ====
section
/-! DEFINITION. The call gate (chapter 15): slots, order, callers, the checks of Table 15.5, what each call stages or does;
drain-and-swap (R458-R460); and Gander's measurements. -/

namespace Sys2Proof.Machine

/-! ### Status codes (Table 15.4) -/

def gsBadCall : Nat := 1
def gsDenied : Nat := 2
def gsBusy : Nat := 3
def gsArmed : Nat := 4
def gsBadTick : Nat := 5
def gsBadBudget : Nat := 6
def gsBadPool : Nat := 7
def gsBadRoute : Nat := 8
def gsBadPlan : Nat := 9
def gsBadCtx : Nat := 10
def gsDrainTimeout : Nat := 11
def gsBadImage : Nat := 12
def gsBadKey : Nat := 13
def gsBadEpoch : Nat := 14
def gsFatal : Nat := 15

/-- A served call: the changed state, or the status and DETAIL of a refusal. -/
abbrev Verdict := Except (Nat × Nat) State

/-- A call goes on where a check holds, and is refused with a status otherwise. -/
def need (b : Bool) (status : Nat) (r : Verdict) : Verdict := if b then r else .error (status, 0)

end Sys2Proof.Machine

namespace Sys2Proof

/-! ### Calls (Table 15.3) -/

/-- Call codes. -/
def GateReq.code : GateReq → Nat
  | .admitPlan .. => 0x01 | .withdrawPlan .. => 0x02 | .ctxCreate .. => 0x03 | .ctxDestroy .. => 0x04
  | .setSegment .. => 0x05 | .serviceGrant .. => 0x06 | .setCarve .. => 0x10 | .setPorts .. => 0x11
  | .setHenMin .. => 0x12 | .setPools .. => 0x13 | .setGmin .. => 0x14 | .setSwitch .. => 0x15
  | .setTickRole .. => 0x16 | .setRoute .. => 0x20 | .setSpread .. => 0x21 | .setRemap .. => 0x22
  | .setGrants .. => 0x23 | .setVariant .. => 0x24 | .setTick .. => 0x25 | .armEpoch .. => 0x26
  | .setPort .. => 0x30 | .detach .. => 0x30 | .attach .. => 0x30 | .setNapMap .. => 0x31
  | .throttle .. => 0x32 | .mulePet => 0x33 | .enrollKey .. => 0x40 | .revokeKey .. => 0x41
  | .loadService .. => 0x42 | .commitSvn => 0x43 | .loadMule .. => 0x44 | .attest .. => 0x45
  | .getCert .. => 0x46 | .undefined c => c

/-- Whether Mule, the PF and a VF may make the call; DETACH is the PF's alone (R426). -/
def GateReq.callers : GateReq → Bool × Bool × Bool
  | .admitPlan .. => (false, true, true) | .withdrawPlan .. => (false, true, true)
  | .ctxCreate .. => (false, true, true) | .ctxDestroy .. => (false, true, true)
  | .setSegment .. => (false, true, true) | .serviceGrant .. => (false, true, true)
  | .setCarve .. => (false, true, false) | .setPorts .. => (false, true, false)
  | .setHenMin .. => (false, true, false) | .setPools .. => (false, true, false)
  | .setGmin .. => (true, true, false) | .setSwitch .. => (true, true, false)
  | .setTickRole .. => (false, true, false)
  | .setRoute .. => (true, true, false) | .setSpread .. => (true, true, false)
  | .setRemap .. => (true, true, false) | .setGrants .. => (true, true, false)
  | .setVariant .. => (true, true, false) | .setTick .. => (true, true, false)
  | .armEpoch .. => (true, true, false) | .setPort .. => (true, true, false)
  | .detach .. => (false, true, false) | .attach .. => (true, true, false)
  | .setNapMap .. => (true, false, false) | .throttle .. => (true, false, false) | .mulePet => (true, false, false)
  | .enrollKey .. => (false, true, false) | .revokeKey .. => (false, true, false)
  | .loadService .. => (false, true, false) | .commitSvn => (false, true, false) | .loadMule .. => (false, true, false)
  | .attest .. => (false, true, true) | .getCert .. => (false, true, true)
  | .undefined _ => (true, true, true)

/-- The caller of a slot is listed for the call. -/
def GateReq.mayCall (r : GateReq) (slot : Nat) : Bool :=
  match slot with
  | 0 => r.callers.1
  | 1 => r.callers.2.1
  | _ => r.callers.2.2

/-- The partition that a call names (R384). -/
def GateReq.part? : GateReq → Option Nat
  | .admitPlan p .. => some p | .withdrawPlan p => some p | .ctxCreate p _ => some p | .ctxDestroy p _ => some p
  | .setSegment p .. => some p | .serviceGrant p .. => some p | .setCarve p .. => some p | .setPorts p _ => some p
  | .setHenMin p .. => some p | .setRemap p _ => some p | .setGrants p _ => some p | .setVariant p _ => some p
  | _ => none

/-- Epoch-table calls (Table 19.4). -/
def GateReq.epochTable : GateReq → Bool
  | .admitPlan .. => true | .withdrawPlan .. => true | .setRoute .. => true | .setSpread .. => true | .setRemap .. => true
  | .setGrants .. => true | .setVariant .. => true | .setTick .. => true | _ => false

/-- Calls that R380 allows in RECOVERY. -/
def GateReq.inRecovery : GateReq → Bool
  | .loadMule .. => true | .attest .. => true | .getCert .. => true | _ => false

/-- A call reads the depot, so it waits for the hinge drain (R322). -/
def GateReq.readsDepot (r : GateReq) : Bool :=
  match r with
  | .admitPlan .. => true
  | _ => false

/-- Every argument field holds a value that exists; another would set a reserved bit (R384). -/
def GateReq.inRange : GateReq → Bool
  | .admitPlan p c g o => p < 128 && c < 1024 && g < 16 && o < 2 ^ 40
  | .withdrawPlan p => p < 128
  | .ctxCreate p c => p < 128 && c < 1024
  | .ctxDestroy p c => p < 128 && c < 1024
  | .setSegment p c g b l => p < 128 && c < 1024 && g < 16 && b < 2 ^ 23 && l < 2 ^ 23
  | .serviceGrant p c g v a => p < 128 && c < 1024 && g < 16 && v < 256 && a ≤ 2
  | .setCarve p f n => p < 128 && f < 512 && n < 512
  | .setPorts p _ => p < 128
  | .setHenMin p w e => p < 128 && w < 4096 && e < 4096
  | .setPools (.sram d a b c) => d < 2 && a < 256 && b < 256 && c < 256
  | .setPools (.depot n) => n < 1024
  | .setPools (.thr d a b c) => d < 2 && a < 256 && b < 256 && c < 256
  | .setGmin k b c => (k ≤ 48 || k = 0x40 || k = 0x41) && b < 2 ^ 20 && c < 2 ^ 20
  | .setSwitch (.cfg d a m) => d < 2 && a < 8 && m < 16
  | .setSwitch (.crowd p t) => p < 49 && t < 2 ^ 13
  | .setRoute i _ => i < 1024
  | .setSpread i w => i < 64 && w.length = 49 && w.all (· < 16)
  | .setRemap p l => p < 128 && l.all (fun e => e.1 < 4096)
  | .setGrants p l => p < 128 && l.all (fun g => g.port < 64 && g.first < 2 ^ 14 && g.count < 2 ^ 14)
  | .setVariant p _ => p < 128
  | .setPort p (.cfg _ r _) => p < 49 && 1 ≤ r && r ≤ 3
  | .setPort p (.asym _) => p < 49
  | .setPort p (.lane j k _) => p < 49 && j < Machine.laneCount p && k < 8
  | .setPort p (.hold j _) => p < 49 && j < Machine.laneCount p
  | .setNapMap p _ => p < 49
  | .attest n _ => n.length = 32
  | .undefined _ => false
  | _ => true

/-! ### Pending changes (R386, R458) -/

/-- Row of Table 19.6 of a non-buffered change. -/
def GateReq.drainRow : GateReq → Option Nat
  | .setCarve .. => some 0 | .setPorts .. => some 1 | .setHenMin .. => some 2
  | .setPools (.sram ..) => some 3 | .setPools (.depot _) => some 3 | .setGmin .. => some 4 | _ => none

/-- Two calls change the same setting. (DEDUCED, log 86) -/
def GateReq.sameSetting : GateReq → GateReq → Bool
  | .setCarve p .., .setCarve q .. => p = q
  | .setPorts p _, .setPorts q _ => p = q
  | .setHenMin p .., .setHenMin q .. => p = q
  | .setPools (.sram d ..), .setPools (.sram e ..) => d = e
  | .setPools (.depot _), .setPools (.depot _) => true
  | .setGmin j .., .setGmin k .. => j = k
  | _, _ => false

end Sys2Proof

namespace Sys2Proof.Machine

/-- A change of the same setting is staged and has neither landed nor rolled back. (DEDUCED, log 86) -/
def State.settingBusy (s : State) (r : GateReq) : Bool :=
  s.gate.drains.any (fun d => d.req.sameSetting r) ||
  (match r with
   | .setPort p (.cfg ..) => (s.port p).lanProc.isSome
   | .setPort p (.lane ..) => (s.port p).lanProc.isSome
   | _ => false)

/-- A non-buffered change is staged for the next hinge. -/
def State.stageDrain (s : State) (slot row : Nat) (r : GateReq) : State :=
  { s with gate := { s.gate with drains := s.gate.drains ++ [{ row := row, req := r, slot := slot, code := r.code }] } }

/-- The pending carve-out change of a partition, staged or under way. -/
def State.carveNew (s : State) (p : Nat) : Option (Nat × Nat) :=
  s.gate.drains.findSome? (fun d =>
    match d.req with
    | .setCarve q f n => if q = p then some (f, n) else none
    | _ => none)

/-- The pending member ports of a partition. (DEDUCED, log 87) -/
def State.portsNew (s : State) (p : Nat) : Option (BitVec 49) :=
  s.gate.drains.findSome? (fun d =>
    match d.req with
    | .setPorts q m => if q = p then some m else none
    | _ => none)

/-- The pending reserved minima of a partition. -/
def State.minsNew (s : State) (p : Nat) : Option (Nat × Nat) :=
  s.gate.drains.findSome? (fun d =>
    match d.req with
    | .setHenMin q w e => if q = p then some (w, e) else none
    | _ => none)

/-- The larger of the present minimum of an account and the one pending. -/
def State.gminMost (s : State) (ing : Nat) (c : Bool) : Nat :=
  s.gate.drains.foldl (fun m d =>
    match d.req with
    | .setGmin k b cc => if codeIngress k = ing then max m (if c then cc else b) else m
    | _ => m) (s.acct ing c).gmin

/-! ### Measurement (R393) -/

/-- The 64 B of a measurement log entry. -/
def LogEntry.bytes (e : LogEntry) : List Byte :=
  leBytes 2 e.kind ++ leBytes 2 e.subject ++ leBytes 4 e.svn ++ leBytes 8 e.tick.toNat ++ leBytes 48 e.digest.toNat

/-- The measurement log: the last 16 MiB of the log region. -/
def measureBase : Nat := 0x3F000000

/-- A measurement log entry is appended, or LOG_FULL set. (DESIGN CHOICE, log 95) -/
def State.measure (s : State) (kind subject svn : Nat) (digest : BitVec 384) : State :=
  let e : LogEntry := ⟨kind, subject, svn, s.rooster.tickNo, digest⟩
  let n := s.fw.log.length
  if n < 262144 then
    { s with
      fw := { s.fw with log := s.fw.log ++ [e] }
      depot := { s.depot with mem := memWrite s.depot.mem (measureBase + 64 * n) e.bytes } }
  else { s with fw := { s.fw with logFull := true } }

/-- SHA-384(MREG ‖ digest). -/
def mregNext (m d : BitVec 384) : BitVec 384 := Config.sha384 (leBytes 48 m.toNat ++ leBytes 48 d.toNat)

def State.extend0 (s : State) (kind svn : Nat) (d : BitVec 384) : State :=
  ({ s with fw := { s.fw with mreg0 := mregNext s.fw.mreg0 d } }).measure kind 0 svn d
def State.extend1 (s : State) (kind subject svn : Nat) (d : BitVec 384) : State :=
  ({ s with fw := { s.fw with mreg1 := mregNext s.fw.mreg1 d } }).measure kind subject svn d
def State.extend2 (s : State) (p : Nat) (d : BitVec 384) : State :=
  ({ s with fw := { s.fw with mreg2 := mregNext s.fw.mreg2 d } }).measure 7 p 0 d

/-! ### Plans (R254, R257, R354, R420) -/

/-- PLAN_VARIANT is legal beside a plan (R257, R420). -/
def variantLegal (pl : Option Plan) (v : BitVec 7) : Bool :=
  match pl with
  | none => v = 0
  | some x =>
    bitsOf v.toNat 2 0 < x.variants.length &&
    (!v.getLsbD 6 || (match x.variants[bitsOf v.toNat 5 3]? with
      | some u => !u.uses.getLsbD 48
      | none => false))

/-- The image that a segment holds from an offset on, where it is there and can be read (R254). -/
def State.imageAt (s : State) (p ctx seg off : Nat) : State × Option (List Byte) :=
  match s.segAddr p ctx seg off 32 with
  | none => (s, none)
  | some a =>
    let h := s.depotRead a 32
    let n := natAt h.2.1 24 4
    if !h.1 || 524288 < n || n < 32 then (h.2.2, none)
    else
      match h.2.2.segAddr p ctx seg off n with
      | none => (h.2.2, none)
      | some b =>
        let r := h.2.2.depotRead b n
        (r.2.2, if r.1 then some r.2.1 else none)

/-- The image of an admitted plan lies in the partition's buffer that is not in force (R254, Table 12.1).
(DESIGN CHOICE, log 74) -/
def State.placeImage (s : State) (p : Nat) (b : List Byte) : State :=
  (s.depotStream (planAddr p (if s.epoch.planHalf.contains p then 0 else 1)) b).2

/-- ADMIT_PLAN. -/
def State.gateAdmit (s : State) (p ctx seg off : Nat) : Verdict :=
  match s.ctx? ctx with
  | none => .error (gsBadCtx, 0)
  | some c =>
    if c.part ≠ p || c.destroying || (c.segs.getD seg (0, 0)).2 = 0 then .error (gsBadCtx, 0)
    else
      match s.imageAt p ctx seg off with
      | (_, none) => .error (gsBadPlan, 1)
      | (s1, some b) =>
        match s1.judgeImage p ctx b with
        | .error e => .error (if e = 10 then (gsBadBudget, 0) else if e = 11 then (gsBadPool, 0) else (gsBadPlan, e))
        | .ok pl =>
          if variantLegal (some pl) (s1.nextVariants.getD p 0) then
            .ok (((s1.placeImage p b).stagePlan p (some pl)).extend2 p pl.digest)
          else .error (gsBadPlan, 10)

/-- WITHDRAW_PLAN. (DEDUCED, log 89) -/
def State.gateWithdraw (s : State) (p : Nat) : Verdict :=
  if (s.thread p).st = .running || (s.nextPlan p).isNone then .error (gsBadPlan, 0)
  else if s.nextVariants.getD p 0 ≠ 0 then .error (gsBadPlan, 10)
  else .ok (s.stagePlan p none)

/-! ### Contexts and segments (R336, R337, R340, R388) -/

/-- A context of a partition that is not being destroyed. -/
def State.ctxOf (s : State) (p ctx : Nat) : Option Ctx :=
  match s.ctx? ctx with
  | some c => if c.part = p && !c.destroying then some c else none
  | none => none

/-- CTX_CREATE. (DEDUCED, log 72) -/
def State.gateCtxCreate (s : State) (p ctx : Nat) : Verdict :=
  let own := s.ctxs.filter (fun e => e.2.part = p)
  match (if (s.ctx? ctx).isSome then none else lowestFree (own.map (fun e => e.2.wslot)) 0 32) with
  | none => .error (gsBadCtx, 0)
  | some w => .ok ((s.setCtx ctx { part := p, wslot := w }).clearCtrs (ctxCtr ctx 0) 10)

/-- A context is the home of an admitted plan. -/
def State.isHome (s : State) (p ctx : Nat) : Bool :=
  (match s.planOf p with | some pl => pl.homeCtx = ctx | none => false) ||
  (match s.nextPlan p with | some pl => pl.homeCtx = ctx | none => false)

/-- CTX_DESTROY: it takes effect at the next hinge. -/
def State.gateCtxDestroy (s : State) (p ctx : Nat) : Verdict :=
  match s.ctxOf p ctx with
  | none => .error (gsBadCtx, 0)
  | some c => need (!s.isHome p ctx) gsBadCtx (.ok (s.setCtx ctx { c with destroying := true }))

/-- SET_SEGMENT: the segment lies within the carve-out, old and pending. -/
def State.gateSegment (s : State) (p ctx seg base len : Nat) : Verdict :=
  match s.ctxOf p ctx with
  | none => .error (gsBadCtx, 0)
  | some c =>
    let fits (g : Nat × Nat) : Bool := base + len ≤ g.2 * 16384
    need (fits (s.part p).carve && (match s.carveNew p with | some g => fits g | none => true)) gsBadCtx
      (.ok (s.setCtx ctx { c with
        segStaged := c.segStaged ++ [(seg, base, len)]
        grantStaged := c.grantStaged.filter (fun g => g.1 ≠ seg) }))

/-- One SERVICE_GRANT: segment, service and access 0 NONE, 1 READ, 2 READ_WRITE. -/
def grantStep (l : List (Nat × Nat × Bool)) (g : Nat × Nat × Nat) : List (Nat × Nat × Bool) :=
  let rest := l.filter (fun e => !(e.1 = g.1 && e.2.1 = g.2.1))
  if g.2.2 = 0 then rest else rest ++ [(g.1, g.2.1, g.2.2 == 2)]

/-- The grants of a context as the next hinge will leave them. -/
def Ctx.grantsNext (c : Ctx) : List (Nat × Nat × Bool) :=
  c.grantStaged.foldl grantStep (c.grants.filter (fun g => !c.segStaged.any (fun x => x.1 = g.1)))

/-- SERVICE_GRANT. -/
def State.gateGrant (s : State) (p ctx seg service access : Nat) : Verdict :=
  match s.ctxOf p ctx with
  | none => .error (gsBadCtx, 0)
  | some c =>
    let g := (seg, service, access)
    need ((grantStep c.grantsNext g).length ≤ 16) gsBadCtx (.ok (s.setCtx ctx { c with grantStaged := c.grantStaged ++ [g] }))

/-! ### Non-buffered settings (R152, R181, R186, R333) -/

/-- Two granule ranges share a granule. -/
def granulesMeet (a b : Nat × Nat) : Bool := a.2 ≠ 0 && b.2 ≠ 0 && a.1 < b.1 + b.2 && b.1 < a.1 + a.2

/-- SET_CARVE. -/
def State.gateCarve (s : State) (slot p first n : Nat) : Verdict :=
  need (first + n ≤ 496 && (List.range 128).all (fun q => q = p ||
      (!granulesMeet (first, n) (s.part q).carve &&
        (match s.carveNew q with | some g => !granulesMeet (first, n) g | none => true)))) gsBadCtx
    (.ok (s.stageDrain slot 0 (.setCarve p first n)))

/-- SET_HEN_MIN: the sum of the minima of a die stays within the region, the larger of old and new counting. -/
def State.gateHenMin (s : State) (slot p w e : Nat) : Verdict :=
  let most (west : Bool) (q : Nat) : Nat :=
    let old := if west then (s.part q).minW else (s.part q).minE
    let new := if q = p then (if west then w else e)
      else (match s.minsNew q with | some m => if west then m.1 else m.2 | none => old)
    if q = p then new else max old new
  let sum (west : Bool) : Nat := ((List.range 128).map (most west)).foldl (· + ·) 0
  need (sum true ≤ 3968 && sum false ≤ 3968) gsBadPool (.ok (s.stageDrain slot 2 (.setHenMin p w e)))

/-- The class S space of a die that the plans in force or those of the next switch take. -/
def State.classSMost (s : State) (d : Nat) : Nat := max (s.classSSpace d) (classSOf s.nextPlans d)

/-- SET_POOLS (R185, R186). -/
def State.gatePools (s : State) (slot : Nat) : PoolSet → Verdict
  | .sram d a b c =>
    need (a + b + c = 160 && s.classSMost d + 65536 ≤ c * 4096) gsBadPool (.ok (s.stageDrain slot 3 (.setPools (.sram d a b c))))
  | .depot n => need (n ≤ 512) gsBadPool (.ok (s.stageDrain slot 3 (.setPools (.depot n))))
  | .thr d a r b =>
    need (16 ≤ a && a + 8 ≤ r && r + 8 ≤ b && b ≤ 255) gsBadPool
      (.ok (s.setDie d { s.die d with thrStaged := some (a, r, b) }))

/-- SET_GMIN: GMIN_C is legal, and SHARED keeps 16,384 units. -/
def State.gateGmin (s : State) (slot code b c : Nat) : Verdict :=
  let ing := codeIngress code
  let d := homeDie ing
  let g (i : Nat) (k : Bool) : Nat := if i = ing then (if k then c else b) else s.gminMost i k
  need (16 ≤ c && 16384 ≤ sharedOf (s.classSMost d) (minsOf d g)) gsBadBudget (.ok (s.stageDrain slot 4 (.setGmin code b c)))

/-- SET_SWITCH. -/
def State.gateSwitch (s : State) : SwitchSet → Verdict
  | .cfg d a m => need (a ≤ 4) gsBadBudget (.ok (s.setDie d { s.die d with cfgStaged := some (a, m) }))
  | .crowd p t => need (t ≤ 4096) gsBadBudget (.ok (s.modPort p (fun q => { q with crowdStaged := some t })))

/-! ### Epoch tables (R15, R192, R202, R332, R411) -/

/-- A route entry is legal (R192). -/
def routeOk (e : BitVec 128) : Bool :=
  let kind := reKind e
  let group := (reMatch e).extractLsb' 21 3 = 7
  !((kind = 1 || kind = 3) && group) && !(kind = 2 && !group) &&
  !(kind = 1 && (e.extractLsb' 113 2) ≠ 0) && !(49 ≤ reSPort e && reSPort e ≤ 62) && e.extractLsb' 62 2 = 0 &&
  e.extractLsb' 115 13 = 0

/-- Reservations lie within the member ports and the tick, and meet no other partition's (Table 15.5, R333). -/
def State.grantsLegal (s : State) (p : Nat) (l : List Grant) (all : Tbl (List Grant)) : Bool :=
  let ports := (s.part p).ports &&& (match s.portsNew p with | some m => m | none => BitVec.allOnes 49)
  l.all (fun g =>
    g.port ≤ 48 && ports.getLsbD g.port && 1 ≤ g.first && 1 ≤ g.count && g.first + g.count ≤ s.nextSlots &&
    all.all (fun e => e.1 = p || e.2.all (fun o =>
      !(o.port = g.port && o.out == g.out && o.first < g.first + g.count && g.first < o.first + o.count))))

/-- Every variant of a plan lies within a reservation. -/
def Plan.within (pl : Plan) (resv : List Grant) : Bool :=
  pl.variants.all (fun v => v.grants.all (fun g =>
    (List.range g.count).all (fun k => resv.any (fun r => r.covers g.port (g.first + k) g.out))))

/-- SET_GRANTS. -/
def State.gateGrants (s : State) (p : Nat) (l : List Grant) : Verdict :=
  if !s.grantsLegal p l s.nextGrants then .error (gsBadPlan, 0)
  else
    match s.nextPlan p with
    | some pl => if pl.within l then .ok (s.stageGrants p l) else .error (gsBadPlan, 4)
    | none => .ok (s.stageGrants p l)

/-- SET_TICK. -/
def tickLegal (n : Nat) : Bool := 64 ≤ n && n ≤ 16384 && n % 64 = 0

/-- The whole remap table of a partition as MAP messages of at most 1,016 entries (R411, Table 16.6). (DEDUCED, log 91) -/
def mapBodies (t : Tbl (BitVec 32)) (p : Nat) (epoch : BitVec 32) (tick : Word) : List (List Byte) :=
  [0, 1016, 2032, 3048, 4064].map (fun f =>
    let n := min 1016 (4096 - f)
    leBytes 4 epoch.toNat ++ leBytes 8 tick.toNat ++ leBytes 2 f ++ leBytes 2 n ++
      (List.range n).flatMap (fun i => leBytes 4 ((t.getD (p * 4096 + f + i) 0xFFFFFFFF).toNat)))

/-- A service message of Mule's own: SERVICE, OP, REQ_ID, SCOPE and body (Table 16.3). -/
def svcBytes (service op : Nat) (req : BitVec 32) (scope : Nat) (body : List Byte) : List Byte :=
  leBytes 1 service ++ leBytes 1 op ++ leBytes 1 0 ++ leBytes 1 0 ++ leBytes 4 req.toNat ++ leBytes 4 scope ++
    leBytes 4 body.length ++ body

/-- A fresh REQ_ID of Mule. -/
def State.muleReq (s : State) : BitVec 32 × State :=
  (s.mule.reqNo, { s with mule := { s.mule with reqNo := s.mule.reqNo + 1 } })

/-- Addresses of the accelerators on a partition's ports: the remap entries that lie behind a member port.
(DEDUCED, log 91) -/
def State.accelerators (s : State) (p : Nat) : List (BitVec 32) :=
  (maskList 48 (s.part p).ports.toNat).filterMap (fun q =>
    match (s.port q).caps with
    | some c => if (s.port q).active && !c.dolmo then some (mkAddr s.power.loc (BitVec.ofNat 8 q)) else none
    | none => none)

/-- Mule stages a remap table and sends MAP to the partition's accelerators (R411). The switch tick is that of the ARM
being staged. (DEDUCED, log 91) -/
def State.sendMaps (s : State) (p : Nat) : State :=
  let tick := match s.mule.staging with | some (t, _) => t | none => 0
  let bodies := mapBodies (s.nextRemap p) p (s.epoch.current + 1) tick
  (s.accelerators p).foldl (fun t a =>
    bodies.foldl (fun u b => let r := u.muleReq; r.2.muleSendC a p Config.fabricCtx (svcBytes 2 7 r.1 p b)) t) s

/-! ### Arming (R385, R386, R453-R455) -/

/-- The whole shadow beside the settings in force (R385): none where every invariant holds, else a status and DETAIL. -/
def State.shadowBad (s : State) : Option (Nat × Nat) :=
  let plans := s.nextPlans
  let grants := s.nextGrants
  if !grants.all (fun e => s.grantsLegal e.1 e.2 grants) then some (gsBadPlan, 0)
  else if !plans.all (fun e => e.2.slots = s.nextSlots) then some (gsBadPlan, 1)
  else if !plans.all (fun e => e.2.within (grants.getD e.1 [])) then some (gsBadPlan, 4)
  else if !allPairs (fun a b => a.2.engines &&& b.2.engines = 0) plans then some (gsBadPlan, 6)
  else if !(List.range 128).all (fun p => variantLegal (s.nextPlan p) (s.nextVariants.getD p 0)) then some (gsBadPlan, 10)
  else if !([0, 1] : List Nat).all (fun d => 16384 ≤ sharedOf (classSOf plans d) (minsOf d s.gminMost)) then some (gsBadBudget, 0)
  else if !([0, 1] : List Nat).all (fun d => classSOf plans d + 65536 ≤ (s.die d).p2.mib * 4096) then some (gsBadPool, 0)
  else none

/-- The Mule of this Dolmo sends or holds an arm request (R454, R455): at the GM it waits to be flooded, elsewhere it goes
to the GM's Mule. -/
def State.armRequest (s : State) (t : Word) (key : Option (BitVec 24)) : State :=
  let r := s.muleReq
  let w : ArmWait := { id := r.1, t := t, key := key, msg := none, tick := s.rooster.tickNo }
  let m := r.2.mule
  if s.rooster.st = .gm then { r.2 with mule := { m with held := m.held ++ [w] } }
  else
    let l := match key with | some k => k.toNat + 2 ^ 24 | none => 0
    State.muleSendC { r.2 with mule := { m with requests := m.requests ++ [w] } }
      (mkAddr (s.rooster.gmKey.setWidth 24) 0x41) 0 Config.fabricCtx (svcBytes 0 1 r.1 0 (leBytes 8 t.toNat ++ leBytes 4 l))

/-- ARM_EPOCH. (DEDUCED, log 92) -/
def State.gateArm (s : State) (t : Word) (flood : Bool) (key : BitVec 25) : Verdict :=
  let lead : Bool := s.rooster.tickNo.toNat + 8 ≤ t.toNat
  if flood then
    need (t = 0 || lead) gsBadEpoch (.ok (s.armRequest t (if key.getLsbD 24 then some (key.setWidth 24) else none)))
  else
    need lead gsBadEpoch
      (match s.shadowBad with
       | some e => .error e
       | none => .ok { s with epoch := { s.epoch with armed := some t }
                              twin := { s.twin with unheardSinceArm := false, detachNamed := none, attachNamed := none } })

/-! ### Ports (R398, R403, R461, R486) -/

/-- Logical lanes of a port that carry or stand by, ascending. -/
def State.lanesUp (s : State) (p : Nat) : List Nat :=
  if (s.port p).active then maskList 16 ((s.port p).healthyIn ||| (s.port p).healthyOut).toNat else []

/-- A REACH change starts the lane procedure. -/
def State.startReach (s : State) (p reach : Nat) (slot : Option Nat) : State :=
  let q := s.port p
  if q.reach = reach then s
  else s.setPort p { q with
    reach := reach
    lanProc := some { todo := s.lanesUp p, newReach := reach, oldReach := q.reach, slot := slot } }

/-- A LANE_CFG change starts the lane procedure for one lane; on co-packaged ports it changes nothing (R97). -/
def State.startLaneCfg (s : State) (p j preset : Nat) (ovr : Bool) (slot : Option Nat) : State :=
  let q := s.port p
  let l := s.lane p j
  if coPackaged p || (l.preset = preset && l.presetOvr == ovr) then s
  else
    (s.setLane p j { l with preset := preset, presetOvr := ovr }).setPort p { q with
      lanProc := some { todo := (s.lanesUp p).filter (· = l.logical), newReach := q.reach, oldReach := q.reach, slot := slot
                        newLane := some (j, preset, ovr), oldLane := some (l.preset, l.presetOvr) } }

/-- The effect of SET_PORT. -/
def State.applyPortSet (s : State) (p : Nat) (slot : Option Nat) : PortSet → State
  | .cfg en reach ex => (s.modPort p (fun q => { q with cfgStaged := some (en, ex) })).startReach p reach slot
  | .asym v => s.modPort p (fun q => { q with asymStaged := some v })
  | .lane j k o => s.startLaneCfg p j k o slot
  | .hold j h => s.modLane p j (fun l => { l with holdStaged := some h })

/-- A PF write of a port register acts as a SET_PORT call, which GATE_LOG shows (R397, R486, R489). (DEDUCED, log 172) -/
def State.portCall (s : State) (p : Nat) (v : PortSet) : State :=
  let t := s.applyPortSet p none v
  { t with gate := { t.gate with staged := t.gate.staged ++ [0x30] } }

/-- A nap map is legal (R403). -/
def State.napOk (s : State) (p : Nat) (w : List (BitVec 32)) : Bool :=
  let l := w.map (fun v => (bitsOf v.toNat 13 0, bitsOf v.toNat 17 14))
  w.length ≤ 128 && w.all (fun v => v.toNat < 2 ^ 18) &&
  l.all (fun x => 2 ≤ x.2 && x.2 ≤ 15 && 1 ≤ x.1 && x.1 + x.2 ≤ s.rooster.slots - 1 &&
    s.epoch.cur.grants.all (fun e => e.2.all (fun g =>
      !(g.port = p && g.out && g.first < x.1 + x.2 && x.1 < g.first + g.count)))) &&
  allPairs (fun a b => a.1 + a.2 < b.1 || b.1 + b.2 < a.1) l

/-- SET_NAP_MAP. -/
def State.gateNap (s : State) (p : Nat) (w : List (BitVec 32)) : Verdict :=
  need (s.napOk p w) gsBadCall
    (.ok (s.modPort p (fun q => { q with
      napStaged := some (w.map (fun v => (bitsOf v.toNat 13 0, bitsOf v.toNat 17 14))) })))

/-! ### Keys, images and attestation (R381, R390, R391, R394) -/

/-- A key table is written to boot flash. -/
def State.setKeys (s : State) (l : List (List Byte)) : State := ({ s with fw := { s.fw with keys := l } }).emit (.flashKeys l)

/-- ENROLL_KEY. (DEDUCED, log 90) -/
def State.gateEnroll (s : State) (key sig : List Byte) : Verdict :=
  let l := s.fw.keys
  let signed := if l.isEmpty then Config.ecdsaVerify key key sig else l.any (fun k => Config.ecdsaVerify k key sig)
  need (signed && l.length < 8) gsBadKey (.ok ((s.setKeys (l ++ [key])).extend1 5 0 0 (Config.sha384 key)))

/-- REVOKE_KEY. -/
def State.gateRevoke (s : State) (key sig : List Byte) : Verdict :=
  let l := s.fw.keys
  need (l.contains key && l.any (fun k => Config.ecdsaVerify k key sig)) gsBadKey
    (.ok ((s.setKeys (l.filter (· ≠ key))).extend1 6 0 0 (Config.sha384 key)))

/-- An image has MAGIC, VERSION, its KIND, and a body that its BODY_HASH names (Table 15.1). -/
def imageForm (b : List Byte) (kind : Nat) : Bool :=
  natAt b 0 4 = 0x454C554D && natAt b 4 2 = 1 && natAt b 6 1 = kind && b.length = 512 + natAt b 16 4 &&
  (Config.sha384 (b.drop 512)).toNat = natAt b 24 48

/-- LOAD_SERVICE. -/
def State.gateLoadService (s : State) (b : List Byte) : Verdict :=
  let key := bytesAt b 256 97
  let n := natAt b 7 1
  let svn := natAt b 8 4
  let known := s.fw.services.keys.contains n
  need (b.length ≤ 512 + 0x400000 && imageForm b 2 && ((1 ≤ n && n ≤ 3) || (16 ≤ n && n ≤ 23)) && s.fw.keys.contains key &&
      Config.ecdsaVerify key (bytesAt b 0 72) (bytesAt b 72 96) && s.fw.services.getD n 0 ≤ svn &&
      (known || s.fw.services.length < 8)) gsBadImage
    (.ok (({ s with fw := { s.fw with
        services := s.fw.services.set n svn
        svcRestart := if known && !s.fw.svcRestart.contains n then s.fw.svcRestart ++ [n] else s.fw.svcRestart
        svcNew := if known then s.fw.svcNew else s.fw.svcNew ++ [n] } }).extend1
      4 n svn (BitVec.ofNat 384 (natAt b 24 48))))

/-- LOAD_MULE: a copy is written to boot flash (R378, Table 15.1). (DEDUCED, log 88) -/
def State.flashMule (s : State) (copyB : Bool) (b : List Byte) : State :=
  let q := BitVec.ofNat 32 (natAt b 12 4)
  State.emit { s with fw := { s.fw with seqA := if copyB then s.fw.seqA else q, seqB := if copyB then q else s.fw.seqB } }
    (.flashMule copyB b)

/-- COMMIT_SVN. -/
def State.gateCommitSvn (s : State) : Verdict :=
  need (s.fw.minSvn ≤ s.fw.muleSvn && s.fw.muleSvn ≤ 64) gsBadImage
    (.ok { s with fw := { s.fw with minSvn := s.fw.muleSvn } })

/-- The function of a caller: 0 for the PF, p + 1 for VF p + 1. -/
def callerFn (slot : Nat) : Nat := slot - 1

/-- Bytes 0-255 of the quote (Table 15.6). (DEDUCED, log 88) -/
def State.quoteBody (s : State) (slot : Nat) (nonce : List Byte) : List Byte :=
  let d := if slot = 1 then 0 else match s.nextPlan (slot - 2) with | some pl => pl.digest.toNat | none => 0
  leBytes 4 0x51545441 ++ leBytes 2 1 ++ leBytes 2 (callerFn slot) ++ padTo 32 nonce ++ leBytes 3 s.power.loc.toNat ++
    leBytes 1 0 ++ leBytes 8 s.rooster.tickNo.toNat ++ leBytes 4 s.epoch.current.toNat ++ leBytes 4 s.fw.log.length ++
    leBytes 4 (b2n s.fw.logFull + 2 * b2n s.fw.recovery + 4 * b2n s.fw.muleHeld) ++ leBytes 48 s.fw.mreg0.toNat ++
    leBytes 48 s.fw.mreg1.toNat ++ leBytes 48 s.fw.mreg2.toNat ++ leBytes 48 d

/-- ATTEST: the signed quote goes to the host. -/
def State.gateAttest (s : State) (slot : Nat) (nonce : List Byte) (addr : Word) : Verdict :=
  let b := s.quoteBody slot nonce
  let fn := callerFn slot
  .ok (s.emit (.pcieWrite fn addr (b ++ padTo 96 (Config.attestSign b)) (s.func fn).relaxed))

/-- GET_CERT. -/
def State.gateCert (s : State) (slot : Nat) (addr : Word) : Verdict :=
  let fn := callerFn slot
  .ok (s.emit (.pcieWrite fn addr Config.certChain (s.func fn).relaxed))

/-! ### Serving a call -/

/-- What a call does once its caller, arguments and state allow it. (DEDUCED, log 84) -/
def State.serveReq (s : State) (slot : Nat) : GateReq → Verdict
  | .admitPlan p c g o => s.gateAdmit p c g o
  | .withdrawPlan p => s.gateWithdraw p
  | .ctxCreate p c => s.gateCtxCreate p c
  | .ctxDestroy p c => s.gateCtxDestroy p c
  | .setSegment p c g b l => s.gateSegment p c g b l
  | .serviceGrant p c g v a => s.gateGrant p c g v a
  | .setCarve p f n => s.gateCarve slot p f n
  | .setPorts p m => .ok (s.stageDrain slot 1 (.setPorts p m))
  | .setHenMin p w e => s.gateHenMin slot p w e
  | .setPools v => s.gatePools slot v
  | .setGmin k b c => s.gateGmin slot k b c
  | .setSwitch v => s.gateSwitch v
  | .setTickRole g r => .ok { s with rooster := { s.rooster with roleStaged := some (g, r) } }
  | .setRoute i e => need (routeOk e) gsBadRoute (.ok (s.stageRoute i e))
  | .setSpread i w => .ok (s.stageSpread i w)
  | .setRemap p l => let t := s.stageRemap p l; .ok (if slot = 0 then t.sendMaps p else t)
  | .setGrants p l => s.gateGrants p l
  | .setVariant p v => if variantLegal (s.nextPlan p) v then .ok (s.stageVariant p v) else .error (gsBadPlan, 10)
  | .setTick n => need (tickLegal n) gsBadTick (.ok (s.stageSlots n))
  | .armEpoch t f k => s.gateArm t f k
  | .setPort p v => .ok (s.applyPortSet p (some slot) v)
  | .detach d =>
    need (s.epoch.armed = some d) gsBadEpoch (.ok { s with twin := { s.twin with detachAt := some d } })
  | .attach a =>
    need (s.epoch.armed = some a) gsBadEpoch (.ok { s with twin := { s.twin with attachAt := some a } })
  | .setNapMap p w => s.gateNap p w
  | .throttle l => need (l ≤ 3) gsBadCall (.ok { s with mule := { s.mule with throttleStaged := some l } })
  | .mulePet => .ok { s with fw := { s.fw with petTicks := 0 } }
  | .enrollKey k g => s.gateEnroll k g
  | .revokeKey k g => s.gateRevoke k g
  | .loadService b => s.gateLoadService b
  | .commitSvn => s.gateCommitSvn
  | .loadMule c b => .ok (s.flashMule c b)
  | .attest n a => s.gateAttest slot n a
  | .getCert a => s.gateCert slot a
  | .undefined _ => .error (gsBadCall, 0)

/-- A call is judged in the order of R377, R384, R380 and R386, then served.
(DESIGN CHOICE, log 83; DEDUCED, log 84; DEDUCED, log 85) -/
def State.serve (s : State) (slot : Nat) (rsv : Bool) (r : GateReq) : Verdict :=
  let vfOther := match r.part? with | some p => 2 ≤ slot && p ≠ slot - 2 | none => false
  let armedOut := s.epoch.armed.isSome && (r.epochTable || r.code = 0x26)
  need (!s.fw.fatal) gsFatal
    (need (r.mayCall slot && !vfOther && !(s.fw.recovery && !r.inRecovery)) gsDenied
      (need (r.inRange && !rsv) gsBadCall
        (need (!armedOut) gsArmed
          (need (!s.settingBusy r) gsBusy (s.serveReq slot r)))))

/-! ### Slots and order (R382, R383) -/

/-- A call waits behind those that came before it, or in the same cycle from a lower slot. -/
def gateInsert (w : GateWait) : List GateWait → List GateWait
  | [] => [w]
  | x :: t => if w.at_ < x.at_ || (w.at_ = x.at_ && w.slot < x.slot) then w :: x :: t else x :: gateInsert w t

/-- A slot's caller can reach the gate. -/
def State.slotOpen (s : State) (slot : Nat) : Bool :=
  !s.power.coldReset && !s.power.tripped &&
  (match slot with
   | 0 => s.fw.muleUp
   | 1 => s.power.ready
   | n + 2 => s.power.ready && s.funcExists (n + 1) && !(s.func (n + 1)).flr)

/-- A call with a status writes GATE_STATUS and is no longer pending. (DEDUCED, log 85) -/
def GateSlot.done (g : GateSlot) (pending : Bool) (status detail : Nat) : GateSlot :=
  { g with pending := pending, status := status, detail := detail }

/-- GATE_CALL is written: the call waits to be served, is lost while one is pending, and is answered at once after FATAL.
(DESIGN CHOICE, log 83) -/
def State.callGate (s : State) (c : Caller) (r : GateReq) : State :=
  let g := s.gateSlot c.slot
  if !s.slotOpen c.slot then s
  else if g.pending then s.setGateSlot c.slot { g with lost := true, lostAt := some s.time }
  else if s.fw.fatal then (s.setGateSlot c.slot (g.done false gsFatal 0)).bumpDev dkGateRefused
  else
    let t := s.setGateSlot c.slot { g with pending := true }
    { t with gate := { t.gate with queue := gateInsert ⟨s.time, c.slot, c.rsv, r⟩ t.gate.queue } }

/-- The slot exists. -/
def withSlot (c : Caller) (r : Res) : Res := withFunc (c.slot - 1) r

/-- A call of the PF that lands at a hinge or at a switch, for GATE_LOG (Table 16.1). -/
def State.noteLanding (s : State) (slot : Nat) (r : GateReq) : State :=
  let c := r.code
  if slot ≠ 1 then s
  else if r.epochTable || c = 0x26 then { s with gate := { s.gate with stagedEpoch := s.gate.stagedEpoch ++ [c] } }
  else
    match r with
    | .setPools (.thr ..) => { s with gate := { s.gate with staged := s.gate.staged ++ [c] } }
    | _ =>
      if c = 0x04 || c = 0x05 || c = 0x06 || c = 0x15 || c = 0x16 || c = 0x30 || c = 0x42 then
        { s with gate := { s.gate with staged := s.gate.staged ++ [c] } }
      else s

/-- A call of Mule that was refused is logged and, unless it met an armed epoch, not repeated for 64 ticks (R396). -/
def State.muleRefused (s : State) (code status : Nat) : State :=
  if status = gsArmed then s
  else
    State.log { s with mule := { s.mule with backoff := s.mule.backoff.set code (s.rooster.tickNo + 64) } }
      (.refusedCall code status)

/-- What a refused call leaves of its work: an image that was read has been corrected and counted (R311). -/
def State.readFor (s : State) (r : GateReq) (status : Nat) : State :=
  match r with
  | .admitPlan p c g o => if status = gsBadPlan || status = gsBadBudget || status = gsBadPool then (s.imageAt p c g o).1 else s
  | _ => s

/-- GATE_CALL_COMPLETE: the oldest waiting call is served, its status written and its change staged.
(DESIGN CHOICE, log 83) -/
def execGateCallComplete (s : State) : Res :=
  .next
    (match s.gate.queue with
     | [] => s
     | w :: rest =>
       if s.power.coldReset || s.power.tripped || (s.depot.draining && w.req.readsDepot) then s
       else
         let s0 : State := { s with gate := { s.gate with queue := rest } }
         let more := rest.any (fun x => x.slot = w.slot)
         let g := s0.gateSlot w.slot
         match s0.serve w.slot w.rsv w.req with
         | .ok t => (t.setGateSlot w.slot (g.done more 0 0)).noteLanding w.slot w.req
         | .error e =>
           let t := ((s0.readFor w.req e.1).setGateSlot w.slot (g.done more e.1 e.2)).bumpDev dkGateRefused
           let u := match w.req with | .admitPlan .. => t.bumpDev dkAdmitRefused | _ => t
           if w.slot = 0 then u.muleRefused w.req.code e.1 else u)

/-! ### The calls -/

def execAdmitPlan (c : Caller) (part ctx seg offset : Nat) (s : State) : Res :=
  withSlot c (.next (s.callGate c (.admitPlan part ctx seg offset)))
def execWithdrawPlan (c : Caller) (part : Nat) (s : State) : Res := withSlot c (.next (s.callGate c (.withdrawPlan part)))
def execCtxCreate (c : Caller) (part ctx : Nat) (s : State) : Res := withSlot c (.next (s.callGate c (.ctxCreate part ctx)))
def execCtxDestroy (c : Caller) (part ctx : Nat) (s : State) : Res := withSlot c (.next (s.callGate c (.ctxDestroy part ctx)))
def execSetSegment (c : Caller) (part ctx seg base len : Nat) (s : State) : Res :=
  withSlot c (.next (s.callGate c (.setSegment part ctx seg base len)))
def execServiceGrant (c : Caller) (part ctx seg service access : Nat) (s : State) : Res :=
  withSlot c (.next (s.callGate c (.serviceGrant part ctx seg service access)))
def execSetCarve (c : Caller) (part first granules : Nat) (s : State) : Res :=
  withSlot c (.next (s.callGate c (.setCarve part first granules)))
def execSetPorts (c : Caller) (part : Nat) (ports : BitVec 49) (s : State) : Res :=
  withSlot c (.next (s.callGate c (.setPorts part ports)))
def execSetHenMin (c : Caller) (part minW minE : Nat) (s : State) : Res :=
  withSlot c (.next (s.callGate c (.setHenMin part minW minE)))
def execSetPools (c : Caller) (v : PoolSet) (s : State) : Res := withSlot c (.next (s.callGate c (.setPools v)))
def execSetGmin (c : Caller) (code gminB gminC : Nat) (s : State) : Res :=
  withSlot c (.next (s.callGate c (.setGmin code gminB gminC)))
def execSetSwitch (c : Caller) (v : SwitchSet) (s : State) : Res := withSlot c (.next (s.callGate c (.setSwitch v)))
def execSetTickRole (c : Caller) (gmEligible refEn : Bool) (s : State) : Res :=
  withSlot c (.next (s.callGate c (.setTickRole gmEligible refEn)))
def execSetRoute (c : Caller) (index : Nat) (entry : BitVec 128) (s : State) : Res :=
  withSlot c (.next (s.callGate c (.setRoute index entry)))
def execSetSpread (c : Caller) (index : Nat) (weights : List Nat) (s : State) : Res :=
  withSlot c (.next (s.callGate c (.setSpread index weights)))
def execSetRemap (c : Caller) (part : Nat) (entries : List (Nat × BitVec 32 × Bool)) (s : State) : Res :=
  withSlot c (.next (s.callGate c (.setRemap part entries)))
def execSetGrants (c : Caller) (part : Nat) (entries : List Grant) (s : State) : Res :=
  withSlot c (.next (s.callGate c (.setGrants part entries)))
def execSetVariant (c : Caller) (part : Nat) (v : BitVec 7) (s : State) : Res :=
  withSlot c (.next (s.callGate c (.setVariant part v)))
def execSetTick (c : Caller) (slots : Nat) (s : State) : Res := withSlot c (.next (s.callGate c (.setTick slots)))
def execArmEpochLocal (c : Caller) (t : Word) (key : BitVec 25) (s : State) : Res :=
  withSlot c (.next (s.callGate c (.armEpoch t false key)))
def execArmEpochFlood (c : Caller) (t : Word) (key : BitVec 25) (s : State) : Res :=
  withSlot c (.next (s.callGate c (.armEpoch t true key)))
def execSetPort (c : Caller) (port : Nat) (v : PortSet) (s : State) : Res := withSlot c (.next (s.callGate c (.setPort port v)))
def execSetPortDetach (c : Caller) (tick : Word) (s : State) : Res := withSlot c (.next (s.callGate c (.detach tick)))
def execSetPortAttach (c : Caller) (tick : Word) (s : State) : Res := withSlot c (.next (s.callGate c (.attach tick)))
def execSetNapMap (c : Caller) (port : Nat) (windows : List (BitVec 32)) (s : State) : Res :=
  withSlot c (.next (s.callGate c (.setNapMap port windows)))
def execThrottle (c : Caller) (level : Nat) (s : State) : Res := withSlot c (.next (s.callGate c (.throttle level)))
def execMulePet (c : Caller) (s : State) : Res := withSlot c (.next (s.callGate c .mulePet))
def execEnrollKey (c : Caller) (key sig : List Byte) (s : State) : Res := withSlot c (.next (s.callGate c (.enrollKey key sig)))
def execRevokeKey (c : Caller) (key sig : List Byte) (s : State) : Res := withSlot c (.next (s.callGate c (.revokeKey key sig)))
def execLoadService (c : Caller) (image : List Byte) (s : State) : Res := withSlot c (.next (s.callGate c (.loadService image)))
def execCommitSvn (c : Caller) (s : State) : Res := withSlot c (.next (s.callGate c .commitSvn))
def execLoadMule (c : Caller) (copyB : Bool) (image : List Byte) (s : State) : Res :=
  withSlot c (.next (s.callGate c (.loadMule copyB image)))
def execAttest (c : Caller) (nonce : List Byte) (addr : Word) (s : State) : Res :=
  withSlot c (.next (s.callGate c (.attest nonce addr)))
def execGetCert (c : Caller) (addr : Word) (s : State) : Res := withSlot c (.next (s.callGate c (.getCert addr)))

/-! ### Drain-and-swap (R458-R460) -/

/-- Buffers of a die in use whose pool changes under a new layout. -/
def Die.moving (v : Die) (lay : Nat × Nat × Nat) : Bool :=
  [0, 1, 2].any (fun k => (v.pool k).used.any (fun o => !stays lay k o))

/-- The landing condition of a pending change (Table 19.6). (DEDUCED, log 87) -/
def State.drainLands (s : State) : GateReq → Bool
  | .setCarve p _ n =>
    let g := min (s.part p).carve.2 n
    (s.ctxs.filter (fun e => e.2.part = p)).all (fun e => e.2.segs.all (fun x => x.2.1 + x.2.2 ≤ g * 16384 || x.2.2 = 0))
  | .setPorts p m =>
    (s.epoch.cur.grants.getD p []).all (fun g => m.getLsbD g.port || !(s.part p).ports.getLsbD g.port)
  | .setHenMin p w e => s.west.reserve.getD p 0 ≤ w && s.east.reserve.getD p 0 ≤ e
  | .setPools (.sram d a b c) => !(s.die d).moving (a, b, c)
  | .setPools (.depot _) => [3, 4].all (fun k => (s.depot.pool k).used.all (fun e => !s.depotMoving k e.1))
  | .setGmin code b c =>
    let ing := codeIngress code
    let d := homeDie ing
    let g (i : Nat) (k : Bool) : Nat := if i = ing then (if k then c else b) else (s.acct i k).gmin
    s.sharedUsed d g ≤ sharedOf (s.classSSpace d) (minsOf d g)
  | _ => true

/-- The new value equals the old one. -/
def State.drainSame (s : State) : GateReq → Bool
  | .setCarve p f n => (s.part p).carve = (f, n)
  | .setPorts p m => (s.part p).ports = m
  | .setHenMin p w e => (s.part p).minW = w && (s.part p).minE = e
  | .setPools (.sram d a b c) => (s.die d).p0.mib = a && (s.die d).p1.mib = b && (s.die d).p2.mib = c
  | .setPools (.depot n) => s.depot.p3.mib = n
  | .setGmin k b c => (s.acct (codeIngress k) false).gmin = b && (s.acct (codeIngress k) true).gmin = c
  | _ => true

/-- The depot pools take their new sizes, and their lists are rebuilt (R188). A buffer that stays keeps its place. -/
def Depot.resized (m : Depot) (n : Nat) : Depot :=
  let p3 : DepotPool := { m.p3 with mib := n }
  let p4 : DepotPool := { m.p4 with
    mib := 512 - n
    used := m.p4.used.map (fun e => (m.p3.mib + e.1 - n, e.2)) }
  (({ m with p3 := p3, p4 := p4 } : Depot).rebuild 3).rebuild 4

/-- A pending change lands: its new value is in force. -/
def State.landDrain (s : State) : GateReq → State
  | .setCarve p f n =>
    let old := (s.part p).carve
    let join := (List.range n).filter (fun i => !(old.1 ≤ f + i && f + i < old.1 + old.2))
    let s1 := s.setPart p { s.part p with carve := (f, n) }
    join.foldl (fun t i =>
      let a := granuleAddr (f + i)
      { t with depot := { t.depot with
          mem := memZero t.depot.mem a granuleSize
          bad := t.depot.bad.filter (fun u => !unitWhole a granuleSize u)
          soft := t.depot.soft.filter (fun u => !unitWhole a granuleSize u) } }) s1
  | .setPorts p m => s.setPart p { s.part p with ports := m }
  | .setHenMin p w e => s.setPart p { s.part p with minW := w, minE := e }
  | .setPools (.sram d a b c) =>
    let v := s.die d
    s.setDie d { v with
      p0 := { v.p0 with mib := a }, p1 := { v.p1 with mib := b }, p2 := { v.p2 with mib := c }, resize := none }
  | .setPools (.depot n) =>
    { s with depot := s.depot.resized n }.count (devCtr dkHenRebuild) (b2n s.depot.p3.bad + b2n s.depot.p4.bad)
  | .setGmin k b c =>
    let i := codeIngress k
    (s.setAcct i false { s.acct i false with gmin := b }).setAcct i true { s.acct i true with gmin := c }
  | _ => s

/-- A pending change is gone; the strict rule on the pools of a die is lifted. -/
def State.dropDrain (s : State) (d : DrainPending) : State :=
  let s1 : State := { s with gate := { s.gate with drains := s.gate.drains.filter (fun x => !x.req.sameSetting d.req) } }
  match d.req with
  | .setPools (.sram k ..) => s1.setDie k { s1.die k with resize := none }
  | _ => s1

/-- DRAIN_LAND: in the hinge slot, every pending change whose landing condition holds lands. (DEDUCED, log 126) -/
def execDrainLand (s : State) : Res :=
  .next
    (if s.alive && s.rooster.slot = 0 then
       s.gate.drains.foldl (fun t d =>
         if d.age.isSome && (t.drainLands d.req || (d.age = some 0 && t.drainSame d.req)) then
           let u := (t.landDrain d.req).dropDrain d
           if d.slot = 1 then { u with gate := { u.gate with log := u.gate.log ++ [d.code] } } else u
         else t) s
     else s)

/-- DRAIN_ROLLBACK: in the hinge slot of H0 + 64, a change that has not landed is rolled back (R459). -/
def execDrainRollback (s : State) : Res :=
  .next
    (if s.alive && s.rooster.slot = 0 then
       s.gate.drains.foldl (fun t d =>
         if 64 ≤ d.age.getD 0 && !t.drainLands d.req then
           let u := (t.dropDrain d).bumpDev dkDrainRollback
           (u.setGateSlot d.slot { u.gateSlot d.slot with status := gsDrainTimeout, detail := d.code }).log (.drainRollback d.code)
         else t) s
     else s)

end Sys2Proof.Machine
end

