-- ==== Sys2Proof/Machine/Flags.lean ====
section
/-! DEFINITION. The scalar results of Table 10.6 with the flags of Table 9.2: each operation gives the value
written and the SFLAGS bits that it ORs in (bit 0 OVF, bit 1 DZ, bit 2 SAT). -/

namespace Sys2Proof.Machine

def sfOVF : BitVec 3 := 1
def sfDZ : BitVec 3 := 2
def sfSAT : BitVec 3 := 4

/-- The most negative 64-bit value, M of Table 9.2. -/
def wordMin : Word := 0x8000000000000000
def wordMax : Word := 0x7FFFFFFFFFFFFFFF

/-- A signed exact result in 64 bits, with OVF outside them (R249). -/
def wrapOvf (v : Int) : Word × BitVec 3 :=
  let w := BitVec.ofInt 64 v
  (w, if w.toInt = v then 0 else sfOVF)

/-- A signed exact result, clamped, with SAT (R249). -/
def clampSat (v : Int) : Word × BitVec 3 :=
  if v < wordMin.toInt then (wordMin, sfSAT)
  else if wordMax.toInt < v then (wordMax, sfSAT)
  else (BitVec.ofInt 64 v, 0)

/-- An unsigned exact result, clamped, with SAT (R249). -/
def clampSatU (v : Int) : Word × BitVec 3 :=
  if v < 0 then (0, sfSAT)
  else if ((2 ^ 64 : Nat) : Int) ≤ v then (BitVec.allOnes 64, sfSAT)
  else (BitVec.ofInt 64 v, 0)

def addOp (a b : Word) : Word × BitVec 3 := wrapOvf (a.toInt + b.toInt)
def subOp (a b : Word) : Word × BitVec 3 := wrapOvf (a.toInt - b.toInt)
def mulOp (a b : Word) : Word × BitVec 3 := wrapOvf (a.toInt * b.toInt)
def negOp (a : Word) : Word × BitVec 3 := wrapOvf (-a.toInt)
def absOp (a : Word) : Word × BitVec 3 := wrapOvf (a.toInt.natAbs : Int)
def addsOp (a b : Word) : Word × BitVec 3 := clampSat (a.toInt + b.toInt)
def subsOp (a b : Word) : Word × BitVec 3 := clampSat (a.toInt - b.toInt)
def mulsOp (a b : Word) : Word × BitVec 3 := clampSat (a.toInt * b.toInt)
def addusOp (a b : Word) : Word × BitVec 3 := clampSatU ((a.toNat : Int) + (b.toNat : Int))
def subusOp (a b : Word) : Word × BitVec 3 := clampSatU ((a.toNat : Int) - (b.toNat : Int))

/-- Shifts take the whole register as the amount (R249). -/
def shlOp (a b : Word) : Word := if 64 ≤ b.toNat then 0 else a <<< b.toNat
def shrOp (a b : Word) : Word := if 64 ≤ b.toNat then 0 else a >>> b.toNat
def sraOp (a b : Word) : Word := a.sshiftRight (min 64 b.toNat)

/-- Signed division (R249, R267): quotient, remainder, flags. -/
def divsOp (a b : Word) : Word × Word × BitVec 3 :=
  if b = 0 then (0, a, sfDZ)
  else
    let q := wrapOvf (a.toInt.tdiv b.toInt)
    (q.1, BitVec.ofInt 64 (a.toInt.tmod b.toInt), q.2)

/-- Unsigned division. -/
def divuOp (a b : Word) : Word × Word × BitVec 3 :=
  if b = 0 then (0, a, sfDZ) else (a / b, a % b, 0)

/-- The conditions of CMP (Table 10.5). -/
def condHolds (cond : Nat) (a b : Word) : Bool :=
  match cond with
  | 0 => a == b
  | 1 => a != b
  | 2 => a.toInt < b.toInt
  | 3 => a.toInt ≤ b.toInt
  | 4 => a.toNat < b.toNat
  | _ => a.toNat ≤ b.toNat

/-- The predicate operations of PLOG (Table 10.5). -/
def plogOp (opl : Nat) (a b : Bool) : Bool :=
  match opl with
  | 0 => a && b
  | 1 => a || b
  | 2 => a ^^ b
  | _ => a && !b

end Sys2Proof.Machine
end

