-- ==== Sys2Proof/Machine/Threads.lean ====
section
/-! DEFINITION. The sequencer threads (chapter 9): registers, issue, records, squash and faults, posts, the write buffer,
and the Ox views that unretired operations see. -/

namespace Sys2Proof.Machine

/-! ### Scalar state (Table 9.1) -/

/-- s0 reads 0. -/
def Thread.reg (t : Thread) (r : Nat) : Word := if r = 0 then 0 else t.regs.getD r 0

/-- Writes to s0 are discarded. -/
def Thread.setReg (t : Thread) (r : Nat) (v : Word) : Thread := if r = 0 then t else { t with regs := t.regs.set r v }

/-- p0 reads 1. -/
def Thread.pred (t : Thread) (k : Nat) : Bool := k = 0 || t.preds.getLsbD k

/-- Writes to p0 are discarded. -/
def Thread.setPred (t : Thread) (k : Nat) (b : Bool) : Thread :=
  if k = 0 then t
  else { t with preds := (t.preds &&& ~~~ (1#8 <<< k)) ||| (if b then 1#8 <<< k else 0) }

/-- Flags are ORed into SFLAGS (R249). -/
def Thread.orFlags (t : Thread) (f : BitVec 3) : Thread := { t with sflags := t.sflags ||| f }

/-- The guard of an instruction (R260). -/
def Thread.guard (t : Thread) (h : GHead) : Bool := t.pred h.gp.toNat ^^ h.gn

/-! ### Issue (R243, R244, R263) -/

/-- Depot bytes that an unperformed access of the thread covers. -/
def opRange : Op → Option (Nat × Nat)
  | .store (some a) d => some (a, d.length)
  | .atomic (some a) n _ _ _ => some (a, n)
  | .tst _ _ rows _ _ _ (some a) => some (a, rows * 128)
  | _ => none

def StoreOp.size : StoreOp → Nat
  | .bytes d => d.length
  | .stream d => d.length
  | .acas2 .. => 16
  | _ => 8

/-- Two byte ranges overlap. -/
def overlaps (a n b m : Nat) : Bool := n ≠ 0 && m ≠ 0 && a < b + m && b < a + n

/-- An older atomic or TST of the thread, unretired or not yet performed, overlaps a range (R271). (DEDUCED, log 22) -/
def Thread.atomicOver (t : Thread) (a n : Nat) : Bool :=
  t.recs.any (fun r =>
    match r.op with
    | .store .. => false
    | o => match opRange o with
      | some (b, m) => overlaps a n b m
      | none => false) ||
  t.wb.any (fun e =>
    match e.op with
    | .bytes _ => false
    | o => overlaps a n e.addr o.size)

/-- An older store of any kind overlaps a range (R318): among the records before `id`, and the write buffer. -/
def Thread.storeOver (t : Thread) (id a n : Nat) : Bool :=
  (t.recs.filter (fun r => r.id < id)).any (fun r =>
    match opRange r.op with
    | some (b, m) => overlaps a n b m
    | none => false) ||
  t.wb.any (fun e => overlaps a n e.addr e.op.size)

/-- A FENCE has issued and not retired. -/
def Thread.fenced (t : Thread) : Bool := t.recs.any (fun r => match r.op with | .fence .. => true | _ => false)

/-- A register awaits a result. -/
def Thread.awaits (t : Thread) (r : Nat) : Bool := r ≠ 0 && t.busyRec.any (fun e => e.1 = r)

/-- The words at an index of the plan in force. -/
def Plan.wordAt (pl : Plan) (k : Nat) : Word := pl.code.getD k 0

/-- The thread can issue this very instruction now (R243, R244). (DESIGN CHOICE, log 5) -/
def State.canIssue (s : State) (p : Nat) (i : Instr) : Bool :=
  let t := s.thread p
  match s.planOf p with
  | none => false
  | some pl =>
    s.alive && t.st = .running && t.cmd ≠ some .flr && !t.waiting && t.pc < pl.code.length &&
    guandDecode p (pl.wordAt t.pc) (pl.wordAt (t.pc + 1)) = some i &&
    (guandHead i).at_.toNat ≤ s.rooster.slot && t.recs.length < 64 &&
    (!t.guard (guandHead i) || !(guandRegs i).any t.awaits)

/-- An instruction issues: PC moves on, and it acts where its guard holds (R260). `ok` holds back an instruction that
waits at issue; `act` gets the thread with PC moved on. -/
def State.issue (s : State) (p : Nat) (i : Instr) (ok : Thread → Bool) (act : State → Thread → State) : Res :=
  withPart p (.next
    (let t := s.thread p
     let t1 := { t with pc := t.pc + guandLen i }
     if s.canIssue p i then
       (if t.guard (guandHead i) then (if ok t then act s t1 else s) else s.setThread p t1)
     else s))

/-- An instruction that changes only its thread. -/
def State.issueT (s : State) (p : Nat) (i : Instr) (f : Thread → Thread) : Res :=
  s.issue p i (fun _ => true) (fun s t => s.setThread p (f t))

/-- A scalar instruction: its value goes to RD and its flags into SFLAGS (R262, R266). -/
def State.scalar (s : State) (p : Nat) (i : Instr) (rd : BitVec 5) (f : Thread → Word × BitVec 3) : Res :=
  s.issueT p i (fun t => (t.setReg rd.toNat (f t).1).orFlags (f t).2)

/-- An operation takes a retire record; registers it will write late await it. `k` is the index it issued from. -/
def Thread.push (t : Thread) (len : Nat) (op : Op) (awaited : List Nat) : Thread :=
  { t with
    recs := t.recs ++ [{ id := t.nextId, pc := t.pc - len, op := op }]
    nextId := t.nextId + 1
    busyRec := t.busyRec ++ (awaited.filter (· ≠ 0)).map (fun r => (r, t.nextId)) }

/-- The depot address of an access by a pointer register and an offset (R268, R269). -/
def State.ptrAddr (s : State) (p : Nat) (w : Word) (off : Int) (n : Nat) : Option Nat :=
  match ptrPlus w off with
  | none => none
  | some (c, g, o) => s.segAddr p c g o n

/-! ### Engines as unretired operations see them (R220, R235) -/

/-- The engine of an Ox operation. -/
def opEngine : Op → Option Nat
  | .lclr e .. => some e
  | .tldFrame e .. => some e
  | .tldDepot e .. => some e
  | .tacc e .. => some e
  | .emit e .. => some e
  | .tst e .. => some e
  | _ => none

/-- The begun records of a thread on an engine, oldest first, before `id`. -/
def Thread.begunOn (t : Thread) (eng id : Nat) : List Rec :=
  t.recs.filter (fun r => r.id < id && r.begun && opEngine r.op = some eng)

/-- The flags of a window are ORed into. -/
def Engine.orWindow (e : Engine) (w : Nat) (f : BitVec 32) : Engine :=
  let v := e.window w
  e.setWindow w { v with flags := v.flags ||| f }

/-- Rename storage becomes current (R227, R236): attributes, every row of an opened window or the spare rows of a TACC, flags,
and shadow tiles with their copy-backs. What was replaced takes its errors with it (R238). -/
def Engine.commit (e : Engine) (r : Renamed) : Engine :=
  let e1 := match r.window with
    | some (w, v) =>
      (e.setWindow w { v.toWinAttr with flags := if r.clear then 0 else (e.window w).flags }).storeRows v
        (if r.clear then List.range v.rows else r.rows)
    | none => e
  let e2 := match r.orFlags with
    | some (w, f) => e1.orWindow w f
    | none => e1
  let fresh (x : OxPlace) : Bool := match x with
    | .tile _ => false
    | .shadow t => (r.tiles.get? t).isSome
    | .row k => match r.window with
      | some (_, v) => v.base ≤ k && (if r.clear then k < v.base + v.rows else r.rows.contains (k - v.base))
      | none => false
  { e2 with
    tiles := r.tiles.foldl (fun a x => a.set x.1 x.2) e2.tiles
    copyBacks := e2.copyBacks ++ r.tiles.map Prod.fst
    eccOne := e2.eccOne.filter (fun x => !fresh x)
    eccBad := e2.eccBad.filter (fun x => !fresh x) }

/-- An engine as an operation finds it: what the thread's older begun operations have put into rename storage included. -/
def State.engineView (s : State) (p eng id : Nat) : Engine :=
  ((s.thread p).begunOn eng id).foldl (fun e r => e.commit r.res) (s.engine eng)

/-- A tile as an operation reads it: the youngest older shadow, else the register. -/
def State.tileView (s : State) (p eng id k : Nat) : Tile := (s.engineView p eng id).tile k

/-- A window as an operation reads it, the FLAGS of older operations included. -/
def State.windowView (s : State) (p eng id w : Nat) : Window := (s.engineView p eng id).view w

/-- Where an operation finds tile `k`: in a shadow tile while one stands for it (R220, R236), else in its register. -/
def State.tilePlace (s : State) (p eng id k : Nat) : OxPlace :=
  if (s.engineView p eng id).copyBacks.contains k then .shadow k else .tile k

/-- Shadow tiles in use on an engine: those of begun operations and those whose copy-back has not ended. -/
def State.shadowsUsed (s : State) (p eng : Nat) : Nat :=
  ((s.thread p).recs.filter (fun r => r.begun && opEngine r.op = some eng)).foldl
    (fun a r => a + r.res.tiles.length) (s.engine eng).copyBacks.length

/-- Spare rows in use. -/
def State.sparesUsed (s : State) (p eng : Nat) : Nat :=
  ((s.thread p).recs.filter (fun r => r.begun && opEngine r.op = some eng)).foldl (fun a r => a + r.res.rows.length) 0

/-- Single-bit errors among the places an operation reads are corrected, written back and counted (R238). -/
def State.oxCorrect (s : State) (eng : Nat) (read : List OxPlace) : State :=
  let e := s.engine eng
  let hit := e.eccOne.filter (fun x => read.contains x)
  (s.setEngine eng { e with eccOne := e.eccOne.filter (fun x => !read.contains x) }).count (engCtr eng ekEccCorr) hit.length

/-- An uncorrectable error is among them. -/
def State.oxBad (s : State) (eng : Nat) (read : List OxPlace) : Bool := (s.engine eng).eccBad.any (fun x => read.contains x)

/-! ### Ox engines change hands (R215) -/

/-- OX_STATUS bits [26:8]: OPEN, SHADOW_USED and SPARE_USED. -/
def State.oxUse (s : State) (e : Nat) : Nat :=
  let v := s.engine e
  let p := v.owner.getD 128
  let open_ := listMask ((List.range 8).filter (fun w => (v.window w).opened))
  open_ + 2 ^ 8 * s.shadowsUsed p e + 2 ^ 12 * s.sparesUsed p e

/-- The owner of an engine: the partition whose variant in force names it. -/
def State.engineOwner (s : State) (e : Nat) : Option Nat :=
  (s.epoch.cur.plans.find? (fun x =>
    (s.thread x.1).st ≠ .empty &&
    (match s.variantOf x.1 with
     | some v => v.oxMask.getLsbD e
     | none => false))).map Prod.fst

/-- An error in a tile or a ledger row stays when an engine is emptied; one in a shadow tile goes with it. -/
def OxPlace.stays (x : OxPlace) : Bool :=
  match x with
  | .shadow _ => false
  | _ => true

/-- Engines that pass to another owner are emptied. (DEDUCED, log 128) -/
def State.handOver (s : State) : State :=
  (List.range 32).foldl (fun t e =>
    let v := t.engine e
    let o := t.engineOwner e
    if v.owner = o then t
    else t.setEngine e {
      owner := o, shown := some (t.oxUse e), eccOne := v.eccOne.filter OxPlace.stays, eccBad := v.eccBad.filter OxPlace.stays }) s

/-! ### Frames that TLDs hold (R224, R281) -/

/-- The reference that a record's TLD holds is released; a frame still to come will be. -/
def State.releaseClaim (s : State) (p : Nat) (r : Rec) : State :=
  match r.op with
  | .tldFrame _ _ _ _ _ h f true =>
    match (s.thread p).handles.get? h with
    | none => s
    | some v =>
      match v.frames.get? f with
      | some n => s.release n
      | none => s.modThread p (fun t => { t with handles := t.handles.set h { v with dead := f :: v.dead } })
  | _ => s

/-! ### Squash and faults (R237, R239, R251) -/

/-- One record is squashed. (DEDUCED, log 27) -/
def State.squashRec (s : State) (p : Nat) (r : Rec) : State :=
  let s1 := s.releaseClaim p r
  match opEngine r.op with
  | some e =>
    let s2 := s1.bumpEng e ekSquashed
    if r.begun then s2.bumpEng e ekSquashedBegun else s2
  | none => s1

/-- Every unretired operation of a thread is squashed. (DESIGN CHOICE, log 29) -/
def State.squashAll (s : State) (p : Nat) : State :=
  let gone := (s.thread p).recs
  let s1 := gone.foldl (fun a r => a.squashRec p r) s
  s1.modThread p (fun t => { t with
    recs := [], ckpts := []
    busyRec := t.busyRec.filter (fun b => gone.all (fun r => r.id ≠ b.2)) })

/-- THREAD_FAULT keeps the first record (R252). -/
def State.recordFault (s : State) (p code pc slot : Nat) (tick : Word) : State :=
  s.modThread p (fun t =>
    if t.fCode = 0 then { t with fCode := code, fPc := pc, fSlot := slot, fTick := tick } else t)

/-- The thread stops: PLAN_STOP is set on entry (Table 14.4). (DEDUCED, log 28) -/
def State.stopThread (s : State) (p : Nat) : State :=
  if (s.thread p).st = .stopped then s
  else (s.modThread p (fun t => { t with st := .stopped, waiting := false })).funcCause p 0

/-- Frames that a SEND builds: one for each tile of a length other than 0, none where the rank has no address (R196, R277). -/
def State.sendCount (s : State) (p : Nat) (op : Op) : Nat :=
  match op with
  | .send _ _ nf depot t rank _ _ _ slen _ _ eng =>
    if (s.rankAddr p rank).isNone then 0
    else if depot then nf
    else ((List.range nf).filter (fun j => tileLen ((s.engine eng).tile (t + j)) slen ≠ 0)).length
  | _ => 0

/-- The port of a SEND. -/
def Op.port : Op → Nat
  | .send port .. => port
  | _ => 0

/-- The frames of retired SENDs that have not been read yet are discarded, and counted as queued ones are (R43, R251, R278). -/
def State.dropSends (s : State) (p : Nat) : State :=
  ((s.thread p).sends.foldl (fun t j => t.count (portCtr j.op.port pkLateTx) (t.sendCount p j.op)) s).modThread p
    (fun t => { t with sends := [] })

/-- A fault of code 1-4 (R251). A thread that no longer runs keeps its first record (R521). -/
def State.threadFault (s : State) (p code pc : Nat) : State :=
  if (s.thread p).st = .running then
    let s1 := (s.squashAll p).dropSends p
    let s2 := ((s1.dropPartS p).faultAll p code).recordFault p code pc s.rooster.slot s.rooster.tickNo
    (s2.bumpPart p rkPlanFault).stopThread p
  else s.faultAll p code

/-! ### Posts (R286, R287) -/

/-- A POST's record is written, or lost. (DEDUCED, log 23; DEDUCED, log 50) -/
def State.deliverPost (s : State) (p : Nat) (j : PostJob) : State :=
  match s.ctx? j.ctx with
  | none => s.bumpPart p rkPostDrop
  | some c =>
    match (if c.part = p then s.cqAt j.ctx j.queue else none) with
    | none => s.bumpPart p rkPostDrop
    | some qid =>
      match s.queue? qid with
      | none => s.bumpPart p rkPostDrop
      | some q =>
        if s.cqFree q = 0 then (s.bumpPart p rkPostDrop).cqOverflow qid
        else s.writeRecord qid j.bytes false j.irq false

/-- The posts whose older entries have all been performed are delivered in order. (DEDUCED, log 23) -/
def State.flushPosts (s : State) (p : Nat) : State :=
  let t := s.thread p
  let held (j : PostJob) : Bool := t.wb.any (fun e => e.id < j.after)
  let ready := t.posts.filter (fun j => !held j)
  ready.foldl (fun a j => a.deliverPost p j) (s.setThread p { t with posts := t.posts.filter held })

/-! ### Loads (R269, R271, R316) -/

/-- One byte as the thread's own older stores leave it. -/
def Thread.forward (t : Thread) (id a : Nat) (b : Byte) : Byte :=
  let from_ (base : Nat) (d : List Byte) (v : Byte) : Byte := if base ≤ a && a < base + d.length then d.getD (a - base) v else v
  let v1 := t.wb.foldl (fun v e =>
    match e.op with
    | .bytes d => from_ e.addr d v
    | _ => v) b
  (t.recs.filter (fun r => r.id < id)).foldl (fun v r =>
    match r.op with
    | .store (some base) d => from_ base d v
    | _ => v) v1

/-- An older load of the thread has not bound yet: a LD that waits, or a depot TLD that has not begun (R317). -/
def Thread.loadBefore (t : Thread) (id : Nat) : Bool :=
  t.recs.any (fun r => r.id < id &&
    (match r.op with
     | .ld _ _ _ _ none => true
     | .tldDepot .. => !r.begun
     | _ => false))

/-- A load binds: its value, extended, and its fault code (R250, Table 12.2). (DEDUCED, log 21) -/
def State.bindLoad (s : State) (p id : Nat) (addr : Option Nat) (len : Nat) (sx : Bool) : (Word × Nat) × State :=
  match addr with
  | none => ((0, 4), s)
  | some a =>
    let r := s.depotRead a len
    let bytes := r.2.1.zipIdx.map (fun (b, i) => (s.thread p).forward id (a + i) b)
    let n := leNat bytes
    let v := if sx then BitVec.ofInt 64 (signed (8 * len) n) else BitVec.ofNat 64 n
    ((v, if r.1 then 0 else 3), r.2.2)

/-! ### The write buffer (R319, R320) -/

/-- A retired store enters the thread's write buffer. -/
def Thread.buffer (t : Thread) (e : WbEntry) : Thread := { t with wb := t.wb ++ [e] }

/-- The thread's awaited registers no longer await a record. -/
def Thread.landed (t : Thread) (id : Nat) : Thread := { t with busyRec := t.busyRec.filter (fun b => b.2 ≠ id) }

end Sys2Proof.Machine
end

