-- ==== Sys2Proof/Machine/Guand.lean ====
section
/-! DEFINITION. The Guand instructions at issue (chapter 10). -/

namespace Sys2Proof.Machine

/-! ### Flow and predicates (Table 10.5) -/

def execNop (p : Nat) (h : GHead) (s : State) : Res := s.issueT p (.nop p h) id

def execBr (p : Nat) (h : GHead) (cp : BitVec 3) (cn : Bool) (target : BitVec 16) (s : State) : Res :=
  s.issueT p (.br p h cp cn target) (fun t => if t.pred cp.toNat ^^ cn then { t with pc := target.toNat } else t)

def execLoop (p : Nat) (h : GHead) (rc : BitVec 5) (end_ max : BitVec 16) (s : State) : Res :=
  s.issueT p (.loop p h rc end_ max) (fun t =>
    let c := t.reg rc.toNat
    if c = 0 then { t with pc := end_.toNat + 1 }
    else if max.toNat < c.toNat then (t.setReg rc.toNat (max.setWidth 64)).orFlags sfSAT
    else t)

def execLend (p : Nat) (h : GHead) (rc : BitVec 5) (start : BitVec 16) (s : State) : Res :=
  s.issueT p (.lend p h rc start) (fun t =>
    let v := t.reg rc.toNat - 1
    let t1 := t.setReg rc.toNat v
    if v = 0 then t1 else { t1 with pc := start.toNat })

def execTickwait (p : Nat) (h : GHead) (s : State) : Res :=
  s.issueT p (.tickwait p h) (fun t => { t with waiting := true })

/-- A frame that thread `p` queued is still on an egress. -/
def State.ownQueued (s : State) (p : Nat) : Bool :=
  s.ports.any (fun e =>
    let mine (x : QEntry) : Bool := match x.own with
      | some (q, _) => q = p
      | none => false
    e.2.qS.any mine || (match e.2.busy with | some x => mine x | none => false))

/-- TICKWAIT_COMPLETE: everything issued has retired and every class S frame queued has left (R43). -/
def execTickwaitComplete (p : Nat) (s : State) : Res :=
  withPart p (.next
    (let t := s.thread p
     if t.st = .running && t.waiting && t.recs.isEmpty && t.sends.isEmpty && !s.ownQueued p then
       s.setThread p { t with ticked := true }
     else s))

def execCmp (p : Nat) (h : GHead) (pd cond : BitVec 3) (ra : BitVec 5) (imm : Bool) (rb : BitVec 5) (imm26 : BitVec 26)
    (s : State) : Res :=
  s.issueT p (.cmp p h pd cond ra imm rb imm26) (fun t =>
    t.setPred pd.toNat (condHolds cond.toNat (t.reg ra.toNat) (if imm then imm26.signExtend 64 else t.reg rb.toNat)))

def execPlog (p : Nat) (h : GHead) (pd : BitVec 3) (opl : BitVec 2) (pa pb : BitVec 3) (s : State) : Res :=
  s.issueT p (.plog p h pd opl pa pb) (fun t => t.setPred pd.toNat (plogOp opl.toNat (t.pred pa.toNat) (t.pred pb.toNat)))

/-- What RDT reads (Table 10.5). -/
def State.rdt (s : State) (p sel : Nat) : Word :=
  match sel with
  | 0 => s.rooster.tickNo
  | 1 => BitVec.ofNat 64 s.rooster.slot
  | 2 => BitVec.ofNat 64 p
  | 3 => s.epoch.current.setWidth 64
  | 4 => BitVec.ofNat 64 (s.thread p).variant
  | _ => BitVec.ofNat 64 s.rooster.slots

def execRdt (p : Nat) (h : GHead) (rd : BitVec 5) (sel : BitVec 3) (s : State) : Res :=
  s.issueT p (.rdt p h rd sel) (fun t => t.setReg rd.toNat (s.rdt p sel.toNat))

/-! ### Scalar (Table 10.6) -/

/-- A three-register instruction. -/
def State.scalarR (s : State) (p : Nat) (i : Instr) (rd ra rb : BitVec 5) (f : Word → Word → Word × BitVec 3) : Res :=
  s.scalar p i rd (fun t => f (t.reg ra.toNat) (t.reg rb.toNat))

def execAdd (p : Nat) (h : GHead) (rd ra rb : BitVec 5) (s : State) : Res := s.scalarR p (.add p h rd ra rb) rd ra rb addOp
def execSub (p : Nat) (h : GHead) (rd ra rb : BitVec 5) (s : State) : Res := s.scalarR p (.sub p h rd ra rb) rd ra rb subOp
/-- (DESIGN CHOICE, log 24) -/
def execMul (p : Nat) (h : GHead) (rd ra rb : BitVec 5) (s : State) : Res := s.scalarR p (.mul p h rd ra rb) rd ra rb mulOp

/-- The divides: RD takes the quotient, RE the remainder, which wins where both name one register (R267). -/
def State.divide (s : State) (p : Nat) (i : Instr) (rd ra rb re : BitVec 5) (f : Word → Word → Word × Word × BitVec 3) : Res :=
  s.issueT p i (fun t =>
    let r := f (t.reg ra.toNat) (t.reg rb.toNat)
    ((t.setReg rd.toNat r.1).setReg re.toNat r.2.1).orFlags r.2.2)

/-- (DESIGN CHOICE, log 24) -/
def execDivs (p : Nat) (h : GHead) (rd ra rb re : BitVec 5) (s : State) : Res :=
  s.divide p (.divs p h rd ra rb re) rd ra rb re divsOp
/-- (DESIGN CHOICE, log 24) -/
def execDivu (p : Nat) (h : GHead) (rd ra rb re : BitVec 5) (s : State) : Res :=
  s.divide p (.divu p h rd ra rb re) rd ra rb re divuOp
def execNeg (p : Nat) (h : GHead) (rd ra : BitVec 5) (s : State) : Res :=
  s.scalar p (.neg p h rd ra) rd (fun t => negOp (t.reg ra.toNat))
def execAbs (p : Nat) (h : GHead) (rd ra : BitVec 5) (s : State) : Res :=
  s.scalar p (.abs p h rd ra) rd (fun t => absOp (t.reg ra.toNat))
def execAnd (p : Nat) (h : GHead) (rd ra rb : BitVec 5) (s : State) : Res :=
  s.scalarR p (.and p h rd ra rb) rd ra rb (fun a b => (a &&& b, 0))
def execOr (p : Nat) (h : GHead) (rd ra rb : BitVec 5) (s : State) : Res :=
  s.scalarR p (.or p h rd ra rb) rd ra rb (fun a b => (a ||| b, 0))
def execXor (p : Nat) (h : GHead) (rd ra rb : BitVec 5) (s : State) : Res :=
  s.scalarR p (.xor p h rd ra rb) rd ra rb (fun a b => (a ^^^ b, 0))
def execShl (p : Nat) (h : GHead) (rd ra rb : BitVec 5) (s : State) : Res :=
  s.scalarR p (.shl p h rd ra rb) rd ra rb (fun a b => (shlOp a b, 0))
def execShr (p : Nat) (h : GHead) (rd ra rb : BitVec 5) (s : State) : Res :=
  s.scalarR p (.shr p h rd ra rb) rd ra rb (fun a b => (shrOp a b, 0))
def execSra (p : Nat) (h : GHead) (rd ra rb : BitVec 5) (s : State) : Res :=
  s.scalarR p (.sra p h rd ra rb) rd ra rb (fun a b => (sraOp a b, 0))
def execAdds (p : Nat) (h : GHead) (rd ra rb : BitVec 5) (s : State) : Res :=
  s.scalarR p (.adds p h rd ra rb) rd ra rb addsOp
def execSubs (p : Nat) (h : GHead) (rd ra rb : BitVec 5) (s : State) : Res :=
  s.scalarR p (.subs p h rd ra rb) rd ra rb subsOp
def execMuls (p : Nat) (h : GHead) (rd ra rb : BitVec 5) (s : State) : Res :=
  s.scalarR p (.muls p h rd ra rb) rd ra rb mulsOp
def execAdduS (p : Nat) (h : GHead) (rd ra rb : BitVec 5) (s : State) : Res :=
  s.scalarR p (.adduS p h rd ra rb) rd ra rb addusOp
def execSubuS (p : Nat) (h : GHead) (rd ra rb : BitVec 5) (s : State) : Res :=
  s.scalarR p (.subuS p h rd ra rb) rd ra rb subusOp
def execAddi (p : Nat) (h : GHead) (rd ra : BitVec 5) (imm : BitVec 28) (s : State) : Res :=
  s.scalar p (.addi p h rd ra imm) rd (fun t => addOp (t.reg ra.toNat) (imm.signExtend 64))
def execMovi (p : Nat) (h : GHead) (rd : BitVec 5) (imm : BitVec 28) (s : State) : Res :=
  s.scalar p (.movi p h rd imm) rd (fun _ => (imm.signExtend 64, 0))
def execOri (p : Nat) (h : GHead) (rd ra : BitVec 5) (imm : BitVec 28) (s : State) : Res :=
  s.scalar p (.ori p h rd ra imm) rd (fun t => (t.reg ra.toNat ||| imm.zeroExtend 64, 0))

/-! ### Memory (Table 10.8) -/

/-- LD: the load binds at issue, or later: after the hinge drain that is under way, and after the thread's older loads
(R317, R322). (DEDUCED, log 21; DEDUCED, log 22) -/
def execLd (p : Nat) (h : GHead) (rd ra : BitVec 5) (sz : BitVec 2) (sx : Bool) (off : BitVec 25) (s : State) : Res :=
  let n := 2 ^ sz.toNat
  let addr (t : Thread) : Option Nat := s.ptrAddr p (t.reg ra.toNat) off.toInt n
  s.issue p (.ld p h rd ra sz sx off)
    (fun t => !t.fenced && (match addr t with | some a => !t.atomicOver a n | none => true))
    (fun s t =>
      let a := addr t
      if s.depot.draining || t.loadBefore t.nextId then s.setThread p (t.push 1 (.ld rd.toNat a n sx none) [rd.toNat])
      else
        let r := s.bindLoad p t.nextId a n sx
        r.2.setThread p (t.push 1 (.ld rd.toNat a n sx (some r.1)) [rd.toNat]))

/-- LD_DATA_RETURN: RD is written, unless the load faults (R250, R263). (DEDUCED, log 21) -/
def execLdDataReturn (p id : Nat) (s : State) : Res :=
  withPart p (.next
    (let t := s.thread p
     match t.recs.find? (fun r => r.id = id && !r.done) with
     | none => s
     | some r =>
       match r.op with
       | .ld rd addr n sx bound =>
         if bound.isNone && (s.depot.draining || t.loadBefore id) then s
         else
           let b := match bound with
             | some v => (v, s)
             | none => s.bindLoad p id addr n sx
           let t1 := b.2.thread p
           let t2 := { t1 with recs := t1.recs.map (fun x =>
             if x.id = id then { x with done := true, op := .ld rd addr n sx (some b.1) } else x) }
           b.2.setThread p (if b.1.2 = 0 then (t2.setReg rd b.1.1).landed id else t2)
       | _ => s))

def execSt (p : Nat) (h : GHead) (rs ra : BitVec 5) (sz : BitVec 2) (off : BitVec 25) (s : State) : Res :=
  let n := 2 ^ sz.toNat
  s.issue p (.st p h rs ra sz off) (fun t => !t.fenced)
    (fun s t => s.setThread p
      (t.push 1 (.store (s.ptrAddr p (t.reg ra.toNat) off.toInt n) (leBytes n (t.reg rs.toNat).toNat)) []))

/-- An atomic: its address is rounded down to its size, and the segment check acts on that (R270). -/
def State.atomicIssue (s : State) (p : Nat) (i : Instr) (ra : BitVec 5) (off : Int) (n : Nat) (rd : Nat)
    (awaited : List Nat) (op : Thread → StoreOp) : Res :=
  s.issue p i (fun t => !t.fenced)
    (fun s t =>
      let a : Option Nat × Bool := match ptrPlus (t.reg ra.toNat) off with
        | none => (none, false)
        | some (c, g, o) => (s.segAddr p c g (o - o % n) n, o % n ≠ 0)
      s.setThread p (t.push 1 (.atomic a.1 n a.2 (op t) rd) awaited))

def execAadd (p : Nat) (h : GHead) (rd ra rb : BitVec 5) (off : BitVec 23) (s : State) : Res :=
  s.atomicIssue p (.aadd p h rd ra rb off) ra off.toInt 8 rd.toNat [rd.toNat] (fun t => .aadd (t.reg rb.toNat))
def execAswp (p : Nat) (h : GHead) (rd ra rb : BitVec 5) (off : BitVec 23) (s : State) : Res :=
  s.atomicIssue p (.aswp p h rd ra rb off) ra off.toInt 8 rd.toNat [rd.toNat] (fun t => .aswp (t.reg rb.toNat))
def execAcas (p : Nat) (h : GHead) (rd ra rb re : BitVec 5) (off : BitVec 18) (s : State) : Res :=
  s.atomicIssue p (.acas p h rd ra rb re off) ra off.toInt 8 rd.toNat [rd.toNat]
    (fun t => .acas (t.reg rb.toNat) (t.reg re.toNat))
def execAcas2 (p : Nat) (h : GHead) (rd ra rb re : BitVec 5) (off : BitVec 18) (s : State) : Res :=
  s.atomicIssue p (.acas2 p h rd ra rb re off) ra off.toInt 16 rd.toNat [rd.toNat, rd.toNat + 1]
    (fun t => .acas2 (t.reg rb.toNat) (t.reg (rb.toNat + 1)) (t.reg re.toNat) (t.reg (re.toNat + 1)))

def execFenceDepot (p : Nat) (h : GHead) (s : State) : Res :=
  s.issueT p (.fenceDepot p h) (fun t => t.push 1 (.fence false []) [])

/-- A depot address lies in a partition's carve-out. -/
def State.inCarve (s : State) (p a : Nat) : Bool :=
  let c := (s.part p).carve
  granuleAddr c.1 ≤ a && a < granuleAddr (c.1 + c.2)

/-- The entries that Mule cores acting for a partition's contexts have retired (R323): core and entry. -/
def State.muleEntries (s : State) (p : Nat) : List (Nat × Nat) :=
  s.mule.wbs.flatMap (fun w => (w.2.filter (fun e => s.inCarve p e.addr)).map (fun e => (w.1, e.id)))

def execFenceTick (p : Nat) (h : GHead) (s : State) : Res :=
  s.issueT p (.fenceTick p h) (fun t => t.push 1 (.fence true (s.muleEntries p)) [])

/-! ### Link (Tables 10.9-10.11) -/

/-- RECV binds its handle for the rest of the tick (R272). -/
def execRecv (p : Nat) (h : GHead) (hd : BitVec 4) (grant : BitVec 12) (cr : BitVec 5) (dl : BitVec 14) (s : State) : Res :=
  s.issueT p (.recv p h hd grant cr dl) (fun t =>
    match (s.variantOf p).bind (fun v => v.grants[grant.toNat]?) with
    | none => t
    | some g =>
      { t with handles := t.handles.set hd.toNat { grant := g, chunk := (t.reg cr.toNat).setWidth 32, dl := dl.toNat } })

/-- SEND reads its registers (R276, R278). -/
def execSend (p : Nat) (h : GHead) (port : BitVec 6) (slot : BitVec 14) (nf : BitVec 8) (srck : Bool) (t : BitVec 6)
    (rr cr fr dr : BitVec 5) (slen : BitVec 13) (ff lf : Bool) (eng : BitVec 5) (s : State) : Res :=
  s.issueT p (.send p h port slot nf srck t rr cr fr dr slen ff lf eng) (fun th =>
    let addr := if srck && nf ≠ 0 then s.ptrAddr p (th.reg dr.toNat) 0 (4096 * (nf.toNat - 1) + slen.toNat) else some 0
    th.push 2 (.send port.toNat slot.toNat nf.toNat srck t.toNat (th.reg rr.toNat).toNat ((th.reg cr.toNat).setWidth 32)
      (th.reg fr.toNat).toNat addr slen.toNat ff lf eng.toNat) [])

/-- The latest deadline of the handles an EXPECT names (R275). -/
def Thread.latestDl (t : Thread) (hmask : Nat) : Nat :=
  (t.handles.filter (fun e => hmask.testBit e.1)).foldl (fun a e => max a e.2.dl) 0

/-- EXPECT saves a checkpoint and runs ahead (R245). -/
def execExpect (p : Nat) (h : GHead) (pr : BitVec 3) (hmask : BitVec 16) (hf : Bool) (heng : BitVec 5) (hw : BitVec 3)
    (hole : BitVec 16) (nfr : BitVec 14) (s : State) : Res :=
  s.issue p (.expect p h pr hmask hf heng hw hole nfr) (fun t => t.ckpts.length < 4)
    (fun s t =>
      let c : Ckpt := { id := t.nextId, regs := t.regs, preds := t.preds, flags := t.sflags }
      let t1 : Thread := { t with ckpts := t.ckpts ++ [c] }
      s.setThread p (t1.push 2 (.expect pr.toNat hmask.toNat nfr.toNat hf heng.toNat hw.toNat
        hole.toNat (t.latestDl hmask.toNat) none) []))

/-! ### Combine (Table 10.13) -/

def execLclr (p : Nat) (h : GHead) (eng : BitVec 5) (w : BitVec 3) (base : BitVec 7) (rows : BitVec 8) (form : BitVec 2)
    (oper : BitVec 4) (sgn : Bool) (s : State) : Res :=
  s.issueT p (.lclr p h eng w base rows form oper sgn) (fun t =>
    t.push 1 (.lclr eng.toNat w.toNat base.toNat rows.toNat ((formOf form.toNat).getD .t32)
      ((operOf oper.toNat).getD .sum) sgn) [])

/-- TLD: a frame load claims its handle and FRAME (R281); a depot load checks its range. -/
def execTld (p : Nat) (h : GHead) (eng : BitVec 5) (t : BitVec 6) (fmt : BitVec 5) (src : Bool) (ra : BitVec 5)
    (rows : BitVec 8) (tr tc : BitVec 4) (s : State) : Res :=
  s.issue p (.tld p h eng t fmt src ra rows tr tc) (fun th => !(src && th.fenced))
    (fun s th =>
      let v := th.reg ra.toNat
      if src then
        let n := rows.toNat + 1
        s.setThread p (th.push 1 (.tldDepot eng.toNat t.toNat fmt.toNat tr.toNat tc.toNat n
          (s.ptrAddr p v 0 (depotBytes fmt.toNat n))) [])
      else
        let hd := bitsOf v.toNat 19 16
        let fr := bitsOf v.toNat 13 0
        match th.handles.get? hd with
        | none => s.setThread p (th.push 1 (.tldFrame eng.toNat t.toNat fmt.toNat tr.toNat tc.toNat hd fr false) [])
        | some x =>
          let own := !x.claims.contains fr
          let th1 := if own then { th with handles := th.handles.set hd { x with claims := fr :: x.claims } } else th
          s.setThread p (th1.push 1 (.tldFrame eng.toNat t.toNat fmt.toNat tr.toNat tc.toNat hd fr own) []))

def execTacc (p : Nat) (h : GHead) (eng : BitVec 5) (t : BitVec 6) (w : BitVec 3) (k : BitVec 4) (lane : BitVec 10)
    (s : State) : Res :=
  s.issueT p (.tacc p h eng t w k lane) (fun th =>
    th.push 1 (.tacc eng.toNat t.toNat w.toNat k.toNat (32 * lane.toNat)) [])

/-- EMIT computes K, C and E0 (R284). -/
def execEmit (p : Nat) (h : GHead) (eng : BitVec 5) (w : BitVec 3) (t : BitVec 6) (fmt : BitVec 5) (rm : BitVec 3)
    (clamp : Bool) (kr cr er : BitVec 5) (n : BitVec 16) (lane : BitVec 10) (e0i : BitVec 22) (s : State) : Res :=
  s.issueT p (.emit p h eng w t fmt rm clamp kr cr er n lane e0i) (fun th =>
    th.push 2 (.emit eng.toNat w.toNat t.toNat fmt.toNat rm.toNat clamp (th.reg kr.toNat) ((th.reg cr.toNat).setWidth 32)
      (32 * ((th.reg er.toNat).setWidth 32 + e0i.setWidth 32)) n.toNat (32 * lane.toNat)) [])

def execTst (p : Nat) (h : GHead) (eng : BitVec 5) (t : BitVec 6) (ra : BitVec 5) (rows : BitVec 8) (tw : BitVec 2)
    (tr tc : BitVec 4) (s : State) : Res :=
  s.issue p (.tst p h eng t ra rows tw tr tc) (fun th => !th.fenced)
    (fun s th =>
      let n := rows.toNat + 1
      s.setThread p (th.push 1 (.tst eng.toNat t.toNat n tw.toNat tr.toNat tc.toNat
        (s.ptrAddr p (th.reg ra.toNat) 0 (n * 128))) []))

/-! ### Queue (Table 10.14) -/

def execPost (p : Nat) (h : GHead) (rq ra : BitVec 5) (fl : Bool) (eng : BitVec 5) (w : BitVec 3) (irq : Bool)
    (s : State) : Res :=
  s.issueT p (.post p h rq ra fl eng w irq) (fun t =>
    let v := (t.reg rq.toNat).toNat
    t.push 1 (.post (bitsOf v 9 0) (bitsOf v 13 10) (t.reg ra.toNat) (t.reg (ra.toNat + 1)) (t.reg (ra.toNat + 2)) fl
      eng.toNat w.toNat irq) [])

end Sys2Proof.Machine
end

