-- ==== Sys2Proof/Machine/Host.lean ====
section
/-! DEFINITION. Port HP (chapter 14): moderated and masked interrupts, cause registers, function resets and PERST_N,
configuration requests; and the destruction of contexts (R340). -/

namespace Sys2Proof.Machine

/-! ### Vectors and causes (R365, R367, R368) -/

/-- CQ_TIMED_FIRE: the fire conditions are tested when FIRST + DELAY_US is reached. -/
def execCqTimedFire (qid : Nat) (s : State) : Res := withQueue qid (.next (if s.alive then s.cqTest qid else s))

/-- Entries of a function's MSI-X table (Table 14.3). -/
def vectorCount (fn : Nat) : Nat := if fn = 0 then 1 else 33

/-- Pending vectors that nothing masks any longer send their messages (R367). -/
def State.drainPba (s : State) (fn : Nat) : State :=
  let f := s.func fn
  if s.funcExists fn && f.msixEnable && !f.fmask then
    let go := (List.range 33).filter (fun e => f.pba.contains e && f.unmasked.contains e)
    go.foldl (fun t e => t.emit (.msix fn e)) (s.setFunc fn { f with pba := f.pba.filter (fun e => !go.contains e) })
  else s

/-- The mask bit of a table entry is written. -/
def State.setMask (s : State) (fn entry : Nat) (mask : Bool) : State :=
  let f := s.func fn
  let rest := f.unmasked.filter (· ≠ entry)
  (s.setFunc fn { f with unmasked := if mask then rest else rest ++ [entry] }).drainPba fn

/-- MSIX_UNMASK. -/
def execMsixUnmask (fn entry : Nat) (s : State) : Res :=
  withFunc fn (withUnit (entry < vectorCount fn) (.next
    (if s.alive && s.power.ready && s.funcExists fn then s.setMask fn entry false else s)))

/-- A W1C write to FUNC_CAUSE of a partition; a bit set in this cycle stays (R8), and a bit that stays set fires the vector
again. -/
def State.clearFuncCause (s : State) (p : Nat) (v : BitVec 32) : State :=
  let q := s.part p
  let left := q.cause &&& ~~~(v.setWidth 4 &&& ~~~BitVec.ofNat 4 (setNow q.causeAt s.time))
  let s1 := s.setPart p { q with cause := left }
  if left = 0 then s1 else s1.fire (p + 1) 32

/-- FUNC_CAUSE_CLEAR. -/
def execFuncCauseClear (path : Path) (p : Nat) (v : BitVec 32) (s : State) : Res :=
  withPart p (.next (if s.reachesPart path p then s.clearFuncCause p v else s))

/-- A W1C write to MGMT_CAUSE, whose bits set in this cycle stay (R8). -/
def State.clearMgmtCause (s : State) (v : BitVec 32) : State :=
  let left := s.power.mgmtCause &&& ~~~(v.setWidth 4 &&& ~~~BitVec.ofNat 4 (setNow s.power.mgmtAt s.time))
  let s1 : State := { s with power := { s.power with mgmtCause := left } }
  if left = 0 then s1 else s1.fire 0 0

/-- MGMT_CAUSE_CLEAR. -/
def execMgmtCauseClear (path : Path) (v : BitVec 32) (s : State) : Res :=
  .next (if path = .pf && s.pathOpen path then s.clearMgmtCause v else s)

/-! ### Context destruction (R340) -/

/-- One posted entry of an SQ completes with FLUSHED, unread: its TAG and OPC are open. (DESIGN CHOICE, log 93) -/
def State.flushEntry (s : State) (qid : Nat) : State :=
  match s.queue? qid with
  | none => s
  | some q =>
    if q.pi = q.ci || !s.cqRoom q then s
    else
      match s.cqOf q with
      | none => s
      | some n =>
        let (v, s1) := s.fresh
        let rcd := leBytes 1 16 ++ leBytes 1 7 ++ leBytes 1 q.slot ++ leBytes 1 (v.toNat / 2 ^ 32) ++ leBytes 4 v.toNat ++
          leBytes 4 0 ++ leBytes 4 0 ++ leBytes 8 0 ++ leBytes 4 0 ++ leBytes 4 (s.rooster.tickNo.toNat % 2 ^ 32)
        (s1.setQueue qid { q with ci := q.ci + 1 }).writeRecord n rcd false true false

/-- Every posted entry of an SQ is flushed, as far as its CQ has room. -/
def State.flushSq (s : State) (qid : Nat) : State :=
  match s.queue? qid with
  | none => s
  | some q => (List.range (q.pi - q.ci).toNat).foldl (fun t _ => t.flushEntry qid) s

/-- Enabled queue slots of a context with a kind. -/
def State.slotsOfKind (s : State) (c kind : Nat) : List Nat :=
  (List.range 16).filter (fun k => (s.qslot c k).enabled && (s.qslot c k).kind = kind)

/-- The class C streams of a context close, and its pending C_SEND entries complete with C_RESET. -/
def State.closeStreams (s : State) (c : Nat) : State :=
  let mine (k : StreamKey) : Bool := k.localPort = 0x40 && k.ctx = c
  let s1 := (s.txs.filter (fun e => mine e.1)).foldl (fun t e =>
    e.2.unacked.foldl (fun a u =>
      match u.entry with
      | some x => a.setEntry x (fun y => { y with status := some (y.status.getD 6) })
      | none => a) t) s
  { s1 with txs := s1.txs.filter (fun e => !mine e.1), rxs := s1.rxs.filter (fun e => !mine e.1) }

/-- Step 1 of a destruction is not done: an SQ of the context has an entry to flush, or one that started and is no C_SEND. -/
def State.ctxBusy (s : State) (c : Nat) : Bool :=
  (s.slotsOfKind c 1).any (fun k =>
    match s.queue? (s.qslot c k).qid with
    | some q => q.pi ≠ q.ci || q.started.any (fun x => x.opc ≠ 2)
    | none => false)

/-- Steps 2 to 4 of R340: streams close, messages are dropped, and queues are disabled; the context is gone once no SQ is
left. -/
def State.tearDown (s : State) (c : Nat) : State :=
  let s1 := s.closeStreams c
  let s2 := (s1.msgs.filter (fun m => m.key.ctx = c && m.qid ≠ muleQid)).foldl (fun t m => t.voidMsg m) s1
  let s3 := [1, 2, 3].foldl (fun t kind => (t.slotsOfKind c kind).foldl (fun u k => u.disableQueue c k) t) s2
  if (s3.slotsOfKind c 1).isEmpty then { s3 with ctxs := s3.ctxs.erase c } else s3

/-- One try at a destruction, in the order of R340: it goes on at the next hinge where entries are left. -/
def State.destroyCtx (s : State) (c : Nat) : State :=
  match s.ctx? c with
  | none => s
  | some x =>
    if !x.destroying then s
    else
      let s1 := (s.slotsOfKind c 1).foldl (fun t k => t.flushSq (t.qslot c k).qid) s
      if s1.ctxBusy c then s1 else s1.tearDown c

/-! ### Function Level Reset and PERST_N (R370, R371, R441) -/

/-- The registers of a function's MSI-X table and PBA return to their reset values. -/
def State.resetFunc (s : State) (n : Nat) (flr : Bool) : State := s.setFunc n { flr := flr }

/-- The partition's part of a Function Level Reset of its VF. -/
def State.flrPart (s : State) (p : Nat) : State :=
  let t := s.thread p
  let s1 := if t.st = .running || t.st = .stopped then
      (s.squashAll p).modThread p (fun t => { t with cmd := some .flr, waiting := false })
    else s
  let cs := s1.ctxsOf p
  let s2 := cs.foldl (fun a c =>
    let b := (a.slotsOfKind c 1).foldl (fun u k => (u.flushSq (u.qslot c k).qid).disableQueue c k) a
    let b2 := (b.slotsOfKind c 2).foldl (fun u k => u.disableQueue c k) b
    (b2.slotsOfKind c 3).foldl (fun u k => u.disableQueue c k) b2) s1
  let s3 := cs.foldl (fun a c =>
    match a.ctx? c with
    | none => a
    | some x =>
      if a.isHome p c then a.setCtx c { x with fault := 0 } else a.setCtx c { x with destroying := true }) s2
  (s3.setPart p { s3.part p with cause := 0 }).resetFunc (p + 1) true

/-- VF_FLR. -/
def execVfFlr (vf : Nat) (s : State) : Res :=
  withFunc vf (withUnit (vf ≠ 0) (.next (if s.alive && s.power.ready && s.funcExists vf then s.flrPart (vf - 1) else s)))

/-- The PF's own part of a reset. -/
def State.flrPf (s : State) : State :=
  State.resetFunc { s with power := { s.power with mgmtCause := 0 } } 0 true

/-- PF_FLR. -/
def execPfFlr (s : State) : Res := .next (if s.alive && s.power.ready then s.flrPf else s)

/-- Every VF that exists is reset. -/
def State.flrVfs (s : State) : State := (List.range s.power.numVfs).foldl (fun t p => t.flrPart p) s

/-- PERST_N_ASSERT: port HP's link goes, and every function is reset. (DEDUCED, log 94) -/
def execPerstNAssert (s : State) : Res :=
  .next
    (if s.power.coldReset then { s with power := { s.power with perstLow := true } }
     else
       let t := s.flrVfs.flrPf
       { t with power := { t.power with perstLow := true, hp := .down, hpRetry := true, numVfs := 0 } })

/-- 30 ms after cold-reset end (R499). -/
def hpTrainNs : Nat := 30000000

/-- Port HP starts link training where PERST_N is high and the time has come. -/
def State.hpTrain (s : State) : State :=
  if !s.power.coldReset && !s.power.perstLow && s.power.hp = .down && hpTrainNs ≤ s.time && !s.power.tripped then
    { s with power := { s.power with hp := .training } }
  else s

/-- PERST_N_DEASSERT. -/
def execPerstNDeassert (s : State) : Res := .next (State.hpTrain { s with power := { s.power with perstLow := false } })

/-- PORT_HP_LINK_TRAINING. -/
def execPortHpLinkTraining (s : State) : Res := .next s.hpTrain

/-- PORT_HP_TRAINED: Retry Status for the link's sake ends. -/
def execPortHpTrained (s : State) : Res :=
  .next (if s.power.hp = .training then { s with power := { s.power with hp := .up, hpRetry := false } } else s)

/-- FLR_COMPLETE: nothing of the reset is left to do; completion queues that stood in the way of nothing are gone too. -/
def execFlrComplete (fn : Nat) (s : State) : Res :=
  withFunc fn (.next
    (let f := s.func fn
     if !f.flr then s
     else if fn = 0 then s.setFunc 0 { f with flr := false }
     else
       let p := fn - 1
       let cs := s.ctxsOf p
       if cs.any (fun c => (match s.ctx? c with | some x => x.destroying | none => false) ||
           !(s.slotsOfKind c 1).isEmpty) || (s.thread p).cmd = some .flr then s
       else
         let s1 := cs.foldl (fun a c => (a.slotsOfKind c 3).foldl (fun u k => u.disableQueue c k) a) s
         s1.setFunc fn { s1.func fn with flr := false }))

/-! ### Configuration requests (R1, R359, R360, R367, R369) -/

/-- The device identifier (R1). -/
def deviceId : Nat := if Config.isOptical then 0x0D49 else 0x0D48

/-- What a configuration read returns: the identifiers of R1, the rest open. -/
def configValue (fn offset : Nat) : BitVec 32 :=
  if offset = 0 then BitVec.ofNat 32 (Config.vendorId.toNat + deviceId * 2 ^ 16)
  else if offset = 8 then BitVec.ofNat 32 ((Config.configSpace fn 8).toNat % 256 + 0x028000 * 256)
  else Config.configSpace fn offset

/-- CONFIG_REQUEST. -/
def execConfigRequest (fn : Nat) (r : ConfigReq) (s : State) : Res :=
  withFunc fn (.next
    (if s.power.coldReset || !s.power.ready || s.power.hpRetry || (s.func fn).flr then s.emit (.configRetry fn)
     else if !s.funcExists fn then s
     else
       let f := s.func fn
       match r with
       | .read o => s.emit (.configReply fn o (configValue fn o))
       | .setVfs n =>
         if fn ≠ 0 || 128 < n then s
         else if n = 0 then let t := s.flrVfs; { t with power := { t.power with numVfs := 0 } }
         else { s with power := { s.power with numVfs := if s.fw.recovery then 0 else n } }
       | .setMsix en mask => (s.setFunc fn { f with msixEnable := en, fmask := mask }).drainPba fn
       | .setRelaxed b => s.setFunc fn { f with relaxed := b }
       | .write .. => s))

end Sys2Proof.Machine
end

