-- ==== Sys2Proof/Machine/Retire.lean ====
section
/-! DEFINITION. Ox operations at begin and retire, arrival tests, retired sends, and the write buffers (chapters 8-10, 12). -/

namespace Sys2Proof.Machine

/-! ### Ox operations begin (R233, R235) -/

/-- The tiles of a list, numbered from `t` on. -/
def numbered (t : Nat) (l : List Tile) : Tbl Tile := l.zipIdx.map (fun (x, j) => (t + j, x))

/-- The lower of two fault codes, 0 meaning none (R238). -/
def lowerFault (a b : Nat) : Nat := if a = 0 then b else if b = 0 then a else min a b

/-- The shadow tiles of a load whose frame is absent (R224). -/
def voidTiles (t fmt : Nat) : Renamed := { tiles := numbered t (List.replicate (loadTiles fmt) voidTile) }

/-- The port a stored frame came in on (ORIGIN of Table 8.1). -/
def Stored.origin (f : Stored) : Nat := match f.charge with | .sIn p => p | .acct i _ => i | .own p => p

/-- The end of a slot of the present tick has come (R245, R281); a test or load that names no handle has slot 0. -/
def State.slotEnded (s : State) (k : Nat) : Bool :=
  k = 0 || k < s.rooster.slot || (k = s.rooster.slot && s.rooster.slot + 1 = s.rooster.slots)

/-- A frame load on an engine: the frame crosses the bridge where its die is not the engine's, and is discarded where it is lost
there (R145-R147); it is there, is known to be absent, or is still awaited (R224, R281). -/
def State.beginFrameLoad (s : State) (p e t fmt tr tc hd fr : Nat) (own : Bool) : Option Renamed × State :=
  match (s.thread p).handles.get? hd with
  | none => (some (voidTiles t fmt), s)
  | some v =>
    if !own then (some (voidTiles t fmt), s)
    else
      match (v.frames.get? fr).bind s.descs.get? with
      | some f =>
        let d := homeDie f.origin
        let across : Bool := d ≠ engineDie e
        if across && f.bad then (some { voidTiles t fmt with holes := [(hd, fr)] }, s.bumpDie (engineDie e) ikBridgeErr)
        else
          let s1 := if across then s.crossBridge d f.hdr.len.toNat else s
          let r := frameTiles fmt tr tc f.origin f.hdr.len.toNat f.payload
          let via := some (s.rooster.tickNo, hd, fr)
          (some { tiles := numbered t (r.1.map (fun x => { x with via := if x.kind = .tally then via else none }))
                  tallyBad := r.2, holes := if r.2.isEmpty then [] else [(hd, fr)] }, s1)
      | none =>
        (if s.slotEnded v.dl then some (voidTiles t fmt) else none, s)

/-- What an Ox operation puts into rename storage, or none while an input is not there. (DEDUCED, log 78) -/
def State.beginOp (s : State) (p id : Nat) (op : Op) : Option Renamed × State :=
  match op with
  | .lclr _ w base rows form oper sgn =>
    (some { window := some (w, { opened := true, base := base, rows := rows, form := form, oper := oper, sgn := sgn })
            clear := true }, s)
  | .tldFrame e t fmt tr tc hd fr own => s.beginFrameLoad p e t fmt tr tc hd fr own
  | .tldDepot _ t fmt tr tc rows addr =>
    match addr with
    | none => (some { fault := 3 }, s)
    | some a =>
      let n := depotBytes fmt rows
      if s.depot.draining || (s.thread p).storeOver id a n || (s.thread p).loadBefore id then (none, s)
      else
        let r := s.depotRead a n
        if r.1 then
          let x := depotTiles fmt tr tc rows r.2.1
          (some { tiles := numbered t x.1, tallyBad := x.2 }, r.2.2)
        else (some { fault := 3 }, r.2.2)
  | .tacc e t w k lane =>
    let v := s.windowView p e id w
    let ts := (List.range k).map (fun j => s.tileView p e id (t + j))
    let a := accumulate v lane ts
    let places := a.rows.map (fun r => OxPlace.row (v.base + r)) ++ (List.range k).map (fun j => s.tilePlace p e id (t + j))
    let ecc := if s.oxBad e places then 2 else 0
    let s1 := s.oxCorrect e places
    if !v.opened then (some { fault := 1 }, s)
    else
      let f := lowerFault (if a.tag then 1 else 0) ecc
      if f ≠ 0 then (some { fault := f }, s1)
      else
        (some { window := some (w, a.win), orFlags := some (w, BitVec.ofNat 32 a.flags), tallyBad := a.bad, rows := a.rows
                holes := (a.lost.filter (fun x => x.1 = s.rooster.tickNo)).map Prod.snd }, s1)
  | .emit e w t fmt rm clamp key chunk e0 n lane =>
    let v := s.windowView p e id w
    let places := (rowsOf v.form lane n).map (fun r => OxPlace.row (v.base + r))
    let s1 := s.oxCorrect e places
    if !v.opened then (some { fault := 1 }, s)
    else if s.oxBad e places then (some { fault := 2 }, s1)
    else
      let r := emitTiles v fmt (rmodeOf rm) clamp key chunk e0 lane n
      (some { tiles := numbered t r.1, orFlags := some (w, BitVec.ofNat 32 r.2) }, s1)
  | .tst e t rows tw tr tc addr =>
    let k := ceilDiv rows 32
    let ts := (List.range k).map (fun j => s.tileView p e id (t + j))
    let places := (List.range k).map (fun j => s.tilePlace p e id (t + j))
    let s1 := s.oxCorrect e places
    let f := lowerFault (if s.oxBad e places then 2 else 0) (if addr.isNone then 3 else 0)
    if f ≠ 0 then (some { fault := f }, s1)
    else if (match addr with | some a => (s.thread p).storeOver id a (rows * 128) | none => false) then (none, s)
    else
      (some { store := tstBytes ts rows tw tr tc, voidRead := (ts.filter (fun x => x.kind = .void)).length }, s1)
  | _ => (none, s)

/-- Banks that an operation's streams read (R216, R219), and slots for which they may go on (R234). -/
def opBanks : Op → List (Nat × Nat)
  | .tacc _ t _ k _ => (List.range k).map (fun j => ((t + j) % 32, 6))
  | .tst _ t rows _ _ _ _ => (List.range (ceilDiv rows 32)).map (fun j => ((t + j) % 32, 6))
  | _ => []

/-- Streams are on their way. -/
def State.addStreams (s : State) (e : Nat) (l : List (Nat × Nat)) : State :=
  if l.isEmpty then s else s.setEngine e { s.engine e with streams := (s.engine e).streams ++ l }

/-- OX_OP_BEGIN: operations of an engine begin in issue order, with their rename storage. (DEDUCED, log 25) -/
def execOxOpBegin (p id : Nat) (s : State) : Res :=
  withPart p (.next
    (let t := s.thread p
     match t.recs.find? (fun r => r.id = id && !r.begun) with
     | none => s
     | some r =>
       match opEngine r.op with
       | none => s
       | some e =>
         if t.recs.any (fun x => x.id < id && !x.begun && opEngine x.op = some e) then s
         else
           match s.beginOp p id r.op with
           | (none, s1) => s1
           | (some res, s1) =>
             let mark (t : State) (f : Rec → Rec) : State :=
               t.modThread p (fun t => { t with recs := t.recs.map (fun x => if x.id = id then f x else x) })
             if 8 < s.shadowsUsed p e + res.tiles.length || 64 < s.sparesUsed p e + res.rows.length then
               (mark s (fun x => { x with held := true })).bumpEng e ekRenameWait
             else
               (mark s1 (fun x => { x with begun := true, done := true, held := false, res := res })).addStreams e (opBanks r.op)))

/-! ### Arrival tests (R245, R275) -/

/-- The tally block of a frame was refused by a load or TACC, so that its contribution is missing (R70, R223, R230). -/
def Thread.refused (t : Thread) (k f : Nat) : Bool :=
  (match t.handles.get? k with
   | some v => v.bad.contains f
   | none => false) || t.recs.any (fun r => r.res.holes.contains (k, f))

/-- Every named handle holds FRAMEs 0 to nfr - 1. -/
def Thread.arrived (t : Thread) (hmask nfr : Nat) : Bool :=
  hmask = 0 || nfr = 0 ||
  (maskList 16 hmask).all (fun k =>
    match t.handles.get? k with
    | some v => (List.range nfr).all (fun f => (v.frames.get? f).isSome && !t.refused k f)
    | none => false)

/-- ARRIVAL_TEST: the oldest EXPECT whose deadline slot has ended is tested, and writes its predicate. -/
def execArrivalTest (p : Nat) (s : State) : Res :=
  withPart p (.next
    (let t := s.thread p
     match t.recs.find? (fun r => match r.op with
       | .expect _ _ _ _ _ _ _ dl none => s.slotEnded dl
       | _ => false) with
     | none => s
     | some r =>
       match r.op with
       | .expect pr hmask nfr hf heng hw hole dl _ =>
         let ok := t.arrived hmask nfr
         let t1 : Thread := { t with recs := t.recs.map (fun (x : Rec) =>
           if x.id = r.id then { x with done := true, op := .expect pr hmask nfr hf heng hw hole dl (some ok) } else x) }
         s.setThread p (t1.setPred pr ok)
       | _ => s))

/-! ### Retire (R236, R246-R248) -/

/-- The oldest record leaves the list. -/
def State.popRec (s : State) (p : Nat) : State := s.modThread p (fun t => { t with recs := t.recs.tail })

/-- The oldest record reports a fault: its writes are discarded, nothing waits for it any more, and the thread stops (R239,
R251, R263). -/
def State.faultRec (s : State) (p : Nat) (r : Rec) (code : Nat) : State :=
  (((s.popRec p).releaseClaim p r).modThread p (fun t => t.landed r.id)).threadFault p code r.pc

/-- TALLY_BAD on the port of origin, or on the engine (R223, R230). -/
def State.countTallyBad (s : State) (e : Nat) (l : List Nat) : State :=
  l.foldl (fun a o => if o < 49 then a.bumpPort o pkTallyBad else a.bumpEng e ekTallyBad) s

/-- FRAMEs whose tally block was refused no longer count as arrived. (DEDUCED, log 151) -/
def Thread.markBad (t : Thread) (l : List (Nat × Nat)) : Thread :=
  l.foldl (fun t x => match t.handles.get? x.1 with
    | some v => { t with handles := t.handles.set x.1 { v with bad := x.2 :: v.bad } }
    | none => t) t

/-- An Ox operation retires. -/
def State.retireOx (s : State) (p e : Nat) (r : Rec) : State :=
  let s1 := ((s.popRec p).setEngine e ((s.engine e).commit r.res)).releaseClaim p r
  let s2 := ((s1.countTallyBad e r.res.tallyBad).count (engCtr e ekVoidRead) r.res.voidRead).modThread p
    (fun t => t.markBad r.res.holes)
  match r.op with
  | .tst _ _ _ _ _ _ (some a) =>
    s2.modThread p (fun t => t.buffer { id := r.id, pc := r.pc, addr := a, op := .stream r.res.store })
  | _ => s2

/-- A failed test squashes, restores its checkpoint and resumes at HOLE (R247). -/
def State.holePath (s : State) (p : Nat) (pr hole : Nat) (c : Option Ckpt) : State :=
  let s1 := (s.popRec p).squashAll p
  (s1.modThread p (fun t =>
    let t1 := match c with
      | some k => { t with regs := k.regs, preds := k.preds, sflags := k.flags }
      | none => t
    { t1.setPred pr false with pc := hole, waiting := false })).bumpPart p rkSquash

/-- The bit of chunk flags that HOLE is. -/
def holeFlag : BitVec 32 := BitVec.ofNat 32 fHOLE

/-- An EXPECT retires. (DEDUCED, log 151) -/
def State.retireExpect (s : State) (p : Nat) (r : Rec) (pr : Nat) (hf : Bool) (heng hw hole : Nat) (ok : Bool) : State :=
  let t := s.thread p
  if ok then (s.popRec p).modThread p (fun t => { t with ckpts := t.ckpts.filter (fun c => c.id ≠ r.id) })
  else if hf && !((s.engine heng).window hw).opened then s.faultRec p r 1
  else
    let s1 := if hf then s.setEngine heng ((s.engine heng).orWindow hw holeFlag) else s
    s1.holePath p pr hole (t.ckpts.find? (fun c => c.id = r.id))

/-- The entries a tick fence waits for are gone. -/
def State.muleDrained (s : State) (l : List (Nat × Nat)) : Bool :=
  l.all (fun x => (s.mule.wbs.getD x.1 []).all (fun e => e.id ≠ x.2))

/-- RETIRE: the oldest operation of a thread retires when it may. -/
def execRetire (p : Nat) (s : State) : Res :=
  withPart p (.next
    (let t := s.thread p
     match t.recs.head? with
     | none => s
     | some r =>
       let room : Bool := t.wb.length < 16
       match r.op with
       | .ld _ _ _ _ bound =>
         (match bound with
          | some (_, f) => if !r.done then s else if f = 0 then s.popRec p else s.faultRec p r f
          | none => s)
       | .store addr d =>
         (match addr with
          | none => s.faultRec p r 4
          | some a =>
            if room then (s.popRec p).modThread p (fun t => t.buffer { id := r.id, pc := r.pc, addr := a, op := .bytes d })
            else s)
       | .atomic addr _ mis op rd =>
         (match addr with
          | none => s.faultRec p r 4
          | some a =>
            if room then
              let s1 := (s.popRec p).modThread p (fun t =>
                t.buffer { id := r.id, pc := r.pc, addr := a, op := op, rd := some rd })
              if mis then s1.bumpPart p rkMisalign else s1
            else s)
       | .fence _ waits => if t.wb.isEmpty && s.muleDrained waits then s.popRec p else s
       | .expect pr _ _ hf heng hw hole _ result =>
         (match result with
          | some ok => s.retireExpect p r pr hf heng hw hole ok
          | none => s)
       | .send _ _ nf _ _ _ _ _ addr _ _ _ _ =>
         if addr.isNone then s.faultRec p r 4
         else if nf = 0 then s.popRec p
         else (s.popRec p).modThread p (fun t =>
           { t with sends := t.sends ++ [{ id := r.id, pc := r.pc, op := r.op, tick := s.rooster.tickNo }] })
       | .post ctx queue r0 r1 r2 fl eng w irq =>
         let v := (s.engine eng).window w
         if fl && !v.opened then s.faultRec p r 1
         else
           let bytes := leBytes 8 r0.toNat ++ leBytes 8 r1.toNat ++ leBytes 8 r2.toNat ++
             leBytes 4 (if fl then v.flags.toNat else 0) ++ leBytes 4 (s.rooster.tickNo.toNat % 2 ^ 32)
           ((s.popRec p).modThread p (fun t =>
             { t with posts := t.posts ++ [{ after := r.id, ctx := ctx, queue := queue, bytes := bytes, irq := irq }] })).flushPosts p
       | op =>
         if !r.begun then s
         else if r.res.fault ≠ 0 then s.faultRec p r r.res.fault
         else
           match opEngine op with
           | none => s
           | some e =>
             match op with
             | .tst .. => if room then s.retireOx p e r else s
             | _ => s.retireOx p e r))

/-- The last shadow of a tile goes into its register (R236, R238): a single-bit error is corrected on the way, an uncorrectable
one goes with the data. -/
def Engine.settle (e : Engine) (t : Nat) : Engine :=
  let has := e.eccBad.contains (.shadow t)
  let gone (x : OxPlace) : Bool := x = .tile t || x = .shadow t
  { e with
    eccOne := e.eccOne.filter (fun x => !gone x)
    eccBad := e.eccBad.filter (fun x => !gone x) ++ (if has then [.tile t] else []) }

/-- COPY_BACK_END: a shadow tile is freed; copy-backs of one bank end in the order of their retires (R220, R236). -/
def execCopyBackEnd (engine tile : Nat) (s : State) : Res :=
  withUnit (engine < 32 && tile < 64) (.next
    (let e := s.engine engine
     if e.copyBacks.find? (fun t => t % 32 = tile % 32) = some tile then
       let e1 := { e with copyBacks := e.copyBacks.erase tile }
       if e1.copyBacks.contains tile then s.setEngine engine e1
       else (s.setEngine engine (e1.settle tile)).count (engCtr engine ekEccCorr)
         (e.eccOne.filter (fun x => x = .shadow tile)).length
     else s))

/-! ### Sends after retire (R276-R278) -/

/-- The header of a frame that a SEND builds (Table 10.12). -/
def State.sHeader (s : State) (p port slot : Nat) (dst : BitVec 32) (len : Nat) (first last tally : Bool)
    (tick : Word) (chunk : BitVec 32) (frame : Nat) : Header :=
  { s.ownHeader tySData port dst p 0 len with
    first := first, last := last, tally := tally, w16 := tick.setWidth 32, w20 := BitVec.ofNat 32 slot, w24 := chunk
    w28 := BitVec.ofNat 16 (frame % 2 ^ 14) }

/-- Frames of 4,096 B per slot that a SEND's variant plans for a port (R276). -/
def State.framesPerSlot (s : State) (p port : Nat) : Nat :=
  match s.variantOf p with
  | some v => slotFrames (if port = 48 then v.minTwin else v.minWidth)
  | none => 0

/-- The bytes of frame `j` of a SEND: none where they cannot be read, with the fault code. -/
def State.sendBytes (s : State) (depot : Bool) (eng t : Nat) (addr : Option Nat) (nf slen j : Nat) :
    Except Nat (List Byte × Bool) × State :=
  if depot then
    let len := if j + 1 = nf then slen else 4096
    let r := s.depotRead (addr.getD 0 + 4096 * j) len
    (if r.1 then .ok (r.2.1, false) else .error 3, r.2.2)
  else
    let x := (s.engine eng).tile (t + j)
    let place : OxPlace := if (s.engine eng).copyBacks.contains (t + j) then .shadow (t + j) else .tile (t + j)
    let s1 := (s.oxCorrect eng [place]).addStreams eng [((t + j) % 32, 40)]
    if s.oxBad eng [place] then (.error 2, s1)
    else
      let s2 := if x.kind = .void then s1.bumpEng eng ekVoidRead else s1
      (.ok (bytesAt x.bytes 0 (tileLen x slen), x.kind = .tally), s2)

/-- A frame of a SEND takes its descriptor and buffer on the home die of its port and is queued for its slot; one of length
0 is not built (R145, R151, R277). The frames of one SEND leave their tiles 40 cycles apart, so they do not meet at Hen.
(DESIGN CHOICE, log 165) -/
def State.queueS (s : State) (p port slot : Nat) (dst : BitVec 32) (bytes : List Byte) (first last tally : Bool)
    (tick : Word) (chunk : BitVec 32) (frame j : Nat) : State :=
  let n := bytes.length
  if n = 0 then s
  else
    let h := s.sHeader p port slot dst n first (last || n < 4096) tally tick chunk frame
    let d := homeDie port
    let own := some (p, slot)
    match State.henChoose { s with time := s.time + 40 * j } d h false false with
    | .none => s.noBuffer d
    | .wait k =>
      s.addWait { pool := k, ingress := port, at_ := s.time, hdr := h, payload := bytes, crowd := false
                  dest := { ports := [port] }, own := own }
    | .got b fb =>
      let t := (State.storeCopies { s with time := s.time + 40 * j } port h bytes false { ports := [port] } b fb false own).2
      { t with time := s.time }

/-- The frames of a SEND from the j-th on, `k` of them; an unreadable one ends the SEND with its fault. -/
def State.sendFrames (s : State) (p port slot nf : Nat) (depot : Bool) (t : Nat) (dst : BitVec 32) (chunk : BitVec 32)
    (frame : Nat) (addr : Option Nat) (slen : Nat) (ff lf : Bool) (eng : Nat) (tick : Word) (pc f : Nat) :
    (k j : Nat) → State
  | 0, _ => s
  | k + 1, j =>
    match s.sendBytes depot eng t addr nf slen j with
    | (.error c, s1) => s1.threadFault p c pc
    | (.ok (b, tally), s0) =>
      let s1 := if depot || engineDie eng = homeDie port then s0 else s0.crossBridge (engineDie eng) b.length
      State.sendFrames (s1.queueS p port (slot + j / f) dst b (ff && j = 0) (lf && j + 1 = nf) tally tick chunk (frame + j) j)
        p port slot nf depot t dst chunk frame addr slen ff lf eng tick pc f k (j + 1)

/-- SEND_TILE_READ: the oldest retired SEND of a thread reads its tiles or depot bytes, and its frames are queued, so that
frames are queued in issue order (R278). RANK_INVALID counts once for the SEND. (DESIGN CHOICE, log 154) -/
def execSendTileRead (p id : Nat) (s : State) : Res :=
  withPart p (.next
    (let t := s.thread p
     match t.sends.head? with
     | none => s
     | some j =>
       if j.id ≠ id then s
       else match j.op with
       | .send port slot nf depot tt rank chunk frame addr slen ff lf eng =>
         if depot && s.depot.draining then s
         else
           let s1 := s.setThread p { t with sends := t.sends.tail }
           match s1.rankAddr p rank with
           | none => s1.bumpPart p rkRankInvalid
           | some dst =>
             s1.sendFrames p port slot nf depot tt dst chunk frame addr slen ff lf eng j.tick j.pc
               (s1.framesPerSlot p port) nf 0
       | _ => s))

/-! ### Write buffers (R319, R321, R328) -/

/-- The write buffer of an agent. -/
def State.wbOf (s : State) : Agent → List WbEntry
  | .thread p => (s.thread p).wb
  | .mule k => s.mule.wbs.getD k []

def State.setWb (s : State) (a : Agent) (l : List WbEntry) : State :=
  match a with
  | .thread p => s.modThread p (fun t => { t with wb := l })
  | .mule k => { s with mule := { s.mule with wbs := s.mule.wbs.set k l } }

def withAgent (a : Agent) (r : Res) : Res :=
  match a with
  | .thread p => withPart p r
  | .mule k => withUnit (k < 8) r

/-- Errors found when an entry is performed, one for each piece (R521): nothing waits for the entry any more (R263), and the
thread faults with each. -/
def State.wbError (s : State) (a : Agent) (e : WbEntry) (n : Nat) : State :=
  match a with
  | .thread p => (List.range n).foldl (fun t _ => t.threadFault p 3 e.pc) (s.modThread p (fun t => t.landed e.id))
  | .mule _ => s

/-- An entry that came into its buffer since the hinge waits for the hinge drain (R322). -/
def State.drainHolds (s : State) (e : WbEntry) : Bool := s.depot.draining && !e.drain

/-- What follows when an entry has left an agent's buffer. -/
def State.wbDone (s : State) (a : Agent) : State :=
  match a with
  | .thread p => s.flushPosts p
  | .mule _ => s

/-- STORE_PERFORMED: a store or TST at the head of a buffer is performed, piece by piece (R325, R326). -/
def execStorePerformed (a : Agent) (s : State) : Res :=
  withAgent a (.next
    (match s.wbOf a with
     | [] => s
     | e :: rest =>
       let run (k : Nat) (d : List Byte) : State :=
         let r := (s.setWb a rest).depotStore k e.addr d
         let s1 := if r.1 = 0 then r.2 else r.2.wbError a e r.1
         s1.wbDone a
       if s.drainHolds e then s
       else
         match e.op with
         | .bytes d => run 8 d
         | .stream d => run 64 d
         | _ => s))

/-- The bytes an atomic writes, from the bytes it read, none where it writes nothing (R270, Table 10.8). -/
def atomicWrite (op : StoreOp) (old : List Byte) : Option (List Byte) :=
  match op with
  | .aadd v => some (leBytes 8 ((BitVec.ofNat 64 (leNat old) + v).toNat))
  | .aswp v => some (leBytes 8 v.toNat)
  | .acas c n => if leNat old = c.toNat then some (leBytes 8 n.toNat) else none
  | .acas2 cl ch nl nh =>
    if natAt old 0 8 = cl.toNat && natAt old 8 8 = ch.toNat then some (leBytes 8 nl.toNat ++ leBytes 8 nh.toNat) else none
  | _ => none

/-- The registers that take an atomic's old value. -/
def Thread.takeOld (t : Thread) (op : StoreOp) (rd : Nat) (old : List Byte) : Thread :=
  let t1 := t.setReg rd (BitVec.ofNat 64 (natAt old 0 8))
  match op with
  | .acas2 .. => t1.setReg (rd + 1) (BitVec.ofNat 64 (natAt old 8 8))
  | _ => t1

/-- ATOMIC_PERFORMED: an atomic at the head of a buffer reads and writes its word as one (R328). -/
def execAtomicPerformed (a : Agent) (s : State) : Res :=
  withAgent a (.next
    (match s.wbOf a with
     | [] => s
     | e :: rest =>
       match e.op with
       | .bytes _ => s
       | .stream _ => s
       | op =>
         let r := (s.setWb a rest).depotRead e.addr op.size
         if s.drainHolds e then s
         else if !r.1 then (r.2.2.wbError a e 1).wbDone a
         else
           let s1 := match atomicWrite op r.2.1 with
             | some d => (r.2.2.depotPiece e.addr d).2
             | none => r.2.2
           let s2 := match a, e.rd with
             | .thread p, some rd => s1.modThread p (fun t => (t.takeOld op rd r.2.1).landed e.id)
             | .mule k, _ => s1.emit (.muleData k r.2.1)
             | _, _ => s1
           s2.wbDone a))

/-- HINGE_DRAIN_END: every entry retired before the hinge has been performed (R322). -/
def execHingeDrainEnd (s : State) : Res :=
  .next
    (let left (l : List WbEntry) : Bool := l.any (fun e => e.drain)
     if s.depot.draining && !s.threads.any (fun t => left t.2.wb) && !s.mule.wbs.any (fun w => left w.2) then
       { s with depot := { s.depot with draining := false } }
     else s)

end Sys2Proof.Machine
end

