-- ==== Sys2Proof/Machine/MuleDepot.lean ====
section
/-! DEFINITION. Mule's accesses to the depot (R315, R387), and the patrol scrub (R313). -/

namespace Sys2Proof.Machine

/-! ### What Mule reaches (R315, R387) -/

/-- The range of a segment that some context grants to a service, with write access where that is asked. -/
def State.muleSegment (s : State) (a n : Nat) (write : Bool) : Bool :=
  s.ctxs.any (fun e => e.2.grants.any (fun g =>
    let lo := granuleAddr (s.part e.2.part).carve.1 + (e.2.segs.getD g.1 (0, 0)).1 * 4096
    (g.2.2 || !write) && lo ≤ a && (s.segAddr e.2.part e.1 g.1 (a - lo) n).isSome))

/-- The bytes lie within one region that a Mule core reaches. -/
def State.muleReaches (s : State) (a n : Nat) (write : Bool) : Bool :=
  (muleBase ≤ a && a + n ≤ planBase) ||
  (logBase ≤ a && a + n ≤ (if write then measureBase else carveBase)) || s.muleSegment a n write

/-- One byte as a core's own older stores leave it (R316). -/
def forwardWb (wb : List WbEntry) (a : Nat) (b : Byte) : Byte :=
  wb.foldl (fun v e =>
    let from_ (d : List Byte) : Byte := if e.addr ≤ a && a < e.addr + d.length then d.getD (a - e.addr) v else v
    match e.op with
    | .bytes d => from_ d
    | .stream d => from_ d
    | _ => v) b

/-- An atomic of the core that is not yet performed covers a byte of the range (R329). -/
def atomicIn (wb : List WbEntry) (a n : Nat) : Bool :=
  wb.any (fun e =>
    match e.op with
    | .bytes _ => false
    | .stream _ => false
    | o => overlaps a n e.addr o.size)

/-- A load by a Mule core; a byte whose unit cannot be read comes back as an open value. (DESIGN CHOICE, log 97) -/
def State.muleLoad (s : State) (core a n : Nat) : State :=
  let wb := s.wbOf (.mule core)
  let r := s.depotRead a n
  let bytes := r.2.1.zipIdx.map (fun (b, i) =>
    forwardWb wb (a + i) (if s.depot.bad.contains ((a + i) / 32) then Config.freeByte (s.free + i) else b))
  State.emit { r.2.2 with free := if r.1 then s.free else s.free + n } (.muleData core bytes)

/-- An entry joins a core's write buffer. -/
def State.mulePush (s : State) (core a : Nat) (op : StoreOp) : State :=
  let wb := s.wbOf (.mule core)
  s.setWb (.mule core) (wb ++ [{ id := 0, pc := 0, addr := a, op := op }])

/-- An access outside Mule's region writes nothing, and a load returns zero. -/
def State.muleViolation (s : State) (core : Nat) (n : Option Nat) : State :=
  let t := s.bumpDev dkMuleDepotViol
  match n with
  | some k => t.emit (.muleData core (List.replicate k 0))
  | none => t

/-- An atomic of a Mule core on a word of `n` bytes, at its address rounded down (R270, R328). (DEDUCED, log 144) -/
def State.muleAtomic (s : State) (core a n : Nat) (op : StoreOp) : State :=
  let w := a / n * n
  if !s.muleReaches w n true then s.muleViolation core (some n)
  else if 32 ≤ (s.wbOf (.mule core)).length then s
  else s.mulePush core w op

/-- An access by a Mule core. A load waits for the hinge drain (R322) and for an older atomic on its bytes (R329); a store
waits while the buffer holds 32 entries (R319). -/
def State.muleAccess (s : State) (core : Nat) (x : MuleAccess) : State :=
  let wb := s.wbOf (.mule core)
  match x with
  | .load a n =>
    if !s.muleReaches a n false then s.muleViolation core (some n)
    else if s.depot.draining || atomicIn wb a n then s
    else s.muleLoad core a n
  | .store a d =>
    if !s.muleReaches a d.length true then s.muleViolation core none
    else if 32 ≤ wb.length then s
    else s.mulePush core a (if d.length ≤ 8 then .bytes d else .stream d)
  | .stream a d =>
    if !s.muleReaches a d.length true then s.muleViolation core none
    else if 32 ≤ wb.length then s
    else s.mulePush core a (.stream d)
  | .atomicAdd a v => s.muleAtomic core a 8 (.aadd v)
  | .atomicSwap a v => s.muleAtomic core a 8 (.aswp v)
  | .atomicCas a c n => s.muleAtomic core a 8 (.acas c n)
  | .atomicCas2 a cl ch nl nh => s.muleAtomic core a 16 (.acas2 cl ch nl nh)

/-- MULE_DEPOT_ACCESS. (DEDUCED, log 144) -/
def execMuleDepotAccess (core : Nat) (a : MuleAccess) (s : State) : Res :=
  withUnit (core < 8) (.next (if s.alive && s.fw.muleUp then s.muleAccess core a else s))

/-- Nanoseconds of a scrub pass: 24 hours. -/
def scrubNs : Nat := 86400000000000

/-- SCRUB_PASS_END: correctable units are written back, uncorrectable ones counted and left, and the next pass starts. -/
def execScrubPassEnd (s : State) : Res :=
  .next
    (match s.power.scrubFrom with
     | none => s
     | some t =>
       if s.alive && t + scrubNs ≤ s.time then
         let s1 := (s.count (devCtr dkDepotEccCorr) s.depot.soft.length).count (devCtr dkDepotEccUncorr) s.depot.bad.length
         State.bumpDev { s1 with
           depot := { s1.depot with soft := [] }
           power := { s1.power with scrubFrom := some (t + scrubNs) } } dkDepotScrubPass
       else s)

end Sys2Proof.Machine
end

