-- ==== Sys2Proof/Machine/Power.lean ====
section
/-! DEFINITION. Resets, pins and the first second (chapters 15, 19 and 22): cold reset, the boot chain, the restart of Mule,
fatal stops, the TAP, the admission of ports, candidacy and READY. -/

namespace Sys2Proof.Machine

/-! ### Cold reset (R441, R497, R501, R509) -/

/-- The machine in cold reset: only what is no register of it, the fuses, the levels of pins and the TAP stay. -/
def State.startCold (s : State) (rstLow : Bool) : State :=
  { State.reset with
    pending := s.pending, free := s.free, out := s.out
    fw := { State.reset.fw with minSvn := s.fw.minSvn }
    power := { State.reset.power with rstLow := rstLow, perstLow := s.power.perstLow, tap := s.power.tap } }

/-- COLD_RST_N_LOW. -/
def execColdRstNLow (s : State) : Res := .next (s.startCold true)
/-- PWRGOOD_LOW. -/
def execPwrgoodLow (s : State) : Res := .next (s.startCold s.power.rstLow)
/-- REFCLK_LOSS. -/
def execRefclkLoss (s : State) : Res := .next (s.startCold s.power.rstLow)
/-- RAIL_UNDERVOLTAGE. -/
def execRailUndervoltage (s : State) : Res := .next (s.startCold s.power.rstLow)

/-- Fields of the location word (Table 18.1). -/
def locPlane (l : BitVec 24) : Nat := (l.extractLsb' 21 3).toNat
def locTier (l : BitVec 24) : Nat := (l.extractLsb' 11 2).toNat
def locSeat (l : BitVec 24) : Nat := (l.extractLsb' 1 5).toNat

/-- COLD_RESET_END: the straps are sampled, Gander reads its fuses and the key table, the stacks train, the depot is zeroed
(R378, R390, R432, R433, R447). (DESIGN CHOICE, log 3; DESIGN CHOICE, log 9) -/
def execColdResetEnd (b : BoardRead) (s : State) : Res :=
  .next
    (if !s.power.coldReset then s
     else
       let sealed : Bool := b.keySeal = Config.keySeal b.keys
       let fail : Bool := b.stackFail ≠ 0
       let s1 : State := { s with
         time := 0
         fw := { s.fw with
           keys := if sealed then b.keys else [], seqA := b.seqA, seqB := b.seqB
           bootTry := if b.seqA.toNat < b.seqB.toNat then [true, false] else [false, true] }
         power := { s.power with
           coldReset := false, rstLow := false, loc := b.straps, stackFail := b.stackFail, depotFail := fail, zeroed := !fail
           strapBad := 4 ≤ locPlane b.straps || locTier b.straps = 3 } }
       let s2 := if sealed then s1 else s1.bumpDev dkKeySealBad
       (s2.extend0 1 0 (Config.sha384 (leBytes 2 Config.romVersion.toNat))).extend0 2 0 Config.fuseDigest)

/-! ### The boot chain (R378-R380, R475) -/

/-- A Mule copy passes (R379). -/
def muleImageOk (b : List Byte) (minSvn : Nat) : Bool :=
  let cert := bytesAt b 256 256
  let root := Config.certRootKey cert
  let key := Config.certSignKey cert
  imageForm b 1 && Config.sha384 root = Config.rootKeyHash && Config.ecdsaVerify root key (Config.certRootSig cert) &&
  Config.ecdsaVerify key (bytesAt b 0 72) (bytesAt b 72 96) && minSvn ≤ natAt b 8 4

/-- A copy that passed is started; the boot fields keep what the boot left (R475). -/
def State.startMule (s : State) (copyB : Bool) (b : List Byte) : State :=
  State.extend0 { s with fw := { s.fw with
      muleUp := true, muleSvn := natAt b 8 4, bootTry := [], restarting := false, petTicks := 0
      bootCopyB := if s.fw.restarting then s.fw.bootCopyB else copyB } }
    3 (natAt b 8 4) (BitVec.ofNat 384 (natAt b 24 48))

/-- A copy that failed: its bit is set at boot, and the other copy is tried; with none left, the device enters RECOVERY at
boot, and Mule stays stopped after a restart (R475). -/
def State.copyFailed (s : State) (copyB : Bool) : State :=
  let left := s.fw.bootTry.tail
  if s.fw.restarting then
    { s with fw := { s.fw with bootTry := left, restarting := !left.isEmpty, muleHeld := s.fw.muleHeld || left.isEmpty } }
  else
    { s with fw := { s.fw with
        bootTry := left, recovery := left.isEmpty, bootFailA := s.fw.bootFailA || !copyB, bootFailB := s.fw.bootFailB || copyB } }

/-- BOOT_COPY_CHECK: the copy that is next in order has been loaded and is checked. -/
def execBootCopyCheck (copyB : Bool) (image : List Byte) (s : State) : Res :=
  .next
    (if s.alive && s.fw.bootTry.head? = some copyB then
       (if muleImageOk image s.fw.minSvn then s.startMule copyB image else s.copyFailed copyB)
     else s)

/-! ### Restart of Mule (R389, R406) -/

/-- The streams of Mule close. (DEDUCED, log 112) -/
def State.closeMuleStreams (s : State) : State :=
  { s with txs := s.txs.filter (fun e => !muleEnd e.1), rxs := s.rxs.filter (fun e => !muleEnd e.1) }

/-- What Mule's SRAM held is lost; registers that Dolmo keeps for Mule, and Depot's shards, which lie in granted segments,
stay. (DEDUCED, log 98) -/
def Mule.cleared (m : Mule) : Mule :=
  { m with
    digest := none, digestOther := none, reviewed := true, inbox := [], jobs := [], drains := [],
    hot1 := 0, hot2 := 0, hot3 := 0, cool := 0
    fitRun := [], swapAsked := [], holdSpread := none, holdVariant := none, holdPort := none,
    backoff := [], requests := [], held := []
    flooded := none, armSeen := [], staging := none }

/-- Ticks over which three restarts hold Mule. -/
def restartSpan : Nat := 16384

/-- MULE_RESTART: at a hinge, when more than 64 ticks have gone by without MULE_PET. (DEDUCED, log 98) -/
def execMuleRestart (s : State) : Res :=
  .next
    (let f := s.fw
     if s.alive && s.rooster.slot = 0 && f.muleUp && 64 < f.petTicks then
       let now := s.rooster.tickNo
       let recent := f.restarts.filter (fun t => (now - t).toNat < restartSpan) ++ [now]
       let hold : Bool := 3 ≤ recent.length
       let s1 : State := { s with
         mule := s.mule.cleared
         msgs := s.msgs.filter (fun m => m.qid ≠ muleQid)
         gate := { s.gate with queue := s.gate.queue.filter (fun w => w.slot ≠ 0) }
         fw := { f with
           muleUp := false, muleSvn := 0, petTicks := 0, restarts := recent, muleHeld := f.muleHeld || hold
           restarting := !hold
           bootTry := if hold then [] else if f.seqA.toNat < f.seqB.toNat then [true, false] else [false, true] } }
       let s2 := s1.setGateSlot 0 { s1.gateSlot 0 with pending := false }
       (s2.closeMuleStreams.bumpDev dkMuleRestart).measure 8 0 0 Config.restartDigest
     else s)

/-! ### Fatal stops (R377, R511) -/

/-- Every thread stops without squash accounting, and every port is OFF. (DEDUCED, log 99) -/
def State.allStop (s : State) : State :=
  let t : State := { s with threads := s.threads.map (fun e =>
    (e.1, if e.2.st = .running then { e.2 with st := .stopped, recs := [], ckpts := [], waiting := false } else e.2)) }
  (List.range 49).foldl (fun a p => a.restartPort p .off) t

/-- LOCKSTEP_MISMATCH. -/
def execLockstepMismatch (s : State) : Res :=
  .next
    (if s.power.coldReset || s.fw.fatal then s
     else
       let t := s.allStop
       { t with fw := { t.fw with fatal := true } })

/-- THERMAL_TRIP: two consecutive samples, of which these are the second, reach the trip point of a die or a stack. -/
def execThermalTrip (west east stack : BitVec 16) (s : State) : Res :=
  .next
    (if !s.power.coldReset && !s.power.tripped && (115 ≤ west.toInt || 115 ≤ east.toInt || 95 ≤ stack.toInt) then
       let t := s.allStop
       State.emit { t with power := { t.power with tripped := true } } .thermTrip
     else s)

/-! ### The TAP (R506) -/

/-- The code of BYPASS: all ones. -/
def bypassIr : BitVec 8 := 0xFF

/-- IDCODE, as IEEE 1149.1 lays it out: version, part number, manufacturer code, 1 (R1, R506). -/
def idcodeWord : BitVec 32 := Config.idcodeVersion ++ BitVec.ofNat 16 deviceId ++ Config.jep106 ++ 1#1

/-- TAP_INSTRUCTION: a test instruction is replaced by BYPASS unless COLD_RST_N is low. -/
def execTapInstruction (ir : BitVec 8) (s : State) : Res :=
  let v := if ir = bypassIr || ir = Config.idcodeIr || s.power.rstLow then ir else bypassIr
  let t := State.emit { s with power := { s.power with tap := v } } (.tapLoaded v)
  .next (if v = Config.idcodeIr then t.emit (.idcode idcodeWord) else t)

/-- TAP_RESET: the TAP stands at IDCODE; the device is untouched. (PRESUMED, log 13) -/
def execTapReset (s : State) : Res := .next { s with power := { s.power with tap := Config.idcodeIr } }

/-! ### The first second (R443-R447) -/

def msNs : Nat := 1000000

/-- RECOVERY, STRAP_BAD and DEPOT_FAIL keep every port out of training and Rooster in FREE. -/
def State.confined (s : State) : Bool := s.fw.recovery || s.power.strapBad || s.power.depotFail

/-- XSPI_RST_N is driven low: from the start of a cold reset until 1 ms after its end (R505). -/
def State.xspiResetLow (s : State) : Bool := s.power.coldReset || s.time < msNs

/-- Stagger group of a port. -/
def State.groupOf (s : State) (p : Nat) : Nat := (locSeat s.power.loc + p) % 8

/-- A port is admitted to training: its lanes enter DETECT. -/
def State.admitPort (s : State) (p : Nat) : State :=
  (s.modPort p (fun q => { q with admitted := true })).lanesFrom p .detect

/-- PORT_GROUP_ADMIT. -/
def execPortGroupAdmit (group : Nat) (s : State) : Res :=
  withUnit (group < 8) (.next
    (if s.alive && !s.confined && (120 + 40 * group) * msNs ≤ s.time then
       (List.range 49).foldl (fun t p =>
         if s.groupOf p = group && (s.port p).enable && !(s.port p).admitted then t.admitPort p else t) s
     else s))

/-- GM_CANDIDACY_START: from 600 ms on Rooster is a candidate; one that is still FREE enters GM, and starts tick 0 at its
first hinge, aligned to the next TICK_REF edge where the last four were N x 128 ns apart (R446). -/
def execGmCandidacyStart (s : State) : Res :=
  .next
    (let r := s.rooster
     if s.alive && !s.confined && !r.candidate && 600 * msNs ≤ s.time then
       if r.st = .free && r.gmEligible then
         let live : Bool := r.refLive || (r.refEn && 4 ≤ r.refPeriods)
         { s with rooster := { r with
             candidate := true, starting := true, st := .gm, hops := 0, parent := none, refLive := live
             refRun := if live then 4 else r.refRun
             gmKey := (if live then 0#1 else 1#1) ++ s.power.loc } }
       else { s with rooster := { r with candidate := true } }
     else s)

/-- A port does not hold READY back: ACTIVE, DOWN, or in DETECT with every lane ABSENT. -/
def State.portSettled (s : State) (p : Nat) : Bool :=
  let q := s.port p
  !q.admitted || q.active || q.down ||
  (List.range (laneCount p)).all (fun j => (s.lane p j).st = .detect && (s.lane p j).absent)

/-- READY_PUBLISH (R447). (DESIGN CHOICE, log 3) -/
def execReadyPublish (s : State) : Res :=
  .next
    (let settled : Bool := s.rooster.slot = 0 && 800 * msNs ≤ s.time && !s.confined && s.fw.muleUp && s.power.zeroed &&
       (List.range 49).all s.portSettled && (s.rooster.st = .locked || s.rooster.st = .gm)
     if s.alive && !s.power.ready && (settled || 1000 * msNs ≤ s.time) then
       State.mgmtCause { s with power := { s.power with ready := true, scrubFrom := some s.time } } 1
     else s)

/-- DEV_STATUS.PHASE (Table 19.2). -/
def State.phase (s : State) : Nat :=
  if s.power.ready then 5
  else if s.power.coldReset || s.time = 0 then 0
  else if s.time < 30 * msNs then 1
  else if s.time < 120 * msNs then 2
  else if s.time < 600 * msNs then 3
  else 4

end Sys2Proof.Machine
end

