-- ==== Sys2Proof/Machine/Services.lean ====
section
/-! DEFINITION. Mule at work (chapter 16, R454-R456): the service messages and their replies, Depot, Roll-call and Checkpoint
drain, the flood of an armed epoch, and the decisions Mule takes from the hinge digest. -/

namespace Sys2Proof.Machine

/-! ### Service messages (R405) -/

/-- The fields of the service header and the body (Table 16.3). -/
def msgService (m : SvcMsg) : Nat := natAt m.bytes 0 1
def msgOp (m : SvcMsg) : Nat := natAt m.bytes 1 1
def msgReq (m : SvcMsg) : BitVec 32 := BitVec.ofNat 32 (natAt m.bytes 4 4)
/-- (DEDUCED, log 101) -/
def msgScope (m : SvcMsg) : Nat := natAt m.bytes 8 4
def msgBody (m : SvcMsg) : List Byte := m.bytes.drop 16

/-- CTX and SEG of a SCOPE (R407). -/
def msgCtx (m : SvcMsg) : Nat := bitsOf (msgScope m) 9 0
def msgSeg (m : SvcMsg) : Nat := bitsOf (msgScope m) 13 10

/-- Service status (Table 16.4). -/
def svOk : Nat := 0
def svBadReq : Nat := 1
def svNoGrant : Nat := 2
def svNoSpace : Nat := 3
def svNotFound : Nat := 4
def svStale : Nat := 5
def svMemErr : Nat := 6
def svBusy : Nat := 7
def svLost : Nat := 8
def svNoService : Nat := 9

/-- The operations each service defines for requests. (DEDUCED, log 100) -/
def svcOps : Nat → List Nat
  | 0 => [1, 2] | 1 => [1, 2, 3, 4, 5] | 2 => [1, 2, 3, 5, 6] | 3 => [1, 2] | _ => []

/-- Reserved byte 0, and BLEN equal to LEN - 16. (DEDUCED, log 100; DEDUCED, log 101) -/
def msgFormed (m : SvcMsg) : Bool := natAt m.bytes 3 1 = 0 && m.bytes.length = 16 + natAt m.bytes 12 4

/-- A service runs: it is loaded, and its first load has landed. (DEDUCED, log 90) -/
def State.serviceUp (s : State) (n : Nat) : Bool := s.fw.services.keys.contains n && !s.fw.svcNew.contains n

/-- The message leaves the inbox. (DEDUCED, log 103) -/
def State.takeMsg (s : State) (m : SvcMsg) : State := { s with mule := { s.mule with inbox := s.mule.inbox.erase m } }

/-- No earlier message of the same service and SCOPE waits (R405). -/
def State.msgTurn (s : State) (m : SvcMsg) : Bool :=
  s.mule.inbox.find? (fun x => msgService x = msgService m && msgScope x = msgScope m) = some m

/-- The reply of an operator service: its STATUS, one of Table 16.4, and its body, of 4,080 B at most, are open (R405).
(DESIGN CHOICE, log 102) -/
def State.openReply (s : State) (m : SvcMsg) : State :=
  let (a, s1) := s.fresh
  let (b, s2) := s1.fresh
  let n := b.toNat % 4081
  State.svcReply { s2 with free := s2.free + n } m (a.toNat % 10) ((List.range n).map (fun k => Config.freeByte (s2.free + k)))

/-- A message is served: refused as R405 and R454 say, or handed to its operation. A message that belongs to another row
waits for it. (DEDUCED, log 100; DESIGN CHOICE, log 102) -/
def State.serveMsg (s : State) (m : SvcMsg) (service op : Nat) (act : State → State) : State :=
  let v := msgService m
  let o := msgOp m
  let t := s.takeMsg m
  if !s.alive || !s.fw.muleUp || !s.msgTurn m then s
  else if 128 ≤ o then (if v = service && o = op then act t else if v = 0 && o = 129 then s else t)
  else if !msgFormed m then (if v = 0 && o = 2 then t else t.svcReply m svBadReq [])
  else if v = 0 && addrPort m.src ≠ 0x41 then t.svcReply m svBadReq []
  else if v ≠ 0 && !s.serviceUp v then t.svcReply m svNoService []
  else if 4 ≤ v then t.openReply m
  else if !(svcOps v).contains o then t.svcReply m svBadReq []
  else if v = service && o = op then act t
  else s

/-- A request whose body has one length; any other gets BAD_REQ. (DEDUCED, log 103) -/
def State.serveFixed (s : State) (m : SvcMsg) (service op n : Nat) (act : State → State) : Res :=
  .next (s.serveMsg m service op (fun t => if (msgBody m).length = n then act t else t.svcReply m svBadReq []))

/-! ### Depot (R407, R408) -/

/-- CAP rounded up to 64 KiB. -/
def shardRoom (cap : Nat) : Nat := ceilDiv cap 65536 * 65536

/-- The segment is granted to a service, and the requesting partition owns the context. -/
def State.msgGranted (s : State) (m : SvcMsg) (service : Nat) (write : Bool) : Bool :=
  (match s.ctx? (msgCtx m) with
   | some c => c.part = m.part
   | none => false) && s.granted (msgCtx m) (msgSeg m) service write

/-- A Depot request on a granted segment. (DEDUCED, log 104) -/
def State.serveDepot (s : State) (m : SvcMsg) (op n : Nat) (write : Bool) (act : State → State) : Res :=
  s.serveFixed m 1 op n (fun t => if t.msgGranted m 1 write then act t else t.svcReply m svNoGrant [])

/-- Shards of the segment a message names. -/
def State.shardsOf (s : State) (m : SvcMsg) : List Shard :=
  s.mule.shards.filter (fun x => x.ctx = msgCtx m && x.seg = msgSeg m)

/-- The shard a message names in bytes 0-7 of its body. -/
def State.shardFor (s : State) (m : SvcMsg) : Option Shard :=
  (s.shardsOf m).find? (fun x => x.id = natAt (msgBody m) 0 8)

/-- A shard of the table is replaced. -/
def State.setShard (s : State) (x : Shard) : State :=
  { s with mule := { s.mule with shards := s.mule.shards.map (fun y =>
      if y.ctx = x.ctx && y.seg = x.seg && y.id = x.id then x else y) } }

/-- Places of an extent in a data region that ends at `len`, clear of the extents in use; which one Depot takes is open.
(DESIGN CHOICE, log 105) -/
def extentPlaces (len room : Nat) (used : List (Nat × Nat)) : List Nat :=
  ((List.range (len / 65536)).map (fun i => i * 65536)).filter (fun o =>
    65536 ≤ o && o + room ≤ len && used.all (fun u => !overlaps o room u.1 u.2))

/-- `n` extents are placed, none where they find no room. (DESIGN CHOICE, log 105) -/
def State.placeExtents (s : State) (len room : Nat) : (n : Nat) → List (Nat × Nat) → List Nat → Option (List Nat) × State
  | 0, _, acc => (some acc, s)
  | n + 1, used, acc =>
    let l := extentPlaces len room used
    if l.isEmpty then (none, s)
    else
      let (v, s1) := s.fresh
      let o := l.getD (v.toNat % l.length) 0
      State.placeExtents s1 len room n ((o, room) :: used) (acc ++ [o])

/-- CREATE. (DEDUCED, log 104) -/
def execCreate (m : SvcMsg) (s : State) : Res :=
  s.serveDepot m 1 12 true (fun t =>
    let id := natAt (msgBody m) 0 8
    let cap := natAt (msgBody m) 8 4
    let room := shardRoom cap
    let own := t.shardsOf m
    let len := match t.ctx? (msgCtx m) with
      | some c => (c.segs.getD (msgSeg m) (0, 0)).2 * 4096
      | none => 0
    if 0x4000000 < room then t.svcReply m svBadReq []
    else if (t.shardFor m).isSome then t.svcReply m svBusy []
    else if 1024 ≤ own.length then t.svcReply m svNoSpace []
    else
      match t.placeExtents len room 3 (own.flatMap (fun x => x.ext.map (fun o => (o, shardRoom x.cap)))) [] with
      | (none, u) => u.svcReply m svNoSpace []
      | (some l, u) =>
        State.svcReply { u with mule := { u.mule with
            shards := u.mule.shards ++ [{ ctx := msgCtx m, seg := msgSeg m, id := id, cap := cap, ext := l }] } } m svOk [])

/-- The extent that neither the latest nor the previous version takes. -/
def Shard.freeExtent (x : Shard) : Nat :=
  let held (o : Nat) : Bool :=
    (match x.latest with | some (_, _, e) => e = o | none => false) ||
    (match x.prev with | some (_, _, e) => e = o | none => false)
  (x.ext.find? (fun o => !held o)).getD 0

/-- PUT; its stores wait for the hinge drain (R322). -/
def execPut (m : SvcMsg) (s : State) : Res :=
  .next (s.serveMsg m 1 2 (fun t =>
    let b := msgBody m
    let v := natAt b 8 4
    let off := natAt b 12 4
    let data := b.drop 16
    if b.length < 16 || 4064 < data.length then t.svcReply m svBadReq []
    else if !t.msgGranted m 1 true then t.svcReply m svNoGrant []
    else
      match t.shardFor m with
      | none => t.svcReply m svNotFound []
      | some x =>
        if (match x.latest with | some (w, _, _) => decide (v ≤ w) | none => false) then t.svcReply m svStale []
        else if x.cap < off + data.length then t.svcReply m svBadReq []
        else
          let e := match x.staged with
            | some (w, e) => if w = v then e else x.freeExtent
            | none => x.freeExtent
          match t.segAddr m.part (msgCtx m) (msgSeg m) (e + off) data.length with
          | none => t.svcReply m svNoGrant []
          | some a =>
            if t.depot.draining then s
            else
              let r := t.depotStream a data
              (r.2.setShard { x with staged := some (v, e) }).svcReply m (if r.1 then svOk else svMemErr) []))

/-- COMMIT. -/
def execCommit (m : SvcMsg) (s : State) : Res :=
  s.serveDepot m 3 16 true (fun t =>
    let v := natAt (msgBody m) 8 4
    let size := natAt (msgBody m) 12 4
    match t.shardFor m with
    | none => t.svcReply m svNotFound []
    | some x =>
      match x.staged with
      | none => t.svcReply m svStale []
      | some (w, e) =>
        if w ≠ v then t.svcReply m svStale []
        else if x.cap < size then t.svcReply m svBadReq []
        else (t.setShard { x with staged := none, latest := some (v, size, e), prev := x.latest }).svcReply m svOk [])

/-- The committed version that a request names, 0 naming the latest. -/
def Shard.version (x : Shard) (v : Nat) : Option (Nat × Nat × Nat) :=
  if v = 0 then x.latest else ([x.latest, x.prev].filterMap (fun o => o)).find? (fun y => y.1 = v)

/-- GET; its loads wait for the hinge drain (R322). (DEDUCED, log 104) -/
def execGet (m : SvcMsg) (s : State) : Res :=
  s.serveDepot m 4 20 false (fun t =>
    let b := msgBody m
    let off := natAt b 12 4
    let len := natAt b 16 4
    match t.shardFor m with
    | none => t.svcReply m svNotFound []
    | some x =>
      match x.version (natAt b 8 4) with
      | none => t.svcReply m svStale []
      | some (v, size, e) =>
        if 4064 < len || size < off + len then t.svcReply m svBadReq []
        else
          match t.segAddr m.part (msgCtx m) (msgSeg m) (e + off) len with
          | none => t.svcReply m svNoGrant []
          | some a =>
            if t.depot.draining then s
            else
              let r := t.depotRead a len
              if r.1 then r.2.2.svcReply m svOk (leBytes 4 v ++ leBytes 4 0 ++ r.2.1) else r.2.2.svcReply m svMemErr [])

/-- DROP. -/
def execDrop (m : SvcMsg) (s : State) : Res :=
  s.serveDepot m 5 8 true (fun t =>
    match t.shardFor m with
    | none => t.svcReply m svNotFound []
    | some x =>
      State.svcReply { t with mule := { t.mule with shards := t.mule.shards.filter (fun y =>
          !(y.ctx = x.ctx && y.seg = x.seg && y.id = x.id)) } } m svOk [])

/-! ### Roll-call (R409, R410) -/

def State.setJob (s : State) (k : Nat) (j : Job) : State := { s with mule := { s.mule with jobs := s.mule.jobs.set k j } }

/-- Every rank has joined and arrived at a barrier. -/
def Job.allAt (j : Job) (barrier : Nat) : Bool :=
  (List.range j.parts).all (fun r =>
    match j.ranks.get? r with
    | some a => j.arrivals.any (fun x => x.barrier = barrier && x.msg.src = a)
    | none => false)

/-- A barrier at which every rank has arrived is released. (DEDUCED, log 106) -/
def State.releaseBarrier (s : State) (k barrier : Nat) : State :=
  match s.mule.jobs.get? k with
  | none => s
  | some j =>
    if j.parts ≠ 0 && j.allAt barrier then
      (j.arrivals.filter (fun x => x.barrier = barrier)).foldl (fun t x => t.svcReply x.msg svOk [])
        (s.setJob k { j with arrivals := j.arrivals.filter (fun x => x.barrier ≠ barrier) })
    else s

/-- A Roll-call request on a job that exists. (DEDUCED, log 104) -/
def State.withJob (s : State) (m : SvcMsg) (act : Job → State) : State :=
  match s.mule.jobs.get? (msgScope m) with
  | none => s.svcReply m (if msgScope m = 0 then svBadReq else svNotFound) []
  | some j => act j

/-- JOIN. (DEDUCED, log 106) -/
def execJoin (m : SvcMsg) (s : State) : Res :=
  s.serveFixed m 2 1 8 (fun t =>
    let k := msgScope m
    let rank := natAt (msgBody m) 0 4
    let parts := natAt (msgBody m) 4 4
    let j := t.mule.jobs.getD k { parts := parts, ranks := [] }
    if k = 0 || parts = 0 || 4096 < parts || parts ≤ rank then t.svcReply m svBadReq []
    else if (t.mule.jobs.get? k).isNone && 64 ≤ t.mule.jobs.length then t.svcReply m svNoSpace []
    else if j.parts ≠ parts then t.svcReply m svBadReq []
    else
      let moved : Bool := match j.ranks.get? rank with
        | some a => a ≠ m.src
        | none => false
      let j1 := { j with ranks := j.ranks.set rank m.src, gen := if moved then j.gen + 1 else j.gen }
      j1.arrivals.foldl (fun u x => u.releaseBarrier k x.barrier) ((t.setJob k j1).svcReply m svOk (leBytes 4 j1.gen)))

/-- LEAVE. (DEDUCED, log 106) -/
def execLeave (m : SvcMsg) (s : State) : Res :=
  s.serveFixed m 2 2 4 (fun t => t.withJob m (fun j =>
    let rank := natAt (msgBody m) 0 4
    if (j.ranks.get? rank).isSome then
      (t.setJob (msgScope m) { j with ranks := j.ranks.erase rank }).svcReply m svOk []
    else t.svcReply m svNotFound []))

/-- ARRIVE: the reply is withheld. (DEDUCED, log 106) -/
def execArrive (m : SvcMsg) (s : State) : Res :=
  s.serveFixed m 2 3 4 (fun t => t.withJob m (fun j =>
    let b := natAt (msgBody m) 0 4
    match j.ranks.find? (fun e => e.2 = m.src) with
    | none => t.svcReply m svNotFound []
    | some e =>
      (t.setJob (msgScope m) { j with
        arrivals := j.arrivals ++ [{ rank := e.1, barrier := b, msg := m, tick := t.rooster.tickNo }] }).releaseBarrier
          (msgScope m) b))

/-- ARRIVE_TIMEOUT. -/
def execArriveTimeout (job : Nat) (s : State) : Res :=
  .next
    (match s.mule.jobs.get? job with
     | none => s
     | some j =>
       let late (x : Arrival) : Bool := 65536 ≤ (s.rooster.tickNo - x.tick).toNat
       if s.alive && s.fw.muleUp && j.arrivals.any late then
         (j.arrivals.filter late).foldl (fun t x => t.svcReply x.msg svLost [])
           (s.setJob job { j with arrivals := j.arrivals.filter (fun x => !late x) })
       else s)

/-- PROPOSE. -/
def execPropose (m : SvcMsg) (s : State) : Res :=
  .next (s.serveMsg m 2 5 (fun t =>
    let b := msgBody m
    let topic := natAt b 0 4
    if b.length < 4 || 68 < b.length then t.svcReply m svBadReq []
    else t.withJob m (fun j =>
      match j.topics.get? topic with
      | some v => t.svcReply m svOk v
      | none =>
        if 256 ≤ j.topics.length then t.svcReply m svNoSpace []
        else (t.setJob (msgScope m) { j with topics := j.topics.set topic (b.drop 4) }).svcReply m svOk (b.drop 4))))

/-- FORGET. -/
def execForget (m : SvcMsg) (s : State) : Res :=
  s.serveFixed m 2 6 4 (fun t => t.withJob m (fun j =>
    let topic := natAt (msgBody m) 0 4
    if (j.topics.get? topic).isSome then
      (t.setJob (msgScope m) { j with topics := j.topics.erase topic }).svcReply m svOk []
    else t.svcReply m svNotFound []))

/-! ### Checkpoint drain (R412, R413) -/

/-- Parts of a drain. -/
def Drain.count (d : Drain) : Nat := ceilDiv d.len 0x1000000

/-- DRAIN. -/
def execDrain (m : SvcMsg) (s : State) : Res :=
  s.serveFixed m 3 1 30 (fun t =>
    let b := msgBody m
    let len := natAt b 8 8
    if !t.msgGranted m 3 false then t.svcReply m svNoGrant []
    else if len = 0 || 2 ^ 40 < len then t.svcReply m svBadReq []
    else if 64 ≤ t.mule.drains.length then t.svcReply m svBusy []
    else
      { t with mule := { t.mule with
          nextDrain := t.mule.nextDrain + 1
          drains := t.mule.drains ++ [{
            id := t.mule.nextDrain, req := m, ctx := msgCtx m, seg := msgSeg m, offset := natAt b 0 8, len := len
            rank := natAt b 16 4, obj := natAt b 20 8, dq := natAt b 28 2 }] } })

/-- A part is sent from its start under a new MSG. -/
def State.sendPart (s : State) (d : Drain) (k sends : Nat) (next : Nat) : State :=
  let msg := s.mule.msgNo
  let t : State := { s with mule := { s.mule with msgNo := msg + 1 } }
  t.setDrain { d with next := next, parts := d.parts.set k { sends := sends, msg := msg, tick := s.rooster.tickNo } }

/-- DRAIN_PART_START: the next part starts once the one before it has been sent. -/
def execDrainPartStart (id : Nat) (s : State) : Res :=
  .next
    (match s.mule.drains.find? (fun d => d.id = id) with
     | none => s
     | some d =>
       if s.alive && s.fw.muleUp && s.mule.throttle < 3 && d.next < d.count && d.sending.isNone then
         s.sendPart d d.next 1 (d.next + 1)
       else s)

/-- PART_DONE. (DEDUCED, log 107) -/
def execPartDone (m : SvcMsg) (s : State) : Res :=
  s.serveFixed m 3 2 12 (fun t =>
    let obj := natAt (msgBody m) 0 8
    let k := natAt (msgBody m) 8 4
    if !t.msgGranted m 3 false then t.svcReply m svNoGrant []
    else
      match t.mule.drains.find? (fun d => d.obj = obj && d.ctx = msgCtx m && d.seg = msgSeg m && (d.parts.get? k).isSome) with
      | none => t.svcReply m svNotFound []
      | some d =>
        let d1 := { d with parts := d.parts.set k { d.parts.getD k {} with done := true } }
        let u := (t.setDrain d1).svcReply m svOk []
        if d1.next = d1.count && d1.parts.all (fun e => e.2.done) then u.endDrain d1 svOk (leBytes 8 d.len) else u)

/-- PART_RESEND: a part whose LOSS echo has come, or without PART_DONE after 64 ticks, is sent again, or ends the drain after
its fourth send. (DEDUCED, log 107) -/
def execPartResend (id part : Nat) (s : State) : Res :=
  .next
    (match s.mule.drains.find? (fun d => d.id = id) with
     | none => s
     | some d =>
       match d.parts.get? part with
       | none => s
       | some x =>
         if s.alive && s.fw.muleUp && !x.done && (x.lost || 64 ≤ (s.rooster.tickNo - x.tick).toNat) then
           (if 4 ≤ x.sends then s.endDrain d svLost [] else s.sendPart d part (x.sends + 1) d.next)
         else s)

/-! ### Calls of Mule -/

/-- Mule makes a call through gate slot 0. -/
def State.muleCall (s : State) (r : GateReq) : State :=
  let t := s.setGateSlot 0 { s.gateSlot 0 with pending := true }
  { t with gate := { t.gate with queue := gateInsert ⟨s.time, 0, false, r⟩ t.gate.queue } }

/-- A call of a code is not held back by an earlier refusal (R396). -/
def State.mayRetry (s : State) (code : Nat) : Bool :=
  match s.mule.backoff.get? code with
  | some t => t.toNat ≤ s.rooster.tickNo.toNat
  | none => true

/-- A PF call of the same code does not bar Mule's decision (R397). -/
def State.holdOver (s : State) (h : Option Word) : Bool :=
  match h with
  | some t => 65536 ≤ (s.rooster.tickNo - t).toNat
  | none => true

/-- No epoch request of Mule's own is in flight, and no switch is under way (R396). -/
def State.epochIdle (s : State) : Bool :=
  s.mule.requests.all (fun w => w.msg.isSome) && s.mule.held.all (fun w => w.msg.isSome) && s.mule.flooded.isNone &&
  s.mule.staging.isNone && s.epoch.armed.isNone

/-- A decision is logged. -/
def State.decide_ (s : State) (code subject before after : Nat) : State :=
  s.log (.decision code s.rooster.tickNo subject before after)

/-! ### Swap sets (R429, R430) -/

/-- A call record of a swap set; one that is no epoch-table call is submitted as it stands and refused. -/
def swapCall (b : List Byte) : GateReq :=
  let code := natAt b 0 4
  let args := (List.range 8).map (fun i => BitVec.ofNat 64 (natAt b (8 + 8 * i) 8))
  match (if code < 256 then Config.gateArgs (BitVec.ofNat 8 code) args else none) with
  | some r => if r.code = code && r.epochTable then r else .undefined code
  | none => .undefined code

/-- The calls of the swap set that a shard body holds for a key. -/
def swapCalls (b : List Byte) (key : BitVec 24) : List GateReq :=
  let n := natAt b 4 2
  if natAt b 0 4 = 0x54455353 && 1 ≤ n && n ≤ 1000 && natAt b 8 3 = key.toNat then
    (List.range n).map (fun i => swapCall (bytesAt b (16 + 72 * i) 72))
  else []

/-- The swap set for a key in the granted segments, lowest context first. -/
def State.findSwap (s : State) (key : BitVec 24) : State × List GateReq :=
  let ok (x : Shard) : Bool := x.id = 0x5357415000000000 + key.toNat && x.latest.isSome && s.granted x.ctx x.seg 1 true
  match (List.range 1024).findSome? (fun c => s.mule.shards.find? (fun x => x.ctx = c && ok x)) with
  | none => (s, [])
  | some x =>
    match x.latest with
    | none => (s, [])
    | some (_, size, e) =>
      match s.segAddr (s.ctxPart x.ctx) x.ctx x.seg e size with
      | none => (s, [])
      | some a =>
        let r := s.depotRead a size
        (r.2.2, if r.1 then swapCalls r.2.1 key else [])

/-! ### The flood (R454-R456) -/

/-- The Dolmo partners on ACTIVE, unquarantined ports, but one port. -/
def State.dolmoPartners (s : State) (but : Nat) : List (BitVec 24) :=
  (List.range 49).filterMap (fun p =>
    let q := s.port p
    if p ≠ but && q.active && !q.quarantined then
      (match q.caps with
       | some c => if c.dolmo then some c.loc else none
       | none => none)
    else none)

/-- A message to the Mule of a Dolmo. -/
def State.toMule (s : State) (loc : BitVec 24) (bytes : List Byte) : State :=
  s.muleSendC (mkAddr loc 0x41) 0 Config.fabricCtx bytes

/-- A flooded switch is staged and armed here: the swap sets of its keys, then ARM_EPOCH. (DEDUCED, log 109) -/
def State.stageArm (s : State) (t : Word) (toEpoch : BitVec 32) (keys : List (BitVec 24)) : State :=
  if s.epoch.armed = some t && toEpoch = s.epoch.current + 1 then s
  else if toEpoch ≠ s.epoch.current + 1 || s.epoch.armed.isSome then s.log .armConflict
  else
    let r := keys.foldl (fun (a : State × List GateReq) k =>
      let f := a.1.findSwap k
      (f.1, a.2 ++ f.2)) (s, [])
    let u : State := { r.1 with mule := { r.1.mule with staging := some (t, []) } }
    (r.2.foldl (fun a q => a.muleCall q) u).muleCall (.armEpoch t false 0)

/-- The earliest tick of a flood that leaves now: at least t + 8, whose tick t_e - 8 ends at least 200 µs later. -/
def State.earliestTick (s : State) : Nat :=
  let now := s.rooster.tickNo.toNat
  let end0 := s.rooster.hingeTime + s.tickNs
  let need := s.time + 200000
  now + 8 + (if end0 < need then ceilDiv (need - end0) s.tickNs else 0)

/-- Requests taken into one flood: all that stand before a ninth key. -/
def floodTake : (keys : Nat) → List ArmWait → List ArmWait
  | _, [] => []
  | n, w :: t =>
    if w.key.isNone then w :: floodTake n t
    else if n < 8 then w :: floodTake (n + 1) t
    else []

/-- ARM_FLOOD: the GM's Mule floods an ARM for the requests it holds, answers them, and arms itself. -/
def State.floodHeld (s : State) : State :=
  let take := floodTake 0 s.mule.held
  if s.rooster.st ≠ .gm || s.mule.flooded.isSome || take.isEmpty then s
  else
    let keys := (take.filterMap ArmWait.key).eraseDups
    let t := BitVec.ofNat 64 (take.foldl (fun a w => max a w.t.toNat) s.earliestTick)
    let id := BitVec.ofNat 64 (s.power.loc.toNat + s.mule.armSeq * 2 ^ 24)
    let next := s.epoch.current + 1
    let body := leBytes 8 id.toNat ++ leBytes 8 t.toNat ++ leBytes 4 next.toNat ++ leBytes 1 keys.length ++ leBytes 3 0 ++
      keys.flatMap (fun k => leBytes 4 k.toNat)
    let r := s.muleReq
    let bytes := svcBytes 0 2 r.1 0 body
    let u : State := { r.2 with mule := { r.2.mule with
      held := r.2.mule.held.drop take.length, flooded := some t, armSeq := r.2.mule.armSeq + 1
      armSeen := r.2.mule.armSeen ++ [id] } }
    let v := (u.dolmoPartners 49).foldl (fun a l => a.toMule l bytes) u
    let w := take.foldl (fun a x => match x.msg with
      | some m => a.svcReply m svOk (leBytes 8 t.toNat)
      | none => a) v
    w.stageArm t next keys

/-- ARM_REQ: the GM accepts the request and floods it, or holds it; another Dolmo passes it on. A reply to a request of
Mule's own, or to one it passed on, ends that request. (DEDUCED, log 108) -/
def execArmReq (m : SvcMsg) (s : State) : Res :=
  let b := msgBody m
  if msgOp m = 129 then
    .next (s.serveMsg m 0 129 (fun t =>
      match t.mule.requests.find? (fun w => w.id = msgReq m) with
      | none => t
      | some w =>
        let u : State := { t with mule := { t.mule with requests := t.mule.requests.filter (fun x => x.id ≠ w.id) } }
        match w.msg with
        | some q => u.svcReply q (natAt m.bytes 2 1) b
        | none => u))
  else
    s.serveFixed m 0 1 12 (fun t =>
      let tick := BitVec.ofNat 64 (natAt b 0 8)
      let key : Option (BitVec 24) := if bitOf (natAt b 8 4) 24 then some (BitVec.ofNat 24 (natAt b 8 3)) else none
      if t.rooster.st = .gm then
        State.floodHeld { t with mule := { t.mule with
            held := t.mule.held ++ [{ id := msgReq m, t := tick, key := key, msg := some m, tick := t.rooster.tickNo }] } }
      else
        let r := t.muleReq
        State.toMule { r.2 with mule := { r.2.mule with
            requests := r.2.mule.requests ++ [{ id := r.1, t := tick, key := key, msg := some m, tick := t.rooster.tickNo }] } }
          (r.2.rooster.gmKey.setWidth 24) (svcBytes 0 1 r.1 0 b))

/-- ARM_REQ_RESEND: requests of Mule's own that have had no answer for 8 ticks are sent again, or flooded where this Dolmo has
become GM. -/
def execArmReqResend (s : State) : Res :=
  .next
    (let now := s.rooster.tickNo
     let due (w : ArmWait) : Bool := w.msg.isNone && 8 ≤ (now - w.tick).toNat
     if s.alive && s.fw.muleUp then
       (s.mule.requests.filter due).foldl (fun t w =>
         let u : State := { t with mule := { t.mule with requests := t.mule.requests.filter (fun x => x.id ≠ w.id) } }
         let w1 := { w with tick := now }
         if u.rooster.st = .gm then State.floodHeld { u with mule := { u.mule with held := u.mule.held ++ [w1] } }
         else
           let l := match w.key with | some k => k.toNat + 2 ^ 24 | none => 0
           State.toMule { u with mule := { u.mule with requests := u.mule.requests ++ [w1] } } (u.rooster.gmKey.setWidth 24)
             (svcBytes 0 1 w.id 0 (leBytes 8 w.t.toNat ++ leBytes 4 l))) s
     else s)

/-- HELD_ARM_FLOOD. -/
def execHeldArmFlood (s : State) : Res := .next (if s.alive && s.fw.muleUp then s.floodHeld else s)

/-- ARM: forwarded, staged and armed. (DEDUCED, log 109) -/
def execArm (port : Nat) (m : SvcMsg) (s : State) : Res :=
  withPort port (.next (s.serveMsg m 0 2 (fun t =>
    let b := msgBody m
    let id := BitVec.ofNat 64 (natAt b 0 8)
    let n := min 8 (natAt b 20 1)
    if t.mule.armSeen.contains id then t
    else
      let u : State := { t with mule := { t.mule with armSeen := t.mule.armSeen ++ [id] } }
      let v := (u.dolmoPartners port).foldl (fun a l => a.toMule l m.bytes) u
      v.stageArm (BitVec.ofNat 64 (natAt b 8 8)) (BitVec.ofNat 32 (natAt b 16 4))
        ((List.range n).map (fun i => BitVec.ofNat 24 (natAt b (24 + 4 * i) 3))))))

/-- STAGING_DEADLINE: 20 µs before the end of tick T - 8, calls not yet served are dropped, and Mule arms. -/
def execStagingDeadline (s : State) : Res :=
  .next
    (match s.mule.staging with
     | none => s
     | some (t, _) =>
       let end_ := s.rooster.hingeTime + (t.toNat - 7 - s.rooster.tickNo.toNat) * s.tickNs
       let mine (w : GateWait) : Bool := w.slot = 0 && w.req.epochTable
       if s.alive && s.fw.muleUp && end_ ≤ s.time + 20000 then
         let u : State := { s with
           gate := { s.gate with queue := s.gate.queue.filter (fun w => !mine w) }
           mule := { s.mule with staging := none } }
         if s.gate.queue.any mine then u.log .armPartial else u
       else s)

/-! ### Variants (R399, R400, R423, R430) -/

/-- A variant fits the digest. -/
def Digest.fits (d : Digest) (v : Variant) : Bool :=
  (maskList 49 v.uses.toNat).all (fun p =>
    match d.ports.get? p with
    | none => false
    | some q =>
      let w := if p = 48 then v.minTwin else v.minWidth
      !q.down && !q.quarantine && w ≤ q.widthIn && w ≤ q.widthOut)

/-- The lowest-numbered variant of a plan that passes a test. -/
def Plan.lowest (pl : Plan) (f : Variant → Bool) : Option Nat := pl.variants.findIdx? f

/-- Mule's policy applies to a partition: it runs, and not under a solo plan while the Dolmo is SOLO. -/
def State.underPolicy (s : State) (p : Nat) : Bool :=
  (s.thread p).st = .running && !(s.twin.st = .solo && (s.epoch.cur.variant.getD p 0).getLsbD 6)

/-- Mule may decide on a variant now. -/
def State.mayVary (s : State) : Bool := s.epochIdle && s.holdOver s.mule.holdVariant && s.mayRetry 0x24

/-- A variant is requested: staged, and armed for the earliest tick. (DEDUCED, log 110) -/
def State.requestVariant (s : State) (p v : Nat) : State :=
  let old := s.nextVariants.getD p 0
  let new := (old &&& ~~~7#7) ||| BitVec.ofNat 7 v
  ((s.decide_ 0x24 p old.toNat new.toNat).muleCall (.setVariant p new)).armRequest 0 none

/-- LOC at the last CAPS of the lowest-numbered DOWN or quarantined port that a variant uses. -/
def State.swapKey (s : State) (v : Variant) : Option (BitVec 24) :=
  ((maskList 49 v.uses.toNat).find? (fun p => (s.port p).down || (s.port p).quarantined)).bind (fun p => (s.port p).lastLoc)

/-- No variant fits: the swap set for the failed neighbour is asked for once, and DEGRADE_NONE is logged where there is none
or it has not helped. (DEDUCED, log 110) -/
def State.requestSwap (s : State) (p : Nat) (v : Variant) : State :=
  let mark (t : State) (k : BitVec 24) (b : Bool) : State :=
    { t with mule := { t.mule with swapAsked := t.mule.swapAsked.set p (k, b) } }
  match s.swapKey v with
  | none => if (s.mule.swapAsked.get? p).isSome then s else (mark s 0 true).log (.degradeNone p)
  | some k =>
    match s.mule.swapAsked.get? p with
    | some (j, told) =>
      if j = k then (if told || !s.epochIdle then s else (mark s k true).log (.degradeNone p))
      else if s.epochIdle then (mark s k false).armRequest 0 (some k) else s
    | none => if s.epochIdle then (mark s k false).armRequest 0 (some k) else s

/-- VARIANT_REQUEST for one partition, and the run of hinges at which its lowest normal variant fits. (DEDUCED, log 110) -/
def State.reviewVariant (s : State) (d : Digest) (p : Nat) : State :=
  match s.planOf p with
  | none => s
  | some pl =>
    if !s.underPolicy p then s
    else
      let run := match pl.lowest (fun v => !v.limp) with
        | some k => (match pl.variants[k]? with
          | some v => if d.fits v then s.mule.fitRun.getD p 0 + 1 else 0
          | none => 0)
        | none => 0
      let t : State := { s with mule := { s.mule with fitRun := s.mule.fitRun.set p run } }
      match s.variantOf p with
      | none => t
      | some v =>
        if d.fits v then { t with mule := { t.mule with swapAsked := t.mule.swapAsked.erase p } }
        else
          match pl.lowest d.fits with
          | some k => if t.mayVary then t.requestVariant p k else t
          | none => t.requestSwap p v

/-! ### Lanes, naps and heat (R398, R402, R404) -/

/-- Mule excludes a lane that was dropped 4 times within 4,096 ticks. -/
def State.reviewLane (s : State) (p j : Nat) : State :=
  let l := s.lane p j
  let now := s.rooster.tickNo
  let recent := l.drops.filter (fun t => (now - t).toNat ≤ 4096)
  if 4 ≤ recent.length && l.heldUntil.isNone && s.holdOver s.mule.holdPort && s.mayRetry 0x30 then
    ((s.setLane p j { l with drops := [], heldUntil := some (now + 1048576) }).decide_ 0x30 (laneKey p j) 0 1).muleCall
      (.setPort p (.hold j true))
  else s

/-- Sleep windows of a gap of `g` slots from slot `a` on, written from slot `x` with `r` slots left. -/
def napRun : (fuel x r : Nat) → List (Nat × Nat)
  | 0, _, _ => []
  | n + 1, x, r =>
    if 15 ≤ r then (x, 15) :: napRun n (x + 16) (r - 16)
    else if 2 ≤ r then [(x, r)]
    else []

/-- Gaps of the slots from `k` to N - 2: runs that no reservation covers. -/
def gapRuns (free : Nat → Bool) : (n k : Nat) → (start : Option Nat) → List (Nat × Nat)
  | 0, k, some a => [(a, k - a)]
  | 0, _, none => []
  | n + 1, k, st =>
    if free k then gapRuns free n (k + 1) (some (st.getD k))
    else
      match st with
      | some a => (a, k - a) :: gapRuns free n (k + 1) none
      | none => gapRuns free n (k + 1) none

/-- The nap map that R402 gives an eligible direction. (DEDUCED, log 111) -/
def State.napPlan (s : State) (p : Nat) : List (Nat × Nat) :=
  let resv := (s.epoch.cur.grants.flatMap Prod.snd).filter (fun g => g.port = p && g.out)
  let free (k : Nat) : Bool := resv.all (fun g => !(g.first ≤ k && k < g.first + g.count))
  ((gapRuns free (s.rooster.slots - 2) 1 none).flatMap (fun g => napRun g.2 (g.1 + 1) (g.2 - 1))).take 128

/-- Nap-eligible: no stall, and few class B and C frames or a throttle level. -/
def State.napEligible (s : State) (p : Nat) (d : PortDigest) : Bool :=
  let h := (s.port p).histBC
  !d.stalled && (1 ≤ s.mule.throttle || h.foldl (· + ·) 0 * 64 < s.rooster.slots * max 1 h.length)

/-- NAP_MAP_WRITE. -/
def State.reviewNap (s : State) (d : Digest) (p : Nat) : State :=
  match d.ports.get? p with
  | none => s
  | some x =>
    let want := if s.napEligible p x then s.napPlan p else []
    if (s.port p).active && s.mayRetry 0x31 && want ≠ ((s.port p).napStaged.getD (s.port p).napMap) then
      (s.decide_ 0x31 p (s.port p).napMap.length want.length).muleCall
        (.setNapMap p (want.map (fun w => BitVec.ofNat 32 (w.1 + w.2 * 2 ^ 14))))
    else s

/-- Die and stack thresholds of a level (Table 16.2). -/
def throttleAt : Nat → Int × Int | 1 => (95, 80) | 2 => (100, 85) | _ => (105, 90)

/-- Some reading is at or above the thresholds of a level, less a margin. -/
def samplesHot (x : Samples) (level : Nat) (margin : Int) : Bool :=
  let t := throttleAt level
  t.1 - margin ≤ x.west.toInt || t.1 - margin ≤ x.east.toInt || t.2 - margin ≤ x.stack0.toInt || t.2 - margin ≤ x.stack1.toInt ||
  t.2 - margin ≤ x.stack2.toInt || t.2 - margin ≤ x.stack3.toInt

/-- THROTTLE_RAISE: the runs of hot and cool hinges, and the level that two hot hinges call for. -/
def State.reviewHeat (s : State) (d : Digest) : State :=
  let m := s.mule
  let run (l n : Nat) : Nat := if samplesHot d.samples l 0 then n + 1 else 0
  let h1 := run 1 m.hot1
  let h2 := run 2 m.hot2
  let h3 := run 3 m.hot3
  let cool := if m.throttle ≠ 0 && !samplesHot d.samples m.throttle 2 then m.cool + 1 else 0
  let want := if 2 ≤ h3 then 3 else if 2 ≤ h2 then 2 else if 2 ≤ h1 then 1 else 0
  let t : State := { s with mule := { m with hot1 := h1, hot2 := h2, hot3 := h3, cool := cool } }
  if m.throttle < want && t.mayRetry 0x32 then (t.decide_ 0x32 0 m.throttle want).muleCall (.throttle want) else t

/-- PF calls that GATE_LOG shows bar Mule's own decisions of their code (R397). -/
def State.reviewLog (s : State) (d : Digest) : State :=
  let seen (c : Nat) (h : Option Word) : Option Word := if d.gateLog.contains c then some d.tick else h
  { s with mule := { s.mule with
      holdSpread := seen 0x21 s.mule.holdSpread, holdVariant := seen 0x24 s.mule.holdVariant
      holdPort := seen 0x30 s.mule.holdPort } }

/-- MULE_HINGE_REVIEW: once for each digest, Mule decides on lanes, variants, naps and throttling. -/
def execMuleHingeReview (s : State) : Res :=
  .next
    (match s.mule.digest with
     | none => s
     | some d =>
       if !s.alive || !s.fw.muleUp || s.mule.reviewed then s
       else
         let s0 : State := { s with mule := { s.mule with reviewed := true } }
         let s1 := s0.reviewLog d
         let s2 := (List.range 49).foldl (fun t p => (List.range (laneCount p)).foldl (fun u j => u.reviewLane p j) t) s1
         let s3 := (List.range 128).foldl (fun t p => t.reviewVariant d p) s2
         let s4 := (List.range 49).foldl (fun t p => t.reviewNap d p) s3
         s4.reviewHeat d)

/-! ### Spread weights (R401) -/

/-- The target weight of a member: 0 where it is DOWN or quarantined, else by its width and its marked fraction; a field of
4 bits holds at most 15. -/
def State.spreadTarget (s : State) (p : Nat) : Nat :=
  let q := s.port p
  let b := q.histB.foldl (· + ·) 0
  let m := q.histMark.foldl (· + ·) 0
  if q.down || q.quarantined then 0
  else if b = 0 then min 15 (max 1 ((30 * q.widthOut + 8) / 16))
  else min 15 (max 1 ((30 * q.widthOut * (b - m) + 8 * b) / (16 * b)))

/-- Members of a spread entry: the sets of the KIND 1 route entries that name it. -/
def State.spreadMembers (s : State) (k : Nat) : List Nat :=
  let sets := (s.epoch.cur.route.filter (fun e => reKind e.2 = 1 && reSpread e.2 = k)).map (fun e => reSet e.2)
  (List.range 49).filter (fun p => sets.any (fun m => m.testBit p))

/-- The weights that an entry should have, where some target differs from the weight in force by 2 or more.
(DEDUCED, log 111) -/
def State.spreadWanted (s : State) (k : Nat) : Option (List Nat) :=
  let now := s.epoch.cur.spread.getD k (List.replicate 49 0)
  let l := s.spreadMembers k
  if l.any (fun p => let t := s.spreadTarget p; let w := now.getD p 0; 2 ≤ (t - w) + (w - t)) then
    some ((List.range 49).map (fun p => if l.contains p then s.spreadTarget p else now.getD p 0))
  else none

/-- SPREAD_WEIGHT_REVIEW. -/
def execSpreadWeightReview (s : State) : Res :=
  .next
    (match s.mule.digest with
     | none => s
     | some d =>
       let due := (List.range 64).filterMap (fun k => (s.spreadWanted k).map (fun w => (k, w)))
       if s.alive && s.fw.muleUp && d.tick = s.rooster.tickNo && d.tick.toNat % 64 = 0 && s.rooster.slot = 0 && s.epochIdle &&
           s.holdOver s.mule.holdSpread && s.mayRetry 0x21 && !due.isEmpty then
         (due.foldl (fun t e => (t.decide_ 0x21 e.1 ((s.epoch.cur.spread.getD e.1 []).foldl (· + ·) 0)
           (e.2.foldl (· + ·) 0)).muleCall (.setSpread e.1 e.2)) s).armRequest 0 none
       else s)

/-! ### Decisions that end others (R398, R400, R404) -/

/-- LANE_EXCLUSION_RELEASE. -/
def execLaneExclusionRelease (port lane : Nat) (s : State) : Res :=
  withLane port lane (.next
    (let l := s.lane port lane
     match l.heldUntil with
     | none => s
     | some t =>
       if s.alive && s.fw.muleUp && t.toNat ≤ s.rooster.tickNo.toNat && s.holdOver s.mule.holdPort && s.mayRetry 0x30 then
         ((s.setLane port lane { l with heldUntil := none }).decide_ 0x30 (laneKey port lane) 1 0).muleCall
           (.setPort port (.hold lane false))
       else s))

/-- NORMAL_VARIANT_RETURN. -/
def execNormalVariantReturn (p : Nat) (s : State) : Res :=
  withPart p (.next
    (match s.planOf p with
     | none => s
     | some pl =>
       match pl.lowest (fun v => !v.limp) with
       | none => s
       | some k =>
         if s.alive && s.fw.muleUp && s.underPolicy p && 64 ≤ s.mule.fitRun.getD p 0 && (s.thread p).variant ≠ k && s.mayVary then
           s.requestVariant p k
         else s))

/-- THROTTLE_LOWER. -/
def execThrottleLower (s : State) : Res :=
  .next
    (let m := s.mule
     if s.alive && s.fw.muleUp && m.throttle ≠ 0 && 64 ≤ m.cool && s.mayRetry 0x32 then
       (State.decide_ { s with mule := { m with cool := 0 } } 0x32 0 m.throttle (m.throttle - 1)).muleCall (.throttle (m.throttle - 1))
     else s)

end Sys2Proof.Machine
end

