-- ==== Sys2Proof/Machine/Twins.lean ====
section
/-! DEFINITION. The twin (chapter 17), with the heartbeat, and the lane-settings procedure (R461, R462). -/

namespace Sys2Proof.Machine

/-- Half of the window of R20, R416 and R31, in 1/4 ns: 64 ns. -/
def hingeWindow : Int := 256

/-- An offset lies within 64 ns. -/
def inWindow (offset : Int) : Bool := -hingeWindow ≤ offset && offset ≤ hingeWindow

/-- What comes in the last slot, ahead of the hinge it belongs to, is kept for that hinge. (DEDUCED, log 113) -/
def State.ahead (s : State) (offset : Int) : Bool := s.rooster.slots ≤ s.rooster.slot + 1 && offset < 0 && s.rooster.slot ≠ 0

/-- A command kept for the coming hinge. (DEDUCED, log 113) -/
def State.keepEarly (s : State) (i : Instr) : State :=
  { s with rooster := { s.rooster with early := s.rooster.early ++ [i] } }

/-! ### What a heartbeat says (Table 17.3) -/

/-- TWIN_STATUS.STATE. -/
def TwinState.code : TwinState → Nat
  | .unpaired => 0 | .paired => 1 | .linkOnly => 2 | .solo => 3 | .standby => 4 | .detached => 5

/-- A word, all ones where there is none. -/
def orOnes : Option Word → Word
  | some w => w
  | none => BitVec.allOnes 64

/-- Ports that are DOWN or quarantined. -/
def State.portsDown (s : State) : Nat := listMask ((List.range 49).filter (fun p => (s.port p).down || (s.port p).quarantined))

/-- One VARIANTS nibble: the variant in force and SOLO_EN. -/
def State.variantNibble (s : State) (p : Nat) : Nat :=
  (s.thread p).variant % 8 + 8 * b2n ((s.epoch.cur.variant.getD p 0).getLsbD 6)

/-- The 256 B payload of this hinge's HEARTBEAT. -/
def State.heartbeatPayload (s : State) : List Byte :=
  let flags := b2n s.power.ready + 2 * b2n s.fw.muleUp + 4 * b2n s.twin.attachAt.isSome + 8 * b2n s.twin.detachAt.isSome
  let running := listMask ((List.range 128).filter (fun p => (s.thread p).st = .running))
  let pairTick := match s.twin.attachAt with | some a => some a | none => s.twin.detachAt
  leBytes 8 s.rooster.tickNo.toNat ++ leBytes 3 s.power.loc.toNat ++ leBytes 1 s.twin.st.code ++
    leBytes 4 s.epoch.current.toNat ++ leBytes 8 (orOnes s.epoch.armed).toNat ++ leBytes 1 flags ++
    leBytes 1 (s.west.level % 4 + 4 * (s.east.level % 4) + 16 * (s.mule.throttle % 4)) ++ List.replicate 6 0 ++
    leBytes 8 (orOnes pairTick).toNat ++ leBytes 7 s.portsDown ++ [0] ++ leBytes 16 running ++
    (List.range 64).map (fun i => BitVec.ofNat 8 (s.variantNibble (2 * i) + 16 * s.variantNibble (2 * i + 1))) ++
    List.replicate 128 0

/-- The link to the twin works: port 48 is ACTIVE with the pair location behind it (R414). -/
def State.twinLink (s : State) : Bool :=
  let q := s.port 48
  q.active && !q.down && !q.quarantined

/-! ### Variants in SOLO (R257, R420, R423) -/

/-- The variant that PLAN_VARIANT puts in force for a partition: SOLO where its solo variant runs, else VARIANT. -/
def planVariant (v : BitVec 7) (solo : Bool) : Nat :=
  if solo && v.getLsbD 6 then bitsOf v.toNat 5 3 else bitsOf v.toNat 2 0

/-- The ENTRY of the variant in force. -/
def State.entryOf (s : State) (p : Nat) : Nat :=
  match s.variantOf p with
  | some v => v.entry
  | none => 0

/-- A partition passes to its solo variant, or back, at a hinge: a RUNNING thread that finished the tick just ended starts at
the ENTRY of the variant now in force. -/
def State.setSolo (s : State) (p : Nat) (solo : Bool) : State :=
  let s1 := s.modThread p (fun t => { t with solo := solo, variant := planVariant (s.epoch.cur.variant.getD p 0) solo })
  if (s.thread p).st = .running then s1.modThread p (fun t => { t with pc := s1.entryOf p }) else s1

/-! ### Entering SOLO (R423, R425) -/

/-- A partition goes over to its solo variant when SOLO is entered. -/
def State.goesSolo (s : State) (p : Nat) : Bool :=
  (s.thread p).st = .running && (s.thread p).lastTicked && (s.epoch.cur.variant.getD p 0).getLsbD 6

/-- The twin falls silent or leaves: the survivor takes over. -/
def State.enterSolo (s : State) : State :=
  let s1 := State.bumpDev { s with twin := { s.twin with st := .solo, joiner := false, adoptsNext := some true } } dkTwinTakeover
  let s2 := (List.range 128).foldl (fun t p => if t.goesSolo p then t.setSolo p true else t) s1
  let s3 := s2.handOver.portDownQueues 48
  if s3.fw.muleUp then s3.armRequest 0 (some s3.pairLoc) else s3

/-! ### Hearing the twin (R416, R418, R422) -/

/-- An accepted heartbeat with payload `b`. The joiner names A as PAIR_TICK, the survivor as its ARMED_TICK. -/
def State.heartbeatIn (s : State) (b : List Byte) (offset : Int) : State :=
  let tw := s.twin
  let far := natAt b 11 1 % 8
  let flags := natAt b 24 1
  let tick := BitVec.ofNat 64 (natAt b 32 8)
  let tw1 : Twin := { tw with
    hbNow := some b, hbHeard := tw.hbHeard || inWindow offset, farState := some far
    st := if tw.st = .linkOnly then .paired else tw.st
    joiner := decide (tw.st = .solo) && far = 4
    attachNamed :=
      if bitOf flags 2 then some tick
      else if tw.st = .standby then some (BitVec.ofNat 64 (natAt b 16 8)) else tw.attachNamed
    detachNamed := if bitOf flags 3 then some tick else tw.detachNamed }
  let s1 : State := { s with twin := tw1 }
  if far = 5 && tw1.st = .paired then s1.enterSolo else s1

/-- A HEARTBEAT: it is accepted on port 48 with the local tick number and the pair location. (DEDUCED, log 130) -/
def State.heartbeat (s : State) (port : Nat) (f : RxFrame) (offset : Int) : State :=
  match s.linkRx port tyHeartbeat f with
  | (s1, some b) =>
    if port = 48 && natAt b 0 8 = s.rooster.tickNo.toNat && natAt b 8 3 = s.pairLoc.toNat then s1.heartbeatIn b offset
    else s1.bumpDev dkHbBad
  | (s1, none) =>
    if s.alive && (s.port port).active && f.hdr.typ.toNat = tyHeartbeat then s1.bumpDev dkHbBad else s1

/-- HEARTBEAT. -/
def execHeartbeat (port : Nat) (f : RxFrame) (offset : Int) (s : State) : Res :=
  withPort port (.next (if s.ahead offset then s.keepEarly (.heartbeat port f offset) else s.heartbeat port f offset))

/-- A rising edge on TWIN_PULSE_IN. -/
def State.twinPulse (s : State) (offset : Int) : State :=
  if s.alive && inWindow offset then { s with twin := { s.twin with pulseNow := true } } else s

/-- TWIN_PULSE_IN_EDGE. -/
def execTwinPulseInEdge (offset : Int) (s : State) : Res :=
  .next (if s.ahead offset then s.keepEarly (.twinPulseInEdge offset) else s.twinPulse offset)

/-- The present hinge is heard. -/
def Twin.heardNow (t : Twin) : Bool := t.markNow || t.hbHeard || t.pulseNow

/-- At a hinge, what was heard at the hinge before is drawn up, and hearing starts anew. (DEDUCED, log 132) -/
def Twin.drawUp (t : Twin) (ready : Bool) : Twin :=
  { t with
    hbLast := t.hbNow.isSome, pulseLast := t.pulseNow
    silent := if t.heardNow then 0 else min 7 (t.silent + 1)
    hbMiss := if t.pulseNow && t.hbNow.isNone then t.hbMiss + 1 else 0
    mirror := match t.hbNow with | some b => b | none => t.mirror
    heardSince := t.heardSince || (t.readyHinges ≠ 0 && t.heardNow)
    readyHinges := if ready then min 8 (t.readyHinges + 1) else t.readyHinges
    unheardSinceArm := t.unheardSinceArm || !t.heardNow
    markNow := false, hbNow := none, hbHeard := false, pulseNow := false }

/-! ### States of the pair (Table 17.1) -/

/-- An UNPAIRED Dolmo has heard its twin: beside a survivor in SOLO it joins, beside one that has left it stands alone.
(DEDUCED, log 131) -/
def State.paired (s : State) : State :=
  match s.twin.farState with
  | some 3 => { s with twin := { s.twin with st := .standby } }
  | some 5 => s.enterSolo
  | _ => { s with twin := { s.twin with st := .paired } }

/-- PAIRING_DECISION: at the hinge after one that was heard, or at the 4th hinge after READY. (DEDUCED, log 131) -/
def execPairingDecision (s : State) : Res :=
  .next
    (let t := s.twin
     if s.alive && s.power.ready && s.rooster.slot = 0 && t.st = .unpaired then
       if t.heardSince then s.paired
       else if 4 ≤ t.readyHinges && !t.heardNow then s.enterSolo
       else s
     else s)

/-- LINK_ONLY_ENTRY: pulses without heartbeats at three consecutive hinges. (DEDUCED, log 133) -/
def execLinkOnlyEntry (s : State) : Res :=
  .next
    (let t := s.twin
     if s.alive && t.st = .paired && t.pulseNow && t.hbNow.isNone && 3 ≤ t.hbMiss + 1 then
       { s with twin := { t with st := .linkOnly } }
     else s)

/-- SOLO_ENTRY: at the hinge after three consecutive unheard ones. (DEDUCED, log 133) -/
def execSoloEntry (s : State) : Res :=
  .next
    (if s.alive && s.rooster.slot = 0 && 3 ≤ s.twin.silent && (s.twin.st = .paired || s.twin.st = .linkOnly) then s.enterSolo
     else s)

/-! ### Leaving and rejoining (R426, R428) -/

/-- A RUNNING thread stops as PART_CTL.STOP stops it: HALTED, with its unretired work squashed (R335, R237). -/
def State.haltThread (s : State) (p : Nat) : State :=
  if (s.thread p).st = .running then
    ((s.squashAll p).dropSends p).modThread p (fun t => { t with st := .halted, waiting := false })
  else s

/-- DETACH: at the hinge of D. -/
def execDetach (s : State) : Res :=
  .next
    (let t := s.twin
     let now := some s.rooster.tickNo
     if !s.alive || s.rooster.slot ≠ 0 then s
     else if t.detachAt = now then
       let s1 : State := { s with twin := { t with st := .detached, detachAt := none } }
       (List.range 128).foldl (fun a p => a.haltThread p) s1
     else if t.detachNamed = now && (t.st = .paired || t.st = .linkOnly) then
       State.enterSolo { s with twin := { t with detachNamed := none } }
     else s)

/-- The pair is whole again: solo variants end, engines pass on (R215), and the pair location is the twin's own from slot 1. -/
def State.rejoin (s : State) : State :=
  let s1 : State := { s with twin := { s.twin with st := .paired, joiner := false, adoptsNext := some false } }
  ((List.range 128).foldl (fun t p => if (t.thread p).solo then t.setSolo p false else t) s1).handOver

/-- The conditions of R428 for an attach at tick `a`. (DEDUCED, log 132) -/
def Twin.mayAttach (t : Twin) (a : Word) : Bool := !t.unheardSinceArm && t.attachNamed = some a

/-- An attach is due at tick `a`: the joiner's driver asked for it, or the joiner's heartbeats named it.
(DEDUCED, log 132) -/
def Twin.attachDue (t : Twin) (a : Word) : Bool :=
  (t.st = .standby && t.attachAt = some a) || (t.st = .solo && t.attachNamed = some a)

/-- ATTACH: at the hinge of A. -/
def execAttach (s : State) : Res :=
  .next
    (let t := s.twin
     let now := s.rooster.tickNo
     if s.alive && s.rooster.slot = 0 && t.attachDue now then
       let s1 : State := { s with twin := { t with attachAt := none, attachNamed := none } }
       if t.mayAttach now then s1.rejoin else s1.bumpPort 48 pkTwinAttachFail
     else s)

/-! ### Lane settings (R461, R462) -/

/-- The width that the variants in force of RUNNING partitions need on a port. -/
def State.widthNeeded (s : State) (port : Nat) : Nat :=
  (List.range 128).foldl (fun m p =>
    if (s.thread p).st = .running then
      match s.variantOf p with
      | some v => if v.uses.getLsbD port then max m (if port = 48 then v.minTwin else v.minWidth) else m
      | none => m
    else m) 1

/-- A lane may leave both healthy sets now. -/
def State.laneSpare (s : State) (port l : Nat) : Bool :=
  let q := s.port port
  let w (h : BitVec 16) : Nat := maskWidth (laneSet port (h &&& ~~~laneBit l))
  s.widthNeeded port ≤ w q.healthyIn && s.widthNeeded port ≤ w q.healthyOut

/-- A logical lane leaves both healthy sets; the change of the outgoing set takes effect at slot 1, that of the incoming one
when the partner realigns. A lane that stood by retrains at once. (DEDUCED, log 65) -/
def State.takeOutLane (s : State) (port l : Nat) (pr : LaneProc) : State :=
  match s.physOf port l with
  | none => s.modPort port (fun q => { q with lanProc := some { pr with todo := pr.todo.tail, waited := 0 } })
  | some j =>
    let s1 := s.modPort port (fun q =>
      let h := q.healthyOut &&& ~~~laneBit l
      { q with
        healthyIn := q.healthyIn &&& ~~~laneBit l, healthyOut := h
        nextOut := if laneSet port h = q.maskOut then q.nextOut else some (laneSet port h)
        lanProc := some { pr with todo := pr.todo.tail, current := some j, waited := 0 } })
    if (s.lane port j).st = .standby then s1.laneTrain port j else s1

/-- The last lane has completed: the reach class is judged again (R77). (DEDUCED, log 66) -/
def State.endLanes (s : State) (port : Nat) : State :=
  s.modPort port (fun q => { q with
    lanProc := none
    linkReach := match q.caps with | some c => max q.reach c.reach | none => q.linkReach })

/-- Step 1 for the next lane, or the end of the procedure. -/
def State.nextLane (s : State) (port : Nat) (pr : LaneProc) : State :=
  match pr.todo with
  | [] => s.endLanes port
  | l :: _ =>
    if s.laneSpare port l then s.takeOutLane port l pr
    else s.modPort port (fun q => { q with lanProc := some { pr with waited := pr.waited + 1 } })

/-- The lane being changed is a standby lane again and has been readmitted. (DEDUCED, log 65) -/
def State.laneBack (s : State) (port j : Nat) : Bool :=
  let l := s.lane port j
  l.capsDone && (l.st = .standby || l.st = .active) && (s.port port).healthyIn.getLsbD l.logical

/-- The lane being changed has failed training with the new settings (R91). (DEDUCED, log 66) -/
def State.laneFailed (s : State) (port j : Nat) : Bool := (s.lane port j).fails ≠ 0

/-- LANE_CHANGE_STEP: one step of the procedure at a hinge. A port that is no longer ACTIVE brings every lane up with the new
settings anyway. (DEDUCED, log 65) -/
def execLaneChangeStep (port : Nat) (s : State) : Res :=
  withPort port (.next
    (match (s.port port).lanProc with
     | none => s
     | some pr =>
       if !s.alive || s.rooster.slot ≠ 0 then s
       else if !(s.port port).active then s.endLanes port
       else
         match pr.current with
         | none => if pr.waited < 64 || pr.undoing then s.nextLane port pr else s
         | some j =>
           if s.laneBack port j || (pr.undoing && s.laneFailed port j) then
             s.nextLane port { pr with current := none, done := pr.done ++ [(s.lane port j).logical] }
           else s))

/-- The old settings of a stopped procedure are put back. -/
def State.oldSettings (s : State) (port : Nat) (pr : LaneProc) : State :=
  let s1 := s.modPort port (fun q => { q with reach := pr.oldReach })
  match pr.newLane, pr.oldLane with
  | some (j, _, _), some (k, o) => s1.modLane port j (fun l => { l with preset := k, presetOvr := o })
  | _, _ => s1

/-- LANE_CHANGE_TIMEOUT: the procedure stops, the failing lane retrains with the old settings, and the lanes already changed
follow one at a time. (DEDUCED, log 66) -/
def execLaneChangeTimeout (port : Nat) (s : State) : Res :=
  withPort port (.next
    (match (s.port port).lanProc with
     | none => s
     | some pr =>
       let failed := match pr.current with | some j => s.laneFailed port j | none => false
       if !s.alive || pr.undoing || !(failed || (pr.current.isNone && 64 ≤ pr.waited)) then s
       else
         let back : LaneProc := {
           todo := pr.done, current := pr.current, newReach := pr.oldReach, oldReach := pr.oldReach, undoing := true }
         let s1 := (s.oldSettings port pr).modPort port (fun q => { q with lanProc := some back })
         let s2 := match pr.current with
           | some j => (s1.modLane port j (fun l => { l with fails := 0 })).laneTrain port j
           | none => s1
         let s3 := s2.bumpPort port pkLaneChangeFail
         match pr.slot with
         | some k => s3.setGateSlot k { s3.gateSlot k with status := gsDrainTimeout, detail := 0x30 }
         | none => s3))

end Sys2Proof.Machine
end

