-- ==== Sys2Proof/Machine/Regs.lean ====
section
/-! DEFINITION. The registers (chapters 20 and 21): where each lies, what it reads, what a write to it does; 64-bit accesses in
halves (R10), the snapshot of the sequencer summary (R474); and SMBus (R373, R374). -/

namespace Sys2Proof.Machine

/-! ### What lies at an offset -/

/-- What a write to a register does. -/
inductive RegKind where
  /-- Nothing. -/
  | ro
  /-- It counts in BYPASS_COUNT (R464). -/
  | ga
  | mgmtCause
  | gateArg (slot k : Nat)
  | gateCall (slot : Nat)
  | gateStatus (slot : Nat)
  | portCfg (p : Nat)
  | portAsym (p : Nat)
  | portRange (p : Nat)
  | laneCfg (p j : Nat)
  | partCtl (p : Nat)
  | funcCause (p : Nat)
  | ctxCtl (c : Nat)
  | ctxCfg (c : Nat)
  | queueCfg (c k : Nat)
  | queueBase (c k : Nat)
  | queueWb (c k : Nat)
  | queueStatus (c k : Nat)
  | cqMod (q : Nat)
  /-- The doorbell page `page` of VF `vf`. -/
  | doorbell (vf page : Nat)
  /-- Word `w` of an MSI-X table entry. -/
  | msix (fn entry w : Nat)
  deriving DecidableEq, Repr

/-- A register: 64 bits wide or 32, the value it reads, and what a write to it does. -/
structure Reg where
  wide  : Bool
  value : Nat
  kind  : RegKind
  deriving DecidableEq, Repr

/-- Two's complement in the low bits. -/
def tc (w : Nat) (v : Int) : Nat := unsigned w v

/-- A read-only register. -/
def ro32 (v : Nat) : Option Reg := some ⟨false, v, .ro⟩
def ro64 (v : Nat) : Option Reg := some ⟨true, v, .ro⟩
def ga32 (v : Nat) : Option Reg := some ⟨false, v, .ga⟩
def ga64 (v : Nat) : Option Reg := some ⟨true, v, .ga⟩

/-- Counter `k` of a run of 64-bit counters, where the offset from its start names one. -/
def State.counterReg (s : State) (base off n : Nat) : Option Reg :=
  if off % 8 = 0 && off / 8 < n then ro64 (s.ctr (base + off / 8)).toNat else none

/-- Bit number `i` of DRAIN_STATUS (R459): a pending change counts from its H0 on. -/
def State.drainBits (s : State) : Nat :=
  listMask ((List.range 5).filter (fun k => s.gate.drains.any (fun d => d.row = k && d.age.isSome)))

/-- Identity and device status (Table 20.2). -/
def State.identReg (s : State) (off : Nat) : Option Reg :=
  match off with
  | 0x00 => ro32 (Config.vendorId.toNat + deviceId * 2 ^ 16)
  | 0x04 => ro32 (1 + b2n Config.isOptical * 2 ^ 8 + Config.romVersion.toNat * 2 ^ 16)
  | 0x08 => ro64 Config.serial.toNat
  | 0x10 => ro32 (s.phase + 8 * b2n s.power.ready + 16 * b2n s.power.depotFail + 32 * s.power.stackFail.toNat)
  | 0x18 => ro32 (s.power.loc.toNat + 2 ^ 24 * b2n s.power.strapBad + 2 ^ 25 * b2n s.power.dup)
  | 0x20 => some ⟨false, s.power.mgmtCause.toNat, .mgmtCause⟩
  | 0x28 => ro32 s.drainBits
  | _ => none

/-- TICK_STATUS.STATE (Table 20.3). -/
def RoosterState.code : RoosterState → Nat
  | .free => 0 | .acquiring => 1 | .locked => 2 | .holdover => 3 | .gm => 4

/-- TICK_STATUS. (DEDUCED, log 121) -/
def Rooster.status (r : Rooster) : Nat :=
  r.st.code + 8 * b2n r.wide + 16 * b2n r.far + 32 * b2n r.refLive + 2 ^ 8 * (r.hops % 256) + 2 ^ 16 * r.slots +
    2 ^ 32 * r.gmKey.toNat + 2 ^ 57 * (match r.parent with | some p => p | none => 63)

/-- Tick and epoch (Table 20.3), by the offset from 0x1000. -/
def State.tickReg (s : State) (off : Nat) : Option Reg :=
  let r := s.rooster
  match off with
  | 0x00 => ga32 (r.cfgSlots + 2 ^ 16 * b2n r.gmEligible + 2 ^ 17 * b2n r.refEn)
  | 0x08 => ro64 r.status
  | 0x10 => ro64 r.tickNo.toNat
  | 0x18 => ro32 (if r.st = .free then 0 else r.slot)
  | 0x1C => ro32 (tc 32 r.offset)
  | 0x28 => ro64 (s.epoch.current.toNat + 2 ^ 32 * b2n s.epoch.split + 2 ^ 33 * b2n s.epoch.armed.isSome)
  | 0x30 => ro64 (orOnes s.epoch.armed).toNat
  | 0x38 => ro32 s.epoch.dirtySeen.toNat
  | _ => none

/-- Buffers of a pool that are in no use. -/
def Die.freeCount (v : Die) (k : Nat) : Nat := (v.pool k).mib * 4096 / poolStep k - (v.pool k).used.length

/-- HEN_STATUS (R189). LIST_BAD and a pending resize of the depot pools show on the East die. (DEDUCED, log 137) -/
def State.henStatus (s : State) (d : Nat) : Nat :=
  let v := s.die d
  let m := s.depot
  let depotResize := (s.drainFor 3 (fun r => match r with | .setPools (.depot _) => true | _ => false)).isSome
  v.level + 4 * b2n v.descEmpty + (if d = 1 then 8 * b2n m.p3.bad + 16 * b2n m.p4.bad else 0) +
    32 * b2n (v.resize.isSome || (decide (d = 1) && depotResize))

/-- A die block (Table 20.4). -/
def State.dieReg (s : State) (d off : Nat) : Option Reg :=
  let v := s.die d
  match off with
  | 0x00 => ga32 (v.alpha + 16 * v.mcHold)
  | 0x08 => ro64 (s.shared d + 2 ^ 32 * s.freeShared d)
  | 0x10 => ga32 (v.thrA + 2 ^ 8 * v.thrR + 2 ^ 16 * v.thrB)
  | 0x18 => ga32 (v.p0.mib + 2 ^ 8 * v.p1.mib + 2 ^ 16 * v.p2.mib)
  | 0x20 => ro32 (s.henStatus d)
  | 0x28 => ro32 (v.freeCount 0)
  | 0x30 => ro32 (v.freeCount 1)
  | 0x38 => ro32 (v.freeCount 2)
  | _ => if 0x100 ≤ off then s.counterReg (dieCtr d 0) (off - 0x100) 8 else none

/-- Free buffers of a depot pool, 0 while its list is bad. -/
def DepotPool.freeCount (p : DepotPool) (k : Nat) : Nat := if p.bad then 0 else depotCount k p.mib - p.used.length

/-- Depot pools (Table 20.6), by the offset from 0x2800. -/
def State.poolReg (s : State) (off : Nat) : Option Reg :=
  match off with
  | 0x00 => ga32 s.depot.p3.mib
  | 0x08 => ro32 (s.depot.p3.freeCount 3)
  | 0x10 => ro32 (s.depot.p4.freeCount 4)
  | _ => none

/-- An engine block (Table 20.7). (DEDUCED, log 128) -/
def State.engineReg (s : State) (e off : Nat) : Option Reg :=
  let v := s.engine e
  if off = 0 then
    ro32 ((match v.owner with | some p => p + 128 | none => 0) +
      2 ^ 8 * (match v.shown with | some w => w | none => s.oxUse e))
  else if 8 ≤ off then s.counterReg (engCtr e 0) (off - 8) 7
  else none

/-- The threads from partition `p` to `p + 63` that pass a test. -/
def State.threadMask (s : State) (p : Nat) (f : ThreadState → Bool) : Nat :=
  listMask ((List.range 64).filter (fun i => f (s.thread (p + i)).st))

/-- The six registers of the sequencer summary (R474). -/
def State.seqNow (s : State) : List Word :=
  [s.threadMask 0 (· ≠ .empty), s.threadMask 64 (· ≠ .empty), s.threadMask 0 (· = .running), s.threadMask 64 (· = .running),
   s.threadMask 0 (· = .stopped), s.threadMask 64 (· = .stopped)].map (BitVec.ofNat 64)

/-- The sequencer summary as it is read: the snapshot, except at its first register. -/
def State.seqReg (s : State) (off : Nat) : Option Reg :=
  if off % 8 = 0 && off ≤ 0x28 then
    let now := s.seqNow
    let l := if off = 0 then now else s.access.snapshot.getD now
    ro64 (l.getD (off / 8) 0).toNat
  else none

/-- GATE_STATUS (Table 15.2). -/
def State.gateStatus (s : State) (slot : Nat) : Nat :=
  let g := s.gateSlot slot
  b2n g.pending + 2 * b2n g.lost + 2 ^ 8 * g.status + 2 ^ 16 * g.detail +
    2 ^ 32 * (if slot = 1 then (s.ctr bypassCtr).toNat else 0)

/-- A gate slot (Table 20.9). -/
def State.gateReg (s : State) (slot off : Nat) : Option Reg :=
  if off = 0x40 then some ⟨false, 0, .gateCall slot⟩
  else if off = 0x48 then some ⟨true, s.gateStatus slot, .gateStatus slot⟩
  else if off % 8 = 0 && off < 0x40 then some ⟨true, ((s.gateSlot slot).args.getD (off / 8) 0).toNat, .gateArg slot (off / 8)⟩
  else none

/-- FW_STATUS (Table 20.8). -/
def Fw.status (f : Fw) : Nat :=
  b2n f.fatal + 2 * b2n f.recovery + 4 * b2n f.bootFailA + 8 * b2n f.bootFailB + 16 * b2n f.bootCopyB + 32 * b2n f.muleHeld +
    64 * b2n f.logFull + 128 * b2n f.muleUp + 2 ^ 8 * f.minSvn + 2 ^ 32 * (if f.muleUp then f.muleSvn else 0)

/-- TWIN_STATUS (Table 17.2). -/
def Twin.status (t : Twin) : Nat :=
  t.st.code + 8 * b2n t.hbLast + 16 * b2n t.pulseLast + 32 * t.silent + 256 * b2n t.joiner

/-- Firmware, PF gate slot, twin and thermal (R475-R479), by the offset from 0x5000. -/
def State.fwReg (s : State) (off : Nat) : Option Reg :=
  let m := s.mule.samples
  if off = 0 then ro64 s.fw.status
  else if 0x100 ≤ off && off < 0x150 then s.gateReg 1 (off - 0x100)
  else if off = 0x200 then ro32 s.twin.status
  else if 0x300 ≤ off && off < 0x400 then
    (if off % 8 = 0 then ro64 (natAt s.twin.mirror (off - 0x300) 8) else none)
  else if off = 0x400 then ro32 (m.west.toNat + 2 ^ 16 * m.east.toNat)
  else if off = 0x408 then
    ro64 (m.stack0.toNat + 2 ^ 16 * m.stack1.toNat + 2 ^ 32 * m.stack2.toNat + 2 ^ 48 * m.stack3.toNat)
  else if off = 0x410 then ro32 m.watts.toNat
  else if off = 0x418 then ro32 s.mule.throttle
  else none

/-! ### Port and lane blocks (Tables 21.2-21.6) -/

/-- PORT_CFG as last written, by whichever source. (DEDUCED, log 137) -/
def Port.cfg (q : Port) : Nat :=
  let (en, ex) := q.cfgStaged.getD (q.enable, q.exclude)
  b2n en + 2 * q.reach + 2 ^ 8 * ex.toNat

/-- QREASON: the highest quarantine reason. -/
def Port.qReason (q : Port) : Nat := if q.qLanes then 3 else if q.qRole then 2 else if q.qLoc then 1 else 0

/-- The codes of PWR_OUT and PWR_IN. -/
def Power.code : Power → Nat
  | .awake => 0 | .nap => 1 | .doze => 2 | .off => 3

/-- PORT_STATUS (Table 21.4). -/
def Port.status (q : Port) : Nat :=
  q.widthIn + 2 ^ 5 * q.widthOut + 2 ^ 10 * q.maskIn.toNat + 2 ^ 26 * q.maskOut.toNat + 2 ^ 42 * b2n q.down +
    2 ^ 43 * b2n q.reversed + 2 ^ 44 * b2n q.quarantined + 2 ^ 45 * q.qReason + 2 ^ 47 * b2n (q.credB.stalled || q.credC.stalled) +
    2 ^ 48 * b2n q.delayPlan + 2 ^ 49 * b2n q.lanProc.isSome + 2 ^ 50 * q.linkReach + 2 ^ 52 * q.pwrOut.code +
    2 ^ 54 * q.pwrIn.code + 2 ^ 56 * b2n q.active

/-- LANE_STATUS (Table 21.6). -/
def Lane.status (l : Lane) : Nat :=
  l.st.code + 2 ^ 4 * l.eye + 2 ^ 12 * b2n l.absent + 2 ^ 13 * b2n l.excluded + 2 ^ 14 * b2n l.miswired +
    2 ^ 15 * b2n l.muleHeld + 2 ^ 16 * b2n l.inverted + 2 ^ 17 * l.logical

/-- LANE_TAPS. -/
def Lane.taps (l : Lane) : Nat := tc 8 l.cm1 + 2 ^ 8 * tc 8 (64 + l.cm1 + l.cp1) + 2 ^ 16 * tc 8 l.cp1

/-- A lane sub-block. -/
def State.laneReg (s : State) (p j off : Nat) : Option Reg :=
  let l := s.lane p j
  match off with
  | 0x00 => ro32 l.status
  | 0x08 => ro32 l.taps
  | 0x10 => some ⟨false, l.preset + 8 * b2n l.presetOvr, .laneCfg p j⟩
  | _ => if 0x20 ≤ off then s.counterReg (laneCtr p j 0) (off - 0x20) 7 else none

/-- A port block. -/
def State.portReg (s : State) (p off : Nat) : Option Reg :=
  let q := s.port p
  match off with
  | 0x00 => some ⟨false, q.cfg, .portCfg p⟩
  | 0x08 => some ⟨false, (q.asymStaged.getD q.asym).toNat, .portAsym p⟩
  | 0x10 => some ⟨false, 0, .portRange p⟩
  | 0x18 => ro64 (q.delayOut + 2 ^ 16 * q.delayIn + 2 ^ 32 * b2n q.delayOver)
  | 0x20 => ro64 q.status
  | 0x28 => ga64 ((s.acct p false).gmin + 2 ^ 32 * (s.acct p true).gmin)
  | 0x30 => ro64 (q.sIn + 2 ^ 32 * q.sOut)
  | 0x38 => ga32 q.crowdThr
  | _ =>
    if 0x400 ≤ off && off < 0x800 then s.counterReg (portCtr p 0) (off - 0x400) 48
    else if 0x800 ≤ off && (off - 0x800) / 0x80 < laneCount p then s.laneReg p ((off - 0x800) / 0x80) ((off - 0x800) % 0x80)
    else none

/-! ### Partition, context and queue blocks (Tables 21.7-21.10) -/

/-- THREAD_STATUS.STATE (R242). -/
def ThreadState.code : ThreadState → Nat
  | .empty => 0 | .halted => 1 | .running => 2 | .stopped => 3

/-- THREAD_STATUS. -/
def Thread.status (t : Thread) : Nat :=
  let expects := (t.recs.filter (fun r => match r.op with | .expect .. => true | _ => false)).length
  t.st.code + 4 * t.variant + 2 ^ 5 * b2n t.solo + 2 ^ 6 * t.recs.length + 2 ^ 13 * expects +
    2 ^ 16 * (if t.st = .empty then 0 else t.pc)

/-- A partition block. -/
def State.partReg (s : State) (p off : Nat) : Option Reg :=
  let t := s.thread p
  let q := s.part p
  match off with
  | 0x00 => ro32 t.status
  | 0x08 => ro64 (t.fCode + 2 ^ 8 * t.fPc + 2 ^ 24 * t.fSlot)
  | 0x10 => ro64 t.fTick.toNat
  | 0x18 => some ⟨false, 0, .partCtl p⟩
  | 0x20 => ga32 (q.carve.1 + 2 ^ 16 * q.carve.2)
  | 0x28 => ga64 q.ports.toNat
  | 0x30 => ga32 (q.minW + 2 ^ 16 * q.minE)
  | 0x38 => ga32 (s.epoch.cur.variant.getD p 0).toNat
  | 0x40 => some ⟨false, q.cause.toNat, .funcCause p⟩
  | 0x48 => ro32 (match s.planOf p with | some pl => pl.homeCtx + 2 ^ 10 * pl.variants.length | none => 0)
  | _ => if 0x100 ≤ off then s.counterReg (partCtr p 0) (off - 0x100) 9 else none

/-- QUEUE_STATUS. -/
def QSlot.status (q : QSlot) : Nat :=
  b2n q.enabled + 2 * b2n q.cfgReject + 4 * b2n q.noQid + 8 * b2n q.overflow + 16 * b2n q.disabling +
    2 ^ 16 * (if q.enabled then q.qid else 0)

/-- A queue slot. -/
def State.qslotReg (s : State) (c k off : Nat) : Option Reg :=
  let q := s.qslot c k
  match off with
  | 0x00 => some ⟨true, q.cfgWord, .queueCfg c k⟩
  | 0x08 => some ⟨true, q.base.toNat, .queueBase c k⟩
  | 0x10 => some ⟨true, q.wb.toNat, .queueWb c k⟩
  | 0x18 => some ⟨false, q.status, .queueStatus c k⟩
  | _ => none

/-- A context block. Where no context holds the number, what has no listed reset value reads 0, and the counters keep their
final counts (R483, R484). (DEDUCED, log 136) -/
def State.ctxReg (s : State) (c off : Nat) : Option Reg :=
  let x := s.ctx? c
  if 0x200 ≤ off then s.qslotReg c ((off - 0x200) / 0x20) ((off - 0x200) % 0x20)
  else if 0x0C0 ≤ off then s.counterReg (ctxCtr c 0) (off - 0x0C0) 10
  else if 0x040 ≤ off then
    if off % 8 ≠ 0 then none
    else
      match x with
      | some v => let g := v.segs.getD ((off - 0x40) / 8) (0, 0); ga64 (g.1 + 2 ^ 32 * g.2)
      | none => ro64 0
  else
    match off with
    | 0x00 => ro64 (match x with
        | some v => 1 + 2 * v.part + 2 ^ 8 * v.fault + 2 ^ 16 * b2n (s.isHome v.part c) + 2 ^ 17 * b2n v.destroying +
            2 ^ 32 * c + 2 ^ 48 * v.wslot
        | none => 0)
    | 0x08 => some ⟨false, 0, .ctxCtl c⟩
    | 0x10 => some ⟨false, (match x with | some v => v.eq | none => 31), .ctxCfg c⟩
    | 0x18 => ro32 (match x with | some v => v.msg.toNat | none => 0)
    | _ => none

/-- A queue block. (DEDUCED, log 136) -/
def State.queueReg (s : State) (q off : Nat) : Option Reg :=
  let x := s.queue? q
  match off with
  | 0x00 => ro32 (match x with | some v => v.ctx + 2 ^ 10 * v.slot + 2 ^ 14 * v.kind | none => 0)
  | 0x08 => ro32 (match x with | some v => v.pi.toNat + 2 ^ 16 * v.ci.toNat | none => 0)
  | 0x10 => some ⟨false, (match x with | some v => v.cqCount + 2 ^ 8 * v.cqDelay | none => 1), .cqMod q⟩
  | 0x18 => ro32 (match x with | some v => v.pending + 2 ^ 16 * b2n (decide (v.kind = 3) && v.armed) | none => 0)
  | 0x20 => ro32 (match x with | some v => if v.kind = 1 then v.rate else 0 | none => 0)
  | 0x28 => ro64 (s.ctr (queueCtr q)).toNat
  | _ => none

/-! ### MSI-X tables (R363, R367) -/

/-- A word of an MSI-X table. (PRESUMED, log 135) -/
def State.msixReg (s : State) (fn off : Nat) : Option Reg :=
  let f := s.func fn
  let e := off / 16
  let w := off % 16 / 4
  let v := f.vectors.getD e (0, 0)
  if off % 4 = 0 && e < vectorCount fn then
    some ⟨false, (match w with
      | 0 => v.1.toNat % 2 ^ 32
      | 1 => v.1.toNat / 2 ^ 32
      | 2 => v.2.toNat
      | _ => b2n (!f.unmasked.contains e)), .msix fn e w⟩
  else none

/-- The pending bits of a function. -/
def State.pbaReg (s : State) (fn off : Nat) : Option Reg :=
  if off = 0 then ro64 (listMask ((s.func fn).pba.filter (· < 64))) else none

/-! ### The maps (Tables 20.1 and 21.1) -/

/-- The register at an offset of the PF's BAR0. -/
def State.pfReg (s : State) (off : Nat) : Option Reg :=
  if off < 0x1000 then s.identReg off
  else if off < 0x2000 then s.tickReg (off - 0x1000)
  else if off < 0x2800 then s.dieReg ((off - 0x2000) / 0x400) ((off - 0x2000) % 0x400)
  else if off < 0x3000 then s.poolReg (off - 0x2800)
  else if off < 0x3800 then s.engineReg ((off - 0x3000) / 0x40) ((off - 0x3000) % 0x40)
  else if off < 0x4000 then none
  else if off < 0x5000 then s.seqReg (off - 0x4000)
  else if off < 0x6000 then s.fwReg (off - 0x5000)
  else if off < 0x7000 then s.counterReg (devCtr 0) (off - 0x6000) 29
  else if off < 0x10000 then none
  else if off < 0x41000 then s.portReg ((off - 0x10000) / 0x1000) ((off - 0x10000) % 0x1000)
  else if off < 0x100000 then none
  else if off < 0x180000 then s.partReg ((off - 0x100000) / 0x1000) ((off - 0x100000) % 0x1000)
  else if off < 0x200000 then none
  else if off < 0x300000 then s.ctxReg ((off - 0x200000) / 0x400) ((off - 0x200000) % 0x400)
  else if off < 0x400000 then none
  else if off < 0x500000 then s.queueReg ((off - 0x400000) / 0x100) ((off - 0x400000) % 0x100)
  else if off < 0x1F00000 then none
  else if off < 0x1F01000 then s.msixReg 0 (off - 0x1F00000)
  else if off < 0x1F02000 then s.pbaReg 0 (off - 0x1F01000)
  else none

/-- The register at an offset of the BAR0 of VF `p + 1`. -/
def State.vfReg (s : State) (p off : Nat) : Option Reg :=
  if off < 0x1000 then s.partReg p off
  else if off < 0x1050 then s.gateReg (p + 2) (off - 0x1000)
  else if off < 0x2000 then none
  else if off < 0xA000 then
    match s.ctxs.find? (fun e => e.2.part = p && e.2.wslot = (off - 0x2000) / 0x400) with
    | some e => s.ctxReg e.1 ((off - 0x2000) % 0x400)
    | none => none
  else if off < 0xC000 then s.queueReg (32 * p + (off - 0xA000) / 0x100) ((off - 0xA000) % 0x100)
  else if off < 0xE000 then none
  else if off < 0xF000 then s.msixReg (p + 1) (off - 0xE000)
  else if off < 0x10000 then s.pbaReg (p + 1) (off - 0xF000)
  else none

/-- A VF's BAR2: at offset 0 of each page, the doorbell, which reads the last INDEX accepted (R361). (DEDUCED, log 173) -/
def State.bellReg (s : State) (n off : Nat) : Option Reg :=
  let k := off / 0x1000
  if k < 32 && off % 0x1000 = 0 then
    some ⟨false, (match s.queue? (32 * (n - 1) + k) with | some q => q.lastDb.toNat | none => 0), .doorbell n k⟩
  else none

/-- The register at an offset, by a path. SMBus reads by the PF's offsets (Table 14.5). -/
def State.regAt (s : State) (path : Path) (off : Nat) : Option Reg :=
  match path with
  | .vf n => if 1 ≤ n && n ≤ 128 then s.vfReg (n - 1) off else none
  | .bell n => if 1 ≤ n && n ≤ 128 then s.bellReg n off else none
  | _ => s.pfReg off

/-! ### Reads (R9, R10) -/

/-- A 64-bit read at an aligned offset. (DEDUCED, log 134) -/
def State.read64 (s : State) (path : Path) (off : Nat) : Nat :=
  let hi := match s.regAt path (off + 4) with
    | some r => if r.wide then 0 else r.value
    | none => 0
  match s.regAt path off with
  | some r => if r.wide then r.value else r.value + 2 ^ 32 * hi
  | none => 2 ^ 32 * hi

/-- A 32-bit read: the lower half of a 64-bit register latches the upper; a read of the upper half returns what the path
latched last, or 0 where it latched nothing. -/
def State.read32 (s : State) (path : Path) (off : Nat) : Nat × State :=
  let a := s.access
  match s.regAt path off with
  | some r =>
    if r.wide then
      (r.value % 2 ^ 32, { s with access := { a with latched := assocSet a.latched (path, off) (BitVec.ofNat 32 (r.value / 2 ^ 32)) } })
    else (r.value, s)
  | none =>
    match (if 4 ≤ off then s.regAt path (off - 4) else none) with
    | some r =>
      if r.wide then
        match assoc? a.latched (path, off - 4) with
        | some v => (v.toNat, s)
        | none => (0, s)
      else (0, s)
    | none => (0, s)

/-- The read of 0x4000 latches the sequencer summary for the other five registers (R474). -/
def State.snapshotAt (s : State) (path : Path) (off : Nat) : State :=
  match path with
  | .vf _ => s
  | .bell _ => s
  | _ => if off = 0x4000 then { s with access := { s.access with snapshot := some s.seqNow } } else s

/-- A read of `bytes` bytes, 4 or 8 of them aligned; other accesses, and those to a path that is not there, return 0 (R9).
(DEDUCED, log 134; DEDUCED, log 173) -/
def State.readAt (s : State) (path : Path) (off bytes : Nat) : Nat × State :=
  let t := s.snapshotAt path off
  if bytes = 8 && off % 8 = 0 then (t.read64 path off, t)
  else if bytes = 4 && off % 4 = 0 then t.read32 path off
  else (0, s)

/-- The registers can be read by a path: memory requests before READY return 0 (R369). -/
def State.readable (s : State) (path : Path) : Bool :=
  !s.power.coldReset && s.power.ready &&
  (match path with
   | .vf n => s.funcExists n && !(s.func n).flr
   | .bell n => s.funcExists n && !(s.func n).flr
   | _ => true)

/-! ### Writes (R9, R10, R464) -/

/-- A GA register is written: BYPASS_COUNT counts. -/
def State.bypass (s : State) : State := s.bump bypassCtr

/-- The gate call that the argument words of a slot spell (R453; the rest open). (DESIGN CHOICE, log 17) -/
def State.gateCallOf (s : State) (slot code : Nat) : Bool × GateReq :=
  let arg (k : Nat) : Word := (s.gateSlot slot).args.getD k 0
  if code = 0x26 then
    (decide (2 ≤ (arg 1).toNat) || decide (2 ^ 25 ≤ (arg 2).toNat), .armEpoch (arg 0) ((arg 1).getLsbD 0) ((arg 2).setWidth 25))
  else
    match Config.gateArgs (BitVec.ofNat 8 code) ((List.range 8).map arg) with
    | some r => (false, if r.code = code then r else .undefined code)
    | none => (false, .undefined code)

/-- GATE_CALL is written (R382, R477). -/
def State.writeGateCall (s : State) (slot v : Nat) : State :=
  let g := s.gateSlot slot
  if v < 256 then
    let c := s.gateCallOf slot v
    s.callGate ⟨slot, c.1⟩ c.2
  else if !s.slotOpen slot then s
  else if g.pending then s.setGateSlot slot { g with lost := true, lostAt := some s.time }
  else (s.setGateSlot slot (g.done false (if s.fw.fatal then gsFatal else gsBadCall) 0)).bumpDev dkGateRefused

/-- A PORT_CFG write is taken: no lane procedure runs, and REACH is not 0 (R486). -/
def State.portCfgOpen (s : State) (p : Nat) (v : Nat) : Bool := (s.port p).lanProc.isNone && bitsOf v 2 1 ≠ 0

/-- PORT_CFG. -/
def State.writePortCfg (s : State) (p v : Nat) : State :=
  if s.portCfgOpen p v then s.portCall p (.cfg (bitOf v 0) (bitsOf v 2 1) (BitVec.ofNat 16 (bitsOf v 23 8))) else s

/-- PART_CTL: of the bits written, the lowest that is legal acts; with none legal, the write is counted (R335). -/
def State.writePartCtl (s : State) (path : Path) (p v : Nat) : State :=
  let t := s.thread p
  let legal (k : Nat) : Bool := t.cmd ≠ some .flr &&
    (match k with | 0 => t.st = .halted | 1 => t.st = .running | _ => t.st = .stopped)
  match (List.range 3).filter (fun k => bitOf v k) with
  | [] => s
  | l =>
    match l.find? legal with
    | some 0 => s.partCtl path p .halted .start
    | some 1 => s.partCtl path p .running .stop
    | some _ => s.partCtl path p .stopped .restart
    | none => s.bumpPart p rkCtlIgnored

/-- QUEUE_CFG is committed (R342, R492). -/
def State.writeQueueCfg (s : State) (c k : Nat) (v : Word) : State :=
  let q := s.qslot c k
  if bitsOf v.toNat 19 4 = 0 then s.writeSize0 c k v
  else if q.enabled then s.setQslot c k (q.rejected s.time false)
  else
    match s.ctx? c with
    | none => s.setQslot c k (q.withCfg v)
    | some x => s.enableQueue c k x (q.withCfg v)

/-- QUEUE_BASE or QUEUE_WB is written; while the queue is enabled, it is rejected. -/
def State.writeQslot (s : State) (c k : Nat) (f : QSlot → QSlot) : State :=
  let q := s.qslot c k
  s.setQslot c k (if q.enabled then q.rejected s.time false else f q)

/-- A word of an MSI-X entry is written. (PRESUMED, log 135) -/
def State.writeMsix (s : State) (fn e w v : Nat) : State :=
  let f := s.func fn
  let x := f.vectors.getD e (0, 0)
  match w with
  | 0 => s.setFunc fn { f with vectors := f.vectors.set e (BitVec.ofNat 64 (x.1.toNat / 2 ^ 32 * 2 ^ 32 + v), x.2) }
  | 1 => s.setFunc fn { f with vectors := f.vectors.set e (BitVec.ofNat 64 (x.1.toNat % 2 ^ 32 + v * 2 ^ 32), x.2) }
  | 2 => s.setFunc fn { f with vectors := f.vectors.set e (x.1, BitVec.ofNat 32 v) }
  | _ => s.setMask fn e (bitOf v 0)

/-- A write to CTX_CFG (R491). -/
def State.writeEq (s : State) (c v : Nat) : State :=
  match s.ctx? c with
  | some x => let k := v % 32; if k = 31 || (s.cqAt c k).isSome then s.setCtx c { x with eq := k } else s
  | none => s

/-- A write of a whole register takes effect. (DEDUCED, log 172) -/
def State.commit (s : State) (path : Path) (kind : RegKind) (v : Nat) : State :=
  match kind with
  | .ro => s
  | .ga => s.bypass
  | .mgmtCause => s.clearMgmtCause (BitVec.ofNat 32 v)
  | .gateArg slot k =>
    let g := s.gateSlot slot
    s.setGateSlot slot { g with args := g.args.set k (BitVec.ofNat 64 v) }
  | .gateCall slot => s.writeGateCall slot v
  | .gateStatus slot =>
    let g := s.gateSlot slot
    if bitOf v 1 && g.lostAt ≠ some s.time then s.setGateSlot slot { g with lost := false } else s
  | .portCfg p => s.writePortCfg p v
  | .portAsym p => s.portCall p (.asym (BitVec.ofNat 16 v))
  | .portRange p => if bitOf v 0 && (s.port p).active && (s.port p).range.isNone then s.startRange p else s
  | .laneCfg p j => if (s.port p).lanProc.isNone && !coPackaged p then s.portCall p (.lane j (v % 8) (bitOf v 3)) else s
  | .partCtl p => s.writePartCtl path p v
  | .funcCause p => s.clearFuncCause p (BitVec.ofNat 32 v)
  | .ctxCtl c =>
    match s.ctx? c with
    | some x => if bitOf v 0 then s.setCtx c (x.clearedFault s.time) else s
    | none => s
  | .ctxCfg c => s.writeEq c v
  | .queueCfg c k => s.writeQueueCfg c k (BitVec.ofNat 64 v)
  | .queueBase c k => s.writeQslot c k (fun q => { q with base := BitVec.ofNat 64 v })
  | .queueWb c k => s.writeQslot c k (fun q => { q with wb := BitVec.ofNat 64 v })
  | .queueStatus c k =>
    let q := s.qslot c k
    let gone (b : Nat) : Bool := bitOf v b && !bitOf (setNow q.setAt s.time) b
    s.setQslot c k { q with
      cfgReject := q.cfgReject && !gone 1, noQid := q.noQid && !gone 2, overflow := q.overflow && !gone 3 }
  | .cqMod n =>
    match s.queue? n with
    | some q => s.setQueue n { q with cqCount := bitsOf v 7 0, cqDelay := bitsOf v 17 8 }
    | none => s
  | .msix fn e w => s.writeMsix fn e w v
  | .doorbell vf page => s.doorbell vf page (BitVec.ofNat 32 v) [1, 2, 3]

/-- A 32-bit write: the lower half of a 64-bit register waits for the upper, which commits the whole; a path that wrote no
lower half commits 0 there, the value of its staging at reset. (DESIGN CHOICE, log 148) -/
def State.write32 (s : State) (path : Path) (off v : Nat) : State :=
  let a := s.access
  match s.regAt path off with
  | some r =>
    if r.wide then { s with access := { a with staged := assocSet a.staged (path, off) (BitVec.ofNat 32 v) } }
    else s.commit path r.kind v
  | none =>
    match (if 4 ≤ off then s.regAt path (off - 4) else none) with
    | some r => if r.wide then s.commit path r.kind (((assoc? a.staged (path, off - 4)).getD 0).toNat + v * 2 ^ 32) else s
    | none => s

/-- A write to a 32-bit register, where there is one. -/
def State.write32Only (s : State) (path : Path) (off v : Nat) : State :=
  match s.regAt path off with
  | some r => if r.wide then s else s.commit path r.kind v
  | none => s

/-- A 64-bit write acts at once on a 64-bit register, or on two 32-bit registers, the lower first. (DEDUCED, log 134) -/
def State.write64 (s : State) (path : Path) (off v : Nat) : State :=
  match s.regAt path off with
  | some r =>
    if r.wide then s.commit path r.kind v
    else (s.commit path r.kind (v % 2 ^ 32)).write32Only path (off + 4) (v / 2 ^ 32)
  | none => s.write32Only path (off + 4) (v / 2 ^ 32)

/-- A write of GATE_CALL after FATAL, which is still answered (R377). -/
def State.fatalCall (s : State) (path : Path) (off : Nat) : Bool :=
  s.fw.fatal &&
  (match path with
   | .pf => s.slotOpen 1
   | .vf n => 1 ≤ n && s.slotOpen (n + 1)
   | _ => false) &&
  (match s.regAt path off with
   | some r => (match r.kind with
     | .gateCall _ => true
     | _ => false)
   | none => false)

/-- A path takes writes of 64 bits: a doorbell takes none (R362). -/
def takes64 : Path → Bool
  | .bell _ => false | _ => true

/-- A write of `bytes` bytes by a path; other sizes and alignments have no effect (R9). -/
def State.writeAt (s : State) (path : Path) (off bytes : Nat) (v : Word) : State :=
  if !s.pathOpen path && !s.fatalCall path off then s
  else if bytes = 4 && off % 4 = 0 then s.write32 path off (v.toNat % 2 ^ 32)
  else if bytes = 8 && off % 8 = 0 && takes64 path then s.write64 path off v.toNat
  else s

/-! ### The commands -/

/-- REGISTER_WRITE. -/
def execRegisterWrite (path : Path) (offset bytes : Nat) (v : Word) (s : State) : Res := .next (s.writeAt path offset bytes v)

/-- The register that an offset lies in holds a GA field. -/
def State.isGa (s : State) (path : Path) (off : Nat) : Bool :=
  match s.regAt path off, (if 4 ≤ off then s.regAt path (off - 4) else none) with
  | some r, _ => r.kind = .ga
  | none, some r => r.wide && r.kind = .ga
  | none, none => false

/-- GA_WRITE. -/
def execGaWrite (path : Path) (offset bytes : Nat) (v : Word) (s : State) : Res :=
  .next (if s.isGa path offset then s.writeAt path offset bytes v else s)

/-- The port register writes of the PF, of which each row changes one field; the other fields keep their last values.
(DESIGN CHOICE, log 138) -/
def State.portWrite (s : State) (path : Path) (p : Nat) (v : BitVec 32) (f : Nat → Bool × BitVec 16 → PortSet) : State :=
  if path = .pf && s.pathOpen path && s.portCfgOpen p v.toNat then
    let q := s.port p
    s.portCall p (f q.reach (q.cfgStaged.getD (q.enable, q.exclude)))
  else s

/-- PORT_ENABLE. (DESIGN CHOICE, log 138) -/
def execPortEnable (path : Path) (port : Nat) (v : BitVec 32) (s : State) : Res :=
  withPort port (.next (s.portWrite path port v (fun r c => .cfg (v.getLsbD 0) r c.2)))

/-- PORT_EXCLUDE. (DESIGN CHOICE, log 138) -/
def execPortExclude (path : Path) (port : Nat) (v : BitVec 32) (s : State) : Res :=
  withPort port (.next (s.portWrite path port v (fun r c => .cfg c.1 r (v.extractLsb' 8 16))))

/-- PORT_REACH. (DESIGN CHOICE, log 138) -/
def execPortReach (path : Path) (port : Nat) (v : BitVec 32) (s : State) : Res :=
  withPort port (.next (s.portWrite path port v (fun _ c => .cfg c.1 (bitsOf v.toNat 2 1) c.2)))

/-- PORT_ASYM. -/
def execPortAsym (path : Path) (port : Nat) (v : BitVec 32) (s : State) : Res :=
  withPort port (.next
    (if path = .pf && s.pathOpen path then s.portCall port (.asym (v.setWidth 16)) else s))

/-- LANE_CFG. -/
def execLaneCfg (path : Path) (port lane : Nat) (v : BitVec 32) (s : State) : Res :=
  withLane port lane (.next
    (if path = .pf && s.pathOpen path then s.commit path (.laneCfg port lane) v.toNat else s))

/-! ### SMBus (R373, R374) -/

/-- Gander has started Mule: Dolmo acknowledges its SMBus address, after a thermal trip too (R511). (DEDUCED, log 140) -/
def State.smbusUp (s : State) : Bool :=
  !s.power.coldReset && !s.fw.recovery && (s.fw.muleUp || s.power.ready)

/-- An SMBus message: not acknowledged, not ready, or answered. (DESIGN CHOICE, log 139) -/
def State.smbus (s : State) (early : Bool) (act : State → State) : State :=
  if !s.smbusUp then s.emit .smbusNack
  else if !s.power.ready && !early then s.emit (.smbusError "ERROR_NOT_READY")
  else act s

/-- A read by a BAR path is completed; over SMBus it is replied to with status 0. -/
def State.readOut (s : State) (path : Path) (off bytes : Nat) : State :=
  match path with
  | .smbus => s.smbus false (fun s =>
      let r := s.readAt .smbus off bytes
      r.2.emit (.smbusReply (leBytes 1 0 ++ leBytes bytes r.1)))
  | _ =>
    if s.readable path then
      let r := s.readAt path off bytes
      r.2.emit (.mmioRead (BitVec.ofNat 64 r.1))
    else s.emit (.mmioRead 0)

/-- LOWER_HALF_READ: a read of any number of bytes, of which one of 4 at a lower half latches the upper half. -/
def execLowerHalfRead (path : Path) (at_ : RegSpan) (s : State) : Res := .next (s.readOut path at_.offset at_.bytes)

/-- SEQ_SNAPSHOT_READ: a read of 0x4000, which a VF's window does not reach. -/
def execSeqSnapshotRead (path : Path) (s : State) : Res :=
  .next
    (match path with
     | .vf _ => s
     | .bell _ => s
     | _ => s.readOut path 0x4000 8)

/-- REG_READ. (DESIGN CHOICE, log 139) -/
def execRegRead (offset bytes : Nat) (s : State) : Res := .next (s.readOut .smbus offset bytes)

/-- COUNTER_READ (R515, R516). -/
def execCounterRead (index : BitVec 32) (s : State) : Res :=
  .next (s.smbus false (fun s =>
    let n := index.toNat
    if ctrExists (bitsOf n 31 28) (bitsOf n 27 16) (bitsOf n 15 0) then
      s.emit (.smbusReply (leBytes 1 0 ++ leBytes 8 (s.ctr n).toNat))
    else s.emit (.smbusReply (leBytes 1 1 ++ leBytes 8 0))))

/-- STATE. (DESIGN CHOICE, log 139) -/
def execState (s : State) : Res :=
  .next (s.smbus true (fun s => s.emit (.smbusReply
    (leBytes 3 s.power.loc.toNat ++ leBytes 8 s.rooster.status ++ leBytes 4 s.epoch.current.toNat ++
      leBytes 1 (b2n s.power.ready) ++ leBytes 4 s.power.mgmtCause.toNat))))

/-- PLDM_REQUEST: the sensors are the die temperatures, the package power and the Rooster state. -/
def execPldmRequest (sensor : Nat) (s : State) : Res :=
  .next (s.smbus false (fun s =>
    let m := s.mule.samples
    s.emit (.smbusReply (Config.mctpReply (leBytes 2 sensor ++ leBytes 2 m.west.toNat ++ leBytes 2 m.east.toNat ++
      leBytes 2 m.watts.toNat ++ leBytes 1 s.rooster.st.code)))))

/-- MCTP_CONTROL. A vendor-defined message with a code other than 1-3 is refused (R374); those three have rows of their own.
(DESIGN CHOICE, log 174) -/
def execMctpControl (message : MctpMsg) (s : State) : Res :=
  .next
    (match message with
     | .control bytes => s.smbus true (fun s => s.emit (.smbusReply (Config.mctpReply bytes)))
     | .vendor code =>
       if 1 ≤ code && code ≤ 3 then s else s.smbus false (fun s => s.emit (.smbusError "ERROR_UNSUPPORTED_CMD")))

/-- SMBUS_WRITE_ATTEMPT. -/
def execSmbusWriteAttempt (offset : Nat) (s : State) : Res :=
  .next (s.smbus false (fun s =>
    State.emit (if s.isGa .smbus offset then s.bypass else s) (.smbusError "ERROR_INVALID_DATA")))

end Sys2Proof.Machine
end

