-- ==== Sys2Proof/Machine/Tick.lean ====
section
/-! DEFINITION. The tick (chapter 1): markers, election, tracking, holdover and slip; the hinge with the epoch switch, overrun
judgement and everything that lands there (chapters 7, 9, 12, 13, 16 to 19, 21); slot starts and slot 1. -/

namespace Sys2Proof.Machine

/-! ### Markers (R19-R21, R33-R35, R434) -/

/-- The 32 B payload of this hinge's marker (Table 1.2). -/
def State.markerPayload (s : State) : List Byte :=
  let r := s.rooster
  let flags := b2n (r.st = .holdover) + 2 * b2n r.refLive + 4 * b2n (decide (r.st = .gm) && r.parent.isNone)
  leBytes 8 r.tickNo.toNat ++ leBytes 2 r.slots ++ leBytes 1 flags ++ leBytes 1 r.hops ++ leBytes 4 r.gmKey.toNat ++
    leBytes 3 s.power.loc.toNat ++ [0] ++ leBytes 4 s.epoch.current.toNat ++ List.replicate 8 0

/-- What a marker carries. -/
def heardOf (b : List Byte) : Heard :=
  { key := BitVec.ofNat 25 (natAt b 12 4), hops := natAt b 11 1, srcLoc := BitVec.ofNat 24 (natAt b 16 3)
    gmFlag := bitOf (natAt b 10 1) 2, epoch := BitVec.ofNat 32 (natAt b 20 4), tickSlots := natAt b 8 2 }

/-- Largest frequency correction, in 1/64 ns per tick: 100 ppm. -/
def State.freqLimit (s : State) : Int := ((s.tickNs * 64 / 10000 : Nat) : Int)

/-- The tracking loop takes an offset in 1/4 ns: 4 ns of phase at most, and a sixteenth of it per tick (R33).
(DESIGN CHOICE, log 141) -/
def State.track (s : State) (o : Int) : State :=
  let r := s.rooster
  { s with rooster := { r with
      phase := r.phase + clampInt (-16) 16 o
      freq := clampInt (-s.freqLimit) s.freqLimit (r.freq + o) } }

/-- Two candidates claim one location word (R434). -/
def State.sameKeyGm (s : State) (m : Heard) : State :=
  if s.rooster.st = .gm && m.gmFlag && m.key.setWidth 24 = s.power.loc then
    State.bumpDev { s with
      power := { s.power with dup := true }
      rooster := { s.rooster with dupLeft := true } } dkLocDup
  else s

/-- The parent's tick length differs: it is counted, and adopted at the next hinge (R44) where it is a length that R13 gives a
tick. (DEDUCED, log 119) -/
def State.noteLength (s : State) (n : Nat) : State :=
  if n = s.rooster.slots then s
  else State.bumpDev { s with rooster := { s.rooster with
    lenAdopt := if tickLegal n then some n else s.rooster.lenAdopt, lenHinge := s.rooster.hinges } } dkTickLenMismatch

/-- The first marker: its tick number is copied, and the phase steps to zero offset. (DEDUCED, log 115) -/
def State.acquire (s : State) (port : Nat) (m : Heard) (tick : Word) (delay : Int) : State :=
  let s1 : State := { s with rooster := { s.rooster with
    st := .acquiring, parent := some port, tickNo := tick, slot := delay.toNat / 512, hingeTime := s.time - delay.toNat / 4
    gmKey := m.key, hops := m.hops + 1, far := decide (5 < m.hops + 1), offset := 0, closeRun := 1, missRun := 0, discRun := 0 } }
  s1.noteLength m.tickSlots

/-- An accepted marker of the parent. -/
def State.parentAccepted (s : State) (m : Heard) (o : Int) : State :=
  let r := s.rooster
  let s1 : State := { s with rooster := { r with
    offset := o, missRun := 0, discRun := 0, closeRun := if -16 ≤ o && o ≤ 16 then r.closeRun + 1 else 0 } }
  (s1.track o).noteLength m.tickSlots

/-- A discordant marker of the parent; the second in a row leads to a slip (R35). -/
def State.parentDiscordant (s : State) (tick : Word) (o : Int) : State :=
  let r := s.rooster
  { s with rooster := { r with
      missRun := 0, closeRun := 0, discRun := r.discRun + 1
      slipTo := if 2 ≤ r.discRun + 1 then some (tick, o) else r.slipTo, slipHinge := r.hinges } }

/-- The incoming delay that Rooster uses: after a width change, the ranged one with the change of deskew latency (R26).
(DESIGN CHOICE, log 146) -/
def State.delayUsed (s : State) (p : Nat) : Int :=
  let q := s.port p
  if q.ranged then q.delayIn + (Config.deskew p q.widthIn - Config.deskew p q.rangedWidth) else q.delayIn

/-- A heard marker of a partner Dolmo, whose timing point lay `offset` after the local hinge start. (DEDUCED, log 115) -/
def State.hearMarker (s : State) (port : Nat) (b : List Byte) (offset : Int) : State :=
  let m := heardOf b
  let tick := BitVec.ofNat 64 (natAt b 0 8)
  let delay := s.delayUsed port
  let o := offset - delay
  let r := s.rooster
  let free := decide (r.st = .free || r.st = .acquiring)
  let ok := free || (tick = r.tickNo && inWindow o)
  let s1 : State := State.sameKeyGm { s with rooster := { r with
    heard := r.heard.set port m
    judged := r.judged.set port (if ok then .accepted o else .discordant tick o) } } m
  let s2 := if ok then s1 else s1.bumpPort port pkMarkerMiss
  let s3 : State := if ok && port = 48 && inWindow offset then { s2 with twin := { s2.twin with markNow := true } } else s2
  if r.st = .free then
    if m.hops < 15 && !s3.confined && (r.parent.isNone || r.parent = some port) then s3.acquire port m tick delay else s3
  else if r.parent = some port then
    if ok then s3.parentAccepted m o else if (r.judged.get? port).isSome then s3 else s3.parentDiscordant tick o
  else s3

/-- Markers on a port count: its partner is a Dolmo, and neither a long delay nor a quarantine sets it aside (R21, R26, R95).
(DEDUCED, log 114) -/
def Port.marksCount (q : Port) : Bool :=
  q.active && !q.delayOver && !q.quarantined && (match q.caps with | some c => c.dolmo | none => false)

/-- A MARKER frame. (DEDUCED, log 114) -/
def State.marker (s : State) (port : Nat) (f : RxFrame) (offset : Int) : State :=
  match s.linkRx port tyMarker f with
  | (s1, none) => s1
  | (s1, some b) => if (s1.port port).marksCount then s1.hearMarker port b offset else s1

/-- MARKER. -/
def execMarker (port : Nat) (f : RxFrame) (offset : Int) (s : State) : Res :=
  withPort port (.next (if s.ahead offset then s.keepEarly (.marker port f offset) else s.marker port f offset))

/-! ### The tick reference (R28, R31, R446, R502) -/

/-- Two edges lie N x 128 ns apart within 20 ppm. -/
def State.refSpacing (s : State) (t0 : Nat) : Bool :=
  let d := s.time - t0
  let n := s.tickNs
  d * 1000000 ≤ n * 1000020 && n * 999980 ≤ d * 1000000

/-- A rising edge on TICK_REF. (DEDUCED, log 120) -/
def State.tickRef (s : State) (offset : Int) : State :=
  let r := s.rooster
  if !s.alive then s
  else
    let seen : State := { s with rooster := { r with
      refSeen := r.refSeen || inWindow offset, refEdgeTime := some s.time
      refPeriods := match r.refEdgeTime with
        | some t0 => if s.refSpacing t0 then r.refPeriods + 1 else 1
        | none => 1 } }
    if r.st = .gm && r.parent.isNone then (if r.refEn && r.refLive && inWindow offset then seen.track offset else seen)
    else if r.st.holds && (offset < -64 || 64 < offset) then seen.bumpDev dkRefDisagree
    else seen

/-- TICK_REF_EDGE. -/
def execTickRefEdge (offset : Int) (s : State) : Res :=
  .next (if s.ahead offset then s.keepEarly (.tickRefEdge offset) else s.tickRef offset)

/-- REF_LIVE_LOSS: the edge of the present hinge has not come by the end of slot 0, one was missing at the hinge before, or
REF_EN went off. (DEDUCED, log 120) -/
def execRefLiveLoss (s : State) : Res :=
  .next
    (let r := s.rooster
     if s.alive && r.refLive && (!r.refEn || r.refRun = 0 || (r.slot ≠ 0 && !r.refSeen)) then
       { s with rooster := { r with refLive := false } }
     else s)

/-! ### Election (R28-R30) -/

/-- The key that this Dolmo offers itself, while it is a candidate. -/
def State.ownKey (s : State) : Option (BitVec 25) :=
  let r := s.rooster
  if r.candidate && r.gmEligible && !r.dupLeft && !s.confined then some ((if r.refLive then 0#1 else 1#1) ++ s.power.loc) else none

/-- A heard key can be followed. (DEDUCED, log 116) -/
def Heard.usable (h : Heard) : Bool := h.hops < 15 && h.age < 4

/-- The keys that the ports offer: none from a port whose ranged delay is too long or that is quarantined (R26, R95). -/
def State.offers (s : State) : List (Nat × Heard) :=
  s.rooster.heard.filter (fun e => e.2.usable && !(s.port e.1).delayOver && !(s.port e.1).quarantined)

/-- The order among heard keys: key, HOPS, SRC_LOC, port. -/
def heardBefore (a b : Nat × Heard) : Bool :=
  let k (x : Nat × Heard) : Nat := ((x.2.key.toNat * 256 + x.2.hops) * 2 ^ 24 + x.2.srcLoc.toNat) * 64 + x.1
  k a < k b

/-- The first of a list under an order. -/
def bestHeard (l : List (Nat × Heard)) : Option (Nat × Heard) :=
  l.foldl (fun a x =>
    match a with
    | none => some x
    | some y => some (if heardBefore x y then x else y)) none

/-- The keys to choose from. A parent that has missed two markers stands back where another port offers a key as good.
(DEDUCED, log 116) -/
def State.choices (s : State) : List (Nat × Heard) :=
  let r := s.rooster
  let l := s.offers
  match r.parent with
  | none => l
  | some p =>
    let others := l.filter (fun e => e.1 ≠ p)
    if 2 ≤ r.missRun && others.any (fun e => e.2.key.toNat ≤ r.gmKey.toNat) then others else l

/-- The election of a hinge: the lowest key makes this Dolmo GM, or names its parent.
(DEDUCED, log 116; DEDUCED, log 117; DEDUCED, log 121) -/
def State.elect (s : State) : State :=
  let r := s.rooster
  let best := bestHeard s.choices
  let wins : Bool := match s.ownKey, best with
    | some k, some b => k.toNat ≤ b.2.key.toNat
    | some _, none => true
    | none, _ => false
  if wins then
    { s with rooster := { r with
        st := .gm, parent := none, hops := 0, far := false, gmKey := s.ownKey.getD r.gmKey } }
  else
    match best with
    | some (p, h) =>
      let same := r.parent = some p
      let none_ := r.st = .free
      { s with rooster := { r with
          parent := some p
          hops := if none_ then 255 else h.hops + 1, far := !none_ && 5 < h.hops + 1
          gmKey := if none_ then 0x1FFFFFF else h.key
          missRun := if same then r.missRun else 0, discRun := if same then r.discRun else 0
          closeRun := if same then r.closeRun else 0 } }
    | none => if r.st = .gm && s.ownKey.isNone then { s with rooster := { r with st := .holdover, holdTicks := 0 } } else s

/-- GM_KEY_EXPIRY. -/
def execGmKeyExpiry (port : Nat) (s : State) : Res :=
  withPort port (.next
    (match s.rooster.heard.get? port with
     | some h => if s.alive && 4 ≤ h.age then { s with rooster := { s.rooster with heard := s.rooster.heard.erase port } } else s
     | none => s))

/-! ### Rooster's states (Table 1.3, R34-R36, R44) -/

/-- Some other port than the parent offers a key as good. -/
def State.otherAsGood (s : State) : Bool :=
  s.offers.any (fun e => some e.1 ≠ s.rooster.parent && e.2.key.toNat ≤ s.rooster.gmKey.toNat)

/-- HOLDOVER_ENTRY. -/
def execHoldoverEntry (s : State) : Res :=
  .next
    (let r := s.rooster
     if s.alive && r.st = .locked && 2 ≤ r.missRun && !s.otherAsGood then
       { s with rooster := { r with st := .holdover, holdTicks := 0, closeRun := 0 } }
     else s)

/-- The parent's marker of this hinge was accepted. -/
def Rooster.parentGood (r : Rooster) : Bool :=
  match r.parent with
  | none => false
  | some p => match r.judged.get? p with
    | some (.accepted _) => true
    | _ => false

/-- LOCKED_ENTRY. (DESIGN CHOICE, log 5; DEDUCED, log 117) -/
def execLockedEntry (s : State) : Res :=
  .next
    (let r := s.rooster
     let ok : Bool := match r.st with
       | .acquiring => 16 ≤ r.closeRun
       | .holdover => r.parentGood
       | .gm => r.parentGood
       | _ => false
     if s.alive && ok then { s with rooster := { r with st := .locked, wide := false, holdTicks := 0 } } else s)

/-- WIDE_SET. -/
def execWideSet (s : State) : Res :=
  .next
    (if s.alive && s.rooster.st = .holdover && 4 ≤ s.rooster.holdTicks then
      { s with rooster := { s.rooster with wide := true } } else s)

/-! ### Overrun (R43) -/

/-- A partition's plan is stopped at a hinge with code 5 or 6. (DEDUCED, log 118) -/
def State.overrun (s : State) (p code : Nat) : State :=
  let pc := (s.thread p).pc
  let s1 := (s.squashAll p).dropSends p
  let s2 := (((s1.dropPartS p).faultAll p code).bumpPart p rkTickOverrun).recordFault p code pc 0 s.rooster.tickNo
  s2.stopThread p

/-- Every class S frame that waits at an egress, counted in LATE_TX, or for a Hen buffer is discarded. (DEDUCED, log 118) -/
def State.dropAllS (s : State) : State :=
  let s1 := (List.range 49).foldl (fun t p =>
    let q := t.port p
    q.qS.foldl (fun u e => (u.dropEntry p e).bumpPort p pkLateTx)
      (if q.qS.isEmpty then t else t.setPort p { q with qS := [] })) s
  (s1.dropWaits 0 (fun w => w.hdr.cls = .s)).dropWaits 1 (fun w => w.hdr.cls = .s)

/-- TICK_SLIP, at the hinge after the second discordant marker: the tick number and the phase step to the parent's, every class
S frame goes, and every plan stops. That marker named the tick before the one that the present hinge begins.
(DEDUCED, log 118) -/
def execTickSlip (s : State) : Res :=
  .next
    (match s.rooster.slipTo with
     | none => s
     | some (t, o) =>
       if !s.alive || s.rooster.slot ≠ 0 || s.rooster.hinges ≤ s.rooster.slipHinge then s
       else
         let r := s.rooster
         let s1 : State := { s with rooster := { r with
           tickNo := t + 1, phase := r.phase + o, slipTo := none, discRun := 0, missRun := 0, closeRun := 0, st := .acquiring } }
         let s2 := ((s1.bumpDev dkTickSlip).mgmtCause 3).dropAllS
         (List.range 128).foldl (fun t p => if (t.thread p).st = .running then t.overrun p 6 else t) s2)

/-- A partition's plan was admitted for another tick length than `n`. (DEDUCED, log 119) -/
def State.otherLength (s : State) (p n : Nat) : Bool :=
  match s.planOf p with
  | some pl => pl.slots ≠ n
  | none => false

/-- TICK_LEN_ADOPT, at the hinge after the marker: every partition whose plan was admitted for the old length overruns.
(DEDUCED, log 119) -/
def execTickLenAdopt (s : State) : Res :=
  .next
    (match s.rooster.lenAdopt with
     | none => s
     | some n =>
       if !s.alive || s.rooster.slot ≠ 0 || s.rooster.hinges ≤ s.rooster.lenHinge then s
       else
         let s1 : State := { s with
           rooster := { s.rooster with slots := n, lenAdopt := none }
           epoch := { s.epoch with cur := { s.epoch.cur with slots := n } } }
         (List.range 128).foldl (fun t p => if t.otherLength p n then t.overrun p 5 else t) s1)

/-! ### The hinge: what the tick just ended has shown -/

/-- The time of a hinge: a tick after the last one, on Rooster's aligned time; at the GM's first hinge, now. The role staged
for it holds in its election. -/
def State.newTick (s : State) : State :=
  let r := s.rooster
  let start := if r.starting then s.time else r.hingeTime + s.tickNs
  let role := r.roleStaged.getD (r.gmEligible, r.refEn)
  { s with
    time := max s.time start
    rooster := { r with
      slot := 0, hinges := r.hinges + 1, hingeTime := start, starting := false, refSeen := r.refSeen || (r.starting && r.refLive)
      gmEligible := role.1, refEn := role.2, roleStaged := none
      tickNo := if r.starting then 0 else if r.st = .free then r.tickNo else r.tickNo + 1 } }

/-- From the hinge after the tick of a switch on, frames of the other epoch are discarded, at every egress and where they wait
for a buffer (R38). -/
def State.purgeOld (s : State) : State :=
  let s1 := (List.range 49).foldl (fun t p => if (t.ports.get? p).isSome then t.purgeStale p else t) s
  let drop (t : State) (d : Nat) : State :=
    let bad (w : HenWait) : Bool := w.hdr.cls ≠ .link && !t.epochOk w.hdr.epoch
    ((t.die d).waits.filter bad).foldl (fun u w => u.bumpIng w.ingress pkStaleEpoch) (t.dropWaits d bad)
  drop (drop s1 0) 1

/-- Missed markers are counted (R20). (DEDUCED, log 114) -/
def State.countMissed (s : State) : State :=
  (s.ports.filter (fun e => e.2.markDue && (s.rooster.judged.get? e.1).isNone)).foldl (fun t e =>
    t.bumpPort e.1 pkMarkerMiss) s

/-- Ages of keys, runs of missed markers, the reference, ticks of holdover; then judging starts anew.
(DEDUCED, log 117; DEDUCED, log 120) -/
def Rooster.drawUp (r : Rooster) : Rooster :=
  let missed := match r.parent with | some p => (r.judged.get? p).isNone | none => false
  let run := if r.refSeen then min 4 (r.refRun + 1) else 0
  { r with
    heard := r.heard.map (fun e => (e.1, if (r.judged.get? e.1).isSome then e.2 else { e.2 with age := e.2.age + 1 }))
    missRun := if missed then r.missRun + 1 else r.missRun
    closeRun := if missed then 0 else r.closeRun
    discRun := if missed then 0 else r.discRun
    holdTicks := if r.st = .holdover then r.holdTicks + 1 else r.holdTicks
    refSeen := false, refRun := run, refLive := r.refEn && 4 ≤ run, judged := [] }

/-- What was heard at the last hinge is drawn up, and the election held. -/
def State.hingeEvidence (s : State) : State :=
  let s1 := s.countMissed
  State.elect { s1 with rooster := s1.rooster.drawUp, twin := s1.twin.drawUp s1.power.ready }

/-! ### The epoch switch (R38, R39, R202, R403, R436, R452) -/

/-- Entries of some partitions are taken from another table. -/
def swapParts (a b : Tbl (BitVec 32)) (l : List Nat) : Tbl (BitVec 32) :=
  l.foldl (fun t p => (remapOf b p).foldl (fun u e => u.set e.1 e.2)
    (t.filter (fun e => !(p * 4096 ≤ e.1 && e.1 < (p + 1) * 4096)))) a

/-- Entries of some numbers are taken from another table. -/
def swapKeys {α : Type} (a b : Tbl α) (l : List Nat) : Tbl α :=
  l.foldl (fun t p => match b.get? p with | some v => t.set p v | none => t.erase p) a

/-- A table with the dirty kinds of another in it. -/
def Tables.take (a b : Tables) (d : Dirty) : Tables :=
  { route := if d.route then b.route else a.route
    spread := if d.spread then b.spread else a.spread
    remap := swapParts a.remap b.remap d.remap
    grants := if d.grants then b.grants else a.grants
    plans := swapKeys a.plans b.plans d.plans
    variant := if d.variant then b.variant else a.variant
    slots := if d.slots then b.slots else a.slots }

/-- Members of a KIND 1 route entry. -/
def reMembers (e : BitVec 128) : List Nat := maskList 49 (reSet e % 2 ^ 49)

/-- A spread entry under whose KIND 1 route entry every member has weight 0 gets weight 1 for each member.
(DESIGN CHOICE, log 170) -/
def State.spreadZero (s : State) : State :=
  (List.range 64).foldl (fun t k =>
    let es := (t.epoch.cur.route.filter (fun e => reKind e.2 = 1 && reSpread e.2 = k)).map (fun e => reMembers e.2)
    let w0 := t.epoch.cur.spread.getD k (List.replicate 49 0)
    let step (a : List Nat × List Nat) (m : List Nat) : List Nat × List Nat :=
      if !m.isEmpty && m.all (fun p => a.1.getD p 0 = 0) then
        ((List.range 49).map (fun p => if m.contains p then 1 else a.1.getD p 0), if a.2.isEmpty then m else a.2)
      else a
    let r := es.foldl step (w0, [])
    match r.2 with
    | [] => t
    | p :: _ =>
      let u : State := { t with epoch := { t.epoch with cur := { t.epoch.cur with spread := t.epoch.cur.spread.set k r.1 } } }
      (u.bumpPort p pkSpreadZero).log (.spreadZero k)) s

/-- The neighbours of ACTIVE ports are judged against the new table; a change holds from slot 1. (DEDUCED, log 63) -/
def State.rejudgeNeighbours (s : State) : State :=
  (List.range 49).foldl (fun t p =>
    let q := t.port p
    match q.caps with
    | some c =>
      let bad := t.neighbourBad p c.loc
      if q.active && c.dolmo && bad != q.qLoc then t.setPort p { q with qLocNext := some bad } else t
    | none => t) s

/-- Sleep windows that meet a reservation leave the nap maps. (DEDUCED, log 123) -/
def State.cutNaps (s : State) : State :=
  let resv := s.epoch.cur.grants.flatMap Prod.snd
  (List.range 49).foldl (fun t p =>
    let q := t.port p
    let keep := q.napMap.filter (fun w => resv.all (fun g =>
      !(g.port = p && g.out && g.first < w.1 + w.2 && w.1 < g.first + g.count)))
    if keep.length = q.napMap.length then t else (t.setPort p { q with napMap := keep }).bumpPort p pkNapMapCut) s

/-- A partition's thread after a switch that changed its plan: EMPTY without one, HALTED where it was EMPTY.
(DEDUCED, log 124) -/
def State.planThread (s : State) (p : Nat) : State :=
  match s.planOf p with
  | some _ => if (s.thread p).st = .empty then s.modThread p (fun t => { t with st := .halted }) else s
  | none => (s.squashAll p).modThread p (fun t => { t with st := .empty, pc := 0, cmd := none, waiting := false, solo := false })

/-- Where a switch changed a partition's plan, its other buffer is in force (R254). (DESIGN CHOICE, log 74) -/
def Epoch.swapHalves (e : Epoch) : List Nat :=
  e.planHalf.filter (fun p => !e.dirty.plans.contains p) ++ e.dirty.plans.filter (fun p => !e.planHalf.contains p)

/-- The armed switch takes place. -/
def State.switchEpoch (s : State) : State :=
  let e := s.epoch
  let d := e.dirty
  let s1 : State := { s with
    epoch := { e with
      current := e.current + 1, armed := none, planHalf := e.swapHalves,
      cur := e.cur.take e.shadow d, shadow := e.shadow.take e.cur d, dirty := {}
      lastTick := some s.rooster.tickNo, oldRoute := e.cur.route, oldSpread := e.cur.spread }
    rooster := if d.slots then { s.rooster with slots := e.shadow.slots } else s.rooster
    gate := { s.gate with log := s.gate.log ++ s.gate.stagedEpoch, stagedEpoch := [] } }
  let s2 := s1.spreadZero.rejudgeNeighbours
  let s3 := if d.grants then s2.cutNaps else s2
  s3.applyPlans s3.epoch.cur.plans d.plans

/-- The switch is armed for the tick that begins. -/
def State.switchDue (s : State) : Bool := s.epoch.armed = some s.rooster.tickNo

/-- The threads follow the tables in force: states, and the variant of each partition. -/
def State.followTables (s : State) (changed : List Nat) : State :=
  let s1 := changed.foldl (fun t p => t.planThread p) s
  s1.epoch.cur.plans.foldl (fun t e =>
    let v := planVariant (t.epoch.cur.variant.getD e.1 0) (t.thread e.1).solo
    if (t.thread e.1).variant = v then t else t.modThread e.1 (fun x => { x with variant := v })) s1

/-! ### Threads at the hinge (R43, R241, R273, R335, R370) -/

/-- A thread is overrun: it runs and has not completed TICKWAIT. (DEDUCED, log 124) -/
def Thread.overran (t : Thread) : Bool := t.st = .running && !t.ticked && t.cmd ≠ some .flr

/-- Every handle is unbound; frames that no TLD claimed give up their references. (DEDUCED, log 28) -/
def State.unbind (s : State) (p : Nat) : State :=
  let t := s.thread p
  if t.handles.isEmpty then s
  else
    let held := t.handles.flatMap (fun h => (h.2.frames.filter (fun f => !h.2.claims.contains f.1)).map Prod.snd)
    (s.setThread p { t with handles := [] }).releaseAll held

/-- A plan runs from its start (Table 9.1). (DEDUCED, log 119; DEDUCED, log 157) -/
def State.startThread (s : State) (p : Nat) (keep : Bool) : State :=
  s.modThread p (fun t => { t with
    st := .running, pc := s.entryOf p, preds := 1, waiting := false, ticked := false, lastTicked := false, cmd := none
    regs := if keep then t.regs else [], sflags := if keep then t.sflags else 0 })

/-- RESTART clears the fault and the plan codes of the contexts. -/
def State.clearPlanFaults (s : State) (p : Nat) : State :=
  (s.ctxsOf p).foldl (fun t c =>
    match t.ctx? c with
    | some x => if 1 ≤ x.fault && x.fault ≤ 6 then t.setCtx c { x with fault := 0 } else t
    | none => t) (s.modThread p (fun t => { t with fCode := 0, fPc := 0, fSlot := 0, fTick := 0 }))

/-- What the driver asked of a thread acts. -/
def State.threadCommand (s : State) (p : Nat) : State :=
  let t := s.thread p
  match t.cmd with
  | none => s
  | some .start => if t.st = .halted then s.startThread p false else s.setThread p { t with cmd := none }
  | some .stop => (s.haltThread p).modThread p (fun t => { t with cmd := none })
  | some .restart =>
    if t.st = .stopped then (s.clearPlanFaults p).startThread p true else s.setThread p { t with cmd := none }
  | some .flr =>
    ((s.squashAll p).dropSends p).modThread p (fun t => { t with
      st := if t.st = .empty then .empty else .halted, cmd := none, waiting := false })

/-- A thread that finished its tick starts the next at ENTRY, unless a slip or a new tick length is about to stop it. -/
def State.nextTick (s : State) (p : Nat) : State :=
  let t := s.thread p
  let stops := s.rooster.slipTo.isSome || (match s.rooster.lenAdopt with | some n => s.otherLength p n | none => false)
  if t.st = .running && t.ticked && !stops then
    s.setThread p { t with pc := s.entryOf p, preds := 1, waiting := false, ticked := false, lastTicked := true }
  else s

/-- The threads pass from one tick to the next. (DEDUCED, log 124) -/
def State.hingeThreads (s : State) (changed : List Nat) : State :=
  let ps := s.threads.keys
  let s1 := ps.foldl (fun t p => if (t.thread p).overran then t.overrun p 5 else t) s
  let s2 := s1.followTables changed
  s2.threads.keys.foldl (fun t p => ((t.unbind p).nextTick p).threadCommand p) s2

/-! ### Staged settings land -/

/-- A physical lane is held out of its port (R486, R398). -/
def State.holdOut (s : State) (p j : Nat) : State :=
  let l := s.lane p j
  let q := s.port p
  if !l.capsDone then s.setLane p j (l.begin .off)
  else
    let h := q.healthyOut &&& ~~~laneBit l.logical
    let s1 := s.setPort p { q with
      healthyIn := q.healthyIn &&& ~~~laneBit l.logical, healthyOut := h
      nextOut := if q.active && laneSet p h ≠ q.maskOut then some (laneSet p h) else q.nextOut }
    if q.active && l.st = .active then s1 else s1.setLane p j { l.begin .off with capsDone := false }

/-- A physical lane is let in again: bring-up from QUIET. -/
def State.letIn (s : State) (p j : Nat) : State :=
  let q := s.port p
  if q.enable && q.admitted && !s.laneHeld p j then
    s.modLane p j (fun l => { l.begin .quiet with capsDone := false, fails := 0 })
  else s

/-- A port with no lane left in it is DOWN (R92). -/
def State.lanesGone (s : State) (p : Nat) : State :=
  if (List.range (laneCount p)).all (s.laneHeld p) then
    (if (s.port p).active then (s.setDown p).restartPort p .quiet else s.setDown p)
  else s

/-- EXCLUDE lands. -/
def State.landExclude (s : State) (p : Nat) (ex : BitVec 16) : State :=
  let old := (s.port p).exclude
  if ex = old then s
  else
    let s1 := s.modPort p (fun q => { q with exclude := ex })
    let s2 := (List.range (laneCount p)).foldl (fun t j =>
      if ex.getLsbD j && !old.getLsbD j then t.holdOut p j
      else if old.getLsbD j && !ex.getLsbD j then t.letIn p j
      else t) s1
    (s2.lanesGone p).tryActive p

/-- ENABLE lands (R112, R444, Table 19.1). (DEDUCED, log 51) -/
def State.landEnable (s : State) (p : Nat) (en : Bool) : State :=
  let q := s.port p
  if q.enable = en then s
  else if en then
    (if s.confined then s.setPort p { q with enable := true }
     else (s.setPort p { q with enable := true, admitted := true }).restartPort p .quiet)
  else ((s.setPort p { q with enable := false, lanProc := none }).setDown p).restartPort p .off

/-- What Mule's lane exclusion changes. -/
def State.landHold (s : State) (p j : Nat) : State :=
  let l := s.lane p j
  match l.holdStaged with
  | none => s
  | some h =>
    let s1 := s.setLane p j { l with holdStaged := none, muleHeld := h }
    if h && !l.muleHeld then ((s1.holdOut p j).lanesGone p).tryActive p
    else if !h && l.muleHeld then s1.letIn p j
    else s1

/-- The staged settings of a port. -/
def State.landPort (s : State) (p : Nat) : State :=
  let q := s.port p
  let idle := q.cfgStaged.isNone && q.asymStaged.isNone && q.crowdStaged.isNone && q.napStaged.isNone
  let s1 := if idle then s else s.setPort p { q with
    cfgStaged := none, asym := q.asymStaged.getD q.asym, asymStaged := none, crowdThr := q.crowdStaged.getD q.crowdThr
    crowdStaged := none, napMap := q.napStaged.getD q.napMap, napStaged := none }
  let s2 := match q.cfgStaged with
    | some (en, ex) => (s1.landExclude p ex).landEnable p en
    | none => s1
  (List.range (laneCount p)).foldl (fun t j => t.landHold p j) s2

/-- The staged settings of a die; changed thresholds are judged at once (R183). -/
def State.landDie (s : State) (d : Nat) : State :=
  let v := s.die d
  let c := v.cfgStaged.getD (v.alpha, v.mcHold)
  let h := v.thrStaged.getD (v.thrA, v.thrR, v.thrB)
  let s1 := s.setDie d { v with
    alpha := c.1, mcHold := c.2, cfgStaged := none, thrA := h.1, thrR := h.2.1, thrB := h.2.2, thrStaged := none }
  if v.thrStaged.isSome then s1.rejudgeLevel d else s1

/-- The staged segments and grants of a context; Depot's shards of a segment that changed are gone. (DEDUCED, log 127) -/
def State.landCtx (s : State) (c : Nat) : State :=
  match s.ctx? c with
  | none => s
  | some x =>
    let segs := x.segStaged.foldl (fun t g => t.set g.1 (g.2.1, g.2.2)) x.segs
    let s1 := s.setCtx c { x with segs := segs, segStaged := [], grants := x.grantsNext, grantStaged := [] }
    let gone (h : Shard) : Bool := h.ctx = c && x.segStaged.any (fun g => g.1 = h.seg)
    { s1 with mule := { s1.mule with shards := s1.mule.shards.filter (fun h => !gone h) } }

/-- Contexts that are being destroyed go on with it, and the shards of those that are gone go too. -/
def State.landDestroy (s : State) : State :=
  let s1 := (s.ctxs.filter (fun e => e.2.destroying)).foldl (fun t e => t.destroyCtx e.1) s
  { s1 with mule := { s1.mule with shards := s1.mule.shards.filter (fun h => (s1.ctx? h.ctx).isSome) } }

/-- Services that were loaded start or restart (R391, R406). (DEDUCED, log 112) -/
def State.landServices (s : State) : State :=
  let l := s.fw.svcRestart
  let s1 : State := { s with
    fw := { s.fw with svcRestart := [], svcNew := [] }
    mule := { s.mule with
      jobs := if l.contains 2 then [] else s.mule.jobs
      drains := if l.contains 3 then [] else s.mule.drains } }
  if l.isEmpty then s1 else s1.closeMuleStreams

/-- Drain-and-swap changes begin or grow older (R458); the strict rule on SRAM pools holds from the first hinge on. -/
def State.ageDrains (s : State) : State :=
  let s1 := s.gate.drains.foldl (fun t d =>
    match d.age, d.req with
    | none, .setPools (.sram k a b c) => t.setDie k { t.die k with resize := some (a, b, c) }
    | _, _ => t) s
  { s1 with gate := { s1.gate with drains := s1.gate.drains.map (fun d =>
      { d with age := some (match d.age with | none => 0 | some n => n + 1) }) } }

/-- Everything that was staged for a hinge. (DEDUCED, log 126) -/
def State.landStaged (s : State) : State :=
  let s1 : State := { s with
    mule := { s.mule with throttle := s.mule.throttleStaged.getD s.mule.throttle, throttleStaged := none }
    gate := { s.gate with log := s.gate.log ++ s.gate.staged, staged := [] } }
  let s2 := (List.range 49).foldl (fun t p => t.landPort p) s1
  let s3 := (s2.landDie 0).landDie 1
  let s4 := s3.ctxs.keys.foldl (fun t c => t.landCtx c) s3
  s4.landDestroy.landServices.ageDrains

/-! ### Queues, credits and memory at the hinge -/

/-- The next pace of a queue (R209), under the cap of the throttle level (Table 16.2). -/
def nextPace (p : Nat) (echoed : Bool) (throttle : Nat) : Nat :=
  let v := if echoed then max (p / 2) 64 else min (p + 512) 16384
  min v (if throttle = 3 then 2048 else if throttle = 2 then 8192 else 16384)

/-- Paces follow the tick just ended. -/
def State.hingePaces (s : State) : State :=
  { s with
    queues := s.queues.map (fun e =>
      (e.1, if e.2.kind = 1 then { e.2 with rate := nextPace e.2.rate e.2.echoed s.mule.throttle, echoed := false } else e.2))
    mule := { s.mule with rate := nextPace s.mule.rate s.mule.echoed s.mule.throttle, echoed := false } }

/-- At the start of every slot, slot 0 included, the buckets gain their pace (R210), the capacities of the slot begin anew (R40,
R146), and the slots since the last CREDIT frame count (R130). -/
def State.slotBegins (s : State) : State :=
  { s with
    ports := s.ports.map (fun e => (e.1, { e.2 with slotUsed := 0, creditSlots := e.2.creditSlots + 1 }))
    west := { s.west with bridge := 0 }
    east := { s.east with bridge := 0 }
    queues := s.queues.map (fun e => (e.1, if e.2.kind = 1 then { e.2 with bucket := min 65536 (e.2.bucket + e.2.rate) } else e.2))
    mule := { s.mule with bucket := min 65536 (s.mule.bucket + s.mule.rate) } }

/-- A tick of waiting with no credit is counted (R131). -/
def Credit.tick (c : Credit) : Credit := { c with wait := if c.waited then c.wait + 1 else 0, waited := false }

/-- The last 64 values. -/
def keep64 (l : List Nat) (v : Nat) : List Nat := (l ++ [v]).drop (l.length + 1 - 64)

/-- A port's histories and credit waits take in the tick just ended. -/
def Port.tick (q : Port) : Port :=
  { q with
    credB := q.credB.tick, credC := q.credC.tick, histBC := keep64 q.histBC q.sentBC, histB := keep64 q.histB q.sentB
    histMark := keep64 q.histMark q.sentMark, sentBC := 0, sentB := 0, sentMark := 0 }

/-- Stores retired before the hinge are to be performed first (R322). -/
def State.startDrain (s : State) : State :=
  let mark (l : List WbEntry) : List WbEntry := l.map (fun e => { e with drain := true })
  { s with
    threads := s.threads.map (fun e => (e.1, { e.2 with wb := mark e.2.wb }))
    mule := { s.mule with wbs := s.mule.wbs.map (fun e => (e.1, mark e.2)) }
    depot := { s.depot with
      draining := s.threads.any (fun e => !e.2.wb.isEmpty) || s.mule.wbs.any (fun e => !e.2.isEmpty) } }

/-! ### Hinge frames (Table 1.1) -/

/-- A sleeping outgoing direction is awake for the hinge (R17). (DEDUCED, log 129) -/
def State.wakeForHinge (s : State) (p : Nat) : State :=
  let q := s.port p
  if q.pwrOut = .nap || q.pwrOut = .doze then
    let s1 := s.setPort p { q with pwrOut := .awake, resume := none, waking := false }
    if q.waking then s1 else s1.emit (.line p .wake)
  else s

/-- The ranging frame of a hinge, where a run is in progress. (DESIGN CHOICE, log 52) -/
def State.hingeRange (s : State) (p : Nat) : State :=
  match (s.port p).range with
  | some r =>
    if r.initiator && r.index < 64 && s.rooster.st ≠ .free then
      let (t1, s1) := s.fresh
      s1.sendRangeReq p r t1
    else s
  | none => s

/-- What an ACTIVE port sends at the start of the hinge: HINGE and the marker. Every frame that was under way has ended,
since none crosses the hinge (R115, R160). -/
def State.launchMarker (s : State) (p : Nat) : State :=
  let s0 := if (s.ports.get? p).isNone then s else s.portHingeMove p
  let q := s0.port p
  if !q.active then (if q.markDue then s0.setPort p { q with markDue := false } else s0)
  else
    let due := q.marksCount && decide (s0.rooster.st ≠ RoosterState.free)
    let s1 := ((s0.setPort p { q with hunt := false, markDue := due }).egressEndFrame p).wakeForHinge p
    (s1.emit (.line p .hinge)).emit (.frame p (linkHeader tyMarker 32) s1.markerPayload false false)

/-- What an ACTIVE port sends after the marker: the adaptation frame, ranging, and the heartbeat on port 48. -/
def State.hingeFrames (s : State) (p : Nat) : State :=
  if !(s.port p).active then s
  else
    let s1 := (s.sendAdapt p).hingeRange p
    if p = 48 then s1.emit (.frame 48 (linkHeader tyHeartbeat 256) s1.heartbeatPayload false false) else s1

/-- The pulses of a hinge (R415, R503). -/
def State.pulses (s : State) : State :=
  let s1 := if s.rooster.st.holds then s.emit .tickOut else s
  if s.power.ready && !s.fw.fatal && !s.fw.recovery then s1.emit .twinPulseOut else s1

/-! ### The hinge digest (R395, R479) -/

/-- Class B units that are queued on a port. -/
def Port.queuedB (q : Port) : Nat := (q.qB.map QEntry.units).foldl (· + ·) 0

/-- What the digest says of a port. -/
def Port.digest (q : Port) : PortDigest :=
  { widthIn := q.widthIn, widthOut := q.widthOut, down := q.down, quarantine := q.quarantined, sentBC := q.sentBC
    sentB := q.sentB, sentMark := q.sentMark, queuedB := q.queuedB, stalled := q.credB.stalled || q.credC.stalled }

/-- The digest of tick `t` goes to the buffer that the digest before it did not take (R395). -/
def Mule.otherBuffer (m : Mule) (t : Word) : Bool :=
  match m.digest with
  | some d => d.tick.toNat % 2 ≠ t.toNat % 2
  | none => false

/-- The digest of a hinge goes to Mule's SRAM, and the counts it takes differences of are noted. -/
def State.writeDigest (s : State) (x : Samples) : State :=
  let drops (k : Nat) : Nat := (s.ctr (laneCtr (k / 16) (k % 16) lkDrop)).toNat
  let readmits (k : Nat) : Nat := (s.ctr (laneCtr (k / 16) (k % 16) lkReadmit)).toNat
  let d : Digest :=
    { tick := s.rooster.tickNo, ports := (List.range 49).map (fun p => (p, (s.port p).digest))
      lanes := s.lanes.map (fun e => (e.1,
        { eye := e.2.eye, drops := drops e.1 - e.2.seenDrops, readmits := readmits e.1 - e.2.seenReadmits }))
      samples := x, henW := s.west.level, henE := s.east.level, rooster := s.rooster.st, epoch := s.epoch.current
      variants := s.epoch.cur.variant, gateLog := s.gate.log, mirror := s.twin.mirror }
  { s with
    lanes := s.lanes.map (fun e => (e.1, { e.2 with seenDrops := drops e.1, seenReadmits := readmits e.1 }))
    mule := { s.mule with
      samples := x
      digest := if s.fw.muleUp then some d else s.mule.digest
      digestOther := if s.fw.muleUp && s.mule.otherBuffer d.tick then s.mule.digest else s.mule.digestOther
      reviewed := s.mule.reviewed && !s.fw.muleUp }
    gate := { s.gate with log := [] } }

/-! ### Epoch numbers across the fabric (R451, R457) -/

/-- The EPOCH of the parent's last marker. -/
def State.parentEpoch (s : State) : Option (BitVec 32) :=
  match s.rooster.parent with
  | some p => (s.rooster.heard.get? p).map (fun h => h.epoch)
  | none => none

/-- EPOCH_ADOPT, at the first hinge after READY. -/
def State.adoptEpoch (s : State) : State :=
  if !s.power.ready || s.epoch.adopted then s
  else
    let s1 : State := { s with epoch := { s.epoch with adopted := true } }
    match s.parentEpoch with
    | some e =>
      if s.rooster.st = .locked && e ≠ s.epoch.current then
        State.bumpDev { s1 with epoch := { s1.epoch with current := e, dirty := {} } } dkEpochAdopt
      else s1
    | none => s1

/-- The EPOCH of the parent's marker of the hinge just drawn up. (DEDUCED, log 122) -/
def State.lastEpoch (s : State) : Option (BitVec 32) :=
  match s.rooster.parent with
  | some p => ((s.rooster.heard.get? p).filter (fun h => h.age = 0)).map (fun h => h.epoch)
  | none => none

/-- EPOCH_SPLIT: the parent's marker of the last hinge named another epoch than the one that hinge's switch left; one step
behind it, Mule arms this Dolmo alone. (DEDUCED, log 122) -/
def State.splitEpoch (s : State) : State :=
  match s.lastEpoch with
  | none => s
  | some e =>
    if s.rooster.st ≠ .locked then s
    else if e = s.epoch.current then { s with epoch := { s.epoch with split := false } }
    else
      let s1 := (State.bumpDev { s with epoch := { s.epoch with split := true } } dkEpochSplit).fire 0 0
      if e = s.epoch.current + 1 && s.fw.muleUp && s.epoch.armed.isNone then
        s1.muleCall (.armEpoch (s.rooster.tickNo + 8) false 0)
      else s1

/-- EPOCH_DIRTY. -/
def Dirty.bits (d : Dirty) : BitVec 7 :=
  BitVec.ofNat 7 (b2n d.route + 2 * b2n d.spread + 4 * b2n (!d.remap.isEmpty) + 8 * b2n d.grants + 16 * b2n (!d.plans.isEmpty) +
    32 * b2n d.variant + 64 * b2n d.slots)

/-! ### Waits that are counted in cycles (R220, R324) -/

/-- An open number of events, at most `most` where a bound is given, is counted. (DESIGN CHOICE, log 26) -/
def State.countOpen (s : State) (i : Nat) (most : Option Nat) : State :=
  let f := s.fresh
  f.2.count i (match most with | some n => f.1.toNat % (n + 1) | none => f.1.toNat)

/-- Fences and planned depot accesses of a thread that have not ended. (DESIGN CHOICE, log 26) -/
def Thread.depotWaits (t : Thread) : Nat :=
  (t.recs.filter (fun r => match r.op with
    | .ld .. => true | .store .. => true | .atomic .. => true | .fence .. => true | .tldDepot .. => true | .tst .. => true
    | .send _ _ _ depot .. => depot
    | _ => false)).length +
  (t.sends.filter (fun j => match j.op with | .send _ _ _ depot .. => depot | _ => false)).length

/-- Banks of the streams and copy-backs that may be under way on an engine (R220). -/
def Engine.requesters (e : Engine) : List Nat := e.streams.map Prod.fst ++ e.copyBacks.map (· % 32)

/-- Two of them share a bank: only then can a cycle be lost. (DESIGN CHOICE, log 26) -/
def Engine.contends (e : Engine) : Bool := e.requesters.any (fun b => 2 ≤ e.requesters.count b)

/-- At the end of a slot the waits of that slot are counted, of open number: OX_BANK_WAIT where two requesters share a bank, at
most once for each requester and cycle; OX_RENAME_WAIT for an operation that waits for rename storage, at most once a cycle
(R235); DEPOT_SLOW at most once for each depot access that the slot's end finds under way (R324).
(DEDUCED, log 25; DESIGN CHOICE, log 26) -/
def State.countWaits (s : State) : State :=
  let s1 := s.engines.foldl (fun t e =>
    let u := if e.2.contends then t.countOpen (engCtr e.1 ekBankWait) (some (256 * e.2.requesters.length)) else t
    if e.2.streams.isEmpty then u
    else u.setEngine e.1 { u.engine e.1 with
      streams := (e.2.streams.filter (fun x => 1 < x.2)).map (fun x => (x.1, x.2 - 1)) }) s
  s.threads.foldl (fun t e =>
    let u := (e.2.recs.filter (fun r => r.held && !r.begun)).foldl (fun t r =>
      match opEngine r.op with
      | some k => t.countOpen (engCtr k ekRenameWait) (some 256)
      | none => t) t
    if e.2.depotWaits = 0 then u else u.countOpen (partCtr e.1 rkDepotSlow) (some e.2.depotWaits)) s1

/-! ### HINGE -/

/-- The tick's slots are over, or the GM's first tick starts. (DEDUCED, log 125) -/
def State.hingeDue (s : State) : Bool := s.alive && (s.rooster.starting || s.rooster.slots ≤ s.rooster.slot + 1)

/-- The flood that was pending, or the ARM being staged, has reached its tick. -/
def State.clearFlood (s : State) : State :=
  let now := s.rooster.tickNo.toNat
  { s with mule := { s.mule with
      flooded := match s.mule.flooded with | some t => if t.toNat ≤ now then none else some t | none => none
      staging := match s.mule.staging with | some (t, l) => if t.toNat ≤ now then none else some (t, l) | none => none } }

/-- What came early is taken now. (DEDUCED, log 113) -/
def State.replay (s : State) : State :=
  let l := s.rooster.early
  l.foldl (fun t i =>
    match i with
    | .marker p f o => t.marker p f o
    | .heartbeat p f o => t.heartbeat p f o
    | .twinPulseInEdge o => t.twinPulse o
    | .tickRefEdge o => t.tickRef o
    | _ => t) { s with rooster := { s.rooster with early := [] } }

/-- The echoes still due leave with the tick whose marks made them due, so that no pair sends two in one tick (R207). -/
def State.flushEchoes (s : State) : State :=
  s.echoes.foldl (fun t e =>
    match e.2.due with
    | some (msg, marked, total, _) =>
      State.sendEcho { t with echoes := assocSet t.echoes e.1 { e.2 with due := none } } (1024 ≤ e.1.2) e.1.1 e.2.part (e.1.2 % 1024)
        msg marked total 1
    | none => t) s

/-- The events of a hinge, in the order of Table 1.1. -/
def State.hinge (s : State) (x : Samples) : State :=
  let s1 := s.countWaits.flushEchoes.newTick.purgeOld.hingeEvidence.adoptEpoch.splitEpoch
  let changed := if s1.switchDue then s1.epoch.dirty.plans else []
  let s2 := (if s1.switchDue then s1.switchEpoch else s1).landStaged
  let s3 := (s2.hingeThreads changed).handOver.startDrain
  let s4 : State := { s3.hingePaces.slotBegins with msgs := s3.msgs.map (fun m => { m with hold := m.hold.map (· + 1) }) }
  let s5 := ((List.range 49).foldl (fun t p => t.launchMarker p) s4).pulses
  let s6 := (List.range 49).foldl (fun t p => t.hingeFrames p) s5
  let s7 := s6.writeDigest x
  let s8 : State := { s7 with
    ports := s7.ports.map (fun e => (e.1, e.2.tick))
    fw := { s7.fw with petTicks := if s7.fw.muleUp then s7.fw.petTicks + 1 else s7.fw.petTicks }
    epoch := { s7.epoch with dirtySeen := s7.epoch.dirty.bits } }
  s8.clearFlood.replay

/-- HINGE. -/
def execHinge (samples : Samples) (s : State) : Res := .next (if s.hingeDue then s.hinge samples else s)

/-! ### Slots -/

/-- SLOT_START: timed instructions may issue, and buckets refill (R210). (DESIGN CHOICE, log 141) -/
def execSlotStart (s : State) : Res :=
  .next
    (let r := s.rooster
     let k := r.slot + 1
     if s.alive && k < r.slots then
       let s1 := s.countWaits.slotBegins
       { s1 with
         time := max s.time (r.hingeTime + k * 128)
         rooster := { r with slot := k }
         ports := s1.ports.map (fun e => (e.1, e.2.resumeAt k)) }
     else s)

/-- HINGE_SLOT1: what the hinge decided takes effect (R18, R423). -/
def execHingeSlot1 (s : State) : Res :=
  .next
    (if s.alive && s.rooster.slot = 1 then
       let s1 := (List.range 49).foldl (fun t p => if (t.ports.get? p).isSome then t.portSlot1 p else t) s
       { s1 with
         engines := s1.engines.map (fun e => (e.1, { e.2 with shown := none }))
         twin := { s1.twin with adopts := s1.twin.adoptsNext.getD s1.twin.adopts, adoptsNext := none } }
     else s)

end Sys2Proof.Machine
end

