-- ==== Sys2Proof/Machine/Dispatch.lean ====
section
/-! DEFINITION. One arm per command of the opcode table, in the table's order. -/

namespace Sys2Proof.Machine

/-- The effect of a command on everything but the queue. -/
def exec (i : Instr) (s : State) : Host.Outcome State Fault Refusal :=
  match i with
  | .hinge samples => Sys2Proof.Machine.execHinge samples s
  | .slotStart => Sys2Proof.Machine.execSlotStart s
  | .hingeSlot1 => Sys2Proof.Machine.execHingeSlot1 s
  | .marker port f offset => Sys2Proof.Machine.execMarker port f offset s
  | .gmKeyExpiry port => Sys2Proof.Machine.execGmKeyExpiry port s
  | .holdoverEntry => Sys2Proof.Machine.execHoldoverEntry s
  | .lockedEntry => Sys2Proof.Machine.execLockedEntry s
  | .wideSet => Sys2Proof.Machine.execWideSet s
  | .tickSlip => Sys2Proof.Machine.execTickSlip s
  | .tickLenAdopt => Sys2Proof.Machine.execTickLenAdopt s
  | .tickRefEdge offset => Sys2Proof.Machine.execTickRefEdge offset s
  | .refLiveLoss => Sys2Proof.Machine.execRefLiveLoss s
  | .portRangeStart path port => Sys2Proof.Machine.execPortRangeStart path port s
  | .range port f stamp reply => Sys2Proof.Machine.execRange port f stamp reply s
  | .rangingComplete port => Sys2Proof.Machine.execRangingComplete port s
  | .arrivalTest p => Sys2Proof.Machine.execArrivalTest p s
  | .laneDetectPulse port lane found => Sys2Proof.Machine.execLaneDetectPulse port lane found s
  | .quietExpiry port lane => Sys2Proof.Machine.execQuietExpiry port lane s
  | .bitLock port lane => Sys2Proof.Machine.execBitLock port lane s
  | .trainingMarker port lane m => Sys2Proof.Machine.execTrainingMarker port lane m s
  | .capsRecord port lane bytes acks => Sys2Proof.Machine.execCapsRecord port lane bytes acks s
  | .laneTrainTimeout port lane => Sys2Proof.Machine.execLaneTrainTimeout port lane s
  | .excludedLaneRetry port lane => Sys2Proof.Machine.execExcludedLaneRetry port lane s
  | .eyeWindowEnd port lane eyes => Sys2Proof.Machine.execEyeWindowEnd port lane eyes s
  | .marginalLaneDrop port lane => Sys2Proof.Machine.execMarginalLaneDrop port lane s
  | .adapt port f early => Sys2Proof.Machine.execAdapt port f early s
  | .lossOfLock port lane cause => Sys2Proof.Machine.execLossOfLock port lane cause s
  | .notice port m => Sys2Proof.Machine.execNotice port m s
  | .realign port m => Sys2Proof.Machine.execRealign port m s
  | .noticeRepeat port => Sys2Proof.Machine.execNoticeRepeat port s
  | .directionFailed port => Sys2Proof.Machine.execDirectionFailed port s
  | .sleepWindowStart port => Sys2Proof.Machine.execSleepWindowStart port s
  | .wakeBurst port => Sys2Proof.Machine.execWakeBurst port s
  | .wakeMarker port m => Sys2Proof.Machine.execWakeMarker port m s
  | .wakeMiss port => Sys2Proof.Machine.execWakeMiss port s
  | .sData port f => Sys2Proof.Machine.execSData port f s
  | .bData port f => Sys2Proof.Machine.execBData port f s
  | .cData port f => Sys2Proof.Machine.execCData port f s
  | .cAck port f => Sys2Proof.Machine.execCAck port f s
  | .bEcho port f => Sys2Proof.Machine.execBEcho port f s
  | .cNotready port f => Sys2Proof.Machine.execCNotready port f s
  | .heartbeat port f offset => Sys2Proof.Machine.execHeartbeat port f offset s
  | .credit port f => Sys2Proof.Machine.execCredit port f s
  | .creditSend port => Sys2Proof.Machine.execCreditSend port s
  | .creditStall port classC => Sys2Proof.Machine.execCreditStall port classC s
  | .cRetryTimeout k => Sys2Proof.Machine.execCRetryTimeout k s
  | .cAckSend k => Sys2Proof.Machine.execCAckSend k s
  | .notreadyRetry k => Sys2Proof.Machine.execNotreadyRetry k s
  | .egressFrameStart start => Sys2Proof.Machine.execEgressFrameStart start s
  | .egressFrameEnd port => Sys2Proof.Machine.execEgressFrameEnd port s
  | .mcHoldExpiry port desc => Sys2Proof.Machine.execMcHoldExpiry port desc s
  | .hostFrameBuild src data => Sys2Proof.Machine.execHostFrameBuild src data s
  | .henAllocation die pool => Sys2Proof.Machine.execHenAllocation die pool s
  | .henListRebuild pool => Sys2Proof.Machine.execHenListRebuild pool s
  | .henLevelChange die => Sys2Proof.Machine.execHenLevelChange die s
  | .echoSend src ctx => Sys2Proof.Machine.execEchoSend src ctx s
  | .bMsgTimeout k => Sys2Proof.Machine.execBMsgTimeout k s
  | .oxOpBegin p id => Sys2Proof.Machine.execOxOpBegin p id s
  | .retire p => Sys2Proof.Machine.execRetire p s
  | .copyBackEnd engine tile => Sys2Proof.Machine.execCopyBackEnd engine tile s
  | .nop p h => Sys2Proof.Machine.execNop p h s
  | .br p h cp cn target => Sys2Proof.Machine.execBr p h cp cn target s
  | .loop p h rc end_ max => Sys2Proof.Machine.execLoop p h rc end_ max s
  | .lend p h rc start => Sys2Proof.Machine.execLend p h rc start s
  | .tickwait p h => Sys2Proof.Machine.execTickwait p h s
  | .tickwaitComplete p => Sys2Proof.Machine.execTickwaitComplete p s
  | .cmp p h pd cond ra imm rb imm26 => Sys2Proof.Machine.execCmp p h pd cond ra imm rb imm26 s
  | .plog p h pd opl pa pb => Sys2Proof.Machine.execPlog p h pd opl pa pb s
  | .rdt p h rd sel => Sys2Proof.Machine.execRdt p h rd sel s
  | .add p h rd ra rb => Sys2Proof.Machine.execAdd p h rd ra rb s
  | .sub p h rd ra rb => Sys2Proof.Machine.execSub p h rd ra rb s
  | .mul p h rd ra rb => Sys2Proof.Machine.execMul p h rd ra rb s
  | .divs p h rd ra rb re => Sys2Proof.Machine.execDivs p h rd ra rb re s
  | .divu p h rd ra rb re => Sys2Proof.Machine.execDivu p h rd ra rb re s
  | .neg p h rd ra => Sys2Proof.Machine.execNeg p h rd ra s
  | .abs p h rd ra => Sys2Proof.Machine.execAbs p h rd ra s
  | .and p h rd ra rb => Sys2Proof.Machine.execAnd p h rd ra rb s
  | .or p h rd ra rb => Sys2Proof.Machine.execOr p h rd ra rb s
  | .xor p h rd ra rb => Sys2Proof.Machine.execXor p h rd ra rb s
  | .shl p h rd ra rb => Sys2Proof.Machine.execShl p h rd ra rb s
  | .shr p h rd ra rb => Sys2Proof.Machine.execShr p h rd ra rb s
  | .sra p h rd ra rb => Sys2Proof.Machine.execSra p h rd ra rb s
  | .adds p h rd ra rb => Sys2Proof.Machine.execAdds p h rd ra rb s
  | .subs p h rd ra rb => Sys2Proof.Machine.execSubs p h rd ra rb s
  | .muls p h rd ra rb => Sys2Proof.Machine.execMuls p h rd ra rb s
  | .adduS p h rd ra rb => Sys2Proof.Machine.execAdduS p h rd ra rb s
  | .subuS p h rd ra rb => Sys2Proof.Machine.execSubuS p h rd ra rb s
  | .addi p h rd ra imm => Sys2Proof.Machine.execAddi p h rd ra imm s
  | .movi p h rd imm => Sys2Proof.Machine.execMovi p h rd imm s
  | .ori p h rd ra imm => Sys2Proof.Machine.execOri p h rd ra imm s
  | .ld p h rd ra sz sx off => Sys2Proof.Machine.execLd p h rd ra sz sx off s
  | .ldDataReturn p id => Sys2Proof.Machine.execLdDataReturn p id s
  | .st p h rs ra sz off => Sys2Proof.Machine.execSt p h rs ra sz off s
  | .aadd p h rd ra rb off => Sys2Proof.Machine.execAadd p h rd ra rb off s
  | .aswp p h rd ra rb off => Sys2Proof.Machine.execAswp p h rd ra rb off s
  | .acas p h rd ra rb re off => Sys2Proof.Machine.execAcas p h rd ra rb re off s
  | .acas2 p h rd ra rb re off => Sys2Proof.Machine.execAcas2 p h rd ra rb re off s
  | .fenceDepot p h => Sys2Proof.Machine.execFenceDepot p h s
  | .fenceTick p h => Sys2Proof.Machine.execFenceTick p h s
  | .storePerformed a => Sys2Proof.Machine.execStorePerformed a s
  | .atomicPerformed a => Sys2Proof.Machine.execAtomicPerformed a s
  | .hingeDrainEnd => Sys2Proof.Machine.execHingeDrainEnd s
  | .recv p h hd grant cr dl => Sys2Proof.Machine.execRecv p h hd grant cr dl s
  | .send p h port slot nf srck t rr cr fr dr slen ff lf eng => Sys2Proof.Machine.execSend p h port slot nf srck t rr cr fr dr slen ff lf eng s
  | .sendTileRead p id => Sys2Proof.Machine.execSendTileRead p id s
  | .expect p h pr hmask hf heng hw hole nfr => Sys2Proof.Machine.execExpect p h pr hmask hf heng hw hole nfr s
  | .lclr p h eng w base rows form oper sgn => Sys2Proof.Machine.execLclr p h eng w base rows form oper sgn s
  | .tld p h eng t fmt src ra rows tr tc => Sys2Proof.Machine.execTld p h eng t fmt src ra rows tr tc s
  | .tacc p h eng t w k lane => Sys2Proof.Machine.execTacc p h eng t w k lane s
  | .emit p h eng w t fmt rm clamp kr cr er n lane e0i => Sys2Proof.Machine.execEmit p h eng w t fmt rm clamp kr cr er n lane e0i s
  | .tst p h eng t ra rows tw tr tc => Sys2Proof.Machine.execTst p h eng t ra rows tw tr tc s
  | .post p h rq ra fl eng w irq => Sys2Proof.Machine.execPost p h rq ra fl eng w irq s
  | .scrubPassEnd => Sys2Proof.Machine.execScrubPassEnd s
  | .muleDepotAccess core a => Sys2Proof.Machine.execMuleDepotAccess core a s
  | .partCtlStart path p => Sys2Proof.Machine.execPartCtlStart path p s
  | .partCtlStop path p => Sys2Proof.Machine.execPartCtlStop path p s
  | .partCtlRestart path p => Sys2Proof.Machine.execPartCtlRestart path p s
  | .clearFault path ctx => Sys2Proof.Machine.execClearFault path ctx s
  | .queueEnable path ctx k cfg => Sys2Proof.Machine.execQueueEnable path ctx k cfg s
  | .queueDisable path ctx k => Sys2Proof.Machine.execQueueDisable path ctx k s
  | .sqDoorbell vf page v => Sys2Proof.Machine.execSqDoorbell vf page v s
  | .rqDoorbell vf page v => Sys2Proof.Machine.execRqDoorbell vf page v s
  | .cqDoorbell vf page v => Sys2Proof.Machine.execCqDoorbell vf page v s
  | .cqArm vf page v => Sys2Proof.Machine.execCqArm vf page v s
  | .bSend qid e => Sys2Proof.Machine.execBSend qid e s
  | .cSend qid e data => Sys2Proof.Machine.execCSend qid e data s
  | .dmaToDepot qid e data => Sys2Proof.Machine.execDmaToDepot qid e data s
  | .dmaToHost qid e => Sys2Proof.Machine.execDmaToHost qid e s
  | .start qid e => Sys2Proof.Machine.execStart qid e s
  | .sendEntryComplete qid idx => Sys2Proof.Machine.execSendEntryComplete qid idx s
  | .ringHoldExpiry k => Sys2Proof.Machine.execRingHoldExpiry k s
  | .cqTimedFire qid => Sys2Proof.Machine.execCqTimedFire qid s
  | .msixUnmask fn entry => Sys2Proof.Machine.execMsixUnmask fn entry s
  | .funcCauseClear path p v => Sys2Proof.Machine.execFuncCauseClear path p v s
  | .mgmtCauseClear path v => Sys2Proof.Machine.execMgmtCauseClear path v s
  | .vfFlr vf => Sys2Proof.Machine.execVfFlr vf s
  | .pfFlr => Sys2Proof.Machine.execPfFlr s
  | .perstNAssert => Sys2Proof.Machine.execPerstNAssert s
  | .perstNDeassert => Sys2Proof.Machine.execPerstNDeassert s
  | .configRequest fn r => Sys2Proof.Machine.execConfigRequest fn r s
  | .dmaReadError qid idx fetch e => Sys2Proof.Machine.execDmaReadError qid idx fetch e s
  | .regRead offset bytes => Sys2Proof.Machine.execRegRead offset bytes s
  | .counterRead index => Sys2Proof.Machine.execCounterRead index s
  | .state => Sys2Proof.Machine.execState s
  | .pldmRequest sensor => Sys2Proof.Machine.execPldmRequest sensor s
  | .mctpControl message => Sys2Proof.Machine.execMctpControl message s
  | .smbusWriteAttempt offset => Sys2Proof.Machine.execSmbusWriteAttempt offset s
  | .admitPlan c part ctx seg offset => Sys2Proof.Machine.execAdmitPlan c part ctx seg offset s
  | .withdrawPlan c part => Sys2Proof.Machine.execWithdrawPlan c part s
  | .ctxCreate c part ctx => Sys2Proof.Machine.execCtxCreate c part ctx s
  | .ctxDestroy c part ctx => Sys2Proof.Machine.execCtxDestroy c part ctx s
  | .setSegment c part ctx seg base len => Sys2Proof.Machine.execSetSegment c part ctx seg base len s
  | .serviceGrant c part ctx seg service access => Sys2Proof.Machine.execServiceGrant c part ctx seg service access s
  | .setCarve c part first granules => Sys2Proof.Machine.execSetCarve c part first granules s
  | .setPorts c part ports => Sys2Proof.Machine.execSetPorts c part ports s
  | .setHenMin c part minW minE => Sys2Proof.Machine.execSetHenMin c part minW minE s
  | .setPools c v => Sys2Proof.Machine.execSetPools c v s
  | .setGmin c code gminB gminC => Sys2Proof.Machine.execSetGmin c code gminB gminC s
  | .setSwitch c v => Sys2Proof.Machine.execSetSwitch c v s
  | .setTickRole c gmEligible refEn => Sys2Proof.Machine.execSetTickRole c gmEligible refEn s
  | .setRoute c index entry => Sys2Proof.Machine.execSetRoute c index entry s
  | .setSpread c index weights => Sys2Proof.Machine.execSetSpread c index weights s
  | .setRemap c part entries => Sys2Proof.Machine.execSetRemap c part entries s
  | .setGrants c part entries => Sys2Proof.Machine.execSetGrants c part entries s
  | .setVariant c part v => Sys2Proof.Machine.execSetVariant c part v s
  | .setTick c slots => Sys2Proof.Machine.execSetTick c slots s
  | .armEpochLocal c t key => Sys2Proof.Machine.execArmEpochLocal c t key s
  | .armEpochFlood c t key => Sys2Proof.Machine.execArmEpochFlood c t key s
  | .setPort c port v => Sys2Proof.Machine.execSetPort c port v s
  | .setPortDetach c tick => Sys2Proof.Machine.execSetPortDetach c tick s
  | .setPortAttach c tick => Sys2Proof.Machine.execSetPortAttach c tick s
  | .setNapMap c port windows => Sys2Proof.Machine.execSetNapMap c port windows s
  | .throttle c level => Sys2Proof.Machine.execThrottle c level s
  | .mulePet c => Sys2Proof.Machine.execMulePet c s
  | .enrollKey c key sig => Sys2Proof.Machine.execEnrollKey c key sig s
  | .revokeKey c key sig => Sys2Proof.Machine.execRevokeKey c key sig s
  | .loadService c image => Sys2Proof.Machine.execLoadService c image s
  | .commitSvn c => Sys2Proof.Machine.execCommitSvn c s
  | .loadMule c copyB image => Sys2Proof.Machine.execLoadMule c copyB image s
  | .attest c nonce addr => Sys2Proof.Machine.execAttest c nonce addr s
  | .getCert c addr => Sys2Proof.Machine.execGetCert c addr s
  | .gateCallComplete => Sys2Proof.Machine.execGateCallComplete s
  | .drainLand => Sys2Proof.Machine.execDrainLand s
  | .drainRollback => Sys2Proof.Machine.execDrainRollback s
  | .muleRestart => Sys2Proof.Machine.execMuleRestart s
  | .lockstepMismatch => Sys2Proof.Machine.execLockstepMismatch s
  | .coldRstNLow => Sys2Proof.Machine.execColdRstNLow s
  | .pwrgoodLow => Sys2Proof.Machine.execPwrgoodLow s
  | .coldResetEnd b => Sys2Proof.Machine.execColdResetEnd b s
  | .refclkLoss => Sys2Proof.Machine.execRefclkLoss s
  | .railUndervoltage => Sys2Proof.Machine.execRailUndervoltage s
  | .thermalTrip west east stack => Sys2Proof.Machine.execThermalTrip west east stack s
  | .tapInstruction ir => Sys2Proof.Machine.execTapInstruction ir s
  | .tapReset => Sys2Proof.Machine.execTapReset s
  | .bootCopyCheck copyB image => Sys2Proof.Machine.execBootCopyCheck copyB image s
  | .portGroupAdmit group => Sys2Proof.Machine.execPortGroupAdmit group s
  | .gmCandidacyStart => Sys2Proof.Machine.execGmCandidacyStart s
  | .readyPublish => Sys2Proof.Machine.execReadyPublish s
  | .muleHingeReview => Sys2Proof.Machine.execMuleHingeReview s
  | .spreadWeightReview => Sys2Proof.Machine.execSpreadWeightReview s
  | .laneExclusionRelease port lane => Sys2Proof.Machine.execLaneExclusionRelease port lane s
  | .normalVariantReturn p => Sys2Proof.Machine.execNormalVariantReturn p s
  | .throttleLower => Sys2Proof.Machine.execThrottleLower s
  | .create m => Sys2Proof.Machine.execCreate m s
  | .put m => Sys2Proof.Machine.execPut m s
  | .commit m => Sys2Proof.Machine.execCommit m s
  | .get m => Sys2Proof.Machine.execGet m s
  | .drop m => Sys2Proof.Machine.execDrop m s
  | .join m => Sys2Proof.Machine.execJoin m s
  | .leave m => Sys2Proof.Machine.execLeave m s
  | .arrive m => Sys2Proof.Machine.execArrive m s
  | .arriveTimeout job => Sys2Proof.Machine.execArriveTimeout job s
  | .propose m => Sys2Proof.Machine.execPropose m s
  | .forget m => Sys2Proof.Machine.execForget m s
  | .drain m => Sys2Proof.Machine.execDrain m s
  | .drainPartStart id => Sys2Proof.Machine.execDrainPartStart id s
  | .partDone m => Sys2Proof.Machine.execPartDone m s
  | .partResend id part => Sys2Proof.Machine.execPartResend id part s
  | .armReq m => Sys2Proof.Machine.execArmReq m s
  | .armReqResend => Sys2Proof.Machine.execArmReqResend s
  | .heldArmFlood => Sys2Proof.Machine.execHeldArmFlood s
  | .arm port m => Sys2Proof.Machine.execArm port m s
  | .stagingDeadline => Sys2Proof.Machine.execStagingDeadline s
  | .twinPulseInEdge offset => Sys2Proof.Machine.execTwinPulseInEdge offset s
  | .pairingDecision => Sys2Proof.Machine.execPairingDecision s
  | .linkOnlyEntry => Sys2Proof.Machine.execLinkOnlyEntry s
  | .soloEntry => Sys2Proof.Machine.execSoloEntry s
  | .detach => Sys2Proof.Machine.execDetach s
  | .attach => Sys2Proof.Machine.execAttach s
  | .laneChangeStep port => Sys2Proof.Machine.execLaneChangeStep port s
  | .laneChangeTimeout port => Sys2Proof.Machine.execLaneChangeTimeout port s
  | .portEnable path port v => Sys2Proof.Machine.execPortEnable path port v s
  | .portExclude path port v => Sys2Proof.Machine.execPortExclude path port v s
  | .portReach path port v => Sys2Proof.Machine.execPortReach path port v s
  | .portAsym path port v => Sys2Proof.Machine.execPortAsym path port v s
  | .laneCfg path port lane v => Sys2Proof.Machine.execLaneCfg path port lane v s
  | .eqWrite path ctx v => Sys2Proof.Machine.execEqWrite path ctx v s
  | .gaWrite path offset bytes v => Sys2Proof.Machine.execGaWrite path offset bytes v s
  | .registerWrite path offset bytes v => Sys2Proof.Machine.execRegisterWrite path offset bytes v s
  | .lowerHalfRead path at_ => Sys2Proof.Machine.execLowerHalfRead path at_ s
  | .seqSnapshotRead path => Sys2Proof.Machine.execSeqSnapshotRead path s
  | .framingError port badHeader => Sys2Proof.Machine.execFramingError port badHeader s
  | .receivedLight port lane => Sys2Proof.Machine.execReceivedLight port lane s
  | .napOrDozeMarker port m => Sys2Proof.Machine.execNapOrDozeMarker port m s
  | .portHpLinkTraining => Sys2Proof.Machine.execPortHpLinkTraining s
  | .portHpTrained => Sys2Proof.Machine.execPortHpTrained s
  | .flrComplete fn => Sys2Proof.Machine.execFlrComplete fn s

end Sys2Proof.Machine
end

