-- ==== Sys2Proof/Machine/Step.lean ====
section
/-! DEFINITION. One step: the command at the front of the queue takes its effect; with nothing queued, one nanosecond
passes. -/

namespace Sys2Proof.Machine

/-- DESIGN CHOICE: with no command waiting, the block idles for one nanosecond of its sequencer clock.
(DESIGN CHOICE, log 2) -/
def State.idle (s : State) : State := { s with time := s.time + 1 }

/-- A command is put at the front of the queue. (DESIGN CHOICE, log 1) -/
def State.pushFront (s : State) (c : Instr) : State := { s with pending := c :: s.pending }

/-- The command at the front is taken off and acts on the rest. (DESIGN CHOICE, log 1; DESIGN CHOICE, log 2) -/
def step (s : State) : Host.Outcome State Fault Refusal :=
  match s.pending with
  | [] => .next s.idle
  | c :: rest => exec c { s with pending := rest }

/-- The command that a table word spells, put in front; the table's rows have no bits, so nothing is put.
(DESIGN CHOICE, log 4) -/
def State.withFetchWord (s : State) (nbits w : Nat) : State :=
  match decodeTableWord nbits w with
  | some c => s.pushFront c
  | none => s

end Sys2Proof.Machine
end

