-- ==== Sys2Proof/WellFormed.lean ====
section
/-! DEFINITION. The commands that name objects the part has: ports 0-48 and their lanes, partitions 0-127, contexts
0-1,023, queues 0-4,095, functions 0-128, dies, pools, engines and cores. A command outside this faults. -/

namespace Sys2Proof

open Machine

/-- A gate slot exists: 0 Mule, 1 PF, p + 2 VF p + 1 (R382). -/
def callerOk (c : Caller) : Bool := c.slot ≤ 129

/-- An agent exists: 128 threads, eight service cores. -/
def agentOk : Agent → Bool
  | .thread p => p < 128
  | .mule k => k < 8

/-- The command names objects that exist. (DESIGN CHOICE, log 6) -/
def Instr.wf : Instr → Bool
  | .hinge _ => true
  | .slotStart => true
  | .hingeSlot1 => true
  | .marker port _ _ => port < 49
  | .gmKeyExpiry port => port < 49
  | .holdoverEntry => true
  | .lockedEntry => true
  | .wideSet => true
  | .tickSlip => true
  | .tickLenAdopt => true
  | .tickRefEdge _ => true
  | .refLiveLoss => true
  | .portRangeStart _ port => port < 49
  | .range port _ _ _ => port < 49
  | .rangingComplete port => port < 49
  | .arrivalTest p => p < 128
  | .laneDetectPulse port lane _ => port < 49 && lane < laneCount port
  | .quietExpiry port lane => port < 49 && lane < laneCount port
  | .bitLock port lane => port < 49 && lane < laneCount port
  | .trainingMarker port lane _ => port < 49 && lane < laneCount port
  | .capsRecord port lane _ _ => port < 49 && lane < laneCount port
  | .laneTrainTimeout port lane => port < 49 && lane < laneCount port
  | .excludedLaneRetry port lane => port < 49 && lane < laneCount port
  | .eyeWindowEnd port lane _ => port < 49 && lane < laneCount port
  | .marginalLaneDrop port lane => port < 49 && lane < laneCount port
  | .adapt port _ _ => port < 49
  | .lossOfLock port lane _ => port < 49 && lane < laneCount port
  | .notice port _ => port < 49
  | .realign port _ => port < 49
  | .noticeRepeat port => port < 49
  | .directionFailed port => port < 49
  | .sleepWindowStart port => port < 49
  | .wakeBurst port => port < 49
  | .wakeMarker port _ => port < 49
  | .wakeMiss port => port < 49
  | .sData port _ => port < 49
  | .bData port _ => port < 49
  | .cData port _ => port < 49
  | .cAck port _ => port < 49
  | .bEcho port _ => port < 49
  | .cNotready port _ => port < 49
  | .heartbeat port _ _ => port < 49
  | .credit port _ => port < 49
  | .creditSend port => port < 49
  | .creditStall port _ => port < 49
  | .cRetryTimeout _ => true
  | .cAckSend _ => true
  | .notreadyRetry _ => true
  | .egressFrameStart x => x.port < 49
  | .egressFrameEnd port => port < 49
  | .mcHoldExpiry port _ => port < 49
  | .hostFrameBuild src _ => src ≤ 4096
  | .henAllocation die pool => die < 2 && pool < 3
  | .henListRebuild pool => pool = 3 || pool = 4
  | .henLevelChange die => die < 2
  | .echoSend _ _ => true
  | .bMsgTimeout _ => true
  | .oxOpBegin p _ => p < 128
  | .retire p => p < 128
  | .copyBackEnd engine tile => engine < 32 && tile < 64
  | .nop p _ => p < 128
  | .br p _ _ _ _ => p < 128
  | .loop p _ _ _ _ => p < 128
  | .lend p _ _ _ => p < 128
  | .tickwait p _ => p < 128
  | .tickwaitComplete p => p < 128
  | .cmp p _ _ _ _ _ _ _ => p < 128
  | .plog p _ _ _ _ _ => p < 128
  | .rdt p _ _ _ => p < 128
  | .add p _ _ _ _ => p < 128
  | .sub p _ _ _ _ => p < 128
  | .mul p _ _ _ _ => p < 128
  | .divs p _ _ _ _ _ => p < 128
  | .divu p _ _ _ _ _ => p < 128
  | .neg p _ _ _ => p < 128
  | .abs p _ _ _ => p < 128
  | .and p _ _ _ _ => p < 128
  | .or p _ _ _ _ => p < 128
  | .xor p _ _ _ _ => p < 128
  | .shl p _ _ _ _ => p < 128
  | .shr p _ _ _ _ => p < 128
  | .sra p _ _ _ _ => p < 128
  | .adds p _ _ _ _ => p < 128
  | .subs p _ _ _ _ => p < 128
  | .muls p _ _ _ _ => p < 128
  | .adduS p _ _ _ _ => p < 128
  | .subuS p _ _ _ _ => p < 128
  | .addi p _ _ _ _ => p < 128
  | .movi p _ _ _ => p < 128
  | .ori p _ _ _ _ => p < 128
  | .ld p _ _ _ _ _ _ => p < 128
  | .ldDataReturn p _ => p < 128
  | .st p _ _ _ _ _ => p < 128
  | .aadd p _ _ _ _ _ => p < 128
  | .aswp p _ _ _ _ _ => p < 128
  | .acas p _ _ _ _ _ _ => p < 128
  | .acas2 p _ _ _ _ _ _ => p < 128
  | .fenceDepot p _ => p < 128
  | .fenceTick p _ => p < 128
  | .storePerformed a => agentOk a
  | .atomicPerformed a => agentOk a
  | .hingeDrainEnd => true
  | .recv p _ _ _ _ _ => p < 128
  | .send p _ _ _ _ _ _ _ _ _ _ _ _ _ _ => p < 128
  | .sendTileRead p _ => p < 128
  | .expect p _ _ _ _ _ _ _ _ => p < 128
  | .lclr p _ _ _ _ _ _ _ _ => p < 128
  | .tld p _ _ _ _ _ _ _ _ _ => p < 128
  | .tacc p _ _ _ _ _ _ => p < 128
  | .emit p _ _ _ _ _ _ _ _ _ _ _ _ _ => p < 128
  | .tst p _ _ _ _ _ _ _ _ => p < 128
  | .post p _ _ _ _ _ _ _ => p < 128
  | .scrubPassEnd => true
  | .muleDepotAccess core _ => core < 8
  | .partCtlStart _ p => p < 128
  | .partCtlStop _ p => p < 128
  | .partCtlRestart _ p => p < 128
  | .clearFault _ ctx => ctx < 1024
  | .queueEnable _ ctx k _ => ctx < 1024 && k < 16
  | .queueDisable _ ctx k => ctx < 1024 && k < 16
  | .sqDoorbell vf page _ => vf < 129 && page < 32
  | .rqDoorbell vf page _ => vf < 129 && page < 32
  | .cqDoorbell vf page _ => vf < 129 && page < 32
  | .cqArm vf page _ => vf < 129 && page < 32
  | .bSend qid _ => qid < 4096
  | .cSend qid _ _ => qid < 4096
  | .dmaToDepot qid _ _ => qid < 4096
  | .dmaToHost qid _ => qid < 4096
  | .start qid _ => qid < 4096
  | .sendEntryComplete qid _ => qid < 4096
  | .ringHoldExpiry _ => true
  | .cqTimedFire qid => qid < 4096
  | .msixUnmask fn entry => fn < 129 && entry < vectorCount fn
  | .funcCauseClear _ p _ => p < 128
  | .mgmtCauseClear _ _ => true
  | .vfFlr vf => vf < 129 && vf ≠ 0
  | .pfFlr => true
  | .perstNAssert => true
  | .perstNDeassert => true
  | .configRequest fn _ => fn < 129
  | .dmaReadError qid _ _ _ => qid < 4096
  | .regRead _ _ => true
  | .counterRead _ => true
  | .state => true
  | .pldmRequest _ => true
  | .mctpControl _ => true
  | .smbusWriteAttempt _ => true
  | .admitPlan c _ _ _ _ => callerOk c
  | .withdrawPlan c _ => callerOk c
  | .ctxCreate c _ _ => callerOk c
  | .ctxDestroy c _ _ => callerOk c
  | .setSegment c _ _ _ _ _ => callerOk c
  | .serviceGrant c _ _ _ _ _ => callerOk c
  | .setCarve c _ _ _ => callerOk c
  | .setPorts c _ _ => callerOk c
  | .setHenMin c _ _ _ => callerOk c
  | .setPools c _ => callerOk c
  | .setGmin c _ _ _ => callerOk c
  | .setSwitch c _ => callerOk c
  | .setTickRole c _ _ => callerOk c
  | .setRoute c _ _ => callerOk c
  | .setSpread c _ _ => callerOk c
  | .setRemap c _ _ => callerOk c
  | .setGrants c _ _ => callerOk c
  | .setVariant c _ _ => callerOk c
  | .setTick c _ => callerOk c
  | .armEpochLocal c _ _ => callerOk c
  | .armEpochFlood c _ _ => callerOk c
  | .setPort c _ _ => callerOk c
  | .setPortDetach c _ => callerOk c
  | .setPortAttach c _ => callerOk c
  | .setNapMap c _ _ => callerOk c
  | .throttle c _ => callerOk c
  | .mulePet c => callerOk c
  | .enrollKey c _ _ => callerOk c
  | .revokeKey c _ _ => callerOk c
  | .loadService c _ => callerOk c
  | .commitSvn c => callerOk c
  | .loadMule c _ _ => callerOk c
  | .attest c _ _ => callerOk c
  | .getCert c _ => callerOk c
  | .gateCallComplete => true
  | .drainLand => true
  | .drainRollback => true
  | .muleRestart => true
  | .lockstepMismatch => true
  | .coldRstNLow => true
  | .pwrgoodLow => true
  | .coldResetEnd _ => true
  | .refclkLoss => true
  | .railUndervoltage => true
  | .thermalTrip _ _ _ => true
  | .tapInstruction _ => true
  | .tapReset => true
  | .bootCopyCheck _ _ => true
  | .portGroupAdmit group => group < 8
  | .gmCandidacyStart => true
  | .readyPublish => true
  | .muleHingeReview => true
  | .spreadWeightReview => true
  | .laneExclusionRelease port lane => port < 49 && lane < laneCount port
  | .normalVariantReturn p => p < 128
  | .throttleLower => true
  | .create _ => true
  | .put _ => true
  | .commit _ => true
  | .get _ => true
  | .drop _ => true
  | .join _ => true
  | .leave _ => true
  | .arrive _ => true
  | .arriveTimeout _ => true
  | .propose _ => true
  | .forget _ => true
  | .drain _ => true
  | .drainPartStart _ => true
  | .partDone _ => true
  | .partResend _ _ => true
  | .armReq _ => true
  | .armReqResend => true
  | .heldArmFlood => true
  | .arm port _ => port < 49
  | .stagingDeadline => true
  | .twinPulseInEdge _ => true
  | .pairingDecision => true
  | .linkOnlyEntry => true
  | .soloEntry => true
  | .detach => true
  | .attach => true
  | .laneChangeStep port => port < 49
  | .laneChangeTimeout port => port < 49
  | .portEnable _ port _ => port < 49
  | .portExclude _ port _ => port < 49
  | .portReach _ port _ => port < 49
  | .portAsym _ port _ => port < 49
  | .laneCfg _ port lane _ => port < 49 && lane < laneCount port
  | .eqWrite _ ctx _ => ctx < 1024
  | .gaWrite _ _ _ _ => true
  | .registerWrite _ _ _ _ => true
  | .lowerHalfRead _ _ => true
  | .seqSnapshotRead _ => true
  | .framingError port _ => port < 49
  | .receivedLight port lane => port < 49 && lane < laneCount port
  | .napOrDozeMarker port _ => port < 49
  | .portHpLinkTraining => true
  | .portHpTrained => true
  | .flrComplete fn => fn < 129

end Sys2Proof
end

