-- ==== Sys2Proof/Safety.lean ====
section
/-! DEFINITION. The terms in which the statements speak of runs: a command that completes, the invariant of the depot's
memory, and the conditions under which a received frame goes its plain way. -/

namespace Sys2Proof.Machine

/-- The command completes: `exec` answers a next state, and `P` holds of it. -/
def Gives (c : Instr) (s : State) (P : State → Prop) : Prop := ∃ t, exec c s = .next t ∧ P t

/-- The depot's memory is held in its one canonical form. -/
abbrev State.memOk (s : State) : Prop := Memory.wf s.depot.mem = true

/-- A frame passes every receive check of a live, active port of a READY device, and nothing turns it away (Table 4.6,
R95, R131, R334, R448). -/
abbrev State.takes (s : State) (port : Nat) (f : RxFrame) : Prop :=
  s.alive = true ∧ (s.port port).active = true ∧ s.rxFail port f = none ∧ s.rxAllows port f.hdr = true ∧
  s.power.ready = true ∧ s.turnedAway port f.hdr = none ∧ f.bridgeBad = false

/-- An egress would queue a class B or C frame: it is sending another, it is up, and the partition may use it. -/
abbrev State.queuesAt (s : State) (port : Nat) (h : Header) : Prop :=
  (s.port port).busy.isSome = true ∧ (s.port port).down = false ∧ (s.port port).quarantined = false ∧
  s.mayUse h port = true

/-- The entry of a received frame in an egress queue. -/
def State.rxEntry (s : State) (port n : Nat) (f : RxFrame) : QEntry :=
  { desc := some n, hdr := f.hdr, payload := f.body, ingress := port, crowd := f.status.getLsbD 1, at_ := s.time }

/-- Buffer `i` of a depot pool is free: the pool has it and no agent holds it (R177). -/
abbrev State.freeBuffer (s : State) (pool i : Nat) : Prop :=
  i < depotCount pool (s.depot.pool pool).mib ∧ (s.depot.pool pool).used.get? i = none

/-- Thread `p` issues this instruction now, and its guard holds (R243, R244, R260). -/
abbrev State.issues (s : State) (p : Nat) (i : Instr) : Prop :=
  p < 128 ∧ s.canIssue p i = true ∧ (s.thread p).guard (guandHead i) = true

/-- Scalar register `r` of thread `p`. -/
def State.sreg (s : State) (p : Nat) (r : BitVec 5) : Word := (s.thread p).reg r.toNat

/-- Thread `p` with its pc moved past the instruction. -/
def State.movedOn (s : State) (p : Nat) (i : Instr) : Thread := { s.thread p with pc := (s.thread p).pc + guandLen i }

/-- Only thread `p` changes: its pc moves on, RD takes `v`, and `f` is ORed into SFLAGS. -/
def State.scalarTo (s : State) (p : Nat) (i : Instr) (rd : BitVec 5) (v : Word) (f : BitVec 3) : State :=
  s.setThread p (((s.movedOn p i).setReg rd.toNat v).orFlags f)

/-- Only thread `p` changes: its pc moves on and the instruction takes a retire record. -/
def State.recorded (s : State) (p : Nat) (i : Instr) (op : Op) (awaited : List Nat) : State :=
  s.setThread p ((s.movedOn p i).push (guandLen i) op awaited)

/-- The gate call that a command makes, with its caller (Table 15.3). -/
def gateOf : Instr → Option (Caller × GateReq)
  | .admitPlan c part ctx seg offset => some (c, .admitPlan part ctx seg offset)
  | .withdrawPlan c part => some (c, .withdrawPlan part)
  | .ctxCreate c part ctx => some (c, .ctxCreate part ctx)
  | .ctxDestroy c part ctx => some (c, .ctxDestroy part ctx)
  | .setSegment c part ctx seg base len => some (c, .setSegment part ctx seg base len)
  | .serviceGrant c part ctx seg service access => some (c, .serviceGrant part ctx seg service access)
  | .setCarve c part first granules => some (c, .setCarve part first granules)
  | .setPorts c part ports => some (c, .setPorts part ports)
  | .setHenMin c part minW minE => some (c, .setHenMin part minW minE)
  | .setPools c v => some (c, .setPools v)
  | .setGmin c code gminB gminC => some (c, .setGmin code gminB gminC)
  | .setSwitch c v => some (c, .setSwitch v)
  | .setTickRole c gmEligible refEn => some (c, .setTickRole gmEligible refEn)
  | .setRoute c index entry => some (c, .setRoute index entry)
  | .setSpread c index weights => some (c, .setSpread index weights)
  | .setRemap c part entries => some (c, .setRemap part entries)
  | .setGrants c part entries => some (c, .setGrants part entries)
  | .setVariant c part v => some (c, .setVariant part v)
  | .setTick c slots => some (c, .setTick slots)
  | .armEpochLocal c t key => some (c, .armEpoch t false key)
  | .armEpochFlood c t key => some (c, .armEpoch t true key)
  | .setPort c port v => some (c, .setPort port v)
  | .setPortDetach c tick => some (c, .detach tick)
  | .setPortAttach c tick => some (c, .attach tick)
  | .setNapMap c port windows => some (c, .setNapMap port windows)
  | .throttle c level => some (c, .throttle level)
  | .mulePet c => some (c, .mulePet)
  | .enrollKey c key sig => some (c, .enrollKey key sig)
  | .revokeKey c key sig => some (c, .revokeKey key sig)
  | .loadService c image => some (c, .loadService image)
  | .commitSvn c => some (c, .commitSvn)
  | .loadMule c copyB image => some (c, .loadMule copyB image)
  | .attest c nonce addr => some (c, .attest nonce addr)
  | .getCert c addr => some (c, .getCert addr)
  | _ => none

/-- The partition whose thread holds a Guand instruction. -/
def guandOf : Instr → Option Nat
  | .nop p _ => some p | .br p _ _ _ _ => some p | .loop p _ _ _ _ => some p | .lend p _ _ _ => some p
  | .tickwait p _ => some p | .cmp p _ _ _ _ _ _ _ => some p | .plog p _ _ _ _ _ => some p | .rdt p _ _ _ => some p
  | .add p _ _ _ _ => some p | .sub p _ _ _ _ => some p | .mul p _ _ _ _ => some p | .divs p _ _ _ _ _ => some p
  | .divu p _ _ _ _ _ => some p | .neg p _ _ _ => some p | .abs p _ _ _ => some p | .and p _ _ _ _ => some p
  | .or p _ _ _ _ => some p | .xor p _ _ _ _ => some p | .shl p _ _ _ _ => some p | .shr p _ _ _ _ => some p
  | .sra p _ _ _ _ => some p | .adds p _ _ _ _ => some p | .subs p _ _ _ _ => some p | .muls p _ _ _ _ => some p
  | .adduS p _ _ _ _ => some p | .subuS p _ _ _ _ => some p | .addi p _ _ _ _ => some p | .movi p _ _ _ => some p
  | .ori p _ _ _ _ => some p | .ld p _ _ _ _ _ _ => some p | .st p _ _ _ _ _ => some p | .aadd p _ _ _ _ _ => some p
  | .aswp p _ _ _ _ _ => some p | .acas p _ _ _ _ _ _ => some p | .acas2 p _ _ _ _ _ _ => some p
  | .fenceDepot p _ => some p | .fenceTick p _ => some p | .recv p _ _ _ _ _ => some p
  | .send p _ _ _ _ _ _ _ _ _ _ _ _ _ _ => some p | .expect p _ _ _ _ _ _ _ _ => some p
  | .lclr p _ _ _ _ _ _ _ _ => some p | .tld p _ _ _ _ _ _ _ _ _ => some p | .tacc p _ _ _ _ _ _ => some p
  | .emit p _ _ _ _ _ _ _ _ _ _ _ _ _ => some p | .tst p _ _ _ _ _ _ _ _ => some p | .post p _ _ _ _ _ _ _ => some p
  | _ => none

/-- A gate call passes every check before its own (R377, R380, R384, R386). -/
abbrev State.gateOpen (s : State) (slot : Nat) (r : GateReq) : Prop :=
  s.fw.fatal = false ∧ r.mayCall slot = true ∧ (∀ p, r.part? = some p → slot < 2 ∨ p = slot - 2) ∧
  (s.fw.recovery = true → r.inRecovery = true) ∧ r.inRange = true ∧
  (s.epoch.armed.isSome = true → r.epochTable = false ∧ r.code ≠ 0x26) ∧ s.settingBusy r = false

/-- A message is the next of its service and SCOPE, well formed, and for an operation of a service that runs (R405). -/
abbrev State.serves (s : State) (m : SvcMsg) (service op : Nat) : Prop :=
  s.alive = true ∧ s.fw.muleUp = true ∧ s.msgTurn m = true ∧ msgFormed m = true ∧ msgService m = service ∧ msgOp m = op ∧
  (service = 0 → addrPort m.src = 0x41) ∧ (service ≠ 0 → s.serviceUp service = true) ∧ service < 4 ∧
  (svcOps service).contains op = true

/-- What writing GATE_CALL leaves (R382, R383): the call in its place among those that wait and its slot PENDING, nothing
else; and where none waited before, the call is served next, its status 0 where every check passes. -/
def State.callTaken (s : State) (c : Caller) (r : GateReq) (u : State) : Prop :=
  (u.gateSlot c.slot).pending = true ∧ u.gate.queue = gateInsert ⟨s.time, c.slot, c.rsv, r⟩ s.gate.queue ∧
  (∀ k, k ≠ c.slot → u.gateSlot k = s.gateSlot k) ∧ { u with gate := s.gate } = s ∧
  (s.gate.queue = [] → (s.depot.draining && r.readsDepot) = false →
    ∀ t, State.serve { u with gate := { u.gate with queue := [] } } c.slot c.rsv r = .ok t →
      Gives .gateCallComplete u (fun v => (v.gateSlot c.slot).status = 0 ∧ (v.gateSlot c.slot).detail = 0 ∧
        (v.gateSlot c.slot).pending = false ∧ { v with gate := t.gate } = t))

/-- A cold reset leaves every register at its reset value, but for the fuses, the levels of pins and the TAP (R441, R506). -/
def State.coldOf (s : State) (rstLow : Bool) (t : State) : Prop :=
  t.power.coldReset = true ∧ t.fw.minSvn = s.fw.minSvn ∧ t.power.tap = s.power.tap ∧ t.power.perstLow = s.power.perstLow ∧
  t.power.rstLow = rstLow ∧ t.counters = State.reset.counters ∧ t.ports = State.reset.ports ∧
  t.threads = State.reset.threads ∧ t.depot = State.reset.depot ∧ t.epoch = State.reset.epoch ∧ t.ctxs = State.reset.ctxs ∧
  t.queues = State.reset.queues ∧ t.rooster = State.reset.rooster

/-- What the switch leaves of a class B or C frame that it queues (R148, R153, R157, R179): a descriptor, a charge, RX, and
nothing else but the queue of its class. -/
def State.stored (s : State) (port n : Nat) (b : Buffer) (classC : Bool) (f : RxFrame) (t : State) : Prop :=
  (if classC then (t.port f.hdr.dstPort.toNat).qC = (s.port f.hdr.dstPort.toNat).qC ++ [s.rxEntry port n f] ∧
      (∀ q, (t.port q).qS = (s.port q).qS ∧ (t.port q).qB = (s.port q).qB)
    else (t.port f.hdr.dstPort.toNat).qB = (s.port f.hdr.dstPort.toNat).qB ++ [s.rxEntry port n f] ∧
      (∀ q, (t.port q).qS = (s.port q).qS ∧ (t.port q).qC = (s.port q).qC)) ∧
  t.descs.get? n = some { hdr := f.hdr, payload := f.body, crowd := f.status.getLsbD 1, refs := 1, buf := b,
                          charge := .acct port classC, units := frameUnits f.hdr.len.toNat } ∧
  (t.acct port classC).h = (s.acct port classC).h + frameUnits f.hdr.len.toNat ∧
  (t.acct port classC).rx = (s.acct port classC).rx + BitVec.ofNat 32 (frameUnits f.hdr.len.toNat) ∧
  t.threads = s.threads ∧ t.depot = s.depot ∧ t.out = s.out

/-- What a frame addressed to the port it came in on leaves: a count of NO_ROUTE (R193). -/
def State.notRouted (s : State) (port : Nat) (t : State) : Prop :=
  t.ctr (portCtr port pkNoRoute) = satAdd (portCtr port pkNoRoute) (s.ctr (portCtr port pkNoRoute)) 1 ∧ t.descs = s.descs ∧
  (∀ q, (t.port q).qS = (s.port q).qS ∧ (t.port q).qB = (s.port q).qB ∧ (t.port q).qC = (s.port q).qC) ∧
  t.threads = s.threads ∧ t.depot = s.depot ∧ t.out = s.out

/-- Mule's slot holds a waiting call for `r`. -/
abbrev State.muleAsks (s : State) (r : GateReq) : Prop :=
  (s.gateSlot 0).pending = true ∧ ∃ w ∈ s.gate.queue, w.slot = 0 ∧ w.req = r

end Sys2Proof.Machine
end

