-- ==== Sys2Proof/Certificates/Slice0/Obligations.lean ====
section
/-! DEFINITION. The statements for the provers, made from the rules of spec/. Each says what commands do; the whole is
spread over every family of commands and every kind of state. -/

open Sys2Proof Sys2Proof.Machine

/-- SLOT_START opens the next slot of the tick and gives every send queue its pace for that slot (R13, R210); HINGE opens
slot 0 of the next tick (R14, R18), and HINGE_SLOT1 ends what OX_STATUS shows of previous owners (R473). Of the
counters, SLOT_START moves the two of open numbers at most (log 26). The model's own readings in it: log 26, 125 and 128. -/
def Obligations.SlotsAndTicksAdvance : Prop :=
  (∀ s : State, s.alive = true → s.rooster.slot + 1 < s.rooster.slots →
    Gives .slotStart s (fun t => t.rooster.slot = s.rooster.slot + 1 ∧ t.rooster.tickNo = s.rooster.tickNo ∧
      (∀ q v, s.queue? q = some v → v.kind = 1 → t.queue? q = some { v with bucket := min 65536 (v.bucket + v.rate) }) ∧
      (∀ q v, s.queue? q = some v → v.kind ≠ 1 → t.queue? q = some v) ∧
      t.depot = s.depot ∧ t.threads = s.threads ∧ t.engines = s.engines ∧ t.epoch = s.epoch ∧
      (∀ i, (∀ e, i ≠ engCtr e ekBankWait) → (∀ p, i ≠ partCtr p rkDepotSlow) → t.ctr i = s.ctr i))) ∧
  (∀ (s : State) (x : Samples), s.hingeDue = true → s.rooster.early = [] →
    Gives (.hinge x) s (fun t => t.rooster.slot = 0 ∧
      t.rooster.tickNo = (if s.rooster.starting then 0 else if s.rooster.st = .free then s.rooster.tickNo
        else s.rooster.tickNo + 1) ∧ t.mule.samples = x)) ∧
  (∀ s : State, s.alive = true → s.rooster.slot = 1 →
    Gives .hingeSlot1 s (fun t => (∀ e, (t.engine e).shown = none) ∧ t.twin.adoptsNext = none ∧
      t.rooster = s.rooster ∧ t.depot = s.depot ∧ t.threads = s.threads ∧ t.epoch = s.epoch))

/-- The states of Rooster that Table 1.3 gives (R30, R32, R34), each as the whole next state. The model's own readings in it:
log 116 and 120. -/
def Obligations.RoosterStateChanges : Prop :=
  (∀ s : State, s.alive = true → s.rooster.st = .locked → 2 ≤ s.rooster.missRun → s.otherAsGood = false →
    exec .holdoverEntry s =
      .next { s with rooster := { s.rooster with st := .holdover, holdTicks := 0, closeRun := 0 } }) ∧
  (∀ s : State, s.alive = true → s.rooster.st = .acquiring → 16 ≤ s.rooster.closeRun →
    exec .lockedEntry s = .next { s with rooster := { s.rooster with st := .locked, wide := false, holdTicks := 0 } }) ∧
  (∀ s : State, s.alive = true → s.rooster.st = .holdover → s.rooster.parentGood = true →
    exec .lockedEntry s = .next { s with rooster := { s.rooster with st := .locked, wide := false, holdTicks := 0 } }) ∧
  (∀ s : State, s.alive = true → s.rooster.st = .holdover → 4 ≤ s.rooster.holdTicks →
    exec .wideSet s = .next { s with rooster := { s.rooster with wide := true } }) ∧
  (∀ (s : State) (port : Nat) (h : Heard), port < 49 → s.alive = true → s.rooster.heard.get? port = some h → 4 ≤ h.age →
    Gives (.gmKeyExpiry port) s (fun t => t.rooster.heard.get? port = none ∧
      (∀ q, q ≠ port → t.rooster.heard.get? q = s.rooster.heard.get? q) ∧ t.rooster.tickNo = s.rooster.tickNo ∧
      t.ports = s.ports ∧ t.counters = s.counters)) ∧
  (∀ s : State, s.alive = true → s.rooster.refLive = true →
    (s.rooster.refEn = false ∨ s.rooster.refRun = 0 ∨ (s.rooster.slot ≠ 0 ∧ s.rooster.refSeen = false)) →
    exec .refLiveLoss s = .next { s with rooster := { s.rooster with refLive := false } })

/-- An accepted marker of the parent gives TICK_OFFSET and the key heard on the port (R20, R30, R33); an edge of TICK_REF
within 64 ns of the hinge counts as arriving at it (R502). A slip takes the tick number of the second discordant marker for the
tick that begins, and stops every RUNNING thread (R35); a new tick length of the parent is adopted (R44). The model's own
readings in it: log 113, 118, 119, 120 and 146. -/
def Obligations.MarkersSlipsAndReference : Prop :=
  (∀ (s : State) (port : Nat) (f : RxFrame) (offset : Int), port < 49 → s.alive = true → s.ahead offset = false →
    s.rxFail port f = none → f.hdr.typ.toNat = tyMarker → (s.port port).marksCount = true → s.rooster.st = .locked →
    s.rooster.parent = some port → BitVec.ofNat 64 (natAt f.body 0 8) = s.rooster.tickNo →
    inWindow (offset - s.delayUsed port) = true →
    Gives (.marker port f offset) s (fun t => t.rooster.offset = offset - s.delayUsed port ∧
      t.rooster.missRun = 0 ∧ t.rooster.heard.get? port = some (heardOf f.body) ∧ t.rooster.tickNo = s.rooster.tickNo ∧
      t.rooster.st = .locked ∧ t.threads = s.threads ∧ t.depot = s.depot)) ∧
  (∀ (s : State) (offset : Int), s.alive = true → s.ahead offset = false →
    inWindow offset = true →
    Gives (.tickRefEdge offset) s (fun t => t.rooster.refSeen = true ∧ t.rooster.refEdgeTime = some s.time ∧
      t.rooster.tickNo = s.rooster.tickNo ∧ t.ports = s.ports)) ∧
  (∀ (s : State) (m : Word) (o : Int), s.alive = true → s.rooster.slot = 0 → s.rooster.slipTo = some (m, o) →
    s.rooster.slipHinge < s.rooster.hinges →
    Gives .tickSlip s (fun t => t.rooster.tickNo = m + 1 ∧ t.rooster.st = .acquiring ∧ t.rooster.slipTo = none ∧
      (∀ p, p < 128 → (t.thread p).st ≠ .running) ∧ (∀ p, p < 49 → (t.port p).qS = []) ∧
      (∀ d, d < 2 → ∀ w ∈ (t.die d).waits, w.hdr.cls ≠ .s) ∧ t.depot.mem = s.depot.mem)) ∧
  (∀ (s : State) (n : Nat), s.alive = true → s.rooster.slot = 0 → s.rooster.lenAdopt = some n →
    s.rooster.lenHinge < s.rooster.hinges →
    Gives .tickLenAdopt s (fun t => t.rooster.slots = n ∧ t.rooster.lenAdopt = none ∧ t.epoch.cur.slots = n ∧
      (∀ p, p < 128 → s.otherLength p n = true → (t.thread p).st ≠ .running) ∧ t.depot.mem = s.depot.mem))

/-- Bring-up of a lane (R90, R91, Table 3.6): what each step does to the lane it names, every other lane staying as it is. The
model's own readings in it: log 5 and 58. -/
def Obligations.LaneBringUpSteps : Prop :=
  (∀ (s : State) (p j : Nat), p < 49 → j < laneCount p → s.alive = true → (s.lane p j).st = .detect →
    Gives (.laneDetectPulse p j true) s (fun t => (t.lane p j).st = .quiet ∧ (t.lane p j).absent = false ∧
      (t.lane p j).detectFails = 0 ∧ t.ports = s.ports ∧
      (∀ q i, laneKey q i ≠ laneKey p j → t.lane q i = s.lane q i))) ∧
  (∀ (s : State) (p j : Nat), p < 49 → j < laneCount p → s.alive = true → (s.lane p j).st = .detect →
    Gives (.laneDetectPulse p j false) s (fun t => (t.lane p j).st = .detect ∧
      (t.lane p j).detectFails = (s.lane p j).detectFails + 1 ∧
      ((t.lane p j).absent = true ↔ (s.lane p j).absent = true ∨ 100 ≤ (s.lane p j).detectFails + 1) ∧ t.ports = s.ports ∧
      (∀ q i, laneKey q i ≠ laneKey p j → t.lane q i = s.lane q i))) ∧
  (∀ (s : State) (p j : Nat) (found : Bool), p < 49 → j < laneCount p → s.alive = true → (s.lane p j).st = .detect →
    Gives (.laneDetectPulse p j found) s (fun t => t.out = (if (s.port p).reach = 3 then s.out else s.out ++ [.detectPulse p j]) ∧
      t.counters = s.counters ∧ t.rooster = s.rooster)) ∧
  (∀ (s : State) (p j : Nat), p < 49 → j < laneCount p → s.alive = true → (s.lane p j).st = .detect →
    (s.port p).reach = 3 →
    exec (.receivedLight p j) s = .next (s.setLane p j (s.lane p j).detected)) ∧
  (∀ (s : State) (p j : Nat), p < 49 → j < laneCount p → s.alive = true → (s.lane p j).st = .quiet →
    (s.lane p j).parked = false →
    Gives (.quietExpiry p j) s (fun t => (t.lane p j).st = .train ∧
      ((t.lane p j).cm1, (t.lane p j).cp1) = s.startTaps p j ∧ t.ports = s.ports ∧
      (∀ q i, laneKey q i ≠ laneKey p j → t.lane q i = s.lane q i))) ∧
  (∀ (s : State) (p j : Nat), p < 49 → j < laneCount p → s.alive = true → (s.lane p j).st = .train →
    exec (.bitLock p j) s = .next (s.setLane p j { s.lane p j with st := .lock, marks := 0 })) ∧
  (∀ (s : State) (p j : Nat), p < 49 → j < laneCount p → s.alive = true → (s.lane p j).excluded = true →
    (s.lane p j).parked = true → (s.lane p j).st = .quiet →
    exec (.excludedLaneRetry p j) s = .next (s.setLane p j { s.lane p j with parked := false })) ∧
  (∀ (s : State) (p j : Nat), p < 49 → j < laneCount p → s.alive = true → (s.lane p j).st.trains = true →
    Gives (.laneTrainTimeout p j) s (fun t => (t.lane p j).st = .quiet ∧
      (t.lane p j).fails = (s.lane p j).fails + 1 ∧ (t.lane p j).capsDone = false ∧
      ((t.lane p j).excluded = true ↔ (s.lane p j).excluded = true ∨ 3 ≤ (s.lane p j).fails + 1)))

/-- Markers, CAPS records and measured windows during bring-up (R89, R93, R94, R98): the eighth accepted marker in LOCK,
each 1,516 symbols after the last, leads to ORIENT, eight equal ones in ORIENT to EQ or, where the lane is miswired, to
QUIET, EXCLUDED; a record counts toward the eight acknowledged ones of CAPS; a window's EYE is taken over. The model's own
readings in it: log 60. -/
def Obligations.LaneTrainingIsRead : Prop :=
  (∀ (s : State) (p j : Nat) (m : LaneMarker), p < 49 → j < laneCount p → s.alive = true → markerOk m = true →
    m.info.extractLsb' 0 3 ≠ 7 → (s.lane p j).st = .lock → m.gap = 1516 →
    exec (.trainingMarker p j m) s = .next (s.setLane p j
      (if 8 ≤ (s.lane p j).marks + 1 then { s.lane p j with st := .orient, marks := 0 }
       else { s.lane p j with marks := (s.lane p j).marks + 1 }))) ∧
  (∀ (s : State) (p j : Nat) (m : LaneMarker), p < 49 → j < laneCount p → s.alive = true → markerOk m = true →
    m.info.extractLsb' 0 3 ≠ 7 → (s.lane p j).st = .lock → m.gap ≠ 1516 →
    exec (.trainingMarker p j m) s = .next (s.setLane p j { s.lane p j with marks := 1 })) ∧
  (∀ (s : State) (p j : Nat) (m : LaneMarker), p < 49 → j < laneCount p → s.alive = true → markerOk m = true →
    m.info.extractLsb' 0 3 ≠ 7 → (s.lane p j).st = .orient → (s.lane p j).logical = m.lane.toNat →
    (s.lane p j).inverted = m.inverted → (s.lane p j).marks = 7 →
    Gives (.trainingMarker p j m) s (fun t =>
      if m.lane.toNat = j ∨ m.lane.toNat + 1 + j = laneCount p then
        (t.lane p j).st = .eq ∧ (t.lane p j).logical = m.lane.toNat
      else (t.lane p j).st = .quiet ∧ (t.lane p j).excluded = true ∧ (t.lane p j).miswired = true)) ∧
  (∀ (s : State) (p j : Nat) (m : LaneMarker), p < 49 → j < laneCount p → s.alive = true → markerOk m = false →
    m.info.extractLsb' 0 3 ≠ 7 → (s.lane p j).st = .lock ∨ (s.lane p j).st = .orient →
    exec (.trainingMarker p j m) s = .next (s.setLane p j { s.lane p j with marks := 0 })) ∧
  (∀ (s : State) (p j : Nat) (b : List Byte) (c : Caps), p < 49 → j < laneCount p → s.alive = true →
    (s.lane p j).st = .caps → capsOf b = some c → (s.lane p j).capsAcks + 1 < 8 →
    Gives (.capsRecord p j b true) s (fun t => (t.port p).caps = some c ∧ (t.port p).lastLoc = some c.loc ∧
      t.lane p j = { s.lane p j with capsAcks := (s.lane p j).capsAcks + 1, capsOk := true } ∧
      (∀ q i, laneKey q i ≠ laneKey p j → t.lane q i = s.lane q i))) ∧
  (∀ (s : State) (p j : Nat) (b : List Byte), p < 49 → j < laneCount p → s.alive = true →
    (s.lane p j).st = .caps → capsOf b = none → (s.lane p j).capsAcks + 1 < 8 →
    Gives (.capsRecord p j b true) s (fun t => (t.port p).caps = (s.port p).caps ∧
      t.ctr (portCtr p pkCapsBad) = satAdd (portCtr p pkCapsBad) (s.ctr (portCtr p pkCapsBad)) 1)) ∧
  (∀ (s : State) (p j : Nat) (eyes : List EyeOpening), p < 49 → j < laneCount p → s.alive = true →
    (s.lane p j).st = .active → 32 ≤ eyeFigure eyes →
    Gives (.eyeWindowEnd p j eyes) s (fun t => (t.lane p j).eye = eyeFigure eyes ∧ (t.lane p j).st = .active ∧
      t.ports = s.ports ∧ (∀ q i, laneKey q i ≠ laneKey p j → t.lane q i = s.lane q i))) ∧
  (∀ (s : State) (p j : Nat) (eyes : List EyeOpening), p < 49 → j < laneCount p → s.alive = true →
    (s.port p).active = true → (s.lane p j).st = .active → eyeFigure eyes < 32 →
    Gives (.eyeWindowEnd p j eyes) s (fun t => (t.lane p j).st = .train ∧
      (t.port p).healthyIn = (s.port p).healthyIn &&& ~~~laneBit (s.lane p j).logical ∧
      Out.line p (.notice (s.lane p j).logical true) ∈ t.out ∧
      (∀ q i, laneKey q i ≠ laneKey p j → t.lane q i = s.lane q i)))

/-- A lane lost or left out (R99, R103 to R105): it leaves the healthy set of the incoming direction, the drop is counted, a
lost one retrains; a NOTICE takes the lane out of the outgoing set and is answered by REALIGN; a port with no lane left
restarts. That a marginal drop counts in LANE_DROP is the model's reading (log 55). The model's own readings in it: log
55, 56 and 147. -/
def Obligations.LaneLossAndNotice : Prop :=
  (∀ (s : State) (p j : Nat) (c : LolCause), p < 49 → j < laneCount p → s.alive = true → (s.port p).active = true →
    (s.lane p j).st = .active →
    Gives (.lossOfLock p j c) s (fun t => (t.lane p j).st = .train ∧
      (t.port p).healthyIn = (s.port p).healthyIn &&& ~~~laneBit (s.lane p j).logical ∧
      (s.lane p j).logical ∈ (t.port p).noticed ∧
      t.ctr (laneCtr p j lkLol) = satAdd (laneCtr p j lkLol) (s.ctr (laneCtr p j lkLol)) 1 ∧
      t.ctr (laneCtr p j lkDrop) = satAdd (laneCtr p j lkDrop) (s.ctr (laneCtr p j lkDrop)) 1 ∧
      Out.line p (.notice (s.lane p j).logical false) ∈ t.out ∧
      (∀ q i, laneKey q i ≠ laneKey p j → t.lane q i = s.lane q i) ∧ (∀ q, q ≠ p → t.port q = s.port q))) ∧
  (∀ (s : State) (p j : Nat), p < 49 → j < laneCount p → s.alive = true → (s.port p).active = true →
    (s.lane p j).st = .active → 16 ≤ (s.lane p j).marginal → (s.port p).healthyIn.getLsbD (s.lane p j).logical = true →
    Gives (.marginalLaneDrop p j) s (fun t =>
      (t.port p).healthyIn = (s.port p).healthyIn &&& ~~~laneBit (s.lane p j).logical ∧
      t.ctr (laneCtr p j lkDrop) = satAdd (laneCtr p j lkDrop) (s.ctr (laneCtr p j lkDrop)) 1 ∧
      (∀ q i, laneKey q i ≠ laneKey p j → t.lane q i = s.lane q i) ∧ (∀ q, q ≠ p → t.port q = s.port q))) ∧
  (∀ (s : State) (p : Nat) (m : LaneMarker), p < 49 → s.alive = true → (s.port p).active = true → markerSub m = some 2 →
    s.rooster.slot ≠ 0 →
    laneSet p ((s.port p).healthyOut &&& ~~~laneBit (m.info.extractLsb' 8 4).toNat) ≠ 0 →
    Gives (.notice p m) s (fun t =>
      (t.port p).healthyOut = (s.port p).healthyOut &&& ~~~laneBit (m.info.extractLsb' 8 4).toNat ∧
      (t.port p).maskOut = laneSet p ((s.port p).healthyOut &&& ~~~laneBit (m.info.extractLsb' 8 4).toNat) ∧
      Out.line p .realign ∈ t.out ∧ t.lanes = s.lanes ∧ (t.port p).busy = none ∧
      ((s.port p).busy = none → ∀ q, q ≠ p → t.port q = s.port q))) ∧
  (∀ (s : State) (p : Nat) (m : LaneMarker), p < 49 → s.alive = true → (s.port p).active = true → markerSub m = some 1 →
    (s.port p).noticed ≠ [] → laneSet p (s.port p).healthyIn ≠ 0 →
    Gives (.realign p m) s (fun t => (t.port p).maskIn = laneSet p (s.port p).healthyIn ∧
      (t.port p).widthIn = maskWidth (laneSet p (s.port p).healthyIn) ∧ (t.port p).noticed = [] ∧
      (∀ q, q ≠ p → t.port q = s.port q))) ∧
  (∀ (s : State) (p : Nat) (m : LaneMarker), p < 49 → s.alive = true → (s.port p).active = true →
    (markerSub m = some 1 ∧ (s.port p).noticed ≠ [] ∧ laneSet p (s.port p).healthyIn = 0 →
      Gives (.realign p m) s (fun t => (t.port p).down = true ∧ (t.port p).active = false)) ∧
    (markerSub m = some 2 ∧ s.rooster.slot ≠ 0 ∧
      laneSet p ((s.port p).healthyOut &&& ~~~laneBit (m.info.extractLsb' 8 4).toNat) = 0 →
      Gives (.notice p m) s (fun t => (t.port p).down = true ∧ (t.port p).active = false))) ∧
  (∀ (s : State) (p l : Nat), p < 49 → s.alive = true → (s.port p).active = true → (s.port p).noticed = [l] →
    Gives (.noticeRepeat p) s (fun t => (∃ b, Out.line p (.notice l b) ∈ t.out) ∧ t.lanes = s.lanes ∧
      (t.port p).noticed = [l] ∧ (∀ q, q ≠ p → t.port q = s.port q))) ∧
  (∀ (s : State) (p : Nat), p < 49 → s.alive = true → (s.port p).active = true → (s.port p).noticed ≠ [] →
    Gives (.directionFailed p) s (fun t => (t.port p).down = true ∧ (t.port p).active = false ∧
      (t.port p).widthIn = 0 ∧ (t.port p).widthOut = 0 ∧
      (∀ j, j < laneCount p → (t.lane p j).st = .quiet ∨ (t.lane p j).st = .off)))

/-- The hinge frames of a link. Ranging (R22 to R24): START begins a run on the end that initiates, a request is answered
with the stamps it was given, and the 64th exchange writes both delays. An adaptation frame gives the lane set that the
partner wants and the lanes it can receive on (R100, R108): the new set is taken up at the end of the hinge slot, not at
once. The model's own readings in it: log 53 and 65. -/
def Obligations.HingeFramesAreTaken : Prop :=
  (∀ (s : State) (p : Nat), p < 49 → s.alive = true → s.power.ready = true → (s.port p).active = true →
    (s.port p).range = none → s.initiates p = true →
    Gives (.portRangeStart .pf p) s (fun t => (∃ r, (t.port p).range = some r ∧ r.initiator = true ∧ r.index = 0) ∧
      t.lanes = s.lanes ∧ t.counters = s.counters ∧ (∀ q, q ≠ p → t.port q = s.port q))) ∧
  (∀ (s : State) (p : Nat) (f : RxFrame) (stamp reply : Word), p < 49 → s.alive = true → (s.port p).active = true →
    s.rxFail p f = none → f.hdr.typ.toNat = tyRange → natAt f.body 0 1 = 1 → natAt f.body 1 1 = 0 →
    (s.port p).range = none →
    Gives (.range p f stamp reply) s (fun t => (t.port p).range = some { initiator := false, index := 0 } ∧
      (∃ b, Out.frame p (linkHeader tyRange 32) b false false ∈ t.out ∧ natAt b 0 1 = 2 ∧ natAt b 8 8 = stamp.toNat ∧
        natAt b 16 8 = reply.toNat) ∧ t.lanes = s.lanes)) ∧
  (∀ (s : State) (p : Nat) (r : RangeRun), p < 49 → (s.port p).range = some r → r.initiator = true → r.index = 64 →
    Gives (.rangingComplete p) s (fun t => (t.port p).delayOut = trimmedDelay r.out2 ∧
      (t.port p).delayIn = trimmedDelay r.in2 ∧ (t.port p).ranged = true ∧ (t.port p).range = none ∧
      ((t.port p).delayOver = true ↔ 51200 < trimmedDelay r.out2 ∨ 51200 < trimmedDelay r.in2) ∧
      (∀ q, q ≠ p → t.port q = s.port q))) ∧
  (∀ (s : State) (p : Nat) (f : RxFrame), p < 49 → s.alive = true → (s.port p).active = true → s.rxFail p f = none →
    f.hdr.typ.toNat = tyAdapt → s.heldMask p = 0 → BitVec.ofNat 16 (natAt f.body 28 2) ≠ 0 →
    BitVec.ofNat 16 (natAt f.body 28 2) ≠ (s.port p).maskOut →
    Gives (.adapt p f true) s (fun t =>
      (t.port p).healthyOut = BitVec.ofNat 16 (natAt f.body 28 2) ||| BitVec.ofNat 16 (natAt f.body 30 2) ∧
      (t.port p).nextOut = some (BitVec.ofNat 16 (natAt f.body 28 2)) ∧ (t.port p).maskOut = (s.port p).maskOut ∧
      (∀ q, q ≠ p → t.port q = s.port q) ∧ t.depot = s.depot ∧ t.threads = s.threads))

/-- Directions sleep in the windows of the nap map and wake again (R109 to R112). -/
def Obligations.SleepAndWake : Prop :=
  (∀ (s : State) (p : Nat) (w : Nat × Nat), p < 49 → s.alive = true → (s.port p).active = true → (s.port p).down = false →
    (s.port p).pwrOut = .awake → (s.port p).busy = none → (s.port p).napMap.find? (fun x => x.1 = s.rooster.slot) = some w →
    Gives (.sleepWindowStart p) s (fun t => (t.port p).pwrOut = (if 64 ≤ w.2 then .doze else .nap) ∧
      Out.line p (if 64 ≤ w.2 then .doze else .nap) ∈ t.out ∧ (t.port p).pwrIn = (s.port p).pwrIn ∧
      t.lanes = s.lanes ∧ (∀ q, q ≠ p → t.port q = s.port q))) ∧
  (∀ (s : State) (p : Nat), p < 49 → s.alive = true → (s.port p).active = true →
    (s.port p).pwrOut = .nap ∨ (s.port p).pwrOut = .doze → (s.port p).waking = false →
    exec (.wakeBurst p) s = .next ((s.setPort p { s.port p with waking := true }).emit (.line p .wake))) ∧
  (∀ (s : State) (p : Nat) (m : LaneMarker), p < 49 → s.alive = true → (s.port p).active = true →
    (s.port p).pwrIn = .nap ∨ (s.port p).pwrIn = .doze → markerSub m = some 5 →
    exec (.wakeMarker p m) s = .next (s.setPort p { s.port p with pwrIn := .awake, hunt := false })) ∧
  (∀ (s : State) (p : Nat) (m : LaneMarker), p < 49 → s.alive = true → (s.port p).active = true →
    (s.port p).pwrIn = .awake → (markerSub m = some 3 ∨ markerSub m = some 4) →
    exec (.napOrDozeMarker p m) s =
      .next (s.setPort p { s.port p with pwrIn := if markerSub m = some 3 then .nap else .doze })) ∧
  (∀ (s : State) (p : Nat), p < 49 → s.alive = true → (s.port p).active = true →
    (s.port p).pwrIn = .nap ∨ (s.port p).pwrIn = .doze →
    Gives (.wakeMiss p) s (fun t => (t.port p).pwrIn = .awake ∧
      t.ctr (portCtr p pkWakeMiss) = satAdd (portCtr p pkWakeMiss) (s.ctr (portCtr p pkWakeMiss)) 1 ∧
      (∀ j, j < laneCount p → (t.lane p j).st ≠ .active) ∧ (∀ q, q ≠ p → t.port q = s.port q)))

/-- A class S frame for which a RECV handle is bound is stored and held in the handle under its FRAME number (R190, R272). The
model's own readings in it: log 34 and 42. -/
def Obligations.BoundFramesAreHeld : Prop :=
  ∀ (s : State) (port part k n : Nat) (v : Handle) (b : Buffer) (fb : Bool) (f : RxFrame), port < 49 → s.takes port f →
    f.hdr.typ.toNat = tySData → s.twin.st ≠ .detached → (f.hdr.tick - s.rooster.tickNo.setWidth 32).msb = false →
    (s.port port).delayOver = false → s.handleFor port f.hdr = some (part, k, v) →
    (s.thread part).handles.get? k = some v → s.rooster.slot ≤ v.dl → f.hdr.chunk = v.chunk →
    v.frames.get? f.hdr.frame = none → v.dead.contains f.hdr.frame = false →
    (s.port port).sInHeld + frameUnits f.hdr.len.toNat ≤ (s.port port).sIn →
    (s.die (homeDie port)).behind port f.hdr = false → s.henChoose (homeDie port) f.hdr false false = .got b fb →
    s.nextDesc (homeDie port) = some n →
    Gives (.sData port f) s (fun t =>
      (t.thread part).handles.get? k = some { v with frames := v.frames.set f.hdr.frame n } ∧
      t.descs.get? n = some { hdr := f.hdr, payload := f.body, crowd := f.status.getLsbD 1, refs := 1, buf := b,
                              charge := .sIn port, units := frameUnits f.hdr.len.toNat } ∧
      (t.port port).sInHeld = (s.port port).sInHeld + frameUnits f.hdr.len.toNat ∧
      (∀ q, q ≠ part → t.thread q = s.thread q) ∧ (∀ q, q ≠ port → t.port q = s.port q) ∧ t.accts = s.accts ∧
      t.depot = s.depot ∧ t.out = s.out ∧ t.rooster = s.rooster)

/-- A class B or C frame addressed to another port of this Dolmo takes one descriptor and its buffer, is charged to its
ingress and class, counts in RX, and waits at the end of the egress queue of its class while the egress is busy (R148,
R153, R157, R179); one addressed to the port it came in on goes nowhere and counts in NO_ROUTE there (R193). The model's
own readings in it: log 31, 34 and 43. -/
def Obligations.FramesAreStoredAndQueued : Prop :=
  (∀ (s : State) (port n : Nat) (b : Buffer) (fb : Bool) (f : RxFrame), port < 49 → s.takes port f →
    f.hdr.dstLoc = s.power.loc → f.hdr.dstPort.toNat < 49 → f.hdr.dstPort.toNat ≠ port →
    s.queuesAt f.hdr.dstPort.toNat f.hdr → (s.die (homeDie port)).behind port f.hdr = false →
    s.henChoose (homeDie port) f.hdr false false = .got b fb → s.nextDesc (homeDie port) = some n →
    (f.hdr.typ.toNat = tyBData → Gives (.bData port f) s (s.stored port n b false f)) ∧
    (f.hdr.typ.toNat = tyBEcho → Gives (.bEcho port f) s (s.stored port n b false f)) ∧
    (f.hdr.typ.toNat = tyCData → Gives (.cData port f) s (s.stored port n b true f)) ∧
    (f.hdr.typ.toNat = tyCAck → Gives (.cAck port f) s (s.stored port n b true f)) ∧
    (f.hdr.typ.toNat = tyCNotready → Gives (.cNotready port f) s (s.stored port n b true f))) ∧
  (∀ (s : State) (port : Nat) (f : RxFrame), port < 49 → s.takes port f → f.hdr.dstLoc = s.power.loc →
    f.hdr.dstPort.toNat = port →
    (f.hdr.typ.toNat = tyBData → Gives (.bData port f) s (s.notRouted port)) ∧
    (f.hdr.typ.toNat = tyBEcho → Gives (.bEcho port f) s (s.notRouted port)) ∧
    (f.hdr.typ.toNat = tyCData → Gives (.cData port f) s (s.notRouted port)) ∧
    (f.hdr.typ.toNat = tyCAck → Gives (.cAck port f) s (s.notRouted port)) ∧
    (f.hdr.typ.toNat = tyCNotready → Gives (.cNotready port f) s (s.notRouted port)))

/-- What fails a receive check is discarded and counted once, by the first check it fails (R121, Table 4.6), and a framing
error makes the port hunt (R122); a frame with a lost lane counts in WIDTH_LOST (R106). A corrected codeword and a stuffed
symbol at another level than expected count on their lane (R79, R82). The model's own readings in it: log 143. -/
def Obligations.BadFramesAreDiscarded : Prop :=
  (∀ (s : State) (port : Nat) (bad : Bool), port < 49 → s.alive = true → (s.port port).active = true →
    (s.port port).hunt = false →
    Gives (.framingError port bad) s (fun t => (t.port port).hunt = true ∧
      t.ctr (portCtr port pkHuntCount) = satAdd (portCtr port pkHuntCount) (s.ctr (portCtr port pkHuntCount)) 1 ∧
      t.ctr (portCtr port pkHdrCrcErr) =
        (if bad then satAdd (portCtr port pkHdrCrcErr) (s.ctr (portCtr port pkHdrCrcErr)) 1
         else s.ctr (portCtr port pkHdrCrcErr)) ∧
      (∀ q, q ≠ port → t.port q = s.port q) ∧ t.descs = s.descs ∧ t.accts = s.accts ∧ t.out = s.out)) ∧
  (∀ (s : State) (port : Nat) (f : RxFrame) (c : Instr), port < 49 → s.alive = true → (s.port port).active = true →
    s.lostToLane port f = false → f.fecLanes = [] → f.hcrc = hcrc16 f.hdr.bytes → headerLegal f.hdr = true → f.hdr.cls = .link →
    f.status.getLsbD 0 = false → f.crc ≠ frameCrc f.hdr f.body →
    (c = .credit port f ∨ ∃ early, c = .adapt port f early) →
    Gives c s (fun t => t.ctr (portCtr port pkCrcErr) = satAdd (portCtr port pkCrcErr) (s.ctr (portCtr port pkCrcErr)) 1 ∧
      t.ports = s.ports ∧ t.descs = s.descs ∧ t.accts = s.accts ∧ t.out = s.out)) ∧
  (∀ (s : State) (port : Nat) (f : RxFrame) (c : Instr), port < 49 → s.alive = true → (s.port port).active = true →
    s.lostToLane port f = true → (c = .credit port f ∨ ∃ early, c = .adapt port f early) →
    Gives c s (fun t =>
      t.ctr (portCtr port pkWidthLost) = satAdd (portCtr port pkWidthLost) (s.ctr (portCtr port pkWidthLost)) 1 ∧
      t.ports = s.ports ∧ t.descs = s.descs ∧ t.accts = s.accts ∧ t.out = s.out)) ∧
  (∀ (s : State) (port j : Nat) (f : RxFrame), port < 49 → s.alive = true → (s.port port).active = true →
    j < laneCount port → f.fecFixed = [j] → f.stuffed = [j] →
    Gives (.credit port f) s (fun t =>
      t.ctr (laneCtr port j lkFecCorr) = satAdd (laneCtr port j lkFecCorr) (s.ctr (laneCtr port j lkFecCorr)) 1 ∧
      t.ctr (laneCtr port j lkStuffErr) = satAdd (laneCtr port j lkStuffErr) (s.ctr (laneCtr port j lkStuffErr)) 1 ∧
      t.accts = s.accts ∧ t.out = s.out))

/-- CREDIT carries the partner's limits in, and this Dolmo's own limits are raised, class B first, when a CREDIT frame is
built: as the first of a link, after 16 slots, for a rise of 64 units, or 512 ns after a smaller one (R129, R130, R157,
Table 4.7); 64 ticks without credit are a stall (R131). The model's own readings in it: log 32 and 33. -/
def Obligations.CreditsMoveAsTheRulesSay : Prop :=
  (∀ (s : State) (port : Nat) (f : RxFrame), port < 49 → s.alive = true → (s.port port).active = true →
    s.rxFail port f = none → f.hdr.typ.toNat = tyCredit →
    Gives (.credit port f) s (fun t =>
      (t.port port).credB = { (s.port port).credB with txLimit := BitVec.ofNat 32 (natAt f.body 0 4) } ∧
      (t.port port).credC = { (s.port port).credC with txLimit := BitVec.ofNat 32 (natAt f.body 4 4) } ∧
      (t.port port).hunt = false ∧ (∀ q, q ≠ port → t.port q = s.port q) ∧ t.accts = s.accts ∧
      t.counters = (s.lineCounts port f).counters ∧ t.out = s.out)) ∧
  (∀ (s : State) (port : Nat), port < 49 → s.alive = true → (s.port port).active = true →
    s.creditWanted port = true →
    Gives (.creditSend port) s (fun t =>
      (t.acct port false).limit = (s.acct port false).limit + BitVec.ofNat 32 (s.limitRise port false) ∧
      (t.acct port true).limit =
        (s.acct port true).limit + BitVec.ofNat 32 ((s.raiseLimit port false).limitRise port true) ∧
      (t.acct port false).rx = (s.acct port false).rx ∧ (t.acct port true).rx = (s.acct port true).rx ∧
      (t.port port).creditDue = true ∧ (t.port port).creditSlots = 0 ∧ (t.port port).riseAt = none ∧
      (∀ q, q ≠ port → t.port q = s.port q) ∧
      t.out = s.out)) ∧
  (∀ (s : State) (port : Nat), port < 49 → 64 ≤ (s.port port).credC.wait → (s.port port).credC.stalled = false →
    Gives (.creditStall port true) s (fun t => (t.port port).credC.stalled = true ∧
      t.ctr (portCtr port pkCreditStall) = satAdd (portCtr port pkCreditStall) (s.ctr (portCtr port pkCreditStall)) 1 ∧
      (t.port port).credB = (s.port port).credB ∧ (∀ q, q ≠ port → t.port q = s.port q) ∧ t.out = s.out)) ∧
  (∀ (s : State) (port : Nat), port < 49 → 64 ≤ (s.port port).credB.wait → (s.port port).credB.stalled = false →
    Gives (.creditStall port false) s (fun t => (t.port port).credB.stalled = true ∧
      t.ctr (portCtr port pkCreditStall) = satAdd (portCtr port pkCreditStall) (s.ctr (portCtr port pkCreditStall)) 1 ∧
      (t.port port).credC = (s.port port).credC ∧ (∀ q, q ≠ port → t.port q = s.port q) ∧ t.out = s.out))

/-- The timers of class C: the retry timer sends everything again and doubles, up to 32 ticks, and fails the stream at the
eighth sending (R137, R138); a C_ACK_SEND ends what is owed to the far end (R136); a C_NOTREADY wait ends in new
sendings, or in failure after 2 s in all (R139). -/
def Obligations.ClassCTimersRun : Prop :=
  (∀ (s : State) (k : StreamKey) (t : TxStream) (at_ : Nat) (u : Unacked) (l : List Unacked), assoc? s.txs k = some t →
    t.timer = some at_ → t.unacked = u :: l → at_ ≤ s.time → u.sends < 8 →
    Gives (.cRetryTimeout k) s (fun v =>
      assoc? v.txs k = some { t with
        unacked := t.unacked.map (fun x => { x with due := true }), interval := min 32 (2 * t.interval)
        timer := some (s.time + min 32 (2 * t.interval) * s.tickNs) } ∧
      (∀ j, j ≠ k → assoc? v.txs j = assoc? s.txs j) ∧ v.rxs = s.rxs ∧ v.queues = s.queues ∧ v.out = s.out)) ∧
  (∀ (s : State) (k : StreamKey) (t : TxStream) (at_ : Nat) (u : Unacked) (l : List Unacked), assoc? s.txs k = some t →
    t.timer = some at_ → t.unacked = u :: l → at_ ≤ s.time → 8 ≤ u.sends →
    exec (.cRetryTimeout k) s = .next (s.failStream k 16)) ∧
  (∀ (s : State) (k : StreamKey) (r : RxStream), assoc? s.rxs k = some r → r.ackAt.isSome = true →
    Gives (.cAckSend k) s (fun v => assoc? v.rxs k = some { r with ackAt := none, ackNow := false } ∧
      (∀ j, j ≠ k → assoc? v.rxs j = assoc? s.rxs j) ∧ v.txs = s.txs ∧ v.queues = s.queues ∧ v.depot = s.depot)) ∧
  (∀ (s : State) (k : StreamKey) (t : TxStream) (at_ : Nat), assoc? s.txs k = some t → t.retryAt = some at_ →
    at_ ≤ s.time → t.waited + (s.time - t.waitFrom) ≤ 2000000000 →
    exec (.notreadyRetry k) s = .next (s.setTx k { t with
      retryAt := none, waited := t.waited + (s.time - t.waitFrom), unacked := t.unacked.map (fun x => { x with due := true })
      timer := some (s.time + t.interval * s.tickNs) })) ∧
  (∀ (s : State) (k : StreamKey) (t : TxStream) (at_ : Nat), assoc? s.txs k = some t → t.retryAt = some at_ →
    2000000000 < t.waited + (s.time - t.waitFrom) → exec (.notreadyRetry k) s = .next (s.failStream k 16))

/-- A free egress starts a waiting frame: it leaves the port and its units count in TX_USED; a due CREDIT goes ahead of
class C and B (R129, R130, R160); a frame with a codeword lost on the die bridge is discarded there and counts in BRIDGE_ERR
(R147). At its trailer the direction is free and one reference is released (R168, R180); a residue copy held too long is
dropped, of either class where the port is DOWN (R165, R166). The model's own readings in it: log 162. -/
def Obligations.EgressSendsAndReleases : Prop :=
  (∀ (s : State) (port : Nat) (bad : Bool), port < 49 → s.alive = true → (s.port port).canSend = true → s.rooster.slot ≠ 0 →
    (s.port port).qS = [] → (s.port port).qB = [] → (s.port port).qC = [] → (s.port port).creditDue = true →
    s.time + frameNs (s.port port).widthOut 16 ≤ s.egressEnd port →
    Gives (.egressFrameStart ⟨port, bad⟩) s (fun t =>
      t.out = s.out ++ [.frame port (linkHeader tyCredit 16) (s.creditPayload port) false false] ∧
      (t.port port).creditDue = false ∧ (∀ q, q ≠ port → t.port q = s.port q) ∧ t.accts = s.accts ∧ t.descs = s.descs)) ∧
  (∀ (s : State) (port : Nat) (e : QEntry) (bad : Bool), port < 49 → s.alive = true → (s.port port).canSend = true →
    s.rooster.slot ≠ 0 → (s.port port).qS = [] → (s.port port).qB = [] → (s.port port).qC = [e] →
    (s.port port).creditDue = false → e.hdr.cls = .c → e.ingress < 49 → e.own = none → s.epochOk e.hdr.epoch = true →
    s.bcReady port e = true → (bad && e.crosses port) = false →
    Gives (.egressFrameStart ⟨port, bad⟩) s (fun t =>
      t.out = s.out ++ [.frame port { e.hdr with ttl := BitVec.ofNat 8 (e.hdr.ttl.toNat - 1) } e.payload false
        (e.crowd || s.crowds port e)] ∧
      (t.port port).busy = some e ∧ (t.port port).qC = [] ∧
      (t.port port).credC.txUsed = (s.port port).credC.txUsed + BitVec.ofNat 32 e.units ∧
      (t.port port).credB = (s.port port).credB ∧ (∀ q, q ≠ port → t.port q = s.port q) ∧ t.descs = s.descs)) ∧
  (∀ (s : State) (port : Nat) (e : QEntry) (bad : Bool), port < 49 → s.alive = true → (s.port port).canSend = true →
    s.rooster.slot ≠ 0 → (s.port port).qS = [] → (s.port port).qB = [e] → (s.port port).qC = [] →
    (s.port port).creditDue = false → e.hdr.cls = .b → e.ingress < 49 → e.own = none → s.epochOk e.hdr.epoch = true →
    s.bcReady port e = true → (bad && e.crosses port) = false →
    Gives (.egressFrameStart ⟨port, bad⟩) s (fun t => (∃ m,
      t.out = s.out ++ [.frame port { e.hdr with ttl := BitVec.ofNat 8 (e.hdr.ttl.toNat - 1) } e.payload false m]) ∧
      (t.port port).busy = some e ∧ (t.port port).qB = [] ∧
      (t.port port).credB.txUsed = (s.port port).credB.txUsed + BitVec.ofNat 32 e.units ∧
      (t.port port).credC = (s.port port).credC ∧ (∀ q, q ≠ port → t.port q = s.port q) ∧ t.descs = s.descs)) ∧
  (∀ (s : State) (port n : Nat) (e : QEntry) (f : Stored), port < 49 → s.alive = true → (s.port port).canSend = true →
    s.rooster.slot ≠ 0 → (s.port port).qS = [] → (s.port port).qB = [] → (s.port port).qC = [e] →
    (s.port port).creditDue = false → e.hdr.cls = .c → s.epochOk e.hdr.epoch = true → s.bcReady port e = true →
    e.crosses port = true → e.desc = some n → s.descs.get? n = some f →
    Gives (.egressFrameStart ⟨port, true⟩) s (fun t => t.out = s.out ∧ (t.port port).busy = none ∧ (t.port port).qC = [] ∧
      t.descs.get? n = (if f.refs ≤ 1 then none else some { f with refs := f.refs - 1 }) ∧
      t.ctr (dieCtr (homeDie port) ikBridgeErr) =
        satAdd (dieCtr (homeDie port) ikBridgeErr) (s.ctr (dieCtr (homeDie port) ikBridgeErr)) 1)) ∧
  (∀ (s : State) (port n : Nat) (e : QEntry) (f : Stored), port < 49 → (s.port port).busy = some e → e.desc = some n →
    s.descs.get? n = some f →
    Gives (.egressFrameEnd port) s (fun t => (t.port port).busy = none ∧
      t.descs.get? n = (if f.refs ≤ 1 then none else some { f with refs := f.refs - 1 }) ∧
      (∀ m, m ≠ n → t.descs.get? m = s.descs.get? m) ∧ t.out = s.out ∧ t.counters = s.counters)) ∧
  (∀ (s : State) (port n : Nat) (e : QEntry) (f : Stored), port < 49 →
    (s.port port).qB.find? (fun x => x.mc && x.desc = some n) = some e → s.descs.get? n = some f →
    e.at_ + (s.die e.die).mcHold * s.tickNs ≤ s.time → (s.port port).down = false →
    Gives (.mcHoldExpiry port n) s (fun t => (t.port port).qB = dropFirst e (s.port port).qB ∧
      t.descs.get? n = (if f.refs ≤ 1 then none else some { f with refs := f.refs - 1 }) ∧
      t.ctr (portCtr port pkMcResidueDrop) =
        satAdd (portCtr port pkMcResidueDrop) (s.ctr (portCtr port pkMcResidueDrop)) 1 ∧ t.out = s.out)) ∧
  (∀ (s : State) (port n : Nat) (e : QEntry) (f : Stored), port < 49 →
    ((s.port port).qB ++ (s.port port).qS).find? (fun x => x.mc && x.desc = some n) = some e → s.descs.get? n = some f →
    e.at_ + (s.die e.die).mcHold * s.tickNs ≤ s.time → (s.port port).down = true →
    Gives (.mcHoldExpiry port n) s (fun t => (t.port port).qB = dropFirst e (s.port port).qB ∧
      (t.port port).qS = dropFirst e (s.port port).qS ∧
      t.descs.get? n = (if f.refs ≤ 1 then none else some { f with refs := f.refs - 1 }) ∧
      t.ctr (portCtr port pkMcDownDrop) =
        satAdd (portCtr port pkMcDownDrop) (s.ctr (portCtr port pkMcDownDrop)) 1 ∧ t.out = s.out))

/-- The next frame of a B_SEND is built with the queue's pace, its host bytes read in order, and its header names the
message and its place in it (R126, R195, R210, R346). The model's own readings in it: log 30. -/
def Obligations.SendQueuesBuildFrames : Prop :=
  ∀ (s : State) (qid : Nat) (q : Queue) (e : Started) (dst : BitVec 32) (data : List Byte), qid < 4096 →
    s.alive = true → s.power.ready = true → s.dueStream qid = none → s.queue? qid = some q →
    q.started.find? (fun x => x.opc = 1 && x.status.isNone) = some e →
    s.rankAddr (s.ctxPart q.ctx) e.rank = some dst → min 4096 (e.len - e.built) ≤ q.bucket →
    s.mayBuild ingHP (s.bHeader 0x40 dst (s.ctxPart q.ctx) q.ctx e.dq (min 4096 (e.len - e.built)) e.msg
      (e.built / 4096) (decide (e.len ≤ e.built + min 4096 (e.len - e.built)))) = true →
    ∃ (u : State) (h : Header), exec (.hostFrameBuild qid data) s =
        .next (u.launch ingHP h (padTo (min 4096 (e.len - e.built)) data)) ∧
      u.out = s.out ++ [.pcieRead (s.fnOf (s.ctxPart q.ctx)) (e.host + BitVec.ofNat 64 e.built) (min 4096 (e.len - e.built))] ∧
      u.queue? qid = some { q with
        bucket := q.bucket - min 4096 (e.len - e.built)
        started := q.started.map (fun y => if y.idx = e.idx then
          { e with built := e.built + min 4096 (e.len - e.built), moved := e.built + min 4096 (e.len - e.built)
                   status := if e.len ≤ e.built + min 4096 (e.len - e.built) then some 0 else none } else y) } ∧
      h.typ = 2 ∧ h.dst = dst ∧ h.msg = e.msg ∧ h.ttl = 8 ∧ h.srcLoc = s.power.loc ∧
      h.epoch = s.epoch.current.getLsbD 0 ∧ u.ports = s.ports ∧ u.descs = s.descs ∧ u.depot = s.depot

/-- Hen: a waiting request that may go has its turn (R150, R176), in the next cycle where the pool has served one in this; a bad
depot list is rebuilt from the in-use marks at a hinge, its links in ascending address order (R177, R178); and the level
follows the fill, in force from the next cycle on (R183, R184). The model's own readings in it: log 34. -/
def Obligations.HenActs : Prop :=
  (∀ (s : State) (d pool : Nat) (w : HenWait), d < 2 → pool < 3 →
    (s.die d).waits.find? (fun x => x.pool = pool && s.waitReady d x) = some w →
    w.at_ ≠ s.time → ((s.die d).pool pool).allocAt ≠ some s.time →
    exec (.henAllocation d pool) s = .next (s.serveWait d w)) ∧
  (∀ (s : State) (d pool : Nat) (w : HenWait), d < 2 → pool < 3 →
    (s.die d).waits.find? (fun x => x.pool = pool && s.waitReady d x) = some w →
    (w.at_ = s.time ∨ ((s.die d).pool pool).allocAt = some s.time) →
    exec (.henAllocation d pool) s = .next (State.serveWait { s with time := s.time + 1 } d w)) ∧
  (∀ (s : State) (pool : Nat), (pool = 3 ∨ pool = 4) → (s.depot.pool pool).bad = true → s.rooster.slot = 0 →
    Gives (.henListRebuild pool) s (fun t => (t.depot.pool pool).bad = false ∧
      (∀ i, s.freeBuffer pool i → (∀ j, j < i → ¬ s.freeBuffer pool j) →
        (t.depot.pool pool).head = BitVec.ofNat 64 (s.depot.bufAddr pool i)) ∧
      ((∀ i, ¬ s.freeBuffer pool i) → (t.depot.pool pool).head = linkEnd) ∧
      (∀ i j, s.freeBuffer pool i → s.freeBuffer pool j → i < j → (∀ k, i < k → k < j → ¬ s.freeBuffer pool k) →
        t.depot.link pool i = BitVec.ofNat 64 (s.depot.bufAddr pool j)) ∧
      (∀ i, s.freeBuffer pool i → (∀ j, i < j → ¬ s.freeBuffer pool j) → t.depot.link pool i = linkEnd) ∧
      (t.depot.pool pool).used = (s.depot.pool pool).used ∧ t.depot.mem = s.depot.mem ∧ t.out = s.out ∧
      t.ctr (devCtr dkHenRebuild) = satAdd (devCtr dkHenRebuild) (s.ctr (devCtr dkHenRebuild)) 1)) ∧
  (∀ (s : State) (d : Nat), d < 2 → (s.die d).level = 0 → (s.die d).fillGe (s.die d).thrA = true →
    (s.die d).fillGe (s.die d).thrR = false → (s.die d).fillGe (s.die d).thrB = false →
    Gives (.henLevelChange d) s (fun t => (t.die d).level = 1 ∧ (t.die d).levelIn s.time = (s.die d).levelIn s.time ∧
      t.ctr (dieCtr d ikHenAmberEnter) = satAdd (dieCtr d ikHenAmberEnter) (s.ctr (dieCtr d ikHenAmberEnter)) 1 ∧
      t.ports = s.ports ∧ t.descs = s.descs ∧ t.out = s.out)) ∧
  (∀ (s : State) (d : Nat), d < 2 → (s.die d).level ≠ 0 → (∀ l, (s.die d).level < l → l ≤ 3 →
      (s.die d).fillGe ((s.die d).thr l) = false) → (s.die d).level ≤ 3 →
    (s.die d).fillLe ((s.die d).thr (s.die d).level - 8) = true →
    Gives (.henLevelChange d) s (fun t => (t.die d).level = (s.die d).level - 1 ∧
      (t.die d).levelIn s.time = (s.die d).levelIn s.time ∧ t.counters = s.counters ∧
      t.ports = s.ports ∧ t.descs = s.descs ∧ t.out = s.out))

/-- A due echo is due no longer and counts in ECHO_TX (R207); a message left incomplete for 4 ticks is dropped, counts in
B_MSG_LOST, and its later frames are duplicates (R212). The model's own readings in it: log 46. -/
def Obligations.EchoesAndMessageTimeouts : Prop :=
  (∀ (s : State) (src : BitVec 32) (ctx : Nat) (e : Echo) (d : BitVec 32 × Nat × Nat × Nat),
    assoc? s.echoes (src, ctx) = some e → e.due = some d →
    Gives (.echoSend src ctx) s (fun t => assoc? t.echoes (src, ctx) = some { e with due := none } ∧
      t.ctr (devCtr dkEchoTx) = satAdd (devCtr dkEchoTx) (s.ctr (devCtr dkEchoTx)) 1 ∧
      (∀ k, k ≠ (src, ctx) → assoc? t.echoes k = assoc? s.echoes k) ∧ t.queues = s.queues ∧ t.threads = s.threads ∧
      t.depot = s.depot)) ∧
  (∀ (s : State) (k : MsgKey) (m : OpenMsg), s.msgs.find? (fun x => x.key = k) = some m → m.complete = false →
    m.lastAt + 4 * s.tickNs ≤ s.time →
    Gives (.bMsgTimeout k) s (fun t => t.msgs = s.msgs.filter (fun x => x.key ≠ k) ∧ t.deadMsgs = s.deadMsgs ++ [k] ∧
      t.ctr (devCtr dkBMsgLost) = satAdd (devCtr dkBMsgLost) (s.ctr (devCtr dkBMsgLost)) 1 ∧ t.threads = s.threads ∧
      t.depot.mem = s.depot.mem ∧ t.parts = s.parts))

/-- The scalar results of Table 10.6 (R262, R266): sums, differences, products, logic, shifts and immediates, with OVF where
the exact signed result does not fit 64 bits (R249). Nothing but the thread's pc, RD and SFLAGS changes. The model's own
readings in it: log 24. -/
def Obligations.ScalarResults : Prop :=
  ∀ (s : State) (p : Nat) (h : GHead) (rd ra rb : BitVec 5) (imm : BitVec 28),
    (s.issues p (.add p h rd ra rb) → exec (.add p h rd ra rb) s = .next (s.scalarTo p (.add p h rd ra rb) rd
      (s.sreg p ra + s.sreg p rb)
      (if (s.sreg p ra + s.sreg p rb).toInt = (s.sreg p ra).toInt + (s.sreg p rb).toInt then 0 else sfOVF))) ∧
    (s.issues p (.sub p h rd ra rb) → exec (.sub p h rd ra rb) s = .next (s.scalarTo p (.sub p h rd ra rb) rd
      (s.sreg p ra - s.sreg p rb)
      (if (s.sreg p ra - s.sreg p rb).toInt = (s.sreg p ra).toInt - (s.sreg p rb).toInt then 0 else sfOVF))) ∧
    (s.issues p (.mul p h rd ra rb) → exec (.mul p h rd ra rb) s = .next (s.scalarTo p (.mul p h rd ra rb) rd
      (s.sreg p ra * s.sreg p rb)
      (if (s.sreg p ra * s.sreg p rb).toInt = (s.sreg p ra).toInt * (s.sreg p rb).toInt then 0 else sfOVF))) ∧
    (s.issues p (.neg p h rd ra) → exec (.neg p h rd ra) s = .next (s.scalarTo p (.neg p h rd ra) rd
      (- s.sreg p ra) (if s.sreg p ra = wordMin then sfOVF else 0))) ∧
    (s.issues p (.abs p h rd ra) → exec (.abs p h rd ra) s = .next (s.scalarTo p (.abs p h rd ra) rd
      (if (s.sreg p ra).toInt < 0 then - s.sreg p ra else s.sreg p ra) (if s.sreg p ra = wordMin then sfOVF else 0))) ∧
    (s.issues p (.and p h rd ra rb) → exec (.and p h rd ra rb) s = .next (s.scalarTo p (.and p h rd ra rb) rd
      (s.sreg p ra &&& s.sreg p rb) 0)) ∧
    (s.issues p (.or p h rd ra rb) → exec (.or p h rd ra rb) s = .next (s.scalarTo p (.or p h rd ra rb) rd
      (s.sreg p ra ||| s.sreg p rb) 0)) ∧
    (s.issues p (.xor p h rd ra rb) → exec (.xor p h rd ra rb) s = .next (s.scalarTo p (.xor p h rd ra rb) rd
      (s.sreg p ra ^^^ s.sreg p rb) 0)) ∧
    (s.issues p (.shl p h rd ra rb) → exec (.shl p h rd ra rb) s = .next (s.scalarTo p (.shl p h rd ra rb) rd
      (s.sreg p ra <<< (s.sreg p rb).toNat) 0)) ∧
    (s.issues p (.shr p h rd ra rb) → exec (.shr p h rd ra rb) s = .next (s.scalarTo p (.shr p h rd ra rb) rd
      (s.sreg p ra >>> (s.sreg p rb).toNat) 0)) ∧
    (s.issues p (.sra p h rd ra rb) → exec (.sra p h rd ra rb) s = .next (s.scalarTo p (.sra p h rd ra rb) rd
      ((s.sreg p ra).sshiftRight (s.sreg p rb).toNat) 0)) ∧
    (s.issues p (.addi p h rd ra imm) → exec (.addi p h rd ra imm) s = .next (s.scalarTo p (.addi p h rd ra imm) rd
      (s.sreg p ra + imm.signExtend 64)
      (if (s.sreg p ra + imm.signExtend 64).toInt = (s.sreg p ra).toInt + imm.toInt then 0 else sfOVF))) ∧
    (s.issues p (.movi p h rd imm) → exec (.movi p h rd imm) s = .next (s.scalarTo p (.movi p h rd imm) rd
      (imm.signExtend 64) 0)) ∧
    (s.issues p (.ori p h rd ra imm) → exec (.ori p h rd ra imm) s = .next (s.scalarTo p (.ori p h rd ra imm) rd
      (s.sreg p ra ||| imm.zeroExtend 64) 0))

/-- The saturating forms keep the exact result within the signed or unsigned 64-bit range and set SAT where that moved it
(R249); the divides give quotient and remainder, DZ with quotient 0 and remainder the dividend at a zero divisor, and OVF
with the most negative quotient at its one overflow (R249, R267). -/
def Obligations.ScalarSaturatesAndDivides : Prop :=
  ∀ (s : State) (p : Nat) (h : GHead) (rd ra rb re : BitVec 5),
    (s.issues p (.adds p h rd ra rb) → ∃ r : Word,
      r.toInt = max (-(2 ^ 63)) (min (2 ^ 63 - 1) ((s.sreg p ra).toInt + (s.sreg p rb).toInt)) ∧
      exec (.adds p h rd ra rb) s = .next (s.scalarTo p (.adds p h rd ra rb) rd r
        (if r.toInt = (s.sreg p ra).toInt + (s.sreg p rb).toInt then 0 else sfSAT))) ∧
    (s.issues p (.subs p h rd ra rb) → ∃ r : Word,
      r.toInt = max (-(2 ^ 63)) (min (2 ^ 63 - 1) ((s.sreg p ra).toInt - (s.sreg p rb).toInt)) ∧
      exec (.subs p h rd ra rb) s = .next (s.scalarTo p (.subs p h rd ra rb) rd r
        (if r.toInt = (s.sreg p ra).toInt - (s.sreg p rb).toInt then 0 else sfSAT))) ∧
    (s.issues p (.muls p h rd ra rb) → ∃ r : Word,
      r.toInt = max (-(2 ^ 63)) (min (2 ^ 63 - 1) ((s.sreg p ra).toInt * (s.sreg p rb).toInt)) ∧
      exec (.muls p h rd ra rb) s = .next (s.scalarTo p (.muls p h rd ra rb) rd r
        (if r.toInt = (s.sreg p ra).toInt * (s.sreg p rb).toInt then 0 else sfSAT))) ∧
    (s.issues p (.adduS p h rd ra rb) → ∃ r : Word,
      r.toNat = min (2 ^ 64 - 1) ((s.sreg p ra).toNat + (s.sreg p rb).toNat) ∧
      exec (.adduS p h rd ra rb) s = .next (s.scalarTo p (.adduS p h rd ra rb) rd r
        (if r.toNat = (s.sreg p ra).toNat + (s.sreg p rb).toNat then 0 else sfSAT))) ∧
    (s.issues p (.subuS p h rd ra rb) → ∃ r : Word,
      r.toNat = (s.sreg p ra).toNat - (s.sreg p rb).toNat ∧
      exec (.subuS p h rd ra rb) s = .next (s.scalarTo p (.subuS p h rd ra rb) rd r
        (if (s.sreg p rb).toNat ≤ (s.sreg p ra).toNat then 0 else sfSAT))) ∧
    (s.issues p (.divs p h rd ra rb re) → ∃ (q r : Word) (f : BitVec 3),
      (s.sreg p rb = 0 → q = 0 ∧ r = s.sreg p ra ∧ f = sfDZ) ∧
      (s.sreg p rb ≠ 0 → s.sreg p ra = wordMin → (s.sreg p rb).toInt = -1 → q = wordMin ∧ r = 0 ∧ f = sfOVF) ∧
      (s.sreg p rb ≠ 0 → (s.sreg p ra ≠ wordMin ∨ (s.sreg p rb).toInt ≠ -1) →
        q.toInt = (s.sreg p ra).toInt.tdiv (s.sreg p rb).toInt ∧ r.toInt = (s.sreg p ra).toInt.tmod (s.sreg p rb).toInt ∧
        f = 0) ∧
      exec (.divs p h rd ra rb re) s = .next (s.setThread p
        ((((s.movedOn p (.divs p h rd ra rb re)).setReg rd.toNat q).setReg re.toNat r).orFlags f))) ∧
    (s.issues p (.divu p h rd ra rb re) → ∃ (q r : Word) (f : BitVec 3),
      (s.sreg p rb = 0 → q = 0 ∧ r = s.sreg p ra ∧ f = sfDZ) ∧
      (s.sreg p rb ≠ 0 → q.toNat = (s.sreg p ra).toNat / (s.sreg p rb).toNat ∧
        r.toNat = (s.sreg p ra).toNat % (s.sreg p rb).toNat ∧ f = 0) ∧
      exec (.divu p h rd ra rb re) s = .next (s.setThread p
        ((((s.movedOn p (.divu p h rd ra rb re)).setReg rd.toNat q).setReg re.toNat r).orFlags f)))

/-- Flow, predicates and time (Table 10.5): branches, counted loops, TICKWAIT, compares, predicate logic and RDT; TICKWAIT
completes once everything has retired and left (R43). -/
def Obligations.FlowAndPredicates : Prop :=
  (∀ (s : State) (p : Nat) (h : GHead), s.issues p (.nop p h) →
    exec (.nop p h) s = .next (s.setThread p (s.movedOn p (.nop p h)))) ∧
  (∀ (s : State) (p : Nat) (h : GHead) (cp : BitVec 3) (cn : Bool) (target : BitVec 16),
    s.issues p (.br p h cp cn target) →
    exec (.br p h cp cn target) s = .next (s.setThread p
      (if (s.thread p).pred cp.toNat != cn then { s.thread p with pc := target.toNat }
       else s.movedOn p (.br p h cp cn target)))) ∧
  (∀ (s : State) (p : Nat) (h : GHead) (rc : BitVec 5) (end_ max : BitVec 16), s.issues p (.loop p h rc end_ max) →
    exec (.loop p h rc end_ max) s = .next (s.setThread p
      (if s.sreg p rc = 0 then { s.thread p with pc := end_.toNat + 1 }
       else if max.toNat < (s.sreg p rc).toNat then
         ((s.movedOn p (.loop p h rc end_ max)).setReg rc.toNat (max.zeroExtend 64)).orFlags sfSAT
       else s.movedOn p (.loop p h rc end_ max)))) ∧
  (∀ (s : State) (p : Nat) (h : GHead) (rc : BitVec 5) (start : BitVec 16), s.issues p (.lend p h rc start) →
    Gives (.lend p h rc start) s (fun t => t = s.setThread p (t.thread p) ∧
      (rc ≠ 0 → t.sreg p rc = s.sreg p rc - 1) ∧ (∀ r, r ≠ rc → t.sreg p r = s.sreg p r) ∧
      (t.thread p).pc = (if s.sreg p rc = 1 then (s.thread p).pc + 1 else start.toNat) ∧
      (t.thread p).sflags = (s.thread p).sflags ∧ (t.thread p).preds = (s.thread p).preds ∧
      (t.thread p).recs = (s.thread p).recs)) ∧
  (∀ (s : State) (p : Nat) (h : GHead), s.issues p (.tickwait p h) →
    exec (.tickwait p h) s = .next (s.setThread p { s.movedOn p (.tickwait p h) with waiting := true })) ∧
  (∀ (s : State) (p : Nat), p < 128 → (s.thread p).st = .running → (s.thread p).waiting = true →
    (s.thread p).recs = [] → (s.thread p).sends = [] → s.ownQueued p = false →
    exec (.tickwaitComplete p) s = .next (s.setThread p { s.thread p with ticked := true })) ∧
  (∀ (s : State) (p : Nat) (h : GHead) (pd cond : BitVec 3) (ra : BitVec 5) (imm : Bool) (rb : BitVec 5) (imm26 : BitVec 26)
    (a b : Word), s.issues p (.cmp p h pd cond ra imm rb imm26) → cond.toNat ≤ 5 → a = s.sreg p ra →
    b = (if imm then imm26.signExtend 64 else s.sreg p rb) → ∃ r : Bool,
    (r = true ↔ (cond = 0 ∧ a = b) ∨ (cond = 1 ∧ a ≠ b) ∨ (cond = 2 ∧ a.toInt < b.toInt) ∨ (cond = 3 ∧ a.toInt ≤ b.toInt) ∨
      (cond = 4 ∧ a.toNat < b.toNat) ∨ (cond = 5 ∧ a.toNat ≤ b.toNat)) ∧
    exec (.cmp p h pd cond ra imm rb imm26) s =
      .next (s.setThread p ((s.movedOn p (.cmp p h pd cond ra imm rb imm26)).setPred pd.toNat r))) ∧
  (∀ (s : State) (p : Nat) (h : GHead) (pd : BitVec 3) (opl : BitVec 2) (pa pb : BitVec 3),
    s.issues p (.plog p h pd opl pa pb) → ∃ r : Bool,
    (r = true ↔ (opl = 0 ∧ ((s.thread p).pred pa.toNat = true ∧ (s.thread p).pred pb.toNat = true)) ∨
      (opl = 1 ∧ ((s.thread p).pred pa.toNat = true ∨ (s.thread p).pred pb.toNat = true)) ∨
      (opl = 2 ∧ (s.thread p).pred pa.toNat ≠ (s.thread p).pred pb.toNat) ∨
      (opl = 3 ∧ ((s.thread p).pred pa.toNat = true ∧ (s.thread p).pred pb.toNat = false))) ∧
    exec (.plog p h pd opl pa pb) s =
      .next (s.setThread p ((s.movedOn p (.plog p h pd opl pa pb)).setPred pd.toNat r))) ∧
  (∀ (s : State) (p : Nat) (h : GHead) (rd : BitVec 5) (sel : BitVec 3), s.issues p (.rdt p h rd sel) → sel.toNat ≤ 5 →
    ∃ v : Word,
    (sel = 0 → v = s.rooster.tickNo) ∧ (sel = 1 → v = BitVec.ofNat 64 s.rooster.slot) ∧
    (sel = 2 → v = BitVec.ofNat 64 p) ∧ (sel = 3 → v = s.epoch.current.zeroExtend 64) ∧
    (sel = 4 → v = BitVec.ofNat 64 (s.thread p).variant) ∧ (sel = 5 → v = BitVec.ofNat 64 s.rooster.slots) ∧
    exec (.rdt p h rd sel) s = .next (s.scalarTo p (.rdt p h rd sel) rd v 0))

/-- An instruction whose guard does not hold only moves its thread's pc on (R260); and an instruction that its thread cannot
issue does not act at all (R243, R244). This holds of every command that is a Guand instruction. The model's own readings
in it: log 5. -/
def Obligations.GuardsAndIssue : Prop :=
  (∀ (s : State) (p : Nat) (i : Instr), p < 128 → s.canIssue p i = true → (s.thread p).guard (guandHead i) = false →
    exec i s = .next (s.setThread p (s.movedOn p i))) ∧
  (∀ (s : State) (p : Nat) (i : Instr) (w x : Word), p < 128 → guandDecode p w x = some i → s.canIssue p i = false →
    exec i s = .next s)

/-- Depot instructions at issue (Table 10.8, R268, R269, R317): a load takes a record with the value it read, a store one
with its depot address, or none where the pointer faults, and its bytes. A depot fence retires once its thread's write
buffer is empty, and holds back the thread's younger depot accesses until then (R321). The model's own readings in it: log
5, 21 and 22. -/
def Obligations.DepotInstructionsIssue : Prop :=
  (∀ (s : State) (p a : Nat) (h : GHead) (rd ra : BitVec 5) (sz : BitVec 2) (sx : Bool) (off : BitVec 25),
    s.issues p (.ld p h rd ra sz sx off) → (s.thread p).fenced = false → s.depot.draining = false →
    s.ptrAddr p (s.sreg p ra) off.toInt (2 ^ sz.toNat) = some a → (s.thread p).atomicOver a (2 ^ sz.toNat) = false →
    s.depot.bad = [] → s.depot.soft = [] → (s.thread p).recs = [] → (s.thread p).wb = [] →
    exec (.ld p h rd ra sz sx off) s = .next (s.recorded p (.ld p h rd ra sz sx off)
      (.ld rd.toNat (some a) (2 ^ sz.toNat) sx (some
        (if sx then BitVec.ofInt 64 (signed (8 * 2 ^ sz.toNat) (leNat (memRead s.depot.mem a (2 ^ sz.toNat))))
         else BitVec.ofNat 64 (leNat (memRead s.depot.mem a (2 ^ sz.toNat))), 0))) [rd.toNat])) ∧
  (∀ (s : State) (p : Nat) (h : GHead) (rs ra : BitVec 5) (sz : BitVec 2) (off : BitVec 25),
    s.issues p (.st p h rs ra sz off) → (s.thread p).fenced = false →
    exec (.st p h rs ra sz off) s = .next (s.recorded p (.st p h rs ra sz off)
      (.store (s.ptrAddr p (s.sreg p ra) off.toInt (2 ^ sz.toNat)) (leBytes (2 ^ sz.toNat) (s.sreg p rs).toNat)) [])) ∧
  (∀ (s : State) (p : Nat) (h : GHead), s.issues p (.fenceDepot p h) →
    exec (.fenceDepot p h) s = .next (s.recorded p (.fenceDepot p h) (.fence false []) [])) ∧
  (∀ (s : State) (p : Nat) (h : GHead), s.issues p (.fenceTick p h) →
    exec (.fenceTick p h) s = .next (s.recorded p (.fenceTick p h) (.fence true (s.muleEntries p)) [])) ∧
  (∀ (s : State) (p : Nat) (r : Rec) (l : List Rec), p < 128 → (s.thread p).recs = r :: l → r.op = .fence false [] →
    ((s.thread p).wb = [] → exec (.retire p) s = .next (s.setThread p { s.thread p with recs := l })) ∧
    ((s.thread p).wb ≠ [] → exec (.retire p) s = .next s)) ∧
  (∀ (s : State) (p : Nat) (i : Instr) (x : Rec) (h : GHead) (rd ra rb re : BitVec 5) (sz : BitVec 2) (sx : Bool)
    (o25 : BitVec 25) (o23 : BitVec 23) (o18 : BitVec 18) (eng fmt : BitVec 5) (t : BitVec 6) (rows : BitVec 8)
    (tw : BitVec 2) (tr tc : BitVec 4), s.issues p i → x ∈ (s.thread p).recs → x.op = .fence false [] →
    (i = .ld p h rd ra sz sx o25 ∨ i = .st p h rd ra sz o25 ∨ i = .aadd p h rd ra rb o23 ∨ i = .aswp p h rd ra rb o23 ∨
      i = .acas p h rd ra rb re o18 ∨ i = .acas2 p h rd ra rb re o18 ∨ i = .tld p h eng t fmt true ra rows tr tc ∨
      i = .tst p h eng t ra rows tw tr tc) →
    exec i s = .next s)

/-- An atomic acts on the word that its address is rounded down to, and the segment check is made on that address;
THREAD_MISALIGN counts when an atomic retires whose address was rounded (R270). At issue it takes a record with the operands
it read. -/
def Obligations.AtomicsAreRoundedDown : Prop :=
  (∀ (s : State) (p c g o : Nat) (h : GHead) (rd ra rb : BitVec 5) (off : BitVec 23),
    s.issues p (.aadd p h rd ra rb off) → (s.thread p).fenced = false → ptrPlus (s.sreg p ra) off.toInt = some (c, g, o) →
    exec (.aadd p h rd ra rb off) s = .next (s.recorded p (.aadd p h rd ra rb off)
      (.atomic (s.segAddr p c g (o / 8 * 8) 8) 8 (decide (o % 8 ≠ 0)) (.aadd (s.sreg p rb)) rd.toNat) [rd.toNat])) ∧
  (∀ (s : State) (p c g o : Nat) (h : GHead) (rd ra rb : BitVec 5) (off : BitVec 23),
    s.issues p (.aswp p h rd ra rb off) → (s.thread p).fenced = false → ptrPlus (s.sreg p ra) off.toInt = some (c, g, o) →
    exec (.aswp p h rd ra rb off) s = .next (s.recorded p (.aswp p h rd ra rb off)
      (.atomic (s.segAddr p c g (o / 8 * 8) 8) 8 (decide (o % 8 ≠ 0)) (.aswp (s.sreg p rb)) rd.toNat) [rd.toNat])) ∧
  (∀ (s : State) (p c g o : Nat) (h : GHead) (rd ra rb re : BitVec 5) (off : BitVec 18),
    s.issues p (.acas p h rd ra rb re off) → (s.thread p).fenced = false →
    ptrPlus (s.sreg p ra) off.toInt = some (c, g, o) →
    exec (.acas p h rd ra rb re off) s = .next (s.recorded p (.acas p h rd ra rb re off)
      (.atomic (s.segAddr p c g (o / 8 * 8) 8) 8 (decide (o % 8 ≠ 0)) (.acas (s.sreg p rb) (s.sreg p re)) rd.toNat)
      [rd.toNat])) ∧
  (∀ (s : State) (p c g o : Nat) (h : GHead) (rd ra rb re : BitVec 5) (off : BitVec 18),
    s.issues p (.acas2 p h rd ra rb re off) → (s.thread p).fenced = false →
    ptrPlus (s.sreg p ra) off.toInt = some (c, g, o) →
    exec (.acas2 p h rd ra rb re off) s = .next (s.recorded p (.acas2 p h rd ra rb re off)
      (.atomic (s.segAddr p c g (o / 16 * 16) 16) 16 (decide (o % 16 ≠ 0))
        (.acas2 (s.sreg p rb) ((s.thread p).reg (rb.toNat + 1)) (s.sreg p re) ((s.thread p).reg (re.toNat + 1))) rd.toNat)
      [rd.toNat, rd.toNat + 1])) ∧
  (∀ (s : State) (p a n rd : Nat) (mis : Bool) (op : StoreOp) (r : Rec) (l : List Rec), p < 128 →
    (s.thread p).recs = r :: l → r.op = .atomic (some a) n mis op rd → (s.thread p).wb.length < 16 →
    Gives (.retire p) s (fun t => (t.thread p).recs = l ∧
      (t.thread p).wb = (s.thread p).wb ++ [{ id := r.id, pc := r.pc, addr := a, op := op, rd := some rd }] ∧
      t.ctr (partCtr p rkMisalign) =
        (if mis then satAdd (partCtr p rkMisalign) (s.ctr (partCtr p rkMisalign)) 1 else s.ctr (partCtr p rkMisalign)) ∧
      t.depot = s.depot ∧ (∀ q, q ≠ p → t.thread q = s.thread q)))

/-- Link, combine and queue instructions at issue (Tables 10.9-10.14): RECV binds its handle (R272); each of the others
takes a record with the register values it read; EXPECT saves a checkpoint (R245); TLD claims its frame (R281). -/
def Obligations.LinkAndCombineIssue : Prop :=
  (∀ (s : State) (p : Nat) (h : GHead) (hd : BitVec 4) (grant : BitVec 12) (cr : BitVec 5) (dl : BitVec 14) (v : Variant)
    (g : Grant), s.issues p (.recv p h hd grant cr dl) → s.variantOf p = some v → v.grants[grant.toNat]? = some g →
    exec (.recv p h hd grant cr dl) s = .next (s.setThread p { s.movedOn p (.recv p h hd grant cr dl) with
      handles := (s.thread p).handles.set hd.toNat { grant := g, chunk := (s.sreg p cr).setWidth 32, dl := dl.toNat } })) ∧
  (∀ (s : State) (p : Nat) (h : GHead) (port : BitVec 6) (slot : BitVec 14) (nf : BitVec 8) (srck : Bool) (t : BitVec 6)
    (rr cr fr dr : BitVec 5) (slen : BitVec 13) (ff lf : Bool) (eng : BitVec 5),
    s.issues p (.send p h port slot nf srck t rr cr fr dr slen ff lf eng) →
    exec (.send p h port slot nf srck t rr cr fr dr slen ff lf eng) s =
      .next (s.recorded p (.send p h port slot nf srck t rr cr fr dr slen ff lf eng)
        (.send port.toNat slot.toNat nf.toNat srck t.toNat (s.sreg p rr).toNat ((s.sreg p cr).setWidth 32)
          (s.sreg p fr).toNat
          (if srck = true ∧ nf ≠ 0 then s.ptrAddr p (s.sreg p dr) 0 (4096 * (nf.toNat - 1) + slen.toNat) else some 0)
          slen.toNat ff lf eng.toNat) [])) ∧
  (∀ (s : State) (p : Nat) (h : GHead) (pr : BitVec 3) (hmask : BitVec 16) (hf : Bool) (heng : BitVec 5) (hw : BitVec 3)
    (hole : BitVec 16) (nfr : BitVec 14), s.issues p (.expect p h pr hmask hf heng hw hole nfr) →
    (s.thread p).ckpts.length < 4 →
    Gives (.expect p h pr hmask hf heng hw hole nfr) s (fun t => t = s.setThread p (t.thread p) ∧
      (t.thread p).ckpts = (s.thread p).ckpts ++ [{ id := (s.thread p).nextId, regs := (s.thread p).regs,
                                                    preds := (s.thread p).preds, flags := (s.thread p).sflags }] ∧
      (t.thread p).recs = (s.thread p).recs ++ [{
        id := (s.thread p).nextId, pc := (s.thread p).pc,
        op := .expect pr.toNat hmask.toNat nfr.toNat hf heng.toNat hw.toNat hole.toNat
          ((s.thread p).latestDl hmask.toNat) none }] ∧ (t.thread p).pc = (s.thread p).pc + 2)) ∧
  (∀ (s : State) (p : Nat) (h : GHead) (eng : BitVec 5) (w : BitVec 3) (base : BitVec 7) (rows : BitVec 8) (form : BitVec 2)
    (oper : BitVec 4) (sgn : Bool) (fm : Form) (o : Oper), s.issues p (.lclr p h eng w base rows form oper sgn) →
    formOf form.toNat = some fm → operOf oper.toNat = some o →
    exec (.lclr p h eng w base rows form oper sgn) s = .next (s.recorded p (.lclr p h eng w base rows form oper sgn)
      (.lclr eng.toNat w.toNat base.toNat rows.toNat fm o sgn) [])) ∧
  (∀ (s : State) (p : Nat) (h : GHead) (eng : BitVec 5) (t : BitVec 6) (fmt : BitVec 5) (ra : BitVec 5) (rows : BitVec 8)
    (tr tc : BitVec 4), s.issues p (.tld p h eng t fmt true ra rows tr tc) → (s.thread p).fenced = false →
    exec (.tld p h eng t fmt true ra rows tr tc) s = .next (s.recorded p (.tld p h eng t fmt true ra rows tr tc)
      (.tldDepot eng.toNat t.toNat fmt.toNat tr.toNat tc.toNat (rows.toNat + 1)
        (s.ptrAddr p (s.sreg p ra) 0 (depotBytes fmt.toNat (rows.toNat + 1)))) [])) ∧
  (∀ (s : State) (p : Nat) (h : GHead) (eng : BitVec 5) (t : BitVec 6) (fmt : BitVec 5) (ra : BitVec 5) (rows : BitVec 8)
    (tr tc : BitVec 4) (hd fr : Nat) (x : Handle), s.issues p (.tld p h eng t fmt false ra rows tr tc) →
    hd = (s.sreg p ra).toNat / 2 ^ 16 % 16 → fr = (s.sreg p ra).toNat % 2 ^ 14 → (s.thread p).handles.get? hd = some x →
    x.claims.contains fr = false →
    Gives (.tld p h eng t fmt false ra rows tr tc) s (fun u => u = s.setThread p (u.thread p) ∧
      (u.thread p).handles.get? hd = some { x with claims := fr :: x.claims } ∧
      (u.thread p).recs = (s.thread p).recs ++ [{
        id := (s.thread p).nextId, pc := (s.thread p).pc,
        op := .tldFrame eng.toNat t.toNat fmt.toNat tr.toNat tc.toNat hd fr true }] ∧
      (u.thread p).pc = (s.thread p).pc + 1)) ∧
  (∀ (s : State) (p : Nat) (h : GHead) (eng : BitVec 5) (t : BitVec 6) (w : BitVec 3) (k : BitVec 4) (lane : BitVec 10),
    s.issues p (.tacc p h eng t w k lane) →
    exec (.tacc p h eng t w k lane) s = .next (s.recorded p (.tacc p h eng t w k lane)
      (.tacc eng.toNat t.toNat w.toNat k.toNat (32 * lane.toNat)) [])) ∧
  (∀ (s : State) (p : Nat) (h : GHead) (eng : BitVec 5) (w : BitVec 3) (t : BitVec 6) (fmt : BitVec 5) (rm : BitVec 3)
    (clamp : Bool) (kr cr er : BitVec 5) (n : BitVec 16) (lane : BitVec 10) (e0i : BitVec 22),
    s.issues p (.emit p h eng w t fmt rm clamp kr cr er n lane e0i) →
    exec (.emit p h eng w t fmt rm clamp kr cr er n lane e0i) s =
      .next (s.recorded p (.emit p h eng w t fmt rm clamp kr cr er n lane e0i)
        (.emit eng.toNat w.toNat t.toNat fmt.toNat rm.toNat clamp (s.sreg p kr) ((s.sreg p cr).setWidth 32)
          (BitVec.ofNat 32 (32 * ((s.sreg p er).toNat + e0i.toNat))) n.toNat (32 * lane.toNat)) [])) ∧
  (∀ (s : State) (p : Nat) (h : GHead) (eng : BitVec 5) (t : BitVec 6) (ra : BitVec 5) (rows : BitVec 8) (tw : BitVec 2)
    (tr tc : BitVec 4), s.issues p (.tst p h eng t ra rows tw tr tc) → (s.thread p).fenced = false →
    exec (.tst p h eng t ra rows tw tr tc) s = .next (s.recorded p (.tst p h eng t ra rows tw tr tc)
      (.tst eng.toNat t.toNat (rows.toNat + 1) tw.toNat tr.toNat tc.toNat
        (s.ptrAddr p (s.sreg p ra) 0 ((rows.toNat + 1) * 128))) [])) ∧
  (∀ (s : State) (p : Nat) (h : GHead) (rq ra : BitVec 5) (fl : Bool) (eng : BitVec 5) (w : BitVec 3) (irq : Bool),
    s.issues p (.post p h rq ra fl eng w irq) →
    exec (.post p h rq ra fl eng w irq) s = .next (s.recorded p (.post p h rq ra fl eng w irq)
      (.post ((s.sreg p rq).toNat % 2 ^ 10) ((s.sreg p rq).toNat / 2 ^ 10 % 16) (s.sreg p ra)
        ((s.thread p).reg (ra.toNat + 1)) ((s.thread p).reg (ra.toNat + 2)) fl eng.toNat w.toNat irq) []))

/-- Records at their ends: a load's data return writes RD (R263); the oldest record retires into the write buffer (R319) or
just leaves; one that found a fault stops its thread with the record of THREAD_FAULT (R251, R252); a failed arrival test
restores the checkpoint and resumes at HOLE (R247); an arrival test writes its predicate (R245, R275). The model's own
readings in it: log 29. -/
def Obligations.RecordsComplete : Prop :=
  (∀ (s : State) (p id : Nat) (r : Rec) (rd n : Nat) (addr : Option Nat) (sx : Bool) (v : Word), p < 128 →
    (s.thread p).recs.find? (fun r => r.id = id && !r.done) = some r → r.op = .ld rd addr n sx (some (v, 0)) →
    Gives (.ldDataReturn p id) s (fun t => t = s.setThread p (t.thread p) ∧ (rd ≠ 0 → (t.thread p).reg rd = v) ∧
      (∀ k, k ≠ rd → (t.thread p).reg k = (s.thread p).reg k) ∧ (∀ b ∈ (t.thread p).busyRec, b.2 ≠ id) ∧
      (t.thread p).pc = (s.thread p).pc ∧ (t.thread p).preds = (s.thread p).preds ∧
      (t.thread p).sflags = (s.thread p).sflags)) ∧
  (∀ (s : State) (p : Nat) (r : Rec) (l : List Rec) (rd n : Nat) (addr : Option Nat) (sx : Bool) (v : Word), p < 128 →
    (s.thread p).recs = r :: l → r.op = .ld rd addr n sx (some (v, 0)) → r.done = true →
    exec (.retire p) s = .next (s.setThread p { s.thread p with recs := l })) ∧
  (∀ (s : State) (p a : Nat) (r : Rec) (l : List Rec) (d : List Byte), p < 128 → (s.thread p).recs = r :: l →
    r.op = .store (some a) d → (s.thread p).wb.length < 16 →
    exec (.retire p) s = .next (s.setThread p { s.thread p with
      recs := l, wb := (s.thread p).wb ++ [{ id := r.id, pc := r.pc, addr := a, op := .bytes d }] })) ∧
  (∀ (s : State) (p : Nat) (r : Rec) (l : List Rec) (d : List Byte), p < 128 → (s.thread p).recs = r :: l →
    r.op = .store none d → (s.thread p).st = .running → (s.thread p).fCode = 0 →
    Gives (.retire p) s (fun t => (t.thread p).st = .stopped ∧ (t.thread p).fCode = 4 ∧ (t.thread p).fPc = r.pc ∧
      (t.thread p).fSlot = s.rooster.slot ∧ (t.thread p).fTick = s.rooster.tickNo ∧ (t.thread p).recs = [] ∧
      (t.thread p).regs = (s.thread p).regs ∧ (∀ q, q ≠ p → t.thread q = s.thread q) ∧
      t.ctr (partCtr p rkPlanFault) = satAdd (partCtr p rkPlanFault) (s.ctr (partCtr p rkPlanFault)) 1 ∧
      t.depot.mem = s.depot.mem)) ∧
  (∀ (s : State) (p : Nat) (r : Rec) (l : List Rec) (pr hmask nfr heng hw hole dl : Nat) (c : Ckpt), p < 128 →
    (s.thread p).recs = r :: l → r.op = .expect pr hmask nfr false heng hw hole dl (some false) →
    (s.thread p).ckpts.find? (fun x => x.id = r.id) = some c →
    Gives (.retire p) s (fun t => (t.thread p).pc = hole ∧ (t.thread p).regs = c.regs ∧ (t.thread p).sflags = c.flags ∧
      (t.thread p).recs = [] ∧ (t.thread p).ckpts = [] ∧ (pr ≠ 0 → pr < 8 → (t.thread p).pred pr = false) ∧
      (∀ q, q ≠ p → t.thread q = s.thread q) ∧
      t.ctr (partCtr p rkSquash) = satAdd (partCtr p rkSquash) (s.ctr (partCtr p rkSquash)) 1 ∧
      t.depot.mem = s.depot.mem)) ∧
  (∀ (s : State) (p : Nat) (r : Rec) (l : List Rec) (pr hmask nfr heng hw hole dl : Nat) (hf : Bool), p < 128 →
    (s.thread p).recs = r :: l → r.op = .expect pr hmask nfr hf heng hw hole dl none → s.slotEnded dl = true →
    Gives (.arrivalTest p) s (fun t => t = s.setThread p (t.thread p) ∧
      (pr ≠ 0 → pr < 8 → (t.thread p).pred pr = (s.thread p).arrived hmask nfr) ∧
      (t.thread p).regs = (s.thread p).regs ∧ (t.thread p).pc = (s.thread p).pc))

/-- Write buffers: the head is performed on the depot, its bytes and no others change (R319, R325, R326); an atomic reads and
writes its word as one and gives the old value (R270, R328); the hinge drain ends once every entry retired before the
hinge is performed (R322). -/
def Obligations.WriteBuffersPerform : Prop :=
  (∀ (s : State) (p : Nat) (e : WbEntry) (rest : List WbEntry) (d : List Byte), p < 128 → (s.thread p).wb = e :: rest →
    (e.op = .bytes d ∨ e.op = .stream d) → s.drainHolds e = false → s.depot.bad = [] → s.memOk →
    Gives (.storePerformed (.thread p)) s (fun t => (t.thread p).wb = rest ∧
      (∀ a, memGet t.depot.mem a =
        if e.addr ≤ a ∧ a < e.addr + d.length then d.getD (a - e.addr) 0 else memGet s.depot.mem a) ∧
      (∀ r, (t.thread p).reg r = (s.thread p).reg r) ∧ (∀ q, q ≠ p → t.thread q = s.thread q) ∧ t.ports = s.ports)) ∧
  (∀ (s : State) (p rd : Nat) (e : WbEntry) (rest : List WbEntry) (v : Word), p < 128 → (s.thread p).wb = e :: rest →
    e.op = .aadd v → e.rd = some rd → s.drainHolds e = false → s.depot.bad = [] → s.memOk →
    Gives (.atomicPerformed (.thread p)) s (fun t => (t.thread p).wb = rest ∧
      (rd ≠ 0 → (t.thread p).reg rd = BitVec.ofNat 64 (leNat (memRead s.depot.mem e.addr 8))) ∧
      (∀ k, k ≠ rd → (t.thread p).reg k = (s.thread p).reg k) ∧
      memRead t.depot.mem e.addr 8 = leBytes 8 (BitVec.ofNat 64 (leNat (memRead s.depot.mem e.addr 8)) + v).toNat ∧
      (∀ a, (a < e.addr ∨ e.addr + 8 ≤ a) → memGet t.depot.mem a = memGet s.depot.mem a))) ∧
  (∀ (s : State) (p rd : Nat) (e : WbEntry) (rest : List WbEntry) (c n : Word), p < 128 → (s.thread p).wb = e :: rest →
    e.op = .acas c n → e.rd = some rd → s.drainHolds e = false → s.depot.bad = [] → s.memOk →
    Gives (.atomicPerformed (.thread p)) s (fun t => (t.thread p).wb = rest ∧
      (rd ≠ 0 → (t.thread p).reg rd = BitVec.ofNat 64 (leNat (memRead s.depot.mem e.addr 8))) ∧
      memRead t.depot.mem e.addr 8 =
        (if leNat (memRead s.depot.mem e.addr 8) = c.toNat then leBytes 8 n.toNat else memRead s.depot.mem e.addr 8) ∧
      (∀ a, (a < e.addr ∨ e.addr + 8 ≤ a) → memGet t.depot.mem a = memGet s.depot.mem a))) ∧
  (∀ s : State, s.depot.draining = true → (∀ x ∈ s.threads, ∀ e ∈ x.2.wb, e.drain = false) →
    (∀ x ∈ s.mule.wbs, ∀ e ∈ x.2, e.drain = false) →
    exec .hingeDrainEnd s = .next { s with depot := { s.depot with draining := false } })

/-- Mule's cores and the patrol scrub: what a core may reach is loaded from the depot or enters its write buffer (R315,
R316, R319), an atomic at its address rounded down (R270, R328); of what it may not reach nothing is written, a read gives
zeros, and it is counted (R387); a scrub pass corrects what is correctable (R313). The model's own readings in it: log
144. -/
def Obligations.MuleCoresAndScrub : Prop :=
  (∀ (s : State) (core a n : Nat), core < 8 → s.alive = true → s.fw.muleUp = true → s.muleReaches a n false = true →
    s.depot.draining = false → s.wbOf (.mule core) = [] → s.depot.bad = [] → s.depot.soft = [] →
    exec (.muleDepotAccess core (.load a n)) s =
      .next { s with out := s.out ++ [.muleData core (memRead s.depot.mem a n)] }) ∧
  (∀ (s : State) (core a : Nat) (d : List Byte), core < 8 → s.alive = true → s.fw.muleUp = true →
    s.muleReaches a d.length true = true → (s.wbOf (.mule core)).length < 32 →
    exec (.muleDepotAccess core (.store a d)) s = .next (s.setWb (.mule core) (s.wbOf (.mule core) ++
      [{ id := 0, pc := 0, addr := a, op := if d.length ≤ 8 then .bytes d else .stream d }]))) ∧
  (∀ (s : State) (core a : Nat) (d : List Byte), core < 8 → s.alive = true → s.fw.muleUp = true →
    s.muleReaches a d.length true = false →
    exec (.muleDepotAccess core (.store a d)) s = .next (s.bumpDev dkMuleDepotViol)) ∧
  (∀ (s : State) (core a n : Nat), core < 8 → s.alive = true → s.fw.muleUp = true → s.muleReaches a n false = false →
    Gives (.muleDepotAccess core (.load a n)) s (fun t => t.out = s.out ++ [.muleData core (List.replicate n 0)] ∧
      t.depot = s.depot ∧ t.mule = s.mule ∧
      t.ctr (devCtr dkMuleDepotViol) = satAdd (devCtr dkMuleDepotViol) (s.ctr (devCtr dkMuleDepotViol)) 1)) ∧
  (∀ (s : State) (core a n : Nat) (x : MuleAccess) (op : StoreOp) (v c w cl ch nl nh : Word), core < 8 → s.alive = true →
    s.fw.muleUp = true →
    (x = .atomicAdd a v ∧ n = 8 ∧ op = .aadd v ∨ x = .atomicSwap a v ∧ n = 8 ∧ op = .aswp v ∨
      x = .atomicCas a c w ∧ n = 8 ∧ op = .acas c w ∨ x = .atomicCas2 a cl ch nl nh ∧ n = 16 ∧ op = .acas2 cl ch nl nh) →
    s.muleReaches (a / n * n) n true = true → (s.wbOf (.mule core)).length < 32 →
    exec (.muleDepotAccess core x) s = .next (s.setWb (.mule core) (s.wbOf (.mule core) ++
      [{ id := 0, pc := 0, addr := a / n * n, op := op }]))) ∧
  (∀ (s : State) (t0 : Nat), s.alive = true → s.power.scrubFrom = some t0 → t0 + 86400000000000 ≤ s.time →
    Gives .scrubPassEnd s (fun t => t.depot = { s.depot with soft := [] } ∧
      t.ctr (devCtr dkDepotScrubPass) = satAdd (devCtr dkDepotScrubPass) (s.ctr (devCtr dkDepotScrubPass)) 1 ∧
      t.ctr (devCtr dkDepotEccCorr) = satAdd (devCtr dkDepotEccCorr) (s.ctr (devCtr dkDepotEccCorr)) s.depot.soft.length ∧
      t.ctr (devCtr dkDepotEccUncorr) =
        satAdd (devCtr dkDepotEccUncorr) (s.ctr (devCtr dkDepotEccUncorr)) s.depot.bad.length ∧
      t.threads = s.threads ∧ t.ports = s.ports))

/-- Ox: an LCLR begins with its window in rename storage, and at retire the window is open, its rows empty and its FLAGS 0
(R226, R227, R235, R236); a shadow tile is freed at its copy-back, one bank's copy-backs in the order of their retires (R220);
and a retired SEND takes a descriptor and a buffer on its port's die and queues its frame with the tile's bytes for its slot
(R145, R151, R232, R276, R277). The model's own readings in it: log 154 and 165. -/
def Obligations.OxOperationsAct : Prop :=
  (∀ (s : State) (p id : Nat) (r : Rec) (e w base rows : Nat) (fm : Form) (o : Oper) (sgn : Bool), p < 128 →
    (s.thread p).recs = [r] → r.id = id → r.begun = false → r.held = false → r.op = .lclr e w base rows fm o sgn →
    s.shadowsUsed p e ≤ 8 → s.sparesUsed p e ≤ 64 →
    Gives (.oxOpBegin p id) s (fun t => t = s.setThread p { s.thread p with recs := [{ r with
      begun := true, done := true,
      res := { window := some (w, { opened := true, base := base, rows := rows, form := fm, oper := o, sgn := sgn })
               clear := true } }] })) ∧
  (∀ (s : State) (p : Nat) (r : Rec) (l : List Rec) (e w base rows : Nat) (fm : Form) (o : Oper) (sgn : Bool) (v : Window),
    p < 128 → (s.thread p).recs = r :: l → r.op = .lclr e w base rows fm o sgn → r.begun = true →
    r.res = { window := some (w, v), clear := true } →
    Gives (.retire p) s (fun t => (t.thread p).recs = l ∧ (t.engine e).window w = { v.toWinAttr with flags := 0 } ∧
      (∀ i, i < v.rows → (t.engine e).ledger.get? (v.base + i) = some (v.row i)) ∧
      (∀ k, (k < v.base ∨ v.base + v.rows ≤ k) → (t.engine e).ledger.get? k = (s.engine e).ledger.get? k) ∧
      (∀ k, k ≠ w → (t.engine e).window k = (s.engine e).window k) ∧ (∀ k, (t.engine e).tile k = (s.engine e).tile k) ∧
      (∀ f, f ≠ e → t.engine f = s.engine f) ∧ t.counters = s.counters ∧ t.depot = s.depot)) ∧
  (∀ (s : State) (e k : Nat), e < 32 → k < 64 → (s.engine e).copyBacks.find? (fun x => x % 32 = k % 32) = some k →
    Gives (.copyBackEnd e k) s (fun t => (t.engine e).copyBacks = (s.engine e).copyBacks.erase k ∧
      (t.engine e).tiles = (s.engine e).tiles ∧ (t.engine e).windows = (s.engine e).windows ∧
      (t.engine e).ledger = (s.engine e).ledger ∧ (∀ f, f ≠ e → t.engine f = s.engine f) ∧ t.threads = s.threads ∧
      t.depot = s.depot)) ∧
  (∀ (s : State) (e k : Nat), e < 32 → k < 64 → (s.engine e).copyBacks.find? (fun x => x % 32 = k % 32) ≠ some k →
    exec (.copyBackEnd e k) s = .next s) ∧
  (∀ (s : State) (p id port slot tt rank frame slen eng n : Nat) (chunk dst : BitVec 32) (addr : Option Nat) (ff lf fb : Bool)
    (j : SendJob) (l : List SendJob) (x : Tile) (b : Buffer) (h : Header), p < 128 → port < 49 → (s.thread p).sends = j :: l →
    j.id = id → j.op = .send port slot 1 false tt rank chunk frame addr slen ff lf eng → s.rankAddr p rank = some dst →
    (s.engine eng).eccBad = [] → (s.engine eng).eccOne = [] → (s.engine eng).tile tt = x → x.kind = .packed →
    0 < x.count * fmtSize x.src → x.count * fmtSize x.src ≤ 4096 →
    h = s.sHeader p port slot dst (x.count * fmtSize x.src) ff (lf || decide (x.count * fmtSize x.src < 4096)) false j.tick chunk
      frame →
    s.henChoose (homeDie port) h false false = .got b fb → s.nextDesc (homeDie port) = some n →
    s.mayUse h port = true → (s.port port).quarantined = false → (s.port port).down = false → (s.port port).delayOver = false →
    (s.port port).sOutHeld + frameUnits (x.count * fmtSize x.src) ≤ (s.port port).sOut →
    Gives (.sendTileRead p id) s (fun t =>
      (t.port port).qS = (s.port port).qS ++ [{ desc := some n, hdr := h, payload := bytesAt x.bytes 0 (x.count * fmtSize x.src)
                                                ingress := port, at_ := s.time, own := some (p, slot) }] ∧
      t.descs.get? n = some { hdr := h, payload := bytesAt x.bytes 0 (x.count * fmtSize x.src), crowd := false, refs := 1, buf := b
                              charge := .own port, units := frameUnits (x.count * fmtSize x.src) } ∧
      (t.port port).sOutHeld = (s.port port).sOutHeld + frameUnits (x.count * fmtSize x.src) ∧
      (t.thread p).sends = l ∧ (∀ q, q ≠ p → t.thread q = s.thread q) ∧ (∀ q, q ≠ port → t.port q = s.port q) ∧
      (t.engine eng).tiles = (s.engine eng).tiles ∧ (∀ f, f ≠ eng → t.engine f = s.engine f) ∧ t.depot = s.depot ∧
      t.time = s.time))

/-- PART_CTL stages a legal command for the next hinge and counts any other in CTL_IGNORED (R335); CLEAR_FAULT and
CTX_CFG.EQ act on a context that the path reaches, but a fault recorded in the very cycle of the clear stays (R8, R338,
R491). The model's own readings in it: log 73. -/
def Obligations.PartitionAndContextCommands : Prop :=
  (∀ (s : State) (path : Path) (p : Nat), p < 128 → s.reachesPart path p = true → (s.thread p).cmd ≠ some .flr →
    ((s.thread p).st = .halted → exec (.partCtlStart path p) s =
      .next (s.setThread p { s.thread p with cmd := some .start })) ∧
    ((s.thread p).st = .running → exec (.partCtlStop path p) s =
      .next (s.setThread p { s.thread p with cmd := some .stop })) ∧
    ((s.thread p).st = .stopped → exec (.partCtlRestart path p) s =
      .next (s.setThread p { s.thread p with cmd := some .restart })) ∧
    ((s.thread p).st ≠ .halted → exec (.partCtlStart path p) s = .next (s.bumpPart p rkCtlIgnored)) ∧
    ((s.thread p).st ≠ .running → exec (.partCtlStop path p) s = .next (s.bumpPart p rkCtlIgnored)) ∧
    ((s.thread p).st ≠ .stopped → exec (.partCtlRestart path p) s = .next (s.bumpPart p rkCtlIgnored))) ∧
  (∀ (s : State) (path : Path) (c : Nat) (x : Ctx), c < 1024 → s.ctx? c = some x → s.reachesCtx path c = true →
    x.faultAt ≠ some s.time → exec (.clearFault path c) s = .next (s.setCtx c { x with fault := 0 })) ∧
  (∀ (s : State) (path : Path) (c : Nat) (x : Ctx), c < 1024 → s.ctx? c = some x → s.reachesCtx path c = true →
    x.faultAt = some s.time → Gives (.clearFault path c) s (fun t => t.ctx? c = some x ∧ t.queues = s.queues ∧
      t.threads = s.threads ∧ t.out = s.out)) ∧
  (∀ (s : State) (path : Path) (c : Nat) (x : Ctx) (v : BitVec 32), c < 1024 → s.ctx? c = some x →
    s.reachesCtx path c = true → (v.toNat % 32 = 31 ∨ (s.cqAt c (v.toNat % 32)).isSome = true) →
    exec (.eqWrite path c v) s = .next (s.setCtx c { x with eq := v.toNat % 32 })) ∧
  (∀ (s : State) (path : Path) (c : Nat) (x : Ctx) (v : BitVec 32), c < 1024 → s.ctx? c = some x →
    v.toNat % 32 ≠ 31 → s.cqAt c (v.toNat % 32) = none → exec (.eqWrite path c v) s = .next s)

/-- Enabling a queue takes the lowest free QID of the partition, starts its indices at 0 and clears its counter (R341, R342,
R441), and a write to an enabled queue is refused; disabling frees the QID of an RQ, or of a CQ that nothing names, whose
vector's pending bit it clears (R365), and an SQ waits for what it started (R342, R492). QUEUE_CFG then reads the SIZE 0
written (R6). -/
def Obligations.QueuesComeAndGo : Prop :=
  (∀ (s : State) (path : Path) (c k qid : Nat) (cfg : Word) (x : Ctx), c < 1024 → k < 16 → s.reachesCtx path c = true →
    s.ctx? c = some x → bitsOf cfg.toNat 19 4 ≠ 0 → (s.qslot c k).enabled = false →
    ((s.qslot c k).withCfg cfg).inRange = true →
    (((s.qslot c k).withCfg cfg).kind = 3 ∨ (s.cqAt c ((s.qslot c k).withCfg cfg).cq).isSome = true) →
    s.freeQid x.part = some qid →
    Gives (.queueEnable path c k cfg) s (fun t => 32 * x.part ≤ qid ∧ qid < 32 * x.part + 32 ∧
      s.queue? qid = none ∧ (∀ n, 32 * x.part ≤ n → n < qid → ∃ v, s.queue? n = some v) ∧
      t.qslot c k = { (s.qslot c k).withCfg cfg with enabled := true, qid := qid, disabling := false } ∧
      t.queue? qid = some { ctx := c, slot := k, kind := ((s.qslot c k).withCfg cfg).kind } ∧
      t.ctr (queueCtr qid) = 0 ∧ (∀ n, n ≠ qid → t.queue? n = s.queue? n) ∧ t.ctxs = s.ctxs ∧ t.msgs = s.msgs)) ∧
  (∀ (s : State) (path : Path) (c k : Nat) (cfg : Word), c < 1024 → k < 16 → s.reachesCtx path c = true →
    bitsOf cfg.toNat 19 4 ≠ 0 → (s.qslot c k).enabled = true →
    Gives (.queueEnable path c k cfg) s (fun t => t = s.setQslot c k (t.qslot c k) ∧ (t.qslot c k).cfgReject = true ∧
      (t.qslot c k).enabled = true ∧ (t.qslot c k).qid = (s.qslot c k).qid ∧ (t.qslot c k).cfgWord = (s.qslot c k).cfgWord)) ∧
  (∀ (s : State) (path : Path) (c k : Nat), c < 1024 → k < 16 → s.reachesCtx path c = true →
    (s.qslot c k).enabled = true → ((s.qslot c k).kind = 2 ∨ ((s.qslot c k).kind = 3 ∧ s.cqNamed c k = false)) →
    Gives (.queueDisable path c k) s (fun t => (t.qslot c k).enabled = false ∧ (t.qslot c k).size = 0 ∧
      t.queue? (s.qslot c k).qid = none ∧
      (∀ j, j < 16 → j ≠ k → t.qslot c j = s.qslot c j) ∧ t.ctxs = s.ctxs ∧ t.threads = s.threads ∧
      ((s.qslot c k).kind = 3 →
        (t.func ((s.qslot c k).qid / 32 + 1)).pba.contains ((s.qslot c k).qid % 32) = false))) ∧
  (∀ (s : State) (path : Path) (c k : Nat) (q : Queue), c < 1024 → k < 16 → s.reachesCtx path c = true →
    (s.qslot c k).enabled = true → (s.qslot c k).kind = 1 → s.queue? (s.qslot c k).qid = some q → q.started ≠ [] →
    Gives (.queueDisable path c k) s (fun t =>
      t.qslot c k = { s.qslot c k with disabling := true, written := (t.qslot c k).written } ∧
      (t.qslot c k).cfgWord / 2 ^ 4 % 2 ^ 16 = 0 ∧ (∀ j, j < 16 → j ≠ k → t.qslot c j = s.qslot c j) ∧
      t.queues = s.queues ∧ t.ctxs = s.ctxs ∧ t.threads = s.threads ∧ t.out = s.out))

/-- A doorbell moves the producer index of an SQ or RQ, or the consumer index of a CQ, whose page it is (R343, R361, R362);
ARM arms the CQ and tests it (R365); a doorbell to no queue, or out of range, counts in DB_BAD (R362). The page is a 32-bit
register of the VF's BAR2 too: a write of 4 bytes is that doorbell, one of 8 has no effect, and a read answers the last index
accepted. The model's own readings in it: log 71 and 173. -/
def Obligations.DoorbellsMoveIndices : Prop :=
  ∀ (s : State) (vf page : Nat) (v : BitVec 32), 1 ≤ vf → vf < 129 → page < 32 → s.pathOpen (.vf vf) = true →
    (∀ q, s.queue? (32 * (vf - 1) + page) = some q → v.toNat < 2 ^ 17 → q.kind = 1 →
      (v.setWidth 16 - q.ci).toNat ≤ (s.slotOf q).size →
      exec (.sqDoorbell vf page v) s = .next (s.setQueue (32 * (vf - 1) + page)
        { q with pi := v.setWidth 16, lastDb := v.setWidth 16 })) ∧
    (∀ q, s.queue? (32 * (vf - 1) + page) = some q → v.toNat < 2 ^ 17 → q.kind = 2 →
      (v.setWidth 16 - q.ci).toNat ≤ (s.slotOf q).size →
      exec (.rqDoorbell vf page v) s = .next ((s.setQueue (32 * (vf - 1) + page)
        { q with pi := v.setWidth 16, lastDb := v.setWidth 16 }).serveRing (32 * (vf - 1) + page))) ∧
    (∀ q, s.queue? (32 * (vf - 1) + page) = some q → v.toNat < 2 ^ 16 → q.kind = 3 →
      (q.pi - v.setWidth 16).toNat ≤ (s.slotOf q).size → s.rqsOn q = [] →
      exec (.cqDoorbell vf page v) s = .next (s.setQueue (32 * (vf - 1) + page)
        { q with ci := v.setWidth 16, lastDb := v.setWidth 16 })) ∧
    (∀ q, s.queue? (32 * (vf - 1) + page) = some q → v.toNat < 2 ^ 16 → q.kind = 3 →
      (q.pi - v.setWidth 16).toNat ≤ (s.slotOf q).size → s.rqsOn q = [] →
      exec (.cqArm vf page v) s = .next ((s.setQueue (32 * (vf - 1) + page)
        { q with ci := v.setWidth 16, lastDb := v.setWidth 16, armed := true }).cqTest (32 * (vf - 1) + page))) ∧
    (s.queue? (32 * (vf - 1) + page) = none →
      exec (.sqDoorbell vf page v) s = .next (s.bumpPart (vf - 1) rkDbBad) ∧
      exec (.rqDoorbell vf page v) s = .next (s.bumpPart (vf - 1) rkDbBad) ∧
      exec (.cqDoorbell vf page v) s = .next (s.bumpPart (vf - 1) rkDbBad) ∧
      exec (.cqArm vf page v) s = .next (s.bumpPart (vf - 1) rkDbBad)) ∧
    (∀ q, s.queue? (32 * (vf - 1) + page) = some q → 2 ^ 17 ≤ v.toNat →
      exec (.sqDoorbell vf page v) s = .next (s.bumpPart (vf - 1) rkDbBad) ∧
      exec (.rqDoorbell vf page v) s = .next (s.bumpPart (vf - 1) rkDbBad) ∧
      exec (.cqDoorbell vf page v) s = .next (s.bumpPart (vf - 1) rkDbBad) ∧
      exec (.cqArm vf page v) s = .next (s.bumpPart (vf - 1) rkDbBad)) ∧
    (∀ q, s.queue? (32 * (vf - 1) + page) = some q → v.toNat < 2 ^ 17 →
      (q.kind = 1 → (s.slotOf q).size < (v.setWidth 16 - q.ci).toNat →
        exec (.sqDoorbell vf page v) s = .next (s.bumpPart (vf - 1) rkDbBad)) ∧
      (q.kind = 2 → (s.slotOf q).size < (v.setWidth 16 - q.ci).toNat →
        exec (.rqDoorbell vf page v) s = .next (s.bumpPart (vf - 1) rkDbBad)) ∧
      (q.kind = 3 → (s.slotOf q).size < (q.pi - v.setWidth 16).toNat →
        exec (.cqDoorbell vf page v) s = .next (s.bumpPart (vf - 1) rkDbBad) ∧
        exec (.cqArm vf page v) s = .next (s.bumpPart (vf - 1) rkDbBad))) ∧
    (∀ q, s.queue? (32 * (vf - 1) + page) = some q →
      (q.kind = 1 → exec (.registerWrite (.bell vf) (page * 0x1000) 4 (v.setWidth 64)) s = exec (.sqDoorbell vf page v) s) ∧
      (q.kind = 2 → exec (.registerWrite (.bell vf) (page * 0x1000) 4 (v.setWidth 64)) s = exec (.rqDoorbell vf page v) s) ∧
      (q.kind = 3 → exec (.registerWrite (.bell vf) (page * 0x1000) 4 (v.setWidth 64)) s = exec (.cqDoorbell vf page v) s) ∧
      exec (.lowerHalfRead (.bell vf) ⟨page * 0x1000, 4⟩) s =
        .next { s with out := s.out ++ [.mmioRead (q.lastDb.setWidth 64)] }) ∧
    (∀ w off, exec (.registerWrite (.bell vf) off 8 w) s = .next s)

/-- Send entries start in order (R343-R346): a B_SEND takes the context's next MSG, a C_SEND
joins its stream, a DMA copies its bytes and no others, and a START arms its table entry with the next generation (R290,
R291). The model's own readings in it: log 30, 67, 68 and 70. -/
def Obligations.SendEntriesStart : Prop :=
  (∀ (s : State) (qid : Nat) (q : Queue) (e : List Byte) (c : Ctx) (dst : BitVec 32), qid < 4096 → s.queue? qid = some q →
    s.sqReady q e = true → entryOk e = true → natAt e 0 1 = 1 → natAt e 16 4 ≠ 0 → s.ctx? q.ctx = some c →
    s.rankAddr c.part (natAt e 8 4) = some dst →
    Gives (.bSend qid e) s (fun t =>
      t.queue? qid = some { q with
        ci := q.ci + 1, sent := q.sent ++ [c.msg]
        started := q.started ++ [{ idx := q.ci.toNat, opc := 1, tag := BitVec.ofNat 32 (natAt e 4 4), msg := c.msg,
                                   rank := natAt e 8 4, dq := natAt e 12 2, host := BitVec.ofNat 64 (natAt e 24 8),
                                   len := natAt e 16 4 }] } ∧
      t.ctx? q.ctx = some { c with msg := c.msg + 1 } ∧ t.ports = s.ports ∧ t.depot = s.depot ∧ t.counters = s.counters)) ∧
  (∀ (s : State) (qid : Nat) (q : Queue) (e data : List Byte) (dst : BitVec 32) (t0 : TxStream), qid < 4096 →
    s.queue? qid = some q → s.sqReady q e = true → entryOk e = true → natAt e 0 1 = 2 →
    s.rankAddr (s.ctxPart q.ctx) (natAt e 8 4) = some dst →
    assoc? s.txs { localPort := 0x40, far := dst, ctx := q.ctx } = some t0 →
    Gives (.cSend qid e data) s (fun t =>
      assoc? t.txs { localPort := 0x40, far := dst, ctx := q.ctx } = some { t0 with
        next := t0.next + 1
        unacked := t0.unacked ++ [{ seq := t0.next, syn := false, part := s.ctxPart q.ctx, dq := natAt e 12 2,
                                    payload := padTo (natAt e 16 4) data, entry := some (qid, q.ci.toNat),
                                    rank := some (natAt e 8 4) }] } ∧
      t.queue? qid = some { q with
        ci := q.ci + 1
        started := q.started ++ [{ idx := q.ci.toNat, opc := 2, tag := BitVec.ofNat 32 (natAt e 4 4) }] } ∧
      t.ports = s.ports ∧ t.depot = s.depot ∧ t.ctxs = s.ctxs)) ∧
  (∀ (s : State) (qid a : Nat) (q : Queue) (e data : List Byte), qid < 4096 → s.queue? qid = some q →
    s.sqReady q e = true → entryOk e = true → natAt e 0 1 = 3 → natAt e 8 4 = 0 → data.length = natAt e 16 4 → data ≠ [] →
    s.depot.draining = false → s.dmaRange (s.ctxPart q.ctx) e (natAt e 16 4) = some a → s.depot.bad = [] → s.memOk →
    Gives (.dmaToDepot qid e data) s (fun t =>
      (∀ k, memGet t.depot.mem k = if a ≤ k ∧ k < a + data.length then data.getD (k - a) 0 else memGet s.depot.mem k) ∧
      t.queue? qid = some { q with
        ci := q.ci + 1
        started := q.started ++ [{ idx := q.ci.toNat, opc := 3, tag := BitVec.ofNat 32 (natAt e 4 4), status := some 0,
                                   moved := data.length }] } ∧ t.ctxs = s.ctxs ∧ t.ports = s.ports)) ∧
  (∀ (s : State) (qid a : Nat) (q : Queue) (e : List Byte), qid < 4096 → s.queue? qid = some q → s.sqReady q e = true →
    entryOk e = true → natAt e 0 1 = 3 → natAt e 8 4 = 1 → natAt e 16 4 ≠ 0 → s.depot.draining = false →
    s.dmaRange (s.ctxPart q.ctx) e (natAt e 16 4) = some a → s.depot.bad = [] →
    Gives (.dmaToHost qid e) s (fun t => (∃ f : Out, t.out = s.out ++ f ::
        (cutPieces 64 (natAt e 16 4) a (memRead s.depot.mem a (natAt e 16 4))).map (fun c =>
          .pcieWrite (s.fnOf (s.ctxPart q.ctx)) (BitVec.ofNat 64 (natAt e 24 8) + BitVec.ofNat 64 (c.1 - a)) c.2
            (s.func (s.fnOf (s.ctxPart q.ctx))).relaxed)) ∧
      t.queue? qid = some { q with
        ci := q.ci + 1
        started := q.started ++ [{ idx := q.ci.toNat, opc := 3, tag := BitVec.ofNat 32 (natAt e 4 4), status := some 0,
                                   moved := natAt e 16 4 }] } ∧ t.depot.mem = s.depot.mem ∧ t.ctxs = s.ctxs)) ∧
  (∀ (s : State) (qid base a : Nat) (q : Queue) (e : List Byte), qid < 4096 → s.queue? qid = some q →
    s.sqReady q e = true → entryOk e = true → natAt e 0 1 = 4 → s.depot.draining = false → s.depot.bad = [] → s.memOk →
    s.collTable (s.ctxPart q.ctx) = some base → a = base + natAt e 8 1 % 16 * 64 →
    startStatus (bytesAt e 12 44) (natAt (memRead s.depot.mem a 48) 23 1) s.rooster.tickNo = 0 →
    Gives (.start qid e) s (fun t => memGet t.depot.mem (a + 23) = 1 ∧
      natAt (memRead t.depot.mem a 48) 44 4 = (natAt (memRead s.depot.mem a 48) 44 4 + 1) % 2 ^ 32 ∧
      memRead t.depot.mem a 23 = bytesAt e 12 23 ∧
      (∀ k, (k < a ∨ a + 48 ≤ k) → memGet t.depot.mem k = memGet s.depot.mem k) ∧
      t.queue? qid = some { q with
        ci := q.ci + 1
        started := q.started ++ [{ idx := q.ci.toNat, opc := 4, tag := BitVec.ofNat 32 (natAt e 4 4), status := some 0 }] }))

/-- Entries end: a known outcome leaves a KIND 16 record on the CQ, at its producer index (R343, R347, Table 13.6); a bad DMA
read gives MEM_ERR (R372); a hold that outlasts RING_HOLD drops its message (R352). -/
def Obligations.SendEntriesComplete : Prop :=
  (∀ (s : State) (qid n st : Nat) (q v : Queue) (x : Started), qid < 4096 → s.queue? qid = some q →
    q.started.find? (fun y => y.idx = x.idx) = some x → x.status = some st → s.cqOf q = some n → n ≠ qid →
    s.queue? n = some v → (s.slotOf q).disabling = false →
    Gives (.sendEntryComplete qid x.idx) s (fun t =>
      t.queue? qid = some { q with started := q.started.filter (fun y => y.idx ≠ x.idx) } ∧
      (∃ w, t.queue? n = some w ∧ w.pi = v.pi + 1 ∧ w.reserved = v.reserved - 1 ∧ w.ci = v.ci) ∧
      (∃ l, t.out = s.out ++ .pcieWrite (s.fnOf (s.ctxPart v.ctx))
        ((s.slotOf v).base + BitVec.ofNat 64 (v.pi.toNat % (s.slotOf v).size * 32))
        (leBytes 1 16 ++ leBytes 1 st ++ leBytes 1 q.slot ++ leBytes 1 x.opc ++ leBytes 4 x.tag.toNat ++
          leBytes 4 (if x.opc = 1 then x.msg.toNat else 0) ++ leBytes 4 0 ++ leBytes 8 x.moved ++ leBytes 4 0 ++
          leBytes 4 (s.rooster.tickNo.toNat % 2 ^ 32)) false ::
        .pcieWrite (s.fnOf (s.ctxPart v.ctx)) (s.slotOf v).wb (leBytes 4 (v.pi + 1).toNat) false :: l) ∧
      t.depot = s.depot ∧ t.counters = s.counters)) ∧
  (∀ (s : State) (qid idx : Nat) (q : Queue) (e : List Byte), qid < 4096 → s.queue? qid = some q →
    (∃ x ∈ q.started, x.idx = idx) → (∀ x ∈ s.txs, ∀ u ∈ x.2.unacked, u.entry ≠ some (qid, idx)) →
    exec (.dmaReadError qid idx false e) s = .next (s.setQueue qid { q with
      started := q.started.map (fun x => if x.idx = idx then { x with status := some (x.status.getD 4) } else x) })) ∧
  (∀ (s : State) (k : MsgKey) (m : OpenMsg) (n : Nat) (q : Queue), s.msgs.find? (fun x => x.key = k) = some m →
    m.hold = some n → s.queue? m.qid = some q → (s.slotOf q).ringHold ≤ n →
    Gives (.ringHoldExpiry k) s (fun t => t.msgs = s.msgs.filter (fun x => x.key ≠ k) ∧ t.deadMsgs = s.deadMsgs ++ [k] ∧
      t.ctr (queueCtr m.qid) = satAdd (queueCtr m.qid) (s.ctr (queueCtr m.qid)) 1 ∧ t.threads = s.threads ∧
      t.depot.mem = s.depot.mem))

/-- Vectors: a CQ whose condition holds fires once and is disarmed (R365); what is masked waits in the PBA and goes out when
the mask is lifted (R367); a cause bit is cleared where a 1 is written, unless it was set in the same cycle (R8), and a
cause cleared in part fires again (R368). -/
def Obligations.VectorsAndCauses : Prop :=
  (∀ (s : State) (qid : Nat) (q : Queue), qid < 4096 → s.alive = true → s.queue? qid = some q → q.kind = 3 →
    q.fires s.time = true →
    Gives (.cqTimedFire qid) s (fun t =>
      t.queue? qid = some { q with armed := false, pending := 0, firstAt := none, event := false } ∧
      ((s.funcExists (s.ctxPart q.ctx + 1) = true ∧ (s.func (s.ctxPart q.ctx + 1)).msixEnable = true ∧
          (s.func (s.ctxPart q.ctx + 1)).fmask = false ∧ qid % 32 ∈ (s.func (s.ctxPart q.ctx + 1)).unmasked) →
        t.out = s.out ++ [.msix (s.ctxPart q.ctx + 1) (qid % 32)] ∧ t.funcs = s.funcs) ∧
      (¬ (s.funcExists (s.ctxPart q.ctx + 1) = true ∧ (s.func (s.ctxPart q.ctx + 1)).msixEnable = true ∧
          (s.func (s.ctxPart q.ctx + 1)).fmask = false ∧ qid % 32 ∈ (s.func (s.ctxPart q.ctx + 1)).unmasked) →
        t.out = s.out ∧ qid % 32 ∈ (t.func (s.ctxPart q.ctx + 1)).pba) ∧
      (∀ n, n ≠ qid → t.queue? n = s.queue? n) ∧ t.depot = s.depot)) ∧
  (∀ (s : State) (fn entry : Nat), fn < 129 → entry < vectorCount fn → s.alive = true → s.power.ready = true →
    s.funcExists fn = true →
    Gives (.msixUnmask fn entry) s (fun t => entry ∈ (t.func fn).unmasked ∧
      ((s.func fn).msixEnable = true → (s.func fn).fmask = false → entry ∉ (t.func fn).pba ∧
        (entry ∈ (s.func fn).pba → .msix fn entry ∈ t.out)) ∧
      (∀ e, e ≠ entry → (e ∈ (t.func fn).unmasked ↔ e ∈ (s.func fn).unmasked)) ∧
      (∀ g, g ≠ fn → t.func g = s.func g) ∧ t.queues = s.queues)) ∧
  (∀ (s : State) (fn entry : Nat), fn < 129 → entry < vectorCount fn → s.power.coldReset = false → s.power.ready = true →
    s.power.hpRetry = false → (s.func fn).flr = false → s.funcExists fn = true → entry ∈ (s.func fn).unmasked →
    entry ∈ (s.func fn).pba →
    Gives (.configRequest fn (.setMsix true false)) s (fun t => .msix fn entry ∈ t.out ∧ entry ∉ (t.func fn).pba)) ∧
  (∀ (s : State) (path : Path) (p : Nat) (v : BitVec 32), p < 128 → s.reachesPart path p = true →
    Gives (.funcCauseClear path p v) s (fun t =>
      (∀ b, b < 4 → ((t.part p).cause.getLsbD b = true ↔ (s.part p).cause.getLsbD b = true ∧
        (v.getLsbD b = false ∨ (b, s.time) ∈ (s.part p).causeAt))) ∧
      ((t.part p).cause = 0 → t.out = s.out ∧ t.funcs = s.funcs) ∧
      ((t.part p).cause ≠ 0 →
        if s.funcExists (p + 1) = true ∧ (s.func (p + 1)).msixEnable = true ∧ (s.func (p + 1)).fmask = false ∧
            32 ∈ (s.func (p + 1)).unmasked then t.out = s.out ++ [.msix (p + 1) 32]
        else t.out = s.out ∧ 32 ∈ (t.func (p + 1)).pba) ∧
      (∀ q, q ≠ p → t.part q = s.part q) ∧ t.threads = s.threads ∧ t.queues = s.queues)) ∧
  (∀ (s : State) (v : BitVec 32), s.alive = true → s.power.ready = true →
    Gives (.mgmtCauseClear .pf v) s (fun t =>
      (∀ b, b < 4 → (t.power.mgmtCause.getLsbD b = true ↔ s.power.mgmtCause.getLsbD b = true ∧
        (v.getLsbD b = false ∨ (b, s.time) ∈ s.power.mgmtAt))) ∧
      (t.power.mgmtCause = 0 → t.out = s.out ∧ t.funcs = s.funcs) ∧
      (t.power.mgmtCause ≠ 0 →
        if s.funcExists 0 = true ∧ (s.func 0).msixEnable = true ∧ (s.func 0).fmask = false ∧ 0 ∈ (s.func 0).unmasked then
          t.out = s.out ++ [.msix 0 0]
        else t.out = s.out ∧ 0 ∈ (t.func 0).pba) ∧ t.parts = s.parts ∧
      t.threads = s.threads))

/-- Function resets: a VF's reset clears its cause and its MSI-X state and stops its partition's thread at the hinge (R370); the
PF's clears MGMT_CAUSE and touches no partition (R370); PERST_N resets them all and takes the link down (R371). The
model's own readings in it: log 11 and 94. -/
def Obligations.FunctionsReset : Prop :=
  (∀ (s : State) (vf : Nat), 1 ≤ vf → vf < 129 → s.alive = true → s.power.ready = true → s.funcExists vf = true →
    Gives (.vfFlr vf) s (fun t => t.func vf = { flr := true } ∧ (t.part (vf - 1)).cause = 0 ∧
      ((s.thread (vf - 1)).st = .running ∨ (s.thread (vf - 1)).st = .stopped →
        (t.thread (vf - 1)).recs = [] ∧ (t.thread (vf - 1)).cmd = some .flr) ∧
      (∀ q, q ≠ vf - 1 → t.thread q = s.thread q) ∧ t.depot.mem = s.depot.mem)) ∧
  (∀ s : State, s.alive = true → s.power.ready = true →
    exec .pfFlr s = .next (State.setFunc { s with power := { s.power with mgmtCause := 0 } } 0 { flr := true })) ∧
  (∀ s : State, s.power.coldReset = false →
    Gives .perstNAssert s (fun t => t.power.perstLow = true ∧ t.power.hp = .down ∧ t.power.hpRetry = true ∧
      t.power.numVfs = 0 ∧ t.power.mgmtCause = 0 ∧ t.func 0 = { flr := true } ∧ t.depot.mem = s.depot.mem ∧
      t.rooster = s.rooster)) ∧
  (∀ s : State, exec .perstNDeassert s =
    .next (State.hpTrain { s with power := { s.power with perstLow := false } })) ∧
  (∀ s : State, s.power.coldReset = false → s.power.perstLow = false → s.power.hp = .down → 30000000 ≤ s.time →
    s.power.tripped = false →
    exec .portHpLinkTraining s = .next { s with power := { s.power with hp := .training } }) ∧
  (∀ s : State, s.power.hp = .training →
    exec .portHpTrained s = .next { s with power := { s.power with hp := .up, hpRetry := false } }) ∧
  (∀ s : State, (s.func 0).flr = true →
    exec (.flrComplete 0) s = .next (s.setFunc 0 { s.func 0 with flr := false })) ∧
  (∀ (s : State) (fn : Nat), fn < 129 → fn ≠ 0 → (s.func fn).flr = true → (s.thread (fn - 1)).cmd ≠ some .flr →
    (∀ c ∈ s.ctxsOf (fn - 1), s.slotsOfKind c 1 = [] ∧ ∃ x, s.ctx? c = some x ∧ x.destroying = false) →
    Gives (.flrComplete fn) s (fun t => (t.func fn).flr = false ∧ t.threads = s.threads ∧ t.depot.mem = s.depot.mem))

/-- Configuration requests: Retry Status until READY and during a reset, the identifiers, and NumVFs, MSI-X enables and Relaxed
Ordering where a request writes them. READY is published at 1,000 ms at the latest; before it, memory writes are ignored and
memory reads return 0 (R369). -/
def Obligations.ConfigurationRequests : Prop :=
  (∀ (s : State) (fn : Nat) (r : ConfigReq), fn < 129 →
    (s.power.coldReset = true ∨ s.power.ready = false ∨ s.power.hpRetry = true ∨ (s.func fn).flr = true) →
    exec (.configRequest fn r) s = .next { s with out := s.out ++ [.configRetry fn] }) ∧
  (∀ (s : State) (fn : Nat), fn < 129 → s.power.coldReset = false → s.power.ready = true → s.power.hpRetry = false →
    (s.func fn).flr = false → s.funcExists fn = true →
    (exec (.configRequest fn (.read 0)) s = .next { s with out := s.out ++ [.configReply fn 0
      (BitVec.ofNat 32 (Config.vendorId.toNat + (if Config.isOptical then 0x0D49 else 0x0D48) * 2 ^ 16))] }) ∧
    (∀ b, exec (.configRequest fn (.setRelaxed b)) s = .next (s.setFunc fn { s.func fn with relaxed := b })) ∧
    (∀ en mask, Gives (.configRequest fn (.setMsix en mask)) s (fun t =>
      (t.func fn).msixEnable = en ∧ (t.func fn).fmask = mask ∧ (∀ g, g ≠ fn → t.func g = s.func g)))) ∧
  (∀ (s : State) (n : Nat), s.power.coldReset = false → s.power.ready = true → s.power.hpRetry = false →
    (s.func 0).flr = false → s.fw.recovery = false → 1 ≤ n → n ≤ 128 →
    exec (.configRequest 0 (.setVfs n)) s = .next { s with power := { s.power with numVfs := n } }) ∧
  (∀ s : State, s.alive = true → s.power.ready = false → 1000000000 ≤ s.time →
    Gives .readyPublish s (fun t => t.power.ready = true)) ∧
  (∀ (s : State) (path : Path) (off bytes : Nat) (v : Word), path ≠ .smbus → s.power.ready = false →
    exec (.registerWrite path off bytes v) s = .next s ∧
    exec (.lowerHalfRead path ⟨off, bytes⟩) s = .next { s with out := s.out ++ [.mmioRead 0] })

/-- SMBus commands, once the address is acknowledged and the device is READY (R373, R374): a register or a counter is read,
the state record is given, a sensor is answered, and a write or an unknown vendor code is refused. The model's own
readings in it: log 139, 140 and 174. -/
def Obligations.SmbusAnswers : Prop :=
  ∀ s : State, s.smbusUp = true → s.power.ready = true →
    (∀ (off : Nat) (r : Reg), off % 8 = 0 → off ≠ 0x4000 → s.regAt .smbus off = some r → r.wide = true →
      exec (.regRead off 8) s = .next { s with out := s.out ++ [.smbusReply (leBytes 1 0 ++ leBytes 8 r.value)] }) ∧
    (∀ (off : Nat) (r : Reg), off % 4 = 0 → off ≠ 0x4000 → s.regAt .smbus off = some r → r.wide = false →
      exec (.regRead off 4) s = .next { s with out := s.out ++ [.smbusReply (leBytes 1 0 ++ leBytes 4 r.value)] }) ∧
    (∀ off bytes : Nat, bytes ≠ 4 → bytes ≠ 8 → off ≠ 0x4000 →
      exec (.regRead off bytes) s = .next { s with out := s.out ++ [.smbusReply (leBytes 1 0 ++ leBytes bytes 0)] }) ∧
    (∀ index : BitVec 32,
      exec (.counterRead index) s = .next { s with out := s.out ++ [.smbusReply
        (if ctrExists (index.toNat / 2 ^ 28) (index.toNat / 2 ^ 16 % 2 ^ 12) (index.toNat % 2 ^ 16) then
          leBytes 1 0 ++ leBytes 8 (s.ctr index.toNat).toNat else leBytes 1 1 ++ leBytes 8 0)] }) ∧
    exec .state s = .next { s with out := s.out ++ [.smbusReply (leBytes 3 s.power.loc.toNat ++
      leBytes 8 s.rooster.status ++ leBytes 4 s.epoch.current.toNat ++ leBytes 1 1 ++
      leBytes 4 s.power.mgmtCause.toNat)] } ∧
    (∀ sensor, ∃ b, exec (.pldmRequest sensor) s = .next { s with out := s.out ++ [.smbusReply b] }) ∧
    (∀ bytes, ∃ b, exec (.mctpControl (.control bytes)) s = .next { s with out := s.out ++ [.smbusReply b] }) ∧
    (∀ code : BitVec 8, code = 0 ∨ 4 ≤ code.toNat →
      exec (.mctpControl (.vendor code)) s = .next { s with out := s.out ++ [.smbusError "ERROR_UNSUPPORTED_CMD"] }) ∧
    (∀ off, s.isGa .smbus off = false →
      exec (.smbusWriteAttempt off) s = .next { s with out := s.out ++ [.smbusError "ERROR_INVALID_DATA"] }) ∧
    (∀ off, s.isGa .smbus off = true →
      exec (.smbusWriteAttempt off) s = .next { s.bump bypassCtr with out := s.out ++ [.smbusError "ERROR_INVALID_DATA"] })

/-- Writing GATE_CALL puts a call in its place among those that wait, and its slot is PENDING (R382, R383); where no other call
waits, the next completion serves it and writes status 0. A second call on a pending slot is lost, and after FATAL a call is
answered with FATAL. This holds of every gate call of Table 15.3, each named. The model's own readings in it: log 83. -/
def Obligations.GateCallsWait : Prop :=
  (∀ (s : State) (c : Caller), c.slot ≤ 129 → s.slotOpen c.slot = true → (s.gateSlot c.slot).pending = false →
    s.fw.fatal = false →
      (∀ part ctx seg offset, Gives (.admitPlan c part ctx seg offset) s (s.callTaken c (.admitPlan part ctx seg offset))) ∧
      (∀ part, Gives (.withdrawPlan c part) s (s.callTaken c (.withdrawPlan part))) ∧
      (∀ part ctx, Gives (.ctxCreate c part ctx) s (s.callTaken c (.ctxCreate part ctx))) ∧
      (∀ part ctx, Gives (.ctxDestroy c part ctx) s (s.callTaken c (.ctxDestroy part ctx))) ∧
      (∀ part ctx seg base len, Gives (.setSegment c part ctx seg base len) s (s.callTaken c (.setSegment part ctx seg base len))) ∧
      (∀ part ctx seg service access, Gives (.serviceGrant c part ctx seg service access) s
          (s.callTaken c (.serviceGrant part ctx seg service access))) ∧
      (∀ part first granules, Gives (.setCarve c part first granules) s (s.callTaken c (.setCarve part first granules))) ∧
      (∀ part ports, Gives (.setPorts c part ports) s (s.callTaken c (.setPorts part ports))) ∧
      (∀ part minW minE, Gives (.setHenMin c part minW minE) s (s.callTaken c (.setHenMin part minW minE))) ∧
      (∀ v, Gives (.setPools c v) s (s.callTaken c (.setPools v))) ∧
      (∀ code gminB gminC, Gives (.setGmin c code gminB gminC) s (s.callTaken c (.setGmin code gminB gminC))) ∧
      (∀ v, Gives (.setSwitch c v) s (s.callTaken c (.setSwitch v))) ∧
      (∀ gmEligible refEn, Gives (.setTickRole c gmEligible refEn) s (s.callTaken c (.setTickRole gmEligible refEn))) ∧
      (∀ index entry, Gives (.setRoute c index entry) s (s.callTaken c (.setRoute index entry))) ∧
      (∀ index weights, Gives (.setSpread c index weights) s (s.callTaken c (.setSpread index weights))) ∧
      (∀ part entries, Gives (.setRemap c part entries) s (s.callTaken c (.setRemap part entries))) ∧
      (∀ part entries, Gives (.setGrants c part entries) s (s.callTaken c (.setGrants part entries))) ∧
      (∀ part v, Gives (.setVariant c part v) s (s.callTaken c (.setVariant part v))) ∧
      (∀ slots, Gives (.setTick c slots) s (s.callTaken c (.setTick slots))) ∧
      (∀ t key, Gives (.armEpochLocal c t key) s (s.callTaken c (.armEpoch t false key))) ∧
      (∀ t key, Gives (.armEpochFlood c t key) s (s.callTaken c (.armEpoch t true key))) ∧
      (∀ port v, Gives (.setPort c port v) s (s.callTaken c (.setPort port v))) ∧
      (∀ tick, Gives (.setPortDetach c tick) s (s.callTaken c (.detach tick))) ∧
      (∀ tick, Gives (.setPortAttach c tick) s (s.callTaken c (.attach tick))) ∧
      (∀ port windows, Gives (.setNapMap c port windows) s (s.callTaken c (.setNapMap port windows))) ∧
      (∀ level, Gives (.throttle c level) s (s.callTaken c (.throttle level))) ∧
      (Gives (.mulePet c) s (s.callTaken c .mulePet)) ∧
      (∀ key sig, Gives (.enrollKey c key sig) s (s.callTaken c (.enrollKey key sig))) ∧
      (∀ key sig, Gives (.revokeKey c key sig) s (s.callTaken c (.revokeKey key sig))) ∧
      (∀ image, Gives (.loadService c image) s (s.callTaken c (.loadService image))) ∧
      (Gives (.commitSvn c) s (s.callTaken c .commitSvn)) ∧
      (∀ copyB image, Gives (.loadMule c copyB image) s (s.callTaken c (.loadMule copyB image))) ∧
      (∀ nonce addr, Gives (.attest c nonce addr) s (s.callTaken c (.attest nonce addr))) ∧
      (∀ addr, Gives (.getCert c addr) s (s.callTaken c (.getCert addr)))) ∧
  (∀ (s : State) (i : Instr) (c : Caller) (r : GateReq), gateOf i = some (c, r) → c.slot ≤ 129 → s.slotOpen c.slot = true →
    ((s.gateSlot c.slot).pending = false → s.fw.fatal = false →
      Gives i s (fun t => (t.gateSlot c.slot).pending = true ∧
        t.gate.queue = gateInsert ⟨s.time, c.slot, c.rsv, r⟩ s.gate.queue ∧
        (∀ k, k ≠ c.slot → t.gateSlot k = s.gateSlot k) ∧ t.gate.drains = s.gate.drains ∧ t.epoch = s.epoch ∧
        t.ctxs = s.ctxs ∧ t.parts = s.parts ∧ t.ports = s.ports ∧ t.threads = s.threads ∧ t.depot = s.depot)) ∧
    ((s.gateSlot c.slot).pending = true →
      exec i s = .next (s.setGateSlot c.slot { s.gateSlot c.slot with lost := true, lostAt := some s.time })) ∧
    ((s.gateSlot c.slot).pending = false → s.fw.fatal = true →
      Gives i s (fun t => (t.gateSlot c.slot).status = 15 ∧ (t.gateSlot c.slot).pending = false ∧
        t.gate.queue = s.gate.queue)))

/-- A call is refused with FATAL, DENIED (R384, R380), BAD_CALL (R384), ARMED or BUSY (R386), in this order, then judged by
its own checks. A call alone in the gate is served at the next completion, and its status written. A refused call changes
nothing but its slot's status and the counters, and counts in GATE_REFUSED (R384); what an image that it read needed in
correction stays corrected (R311); of Mule's own, what Mule keeps about the refusal changes too (R396). The model's own
readings in it: log 84 and 85. -/
def Obligations.GateCallsAreJudgedInOrder : Prop :=
  (∀ (s : State) (slot : Nat) (rsv : Bool) (r : GateReq),
    (s.fw.fatal = true → s.serve slot rsv r = .error (15, 0)) ∧
    (s.fw.fatal = false → (r.mayCall slot = false ∨ (∃ p, r.part? = some p ∧ 2 ≤ slot ∧ p ≠ slot - 2) ∨
      (s.fw.recovery = true ∧ r.inRecovery = false)) → s.serve slot rsv r = .error (2, 0)) ∧
    (s.fw.fatal = false → r.mayCall slot = true → (∀ p, r.part? = some p → slot < 2 ∨ p = slot - 2) →
      (s.fw.recovery = true → r.inRecovery = true) →
      (r.inRange = false ∨ rsv = true → s.serve slot rsv r = .error (1, 0)) ∧
      (r.inRange = true → rsv = false → s.epoch.armed.isSome = true → (r.epochTable = true ∨ r.code = 0x26) →
        s.serve slot rsv r = .error (4, 0)) ∧
      (r.inRange = true → rsv = false → (s.epoch.armed = none ∨ (r.epochTable = false ∧ r.code ≠ 0x26)) →
        s.settingBusy r = true → s.serve slot rsv r = .error (3, 0))) ∧
    (s.gateOpen slot r → rsv = false → s.serve slot rsv r = s.serveReq slot r) ∧
    (∀ code, GateReq.inRange (.undefined code) = false)) ∧
  (∀ (s : State) (i : Instr) (c : Caller) (r : GateReq) (t : State), gateOf i = some (c, r) → c.slot ≤ 129 →
    s.slotOpen c.slot = true → (s.gateSlot c.slot).pending = false → s.fw.fatal = false → s.gate.queue = [] →
    (s.depot.draining && r.readsDepot) = false →
    State.serve { s.setGateSlot c.slot { s.gateSlot c.slot with pending := true } with
      gate := { (s.setGateSlot c.slot { s.gateSlot c.slot with pending := true }).gate with queue := [] } }
      c.slot c.rsv r = .ok t →
    ∃ u, exec i s = .next u ∧ Gives .gateCallComplete u (fun v =>
      (v.gateSlot c.slot).status = 0 ∧ (v.gateSlot c.slot).pending = false ∧ v.gate.queue = t.gate.queue ∧
      v.epoch = t.epoch ∧ v.ctxs = t.ctxs ∧ v.parts = t.parts ∧ v.ports = t.ports ∧ v.depot = t.depot ∧ v.fw = t.fw ∧
      v.mule = t.mule ∧ v.gate.drains = t.gate.drains)) ∧
  (∀ (s : State) (w : GateWait) (rest : List GateWait) (e : Nat × Nat), s.gate.queue = w :: rest →
    s.power.coldReset = false → s.power.tripped = false → (s.depot.draining && w.req.readsDepot) = false →
    State.serve { s with gate := { s.gate with queue := rest } } w.slot w.rsv w.req = .error e →
    Gives .gateCallComplete s (fun v => (v.gateSlot w.slot).status = e.1 ∧ (v.gateSlot w.slot).detail = e.2 ∧
      v.gate.queue = rest ∧
      v.ctr (devCtr dkGateRefused) = satAdd (devCtr dkGateRefused) (s.ctr (devCtr dkGateRefused)) 1 ∧
      (∀ i, i ≠ devCtr dkGateRefused → i ≠ devCtr dkAdmitRefused → i ≠ devCtr dkDepotEccCorr → i ≠ devCtr dkDepotEccUncorr →
        v.ctr i = s.ctr i) ∧
      { v.depot with soft := s.depot.soft } = s.depot ∧ (s.depot.soft = [] → v.depot = s.depot) ∧
      (∀ k, k ≠ w.slot → v.gateSlot k = s.gateSlot k) ∧ v.gate.drains = s.gate.drains ∧
      (1 ≤ w.slot → { v with gate := s.gate, counters := s.counters, depot := s.depot } = s) ∧
      (w.slot = 0 → { v with gate := s.gate, counters := s.counters, depot := s.depot, mule := s.mule, fw := s.fw } = s ∧
        { v.mule with backoff := s.mule.backoff } = s.mule ∧ { v.fw with devLog := s.fw.devLog } = s.fw)))

/-- What served calls do (Tables 15.3 and 15.5): an epoch-table call writes the shadow, not the tables in force (R452); a
non-buffered one waits for its hinge (R458); ARM_EPOCH arms (R453); and the rest act or stage as their rows say. The
model's own readings in it: log 17 and 90. -/
def Obligations.ServedCallsTakeEffect : Prop :=
  ∀ (s : State) (slot : Nat),
    (∀ n, ((64 ≤ n ∧ n ≤ 16384 ∧ n % 64 = 0) → ∃ t, s.serveReq slot (.setTick n) = .ok t ∧ t.nextSlots = n ∧
        t.epoch.dirty.slots = true ∧ t.epoch.cur = s.epoch.cur ∧ t.rooster.slots = s.rooster.slots) ∧
      (¬ (64 ≤ n ∧ n ≤ 16384 ∧ n % 64 = 0) → s.serveReq slot (.setTick n) = .error (5, 0))) ∧
    (∀ i e, routeOk e = true → ∃ t, s.serveReq slot (.setRoute i e) = .ok t ∧ t.nextRoute = s.nextRoute.set i e ∧
      t.epoch.cur = s.epoch.cur) ∧
    (∀ i e, routeOk e = false → s.serveReq slot (.setRoute i e) = .error (8, 0)) ∧
    (∀ i w, ∃ t, s.serveReq slot (.setSpread i w) = .ok t ∧ t.nextSpread = s.nextSpread.set i w ∧ t.epoch.cur = s.epoch.cur) ∧
    (∀ p v, variantLegal (s.nextPlan p) v = true → ∃ t, s.serveReq slot (.setVariant p v) = .ok t ∧
      t.nextVariants = s.nextVariants.set p v ∧ t.epoch.cur = s.epoch.cur) ∧
    (∀ p l, s.grantsLegal p l s.nextGrants = true → s.nextPlan p = none → ∃ t, s.serveReq slot (.setGrants p l) = .ok t ∧
      t.nextGrants = s.nextGrants.set p l ∧ t.epoch.cur = s.epoch.cur) ∧
    (∀ p m, ∃ t, s.serveReq slot (.setPorts p m) = .ok t ∧ t.parts = s.parts ∧
      t.gate.drains = s.gate.drains ++ [{ row := 1, req := .setPorts p m, slot := slot, code := 0x11 }]) ∧
    (∀ (t0 : Word) (k : BitVec 25), s.rooster.tickNo.toNat + 8 ≤ t0.toNat → s.shadowBad = none →
      ∃ t, s.serveReq slot (.armEpoch t0 false k) = .ok t ∧ t.epoch = { s.epoch with armed := some t0 }) ∧
    (∀ (t0 : Word) (k : BitVec 25), t0.toNat < s.rooster.tickNo.toNat + 8 →
      s.serveReq slot (.armEpoch t0 false k) = .error (14, 0)) ∧
    (∀ p c, s.ctx? c = none → (s.ctxs.filter (fun e => e.2.part = p)).length < 32 →
      ∃ t w, s.serveReq slot (.ctxCreate p c) = .ok t ∧ t.ctx? c = some { part := p, wslot := w } ∧ w < 32 ∧
        (∀ d x, d ≠ c → s.ctx? d = some x → t.ctx? d = some x) ∧ t.ctr (ctxCtr c 0) = 0) ∧
    (∀ p c x, s.ctx? c = some x → s.serveReq slot (.ctxCreate p c) = .error (10, 0)) ∧
    (∀ p c x, s.ctxOf p c = some x → s.isHome p c = false →
      s.serveReq slot (.ctxDestroy p c) = .ok (s.setCtx c { x with destroying := true })) ∧
    (∀ g r, s.serveReq slot (.setTickRole g r) =
      .ok { s with rooster := { s.rooster with roleStaged := some (g, r) } }) ∧
    (∀ l, l ≤ 3 → s.serveReq slot (.throttle l) = .ok { s with mule := { s.mule with throttleStaged := some l } }) ∧
    s.serveReq slot .mulePet = .ok { s with fw := { s.fw with petTicks := 0 } } ∧
    (s.fw.minSvn ≤ s.fw.muleSvn → s.fw.muleSvn ≤ 64 →
      s.serveReq slot .commitSvn = .ok { s with fw := { s.fw with minSvn := s.fw.muleSvn } }) ∧
    (s.fw.muleSvn < s.fw.minSvn → s.serveReq slot .commitSvn = .error (12, 0)) ∧
    (∀ k g, s.fw.keys.length < 8 → s.fw.keys ≠ [] →
      if s.fw.keys.any (fun x => Config.ecdsaVerify x k g) then
        ∃ t, s.serveReq slot (.enrollKey k g) = .ok t ∧ t.fw.keys = s.fw.keys ++ [k]
      else s.serveReq slot (.enrollKey k g) = .error (13, 0)) ∧
    (∀ k g, s.fw.keys.length = 8 → s.serveReq slot (.enrollKey k g) = .error (13, 0)) ∧
    (∀ k g, k ∉ s.fw.keys → s.serveReq slot (.revokeKey k g) = .error (13, 0))

/-- A pending change whose landing condition holds takes effect in the hinge slot and is pending no longer (R458, Table 19.6);
one that has waited 64 hinges is rolled back with DRAIN_TIMEOUT (R459). The model's own readings in it: log 87 and 126. -/
def Obligations.DrainsLandOrRollBack : Prop :=
  (∀ (s : State) (d : DrainPending) (p : Nat) (m : BitVec 49), s.alive = true → s.rooster.slot = 0 → s.gate.drains = [d] →
    d.req = .setPorts p m → d.age.isSome = true → s.drainLands d.req = true →
    Gives .drainLand s (fun t => (t.part p).ports = m ∧ (∀ q, q ≠ p → t.part q = s.part q) ∧ t.gate.drains = [] ∧
      t.ctxs = s.ctxs ∧ t.depot = s.depot ∧ t.ports = s.ports)) ∧
  (∀ (s : State) (d : DrainPending) (p w e : Nat), s.alive = true → s.rooster.slot = 0 → s.gate.drains = [d] →
    d.req = .setHenMin p w e → d.age.isSome = true → s.west.reserve.getD p 0 ≤ w → s.east.reserve.getD p 0 ≤ e →
    Gives .drainLand s (fun t => (t.part p).minW = w ∧ (t.part p).minE = e ∧ (∀ q, q ≠ p → t.part q = s.part q) ∧
      t.gate.drains = [] ∧ t.west = s.west ∧ t.east = s.east)) ∧
  (∀ (s : State) (d : DrainPending) (p f n : Nat), s.alive = true → s.rooster.slot = 0 → s.gate.drains = [d] →
    d.req = .setCarve p f n → d.age.isSome = true → s.drainLands d.req = true → s.memOk →
    Gives .drainLand s (fun t => (t.part p).carve = (f, n) ∧ t.gate.drains = [] ∧
      (∀ a, memGet t.depot.mem a =
        if (∃ i, i < n ∧ granuleAddr (f + i) ≤ a ∧ a < granuleAddr (f + i) + granuleSize ∧
            ¬ ((s.part p).carve.1 ≤ f + i ∧ f + i < (s.part p).carve.1 + (s.part p).carve.2)) then 0
        else memGet s.depot.mem a) ∧ t.memOk)) ∧
  (∀ (s : State) (d : DrainPending) (k b c : Nat), s.alive = true → s.rooster.slot = 0 → s.gate.drains = [d] →
    d.req = .setGmin k b c → d.age.isSome = true → s.drainLands d.req = true →
    Gives .drainLand s (fun t => (t.acct (codeIngress k) false).gmin = b ∧ (t.acct (codeIngress k) true).gmin = c ∧
      (t.acct (codeIngress k) false).limit = (s.acct (codeIngress k) false).limit ∧ t.gate.drains = [] ∧
      t.parts = s.parts)) ∧
  (∀ (s : State) (d : DrainPending) (n : Nat), s.alive = true → s.rooster.slot = 0 → s.gate.drains = [d] → d.age = some n →
    64 ≤ n → s.drainLands d.req = false → d.req.sameSetting d.req = true →
    Gives .drainRollback s (fun t => t.gate.drains = [] ∧ (t.gateSlot d.slot).status = 11 ∧
      (t.gateSlot d.slot).detail = d.code ∧
      t.ctr (devCtr dkDrainRollback) = satAdd (devCtr dkDrainRollback) (s.ctr (devCtr dkDrainRollback)) 1 ∧
      t.parts = s.parts ∧ t.accts = s.accts ∧ t.ctxs = s.ctxs ∧ t.depot = s.depot))

/-- From power to READY: cold reset leaves the reset state but for fuses, pins and TAP (R441); its end samples the straps and
reads the key table (R432, R433); a good copy starts Mule (R379) and a bad last one means RECOVERY (R380); ports come in
groups (R443), candidacy at 600 ms (R446), READY by 1 s (R447); a Mule that is not petted restarts (R389). The model's own
readings in it: log 14 and 98. -/
def Obligations.BootReachesReady : Prop :=
  (∀ s : State, Gives .coldRstNLow s (s.coldOf true) ∧ Gives .pwrgoodLow s (s.coldOf s.power.rstLow) ∧
    Gives .refclkLoss s (s.coldOf s.power.rstLow) ∧ Gives .railUndervoltage s (s.coldOf s.power.rstLow)) ∧
  (∀ (s : State) (b : BoardRead), s.power.coldReset = true → b.stackFail = 0 →
    Gives (.coldResetEnd b) s (fun t => t.power.coldReset = false ∧ t.power.loc = b.straps ∧ t.time = 0 ∧
      t.power.zeroed = true ∧ t.fw.seqA = b.seqA ∧ t.fw.seqB = b.seqB ∧
      t.fw.keys = (if b.keySeal = Config.keySeal b.keys then b.keys else []) ∧ 
      (s.fw.log.length + 2 ≤ 262144 → t.fw.log.length = s.fw.log.length + 2))) ∧
  (∀ (s : State) (copyB : Bool) (image : List Byte), s.alive = true → s.fw.bootTry.head? = some copyB →
    Gives (.bootCopyCheck copyB image) s (fun t => t.fw.minSvn = s.fw.minSvn ∧ t.power = s.power ∧
      (muleImageOk image s.fw.minSvn = true →
        t.fw.muleUp = true ∧ t.fw.muleSvn = natAt image 8 4 ∧ t.fw.bootTry = []))) ∧
  (∀ (s : State) (copyB : Bool) (image : List Byte), s.alive = true → s.fw.bootTry = [copyB] → s.fw.restarting = false →
    muleImageOk image s.fw.minSvn = false →
    Gives (.bootCopyCheck copyB image) s (fun t => t.fw.recovery = true ∧ t.fw.muleUp = s.fw.muleUp ∧
      (copyB = true → t.fw.bootFailB = true) ∧ (copyB = false → t.fw.bootFailA = true) ∧ t.power = s.power)) ∧
  (∀ (s : State) (g p : Nat), g < 8 → p < 49 → s.alive = true → s.confined = false → (120 + 40 * g) * 1000000 ≤ s.time →
    (locSeat s.power.loc + p) % 8 = g → (s.port p).enable = true →
    Gives (.portGroupAdmit g) s (fun t => (t.port p).admitted = true ∧
      (∀ q, q < 49 → (locSeat s.power.loc + q) % 8 ≠ g → t.port q = s.port q) ∧ t.power = s.power)) ∧
  (∀ s : State, s.alive = true → s.confined = false → s.rooster.candidate = false → 600000000 ≤ s.time →
    (s.rooster.st ≠ .free ∨ s.rooster.gmEligible = false) →
    exec .gmCandidacyStart s = .next { s with rooster := { s.rooster with candidate := true } }) ∧
  (∀ s : State, s.alive = true → s.confined = false → s.rooster.candidate = false → 600000000 ≤ s.time →
    s.rooster.st = .free → s.rooster.gmEligible = true →
    Gives .gmCandidacyStart s (fun t => t.rooster.st = .gm ∧ t.rooster.starting = true ∧ t.rooster.hops = 0 ∧
      t.rooster.parent = none ∧ t.rooster.candidate = true ∧ t.ports = s.ports)) ∧
  (∀ s : State, s.alive = true → s.power.ready = false → 1000000000 ≤ s.time →
    Gives .readyPublish s (fun t => t.power.ready = true ∧ t.power.mgmtCause.getLsbD 1 = true ∧ t.ports = s.ports ∧
      t.rooster = s.rooster)) ∧
  (∀ s : State, s.alive = true → s.rooster.slot = 0 → s.fw.muleUp = true → 64 < s.fw.petTicks →
    Gives .muleRestart s (fun t => t.fw.muleUp = false ∧ t.fw.petTicks = 0 ∧ t.mule.inbox = [] ∧ t.mule.jobs = [] ∧
      t.mule.drains = [] ∧ (t.gateSlot 0).pending = false ∧ (∀ w ∈ t.gate.queue, w.slot ≠ 0) ∧
      t.ctr (devCtr dkMuleRestart) = satAdd (devCtr dkMuleRestart) (s.ctr (devCtr dkMuleRestart)) 1 ∧
      t.threads = s.threads ∧ t.ports = s.ports))

/-- A lockstep mismatch is FATAL and a thermal trip stops the device (R377, R511): every thread that ran is stopped. A test
instruction of the TAP is taken only while COLD_RST_N is low (R506), and IDCODE gives the JEP106 code and the device identifier
(R1). The model's own readings in it: log 13 and 99. -/
def Obligations.FatalStopsAndTap : Prop :=
  (∀ s : State, s.power.coldReset = false → s.fw.fatal = false →
    Gives .lockstepMismatch s (fun t => t.fw.fatal = true ∧ t.alive = false ∧ (∀ p, (t.thread p).st ≠ .running) ∧
      t.fw.minSvn = s.fw.minSvn ∧ t.depot.mem = s.depot.mem)) ∧
  (∀ (s : State) (west east stack : BitVec 16), s.power.coldReset = false → s.power.tripped = false →
    (115 ≤ west.toInt ∨ 115 ≤ east.toInt ∨ 95 ≤ stack.toInt) →
    Gives (.thermalTrip west east stack) s (fun t => t.power.tripped = true ∧ t.alive = false ∧
      (∀ p, (t.thread p).st ≠ .running) ∧ .thermTrip ∈ t.out ∧ t.fw.fatal = s.fw.fatal)) ∧
  (∀ (s : State) (ir v : BitVec 8), v = (if ir = bypassIr ∨ ir = Config.idcodeIr ∨ s.power.rstLow = true then ir else bypassIr) →
    Gives (.tapInstruction ir) s (fun t => t.power = { s.power with tap := v } ∧ (∃ w : BitVec 32,
      w.getLsbD 0 = true ∧ w.extractLsb' 1 11 = Config.jep106 ∧
      w.extractLsb' 12 16 = (if Config.isOptical then 0x0D49 else 0x0D48) ∧
      t.out = s.out ++ (if v = Config.idcodeIr then [.tapLoaded v, .idcode w] else [.tapLoaded v])) ∧
      t.ports = s.ports ∧ t.threads = s.threads ∧ t.depot = s.depot ∧ t.fw = s.fw)) ∧
  (∀ s : State, exec .tapReset s = .next { s with power := { s.power with tap := Config.idcodeIr } })

/-- Depot keeps shards (R407, R408): CREATE takes three extents inside the segment, clear of each other and of those in use,
wherever the open choice puts them; PUT stores its bytes and no others; COMMIT makes a version the latest; GET reads
back; DROP forgets. A service that does not run answers NO_SERVICE, and an operator service answers once, as it likes
(R405). Which free place an extent takes is open in the spec (log 105). The model's own readings in it: log 100, 102 and
105. -/
def Obligations.DepotKeepsShards : Prop :=
  (∀ (s u : State) (m : SvcMsg) (c : Ctx) (len cap : Nat) (l : List Nat), s.serves m 1 1 → (msgBody m).length = 12 →
    (s.takeMsg m).msgGranted m 1 true = true → s.ctx? (msgCtx m) = some c →
    len = (c.segs.getD (msgSeg m) (0, 0)).2 * 4096 → cap = natAt (msgBody m) 8 4 → shardRoom cap ≤ 0x4000000 →
    s.shardFor m = none → (s.shardsOf m).length < 1024 →
    (s.takeMsg m).placeExtents len (shardRoom cap) 3
      ((s.shardsOf m).flatMap (fun x => x.ext.map (fun o => (o, shardRoom x.cap)))) [] = (some l, u) →
    Gives (.create m) s (fun t => t.mule.shards = s.mule.shards ++
        [{ ctx := msgCtx m, seg := msgSeg m, id := natAt (msgBody m) 0 8, cap := cap, ext := l }] ∧
      l.length = 3 ∧ (∀ o ∈ l, 65536 ≤ o ∧ o + shardRoom cap ≤ len ∧ o % 65536 = 0) ∧
      l.Pairwise (fun a b => overlaps a (shardRoom cap) b (shardRoom cap) = false) ∧
      (∀ x ∈ s.shardsOf m, ∀ e ∈ x.ext, ∀ o ∈ l, overlaps o (shardRoom cap) e (shardRoom x.cap) = false) ∧
      t.depot = s.depot ∧ t.threads = s.threads)) ∧
  (∀ (s : State) (m : SvcMsg) (x : Shard) (a e : Nat), s.serves m 1 2 → 16 ≤ (msgBody m).length →
    (msgBody m).length ≤ 4080 → (s.takeMsg m).msgGranted m 1 true = true → s.shardFor m = some x →
    (∀ w sz o, x.latest = some (w, sz, o) → w < natAt (msgBody m) 8 4) →
    natAt (msgBody m) 12 4 + ((msgBody m).length - 16) ≤ x.cap → x.staged = none → e = x.freeExtent →
    s.segAddr m.part (msgCtx m) (msgSeg m) (e + natAt (msgBody m) 12 4) ((msgBody m).length - 16) = some a →
    s.depot.draining = false → s.depot.bad = [] → s.memOk →
    Gives (.put m) s (fun t =>
      (∀ k, memGet t.depot.mem k = if a ≤ k ∧ k < a + ((msgBody m).length - 16) then (msgBody m).getD (16 + (k - a)) 0
        else memGet s.depot.mem k) ∧
      (∀ y ∈ t.mule.shards, y.ctx = x.ctx → y.seg = x.seg → y.id = x.id → y.staged = some (natAt (msgBody m) 8 4, e)) ∧
      t.mule.inbox = s.mule.inbox.erase m)) ∧
  (∀ (s : State) (m : SvcMsg) (x : Shard) (e : Nat), s.serves m 1 3 → (msgBody m).length = 16 →
    (s.takeMsg m).msgGranted m 1 true = true → s.shardFor m = some x → x.staged = some (natAt (msgBody m) 8 4, e) →
    natAt (msgBody m) 12 4 ≤ x.cap →
    exec (.commit m) s = .next (((s.takeMsg m).setShard { x with
      staged := none, latest := some (natAt (msgBody m) 8 4, natAt (msgBody m) 12 4, e), prev := x.latest }).svcReply m 0 [])) ∧
  (∀ (s : State) (m : SvcMsg) (x : Shard) (v size e a : Nat), s.serves m 1 4 → (msgBody m).length = 20 →
    (s.takeMsg m).msgGranted m 1 false = true → s.shardFor m = some x →
    x.version (natAt (msgBody m) 8 4) = some (v, size, e) → natAt (msgBody m) 16 4 ≤ 4064 →
    natAt (msgBody m) 12 4 + natAt (msgBody m) 16 4 ≤ size →
    s.segAddr m.part (msgCtx m) (msgSeg m) (e + natAt (msgBody m) 12 4) (natAt (msgBody m) 16 4) = some a →
    s.depot.draining = false → s.depot.bad = [] → s.depot.soft = [] →
    exec (.get m) s = .next ((s.takeMsg m).svcReply m 0
      (leBytes 4 v ++ leBytes 4 0 ++ memRead s.depot.mem a (natAt (msgBody m) 16 4)))) ∧
  (∀ (s : State) (m : SvcMsg) (x : Shard), s.serves m 1 5 → (msgBody m).length = 8 →
    (s.takeMsg m).msgGranted m 1 true = true → s.shardFor m = some x →
    Gives (.drop m) s (fun t => t.mule.shards = s.mule.shards.filter (fun y =>
        !(y.ctx = x.ctx && y.seg = x.seg && y.id = x.id)) ∧ t.mule.jobs = s.mule.jobs ∧ t.depot = s.depot)) ∧
  (∀ (s : State) (m : SvcMsg) (c : Instr), s.alive = true → s.fw.muleUp = true → s.msgTurn m = true → msgFormed m = true →
    msgOp m < 128 → msgService m ≠ 0 →
    (c = .create m ∨ c = .put m ∨ c = .commit m ∨ c = .get m ∨ c = .drop m ∨ c = .join m ∨ c = .leave m ∨ c = .arrive m ∨
      c = .propose m ∨ c = .forget m ∨ c = .drain m ∨ c = .partDone m) →
    (s.serviceUp (msgService m) = false → exec c s = .next ((s.takeMsg m).svcReply m svNoService [])) ∧
    (s.serviceUp (msgService m) = true → 4 ≤ msgService m →
      ∃ (st n : Nat) (b : List Byte), st < 10 ∧ b.length ≤ 4080 ∧
        exec c s = .next (State.svcReply { s.takeMsg m with free := n } m st b)))

/-- Roll-call keeps jobs (R409, R410): a rank joins under its address, leaves, arrives at a barrier that is released when every
rank has, or reported LOST after 65,536 ticks; the first proposal of a topic stands until it is forgotten. The model's own
readings in it: log 106. -/
def Obligations.RollCallKeepsJobs : Prop :=
  (∀ (s : State) (m : SvcMsg) (j : Job) (rank parts : Nat), s.serves m 2 1 → (msgBody m).length = 8 → msgScope m ≠ 0 →
    rank = natAt (msgBody m) 0 4 → parts = natAt (msgBody m) 4 4 → rank < parts → parts ≤ 4096 →
    s.mule.jobs.get? (msgScope m) = some j → j.parts = parts → j.arrivals = [] → j.ranks.get? rank = none →
    exec (.join m) s = .next (((s.takeMsg m).setJob (msgScope m) { j with ranks := j.ranks.set rank m.src }).svcReply m 0
      (leBytes 4 j.gen))) ∧
  (∀ (s : State) (m : SvcMsg) (j : Job) (a : BitVec 32), s.serves m 2 2 → (msgBody m).length = 4 →
    s.mule.jobs.get? (msgScope m) = some j → j.ranks.get? (natAt (msgBody m) 0 4) = some a →
    exec (.leave m) s = .next (((s.takeMsg m).setJob (msgScope m)
      { j with ranks := j.ranks.erase (natAt (msgBody m) 0 4) }).svcReply m 0 [])) ∧
  (∀ (s : State) (m : SvcMsg) (j : Job) (e : Nat × BitVec 32), s.serves m 2 3 → (msgBody m).length = 4 →
    s.mule.jobs.get? (msgScope m) = some j → j.ranks.find? (fun x => x.2 = m.src) = some e →
    Gives (.arrive m) s (fun t => ∃ i, t.mule.jobs.get? (msgScope m) = some i ∧ i.ranks = j.ranks ∧ i.topics = j.topics ∧
      (j.parts ≠ 0 ∧ Job.allAt { j with arrivals := j.arrivals ++
          [{ rank := e.1, barrier := natAt (msgBody m) 0 4, msg := m, tick := s.rooster.tickNo }] } (natAt (msgBody m) 0 4) = true →
        i.arrivals = j.arrivals.filter (fun x => x.barrier ≠ natAt (msgBody m) 0 4)) ∧
      (¬ (j.parts ≠ 0 ∧ Job.allAt { j with arrivals := j.arrivals ++
          [{ rank := e.1, barrier := natAt (msgBody m) 0 4, msg := m, tick := s.rooster.tickNo }] } (natAt (msgBody m) 0 4) = true) →
        i.arrivals = j.arrivals ++
          [{ rank := e.1, barrier := natAt (msgBody m) 0 4, msg := m, tick := s.rooster.tickNo }] ∧ t.txs = s.txs))) ∧
  (∀ (s : State) (k : Nat) (j : Job), s.alive = true → s.fw.muleUp = true → s.mule.jobs.get? k = some j →
    (∃ x ∈ j.arrivals, 65536 ≤ (s.rooster.tickNo - x.tick).toNat) →
    Gives (.arriveTimeout k) s (fun t => t.mule.jobs.get? k = some { j with
        arrivals := j.arrivals.filter (fun x => !decide (65536 ≤ (s.rooster.tickNo - x.tick).toNat)) } ∧
      (∀ i, i ≠ k → t.mule.jobs.get? i = s.mule.jobs.get? i) ∧ t.threads = s.threads ∧ t.depot = s.depot)) ∧
  (∀ (s : State) (m : SvcMsg) (j : Job), s.serves m 2 5 → 4 ≤ (msgBody m).length → (msgBody m).length ≤ 68 →
    s.mule.jobs.get? (msgScope m) = some j →
    (∀ v, j.topics.get? (natAt (msgBody m) 0 4) = some v →
      exec (.propose m) s = .next ((s.takeMsg m).svcReply m 0 v)) ∧
    (j.topics.get? (natAt (msgBody m) 0 4) = none → j.topics.length < 256 →
      exec (.propose m) s = .next (((s.takeMsg m).setJob (msgScope m)
        { j with topics := j.topics.set (natAt (msgBody m) 0 4) ((msgBody m).drop 4) }).svcReply m 0 ((msgBody m).drop 4)))) ∧
  (∀ (s : State) (m : SvcMsg) (j : Job) (v : List Byte), s.serves m 2 6 → (msgBody m).length = 4 →
    s.mule.jobs.get? (msgScope m) = some j → j.topics.get? (natAt (msgBody m) 0 4) = some v →
    exec (.forget m) s = .next (((s.takeMsg m).setJob (msgScope m)
      { j with topics := j.topics.erase (natAt (msgBody m) 0 4) }).svcReply m 0 []))

/-- Checkpoint drain (R412, R413): a request is kept with its range; parts start in order with fresh MSG numbers; a part done is
so marked, and one that is late or lost is sent again up to four times, or ends the drain LOST. The model's own readings
in it: log 107. -/
def Obligations.CheckpointDrains : Prop :=
  (∀ (s : State) (m : SvcMsg), s.serves m 3 1 → (msgBody m).length = 30 → (s.takeMsg m).msgGranted m 3 false = true →
    1 ≤ natAt (msgBody m) 8 8 → natAt (msgBody m) 8 8 ≤ 2 ^ 40 → s.mule.drains.length < 64 →
    Gives (.drain m) s (fun t => t.mule.drains = s.mule.drains ++ [{
        id := s.mule.nextDrain, req := m, ctx := msgCtx m, seg := msgSeg m, offset := natAt (msgBody m) 0 8,
        len := natAt (msgBody m) 8 8, rank := natAt (msgBody m) 16 4, obj := natAt (msgBody m) 20 8,
        dq := natAt (msgBody m) 28 2 }] ∧ t.mule.nextDrain = s.mule.nextDrain + 1 ∧ t.txs = s.txs ∧ t.depot = s.depot)) ∧
  (∀ (s : State) (id : Nat) (d : Drain), s.mule.drains.find? (fun x => x.id = id) = some d → s.alive = true →
    s.fw.muleUp = true → s.mule.throttle < 3 → d.next < ceilDiv d.len 0x1000000 → d.sending = none →
    Gives (.drainPartStart id) s (fun t =>
      t.mule.drains = s.mule.drains.map (fun x => if x.id = id then { d with
        next := d.next + 1, parts := d.parts.set d.next { sends := 1, msg := s.mule.msgNo, tick := s.rooster.tickNo } } else x) ∧
      t.mule.msgNo = s.mule.msgNo + 1 ∧ t.txs = s.txs ∧ t.depot = s.depot)) ∧
  (∀ (s : State) (m : SvcMsg) (d : Drain) (k : Nat) (x : DrainPart), s.serves m 3 2 → (msgBody m).length = 12 →
    (s.takeMsg m).msgGranted m 3 false = true → k = natAt (msgBody m) 8 4 →
    s.mule.drains.find? (fun y => y.obj = natAt (msgBody m) 0 8 && y.ctx = msgCtx m && y.seg = msgSeg m &&
      (y.parts.get? k).isSome) = some d → d.parts.get? k = some x → d.next ≠ ceilDiv d.len 0x1000000 →
    Gives (.partDone m) s (fun t => t.mule.drains = s.mule.drains.map (fun y => if y.id = d.id then
        { d with parts := d.parts.set k { x with done := true } } else y) ∧ t.depot = s.depot)) ∧
  (∀ (s : State) (id k : Nat) (d : Drain) (x : DrainPart), s.mule.drains.find? (fun y => y.id = id) = some d →
    d.parts.get? k = some x → s.alive = true → s.fw.muleUp = true → x.done = false →
    (x.lost = true ∨ 64 ≤ (s.rooster.tickNo - x.tick).toNat) →
    (x.sends < 4 → Gives (.partResend id k) s (fun t =>
      t.mule.drains = s.mule.drains.map (fun y => if y.id = id then { d with
        parts := d.parts.set k { sends := x.sends + 1, msg := s.mule.msgNo, tick := s.rooster.tickNo } } else y) ∧
      t.mule.msgNo = s.mule.msgNo + 1 ∧ t.depot = s.depot)) ∧
    (4 ≤ x.sends → Gives (.partResend id k) s (fun t => t.mule.drains = s.mule.drains.filter (fun y => y.id ≠ id) ∧
      t.depot = s.depot)))

/-- Arm requests and floods (R454-R456): a Dolmo that is not GM passes a request on, the GM holds it while a flood is pending;
the flood names a tick at least 8 ahead; an ARM is taken once; a request without an answer is sent again; and Mule stops
staging at its deadline. The model's own readings in it: log 103, 108 and 109. -/
def Obligations.ArmsAreFlooded : Prop :=
  (∀ (s : State) (m : SvcMsg), s.serves m 0 1 → (msgBody m).length = 12 → s.rooster.st = .gm →
    s.mule.flooded.isSome = true →
    Gives (.armReq m) s (fun t => (∃ w, t.mule.held = s.mule.held ++ [w] ∧ w.id = msgReq m ∧ w.msg = some m ∧
        w.t = BitVec.ofNat 64 (natAt (msgBody m) 0 8) ∧ w.tick = s.rooster.tickNo) ∧
      t.mule.requests = s.mule.requests ∧ t.txs = s.txs ∧ t.epoch = s.epoch)) ∧
  (∀ (s : State) (m : SvcMsg), s.serves m 0 1 → (msgBody m).length = 12 → s.rooster.st ≠ .gm →
    Gives (.armReq m) s (fun t => (∃ w, t.mule.requests = s.mule.requests ++ [w] ∧ w.id = s.mule.reqNo ∧ w.msg = some m ∧
        w.t = BitVec.ofNat 64 (natAt (msgBody m) 0 8) ∧ w.tick = s.rooster.tickNo) ∧
      t.mule.reqNo = s.mule.reqNo + 1 ∧ t.mule.held = s.mule.held ∧ t.epoch = s.epoch)) ∧
  (∀ (s : State) (w : ArmWait), s.alive = true → s.fw.muleUp = true → s.mule.requests = [w] → w.msg = none →
    8 ≤ (s.rooster.tickNo - w.tick).toNat → s.rooster.st ≠ .gm →
    Gives .armReqResend s (fun t => t.mule.requests = [{ w with tick := s.rooster.tickNo }] ∧ t.mule.held = s.mule.held ∧
      t.epoch = s.epoch)) ∧
  (∀ (s : State) (w : ArmWait), s.alive = true → s.fw.muleUp = true → s.rooster.st = .gm → s.mule.flooded = none →
    s.mule.held = [w] → s.rooster.tickNo.toNat + 2 ^ 40 < 2 ^ 64 → s.earliestTick < s.rooster.tickNo.toNat + 2 ^ 40 →
    Gives .heldArmFlood s (fun t => t.mule.held = [] ∧ t.mule.armSeq = s.mule.armSeq + 1 ∧
      (∃ f, t.mule.flooded = some f ∧ s.rooster.tickNo.toNat + 8 ≤ f.toNat ∧ w.t.toNat ≤ f.toNat) ∧
      t.threads = s.threads ∧ t.ports = s.ports)) ∧
  (∀ (s : State) (port : Nat) (m : SvcMsg), port < 49 → s.serves m 0 2 →
    (BitVec.ofNat 64 (natAt (msgBody m) 0 8) : Word) ∉ s.mule.armSeen →
    Gives (.arm port m) s (fun t => t.mule.armSeen = s.mule.armSeen ++ [BitVec.ofNat 64 (natAt (msgBody m) 0 8)] ∧
      t.mule.inbox = s.mule.inbox.erase m ∧
      (natAt (msgBody m) 16 4 = (s.epoch.current + 1).toNat → s.epoch.armed = none → (t.gateSlot 0).pending = true) ∧
      t.epoch = s.epoch ∧ t.threads = s.threads ∧ t.ports = s.ports)) ∧
  (∀ (s : State) (port : Nat) (m : SvcMsg), port < 49 → s.serves m 0 2 →
    (BitVec.ofNat 64 (natAt (msgBody m) 0 8) : Word) ∈ s.mule.armSeen → exec (.arm port m) s = .next (s.takeMsg m)) ∧
  (∀ (s : State) (t0 : Word) (l : List GateReq), s.mule.staging = some (t0, l) → s.alive = true → s.fw.muleUp = true →
    s.rooster.hingeTime + (t0.toNat - 7 - s.rooster.tickNo.toNat) * s.tickNs ≤ s.time + 20000 →
    Gives .stagingDeadline s (fun t => t.mule.staging = none ∧
      t.gate.queue = s.gate.queue.filter (fun w => !(w.slot = 0 && w.req.epochTable)) ∧ t.epoch = s.epoch ∧
      t.threads = s.threads))

/-- What Mule decides from the digest (R396-R404): once for each digest, runs of hot hinges counted; and each decision is a call
in Mule's own gate slot. The model's own readings in it: log 110 and 111. -/
def Obligations.MuleDecides : Prop :=
  (∀ (s : State) (d : Digest), s.mule.digest = some d → s.alive = true → s.fw.muleUp = true → s.mule.reviewed = false →
    Gives .muleHingeReview s (fun t => t.mule.reviewed = true ∧ t.mule.digest = some d ∧
      t.mule.hot1 = (if samplesHot d.samples 1 0 then s.mule.hot1 + 1 else 0) ∧
      t.mule.hot2 = (if samplesHot d.samples 2 0 then s.mule.hot2 + 1 else 0) ∧
      t.mule.hot3 = (if samplesHot d.samples 3 0 then s.mule.hot3 + 1 else 0) ∧ t.mule.throttle = s.mule.throttle ∧
      (samplesHot d.samples 3 0 = true → 1 ≤ s.mule.hot3 → s.mule.throttle < 3 → s.mayRetry 0x32 = true →
        t.muleAsks (.throttle 3)) ∧
      t.threads = s.threads ∧ t.ports = s.ports ∧ t.depot = s.depot ∧ t.epoch = s.epoch)) ∧
  (∀ (s : State) (d : Digest), s.mule.digest = some d → s.alive = true → s.fw.muleUp = true → s.mule.reviewed = true →
    exec .muleHingeReview s = .next s) ∧
  (∀ (s : State) (d : Digest) (k : Nat) (l : List Nat), s.mule.digest = some d → s.alive = true → s.fw.muleUp = true →
    d.tick = s.rooster.tickNo → d.tick.toNat % 64 = 0 → s.rooster.slot = 0 → s.epochIdle = true →
    s.holdOver s.mule.holdSpread = true → s.mayRetry 0x21 = true → k < 64 → s.spreadWanted k = some l →
    Gives .spreadWeightReview s (fun t => t.muleAsks (.setSpread k l) ∧ t.epoch = s.epoch ∧ t.ports = s.ports ∧
      t.threads = s.threads)) ∧
  (∀ (s : State) (port lane : Nat) (t0 : Word), port < 49 → lane < laneCount port → (s.lane port lane).heldUntil = some t0 →
    s.alive = true → s.fw.muleUp = true → t0.toNat ≤ s.rooster.tickNo.toNat → s.holdOver s.mule.holdPort = true →
    s.mayRetry 0x30 = true →
    Gives (.laneExclusionRelease port lane) s (fun t => (t.lane port lane).heldUntil = none ∧
      t.muleAsks (.setPort port (.hold lane false)) ∧ t.ports = s.ports ∧ t.threads = s.threads)) ∧
  (∀ (s : State) (p k : Nat) (pl : Plan), p < 128 → s.planOf p = some pl → pl.lowest (fun v => !v.limp) = some k →
    s.alive = true → s.fw.muleUp = true → s.underPolicy p = true → 64 ≤ s.mule.fitRun.getD p 0 →
    (s.thread p).variant ≠ k → s.mayVary = true →
    Gives (.normalVariantReturn p) s (fun t => (∃ v : BitVec 7, t.muleAsks (.setVariant p v) ∧ v &&& 7 = BitVec.ofNat 7 k &&& 7) ∧
      t.epoch = s.epoch ∧ t.threads = s.threads)) ∧
  (∀ s : State, s.alive = true → s.fw.muleUp = true → s.mule.throttle ≠ 0 → 64 ≤ s.mule.cool → s.mayRetry 0x32 = true →
    Gives .throttleLower s (fun t => t.mule.cool = 0 ∧ t.muleAsks (.throttle (s.mule.throttle - 1)) ∧
      t.mule.throttle = s.mule.throttle ∧ t.threads = s.threads ∧ t.ports = s.ports))

/-- The twin (R414-R428): a heartbeat of the pair location for this tick is taken, any other counted in HB_BAD; a pulse or a
heartbeat in the window is hearing; and the pair's states change as Table 17.1 says. The model's own readings in it: log
130, 131, 132 and 133. -/
def Obligations.TwinStatesChange : Prop :=
  (∀ (s : State) (f : RxFrame) (offset : Int), s.alive = true → (s.port 48).active = true → s.ahead offset = false →
    s.rxFail 48 f = none → f.hdr.typ.toNat = tyHeartbeat → natAt f.body 0 8 = s.rooster.tickNo.toNat →
    natAt f.body 8 3 = s.pairLoc.toNat → s.twin.st = .linkOnly → natAt f.body 11 1 % 8 ≠ 5 →
    Gives (.heartbeat 48 f offset) s (fun t => t.twin.st = .paired ∧ t.twin.hbNow = some f.body ∧
      t.twin.farState = some (natAt f.body 11 1 % 8) ∧
      (inWindow offset = true → t.twin.hbHeard = true) ∧ t.threads = s.threads ∧ t.rooster = s.rooster ∧
      t.counters = (s.lineCounts 48 f).counters)) ∧
  (∀ (s : State) (port : Nat) (f : RxFrame) (offset : Int), port < 49 → s.alive = true → (s.port port).active = true →
    s.ahead offset = false → s.rxFail port f = none → f.hdr.typ.toNat = tyHeartbeat →
    (port ≠ 48 ∨ natAt f.body 0 8 ≠ s.rooster.tickNo.toNat ∨ natAt f.body 8 3 ≠ s.pairLoc.toNat) →
    Gives (.heartbeat port f offset) s (fun t => t.twin = s.twin ∧
      t.ctr (devCtr dkHbBad) = satAdd (devCtr dkHbBad) (s.ctr (devCtr dkHbBad)) 1 ∧ t.threads = s.threads)) ∧
  (∀ (s : State) (offset : Int), s.alive = true → s.ahead offset = false → inWindow offset = true →
    exec (.twinPulseInEdge offset) s = .next { s with twin := { s.twin with pulseNow := true } }) ∧
  (∀ s : State, s.alive = true → s.power.ready = true → s.rooster.slot = 0 → s.twin.st = .unpaired →
    s.twin.heardSince = true →
    (s.twin.farState = some 3 → exec .pairingDecision s = .next { s with twin := { s.twin with st := .standby } }) ∧
    (s.twin.farState ≠ some 3 → s.twin.farState ≠ some 5 →
      exec .pairingDecision s = .next { s with twin := { s.twin with st := .paired } })) ∧
  (∀ s : State, s.alive = true → s.power.ready = true → s.rooster.slot = 0 → s.twin.st = .unpaired →
    s.twin.heardSince = false → 4 ≤ s.twin.readyHinges → s.twin.heardNow = false →
    Gives .pairingDecision s (fun t => t.twin.st = .solo ∧ t.twin.adoptsNext = some true ∧
      t.ctr (devCtr dkTwinTakeover) = satAdd (devCtr dkTwinTakeover) (s.ctr (devCtr dkTwinTakeover)) 1)) ∧
  (∀ s : State, s.alive = true → s.twin.st = .paired → s.twin.pulseNow = true → s.twin.hbNow = none → 2 ≤ s.twin.hbMiss →
    exec .linkOnlyEntry s = .next { s with twin := { s.twin with st := .linkOnly } }) ∧
  (∀ s : State, s.alive = true → s.rooster.slot = 0 → 3 ≤ s.twin.silent → (s.twin.st = .paired ∨ s.twin.st = .linkOnly) →
    Gives .soloEntry s (fun t => t.twin.st = .solo ∧ t.twin.adoptsNext = some true ∧
      (∀ p, p < 128 → s.goesSolo p = true → (t.thread p).solo = true ∧
        (t.thread p).variant = bitsOf (s.epoch.cur.variant.getD p 0).toNat 5 3) ∧
      (∀ p, p < 128 → s.goesSolo p = false → t.thread p = s.thread p) ∧
      t.ctr (devCtr dkTwinTakeover) = satAdd (devCtr dkTwinTakeover) (s.ctr (devCtr dkTwinTakeover)) 1)) ∧
  (∀ s : State, s.alive = true → s.rooster.slot = 0 → s.twin.detachAt = some s.rooster.tickNo →
    Gives .detach s (fun t => t.twin.st = .detached ∧ t.twin.detachAt = none ∧
      (∀ p, p < 128 → (s.thread p).st = .running → (t.thread p).st = .halted ∧ (t.thread p).recs = []) ∧
      (∀ p, p < 128 → (s.thread p).st ≠ .running → t.thread p = s.thread p) ∧ t.depot.mem = s.depot.mem)) ∧
  (∀ s : State, s.alive = true → s.rooster.slot = 0 → s.twin.attachDue s.rooster.tickNo = true →
    s.twin.unheardSinceArm = false → s.twin.attachNamed = some s.rooster.tickNo →
    Gives .attach s (fun t => t.twin.st = .paired ∧ t.twin.adoptsNext = some false ∧ t.twin.attachAt = none ∧
      (∀ p, p < 128 → (t.thread p).solo = false) ∧ t.depot = s.depot ∧ t.ports = s.ports)) ∧
  (∀ s : State, s.alive = true → s.rooster.slot = 0 → s.twin.attachDue s.rooster.tickNo = true →
    s.twin.unheardSinceArm = true →
    Gives .attach s (fun t => t.twin.st = s.twin.st ∧ t.twin.attachAt = none ∧
      t.ctr (portCtr 48 pkTwinAttachFail) = satAdd (portCtr 48 pkTwinAttachFail) (s.ctr (portCtr 48 pkTwinAttachFail)) 1 ∧
      t.threads = s.threads))

/-- Port settings: a write of PORT_CFG or PORT_ASYM acts as a SET_PORT call of the PF, which GATE_LOG will show, and waits
for the next hinge (R397, R486), a REACH or LANE_CFG change starts the lane procedure, which takes one lane at a time and
ends with the reach class judged again (R77, R461); one that fails goes back (R462). The model's own readings in it: log
65, 66, 138 and 172. -/
def Obligations.PortSettingsChange : Prop :=
  (∀ (s : State) (port : Nat) (v : BitVec 32), port < 49 → s.pathOpen .pf = true → s.portCfgOpen port v.toNat = true →
    exec (.portEnable .pf port v) s = .next { s.modPort port (fun q => { q with
        cfgStaged := some (v.getLsbD 0, (q.cfgStaged.getD (q.enable, q.exclude)).2) }) with
      gate := { s.gate with staged := s.gate.staged ++ [0x30] } } ∧
    exec (.portExclude .pf port v) s = .next { s.modPort port (fun q => { q with
        cfgStaged := some ((q.cfgStaged.getD (q.enable, q.exclude)).1, v.extractLsb' 8 16) }) with
      gate := { s.gate with staged := s.gate.staged ++ [0x30] } } ∧
    Gives (.portReach .pf port v) s (fun t => (t.port port).reach = v.toNat / 2 % 4 ∧
      (t.port port).enable = (s.port port).enable ∧ (t.port port).exclude = (s.port port).exclude ∧
      (v.toNat / 2 % 4 ≠ (s.port port).reach → ∃ pr, (t.port port).lanProc = some pr ∧ pr.todo = s.lanesUp port ∧
        pr.oldReach = (s.port port).reach ∧ pr.newReach = v.toNat / 2 % 4) ∧
      (∀ q, q ≠ port → t.port q = s.port q) ∧ t.lanes = s.lanes)) ∧
  (∀ (s : State) (port : Nat) (v : BitVec 32), port < 49 → s.pathOpen .pf = true →
    exec (.portAsym .pf port v) s = .next { s.modPort port (fun q => { q with asymStaged := some (v.setWidth 16) }) with
      gate := { s.gate with staged := s.gate.staged ++ [0x30] } }) ∧
  (∀ (s : State) (port lane : Nat) (v : BitVec 32), port < 49 → lane < laneCount port → s.pathOpen .pf = true →
    (s.port port).lanProc = none → coPackaged port = false →
    Gives (.laneCfg .pf port lane v) s (fun t => (t.lane port lane).preset = v.toNat % 8 ∧
      (t.lane port lane).presetOvr = v.getLsbD 3 ∧
      ((v.toNat % 8 ≠ (s.lane port lane).preset ∨ v.getLsbD 3 ≠ (s.lane port lane).presetOvr) →
        ∃ pr, (t.port port).lanProc = some pr ∧
          pr.oldLane = some ((s.lane port lane).preset, (s.lane port lane).presetOvr)) ∧
      (∀ q, q ≠ port → t.port q = s.port q) ∧ t.threads = s.threads)) ∧
  (∀ (s : State) (port : Nat) (pr : LaneProc), port < 49 → (s.port port).lanProc = some pr → s.alive = true →
    s.rooster.slot = 0 → (s.port port).active = true → pr.current = none → pr.waited < 64 → pr.todo = [] →
    exec (.laneChangeStep port) s = .next (s.modPort port (fun q => { q with
      lanProc := none, linkReach := match q.caps with | some c => max q.reach c.reach | none => q.linkReach }))) ∧
  (∀ (s : State) (port l j : Nat) (rest : List Nat) (pr : LaneProc), port < 49 → (s.port port).lanProc = some pr →
    s.alive = true → s.rooster.slot = 0 → (s.port port).active = true → pr.current = none → pr.waited < 64 →
    pr.todo = l :: rest → s.laneSpare port l = true → s.physOf port l = some j → (s.lane port j).st ≠ .standby →
    Gives (.laneChangeStep port) s (fun t =>
      (t.port port).healthyIn = (s.port port).healthyIn &&& ~~~laneBit l ∧
      (t.port port).healthyOut = (s.port port).healthyOut &&& ~~~laneBit l ∧
      (t.port port).lanProc = some { pr with todo := rest, current := some j, waited := 0 } ∧
      (∀ q, q ≠ port → t.port q = s.port q) ∧ t.lanes = s.lanes)) ∧
  (∀ (s : State) (port j : Nat) (pr : LaneProc), port < 49 → (s.port port).lanProc = some pr → s.alive = true →
    pr.undoing = false → pr.current = some j → s.laneFailed port j = true →
    Gives (.laneChangeTimeout port) s (fun t => (∃ back, (t.port port).lanProc = some back ∧ back.todo = pr.done ∧
        back.undoing = true ∧ back.newReach = pr.oldReach) ∧ (t.port port).reach = pr.oldReach ∧
      t.ctr (portCtr port pkLaneChangeFail) =
        satAdd (portCtr port pkLaneChangeFail) (s.ctr (portCtr port pkLaneChangeFail)) 1 ∧
      (∀ k, pr.slot = some k → (t.gateSlot k).status = 11 ∧ (t.gateSlot k).detail = 0x30)))

/-- Registers (R9, R10, R464, R474): the lower half of a 64-bit register staged on a write until the upper half commits the
whole, or 0 in its place on a path that has written none; the upper half latched on a read of the lower, and answered by every
read of it until the path latches another, or 0 where it has latched none; a read of 8 bytes whole; a read of any other size 0;
a write to a gate-only register counted and without effect; and the snapshot taken by the read of 0x4000. The model's own
readings in it: log 134. -/
def Obligations.RegisterAccess : Prop :=
  (∀ (s : State) (path : Path) (off : Nat) (v : Word) (r : Reg), s.pathOpen path = true → off % 4 = 0 →
    s.regAt path off = some r → r.wide = true →
    exec (.registerWrite path off 4 v) s = .next { s with access := { s.access with
      staged := assocSet s.access.staged (path, off) (BitVec.ofNat 32 (v.toNat % 2 ^ 32)) } }) ∧
  (∀ (s : State) (path : Path) (off : Nat) (v : Word) (r : Reg) (l : BitVec 32), s.pathOpen path = true → off % 4 = 0 →
    s.regAt path off = some r → r.wide = true → s.regAt path (off + 4) = none →
    assoc? s.access.staged (path, off) = some l ∨ (assoc? s.access.staged (path, off) = none ∧ l = 0) →
    exec (.registerWrite path (off + 4) 4 v) s =
      .next (s.commit path r.kind (l.toNat + v.toNat % 2 ^ 32 * 2 ^ 32))) ∧
  (∀ (s : State) (path : Path) (off : Nat) (v : Word) (r : Reg), s.pathOpen path = true → off % 8 = 0 →
    s.regAt path off = some r → r.wide = true →
    exec (.registerWrite path off 8 v) s = .next (s.commit path r.kind v.toNat)) ∧
  (∀ (s : State) (path : Path) (off bytes : Nat) (v : Word),
    (s.pathOpen path = false ∧ s.fw.fatal = false) ∨ (bytes ≠ 4 ∧ bytes ≠ 8) →
    exec (.registerWrite path off bytes v) s = .next s) ∧
  (∀ (s : State) (path : Path) (off : Nat) (v : Word) (r : Reg), s.pathOpen path = true → off % 4 = 0 →
    s.regAt path off = some r → r.wide = false → r.kind = .ga →
    exec (.gaWrite path off 4 v) s = .next (s.bump bypassCtr)) ∧
  (∀ (s : State) (off : Nat) (r : Reg), s.readable .pf = true → off % 4 = 0 → off ≠ 0x4000 → s.regAt .pf off = some r →
    r.wide = true →
    exec (.lowerHalfRead .pf ⟨off, 4⟩) s = .next { s with
      access := { s.access with latched := assocSet s.access.latched (.pf, off) (BitVec.ofNat 32 (r.value / 2 ^ 32)) }
      out := s.out ++ [.mmioRead (BitVec.ofNat 64 (r.value % 2 ^ 32))] }) ∧
  (∀ (s : State) (off : Nat) (r : Reg) (v : BitVec 32), s.readable .pf = true → off % 4 = 0 → s.regAt .pf off = some r →
    r.wide = true → s.regAt .pf (off + 4) = none → off + 4 ≠ 0x4000 →
    assoc? s.access.latched (.pf, off) = some v ∨ (assoc? s.access.latched (.pf, off) = none ∧ v = 0) →
    exec (.lowerHalfRead .pf ⟨off + 4, 4⟩) s =
      .next { s with out := s.out ++ [.mmioRead (BitVec.ofNat 64 v.toNat)] }) ∧
  (∀ (s : State) (off : Nat) (r : Reg), s.readable .pf = true → off % 8 = 0 → off ≠ 0x4000 → s.regAt .pf off = some r →
    r.wide = true →
    exec (.lowerHalfRead .pf ⟨off, 8⟩) s = .next { s with out := s.out ++ [.mmioRead (BitVec.ofNat 64 r.value)] }) ∧
  (∀ (s : State) (path : Path) (off bytes : Nat), path ≠ .smbus → bytes ≠ 4 → bytes ≠ 8 →
    exec (.lowerHalfRead path ⟨off, bytes⟩) s = .next { s with out := s.out ++ [.mmioRead 0] }) ∧
  (∀ s : State, s.readable .pf = false → exec (.seqSnapshotRead .pf) s = .next { s with out := s.out ++ [.mmioRead 0] }) ∧
  (∀ s : State, s.readable .pf = true →
    Gives (.seqSnapshotRead .pf) s (fun t => t.access.snapshot = some s.seqNow ∧
      (∃ v, t.out = s.out ++ [.mmioRead v]) ∧ t.threads = s.threads ∧ t.ports = s.ports ∧ t.counters = s.counters))

/-- A step takes the command at the front of the queue and runs it on the rest; the queue is empty after reset. On an empty
queue the block idles for one nanosecond (the model's choice, log 2). The model's own readings in it: log 1 and 2. -/
def Obligations.StepRunsTheFrontCommand : Prop :=
  (∀ (c : Instr) (rest : List Instr) (s : State), s.pending = c :: rest → step s = exec c { s with pending := rest }) ∧
  (∀ (c : Instr) (s : State), step (s.pushFront c) = exec c s) ∧
  (∀ s : State, s.pending = [] → step s = .next { s with time := s.time + 1 }) ∧
  State.reset.pending = [] ∧ core.step = step ∧ core.reset = State.reset

/-- After reset (Table 19.1, R484, Tables 20.2-21.10): Dolmo is in cold reset and not READY; every counter is 0; Rooster is
FREE with 2,048 slots, HOPS 255 and no parent; no thread has a plan; the twin is UNPAIRED; no epoch table is written; every
gate slot is idle; the depot holds zeros, in canonical form; and no context, queue, engine owner or stored frame exists.
The model's own readings in it: log 10, 14 and 142. -/
def Obligations.ResetState : Prop :=
  let s := State.reset
  s.power.coldReset = true ∧ s.power.ready = false ∧ s.power.mgmtCause = 0 ∧ s.power.numVfs = 0 ∧
  (∀ i, s.ctr i = 0) ∧
  s.rooster.st = .free ∧ s.rooster.slots = 2048 ∧ s.rooster.tickNo = 0 ∧ s.rooster.parent = none ∧ s.rooster.hops = 255 ∧
  (∀ p, (s.thread p).st = .empty ∧ ∀ r, (s.thread p).reg r = 0) ∧
  s.twin.st = .unpaired ∧ s.epoch.current = 0 ∧ s.epoch.armed = none ∧ s.epoch.split = false ∧ (∀ p, s.planOf p = none) ∧
  (∀ k, (s.gateSlot k).pending = false ∧ (s.gateSlot k).status = 0) ∧ s.gate.queue = [] ∧ s.gate.drains = [] ∧
  s.memOk ∧ (∀ a, memGet s.depot.mem a = 0) ∧ (∀ c, s.ctx? c = none) ∧ (∀ q, s.queue? q = none) ∧
  (∀ e, (s.engine e).owner = none) ∧
  (∀ n, s.descs.get? n = none) ∧ s.fw.muleUp = false ∧ s.fw.keys = []

/-- Every command that names objects the part has completes, whatever the state; one that names an object the part has not is
no command of this hardware, and faults (the model's choice, log 6). The model's own readings in it: log 6. -/
def Obligations.WellFormedCommandsComplete : Prop :=
  (∀ (c : Instr) (s : State), c.wf = true → ∃ t, exec c s = .next t) ∧
  (∀ (c : Instr) (s : State), c.wf = false → ∃ f, exec c s = .fault f)

/-- Guand words written out from Tables 10.1 to 10.14 decode to the instructions they stand for; a reserved bit that is not
0, a reserved opcode and a word of all zeros decode to none (R259). -/
def Obligations.GuandWordsDecode : Prop :=
  guandDecode 7 0x0100400000000000 0 = some (.nop 7 ⟨0x10, 0, false⟩) ∧
  guandDecode 7 0x0200001C48D00000 0 = some (.br 7 ⟨0, 0, false⟩ 3 true 0x1234) ∧
  guandDecode 7 0x060000153FFFFFFF 0 = some (.cmp 7 ⟨0, 0, false⟩ 2 5 7 true 0 0x3FFFFFF) ∧
  guandDecode 7 0x1000000221800000 0 = some (.add 7 ⟨0, 0, false⟩ 1 2 3) ∧
  guandDecode 7 0x220015485FFFFFFF 0 = some (.addi 7 ⟨5, 2, true⟩ 4 5 0xFFFFFFF) ∧
  guandDecode 7 0x3000000C7E000008 0 = some (.ld 7 ⟨0, 0, false⟩ 6 7 3 true 8) ∧
  guandDecode 7 0x3600000000000001 0 = some (.fenceTick 7 ⟨0, 0, false⟩) ∧
  guandDecode 7 0x4100243001900A00 0x088647FFC5000000 =
    some (.send 7 ⟨9, 0, false⟩ 48 100 2 true 0 1 2 3 4 4095 true false 5) ∧
  guandDecode 7 0x5200000622800400 0 = some (.tacc 7 ⟨0, 0, false⟩ 3 4 2 8 1) ∧
  guandDecode 7 0x5300003FFF0C8443 0x0060014000090000 =
    some (.emit 7 ⟨0, 0, false⟩ 31 7 63 1 4 true 1 2 3 96 5 9) ∧
  guandDecode 7 0x1000000221800001 0 = none ∧ guandDecode 7 0x0900000000000000 0 = none ∧
  (∀ p x, guandDecode p 0 x = none)

/-- DECODE AND ENCODE AGREE: every Guand instruction is read back from its own words with every field at every value, and a
word is read as an instruction only where the instruction's words are exactly those read, reserved bits 0 (R259, Tables
10.1-10.14). A CMP spells RB or IMM26, and the other is 0. -/
def Obligations.GuandDecodesItsWords : Prop :=
  (∀ (i : Instr) (p : Nat) (w x : Word) (e : Option Word), guandOf i = some p → guandEncode i = some (w, e) →
    (∀ b, e = some b → x = b) →
    (∀ q h pd cond ra imm rb imm26, i = .cmp q h pd cond ra imm rb imm26 →
      (imm = true → rb = 0) ∧ (imm = false → imm26 = 0)) →
    guandDecode p w x = some i) ∧
  (∀ (p : Nat) (w x : Word) (i : Instr), guandDecode p w x = some i →
    guandOf i = some p ∧ (guandEncode i = some (w, none) ∨ guandEncode i = some (w, some x)) ∧
    (guandLen i = 2 → guandEncode i = some (w, some x)))

/-- The order in which contributions reach a lane makes no difference to its value, its special bits or its group's count
(R51, R52, R54, R55): for every form, operation and signedness, with magnitudes as the form bounds them. -/
def Obligations.TallyOrderMakesNoDifference : Prop :=
  (∀ (fm : Form) (op : Oper) (sgn : Bool) (l : LaneVal) (xs ys : List (LaneVal × Bool)), xs.Perm ys →
    (∀ c ∈ xs, c.1.v.natAbs < 2 ^ fm.valueBits) →
    xs.foldl (fun a c => combineLane fm op sgn a c.1 c.2) l = ys.foldl (fun a c => combineLane fm op sgn a c.1 c.2) l) ∧
  (∀ (fm : Form) (k : Cnt) (xs ys : List Cnt), xs.Perm ys →
    xs.foldl (addCnt fm) k = ys.foldl (addCnt fm) k)

/-- An invariant that every step keeps, from every state that meets it: the depot's memory stays in its canonical form, and
no counter passes the value at which it saturates (R11, R467). The model's own readings in it: log 142. -/
def Obligations.StepKeepsTheInvariant : Prop :=
  ∀ s t : State, s.memOk → (∀ i, (s.ctr i).toNat ≤ ctrMax i) → step s = .next t →
    t.memOk ∧ ∀ i, (t.ctr i).toNat ≤ ctrMax i

/-- What no step takes back, from any state: what has left the package stays sent, in its order; the fused MIN_SVN never
falls, not even at a cold reset (R375); only the command at the front leaves the queue; and no free value is given twice.
The model's own readings in it: log 1, 8 and 16. -/
def Obligations.NothingIsTakenBack : Prop :=
  ∀ s t : State, step s = .next t →
    s.out <+: t.out ∧ s.fw.minSvn ≤ t.fw.minSvn ∧ t.pending = s.pending.tail ∧ s.free ≤ t.free

/-- When counters clear (R484, R441): those of the device, the dies, the engines, the ports, the lanes and the partitions
only rise, but for a cold reset, which clears every counter; those of a context fall only when a context is created under a
number that none had, which clears them, and those of a QID only when a queue is enabled on it, which clears them. So a
destroyed context or a disabled queue keeps its counts. -/
def Obligations.CountersClearOnlyWhenSaid : Prop :=
  (∀ (c : Instr) (s t : State), c ≠ .coldRstNLow → c ≠ .pwrgoodLow → c ≠ .refclkLoss → c ≠ .railUndervoltage →
    exec c s = .next t →
    (∀ i, i < ctxCtr 0 0 → (s.ctr i).toNat ≤ (t.ctr i).toNat) ∧
    (∀ x k, x < 1024 → k < 2 ^ 16 → (t.ctr (ctxCtr x k)).toNat < (s.ctr (ctxCtr x k)).toNat →
      s.ctx? x = none ∧ ∃ v, t.ctx? x = some v) ∧
    (∀ q, q < 4096 → (t.ctr (queueCtr q)).toNat < (s.ctr (queueCtr q)).toNat →
      s.queue? q = none ∧ ∃ v, t.queue? q = some v)) ∧
  (∀ (c : Instr) (s t : State) (i : Nat), c = .coldRstNLow ∨ c = .pwrgoodLow ∨ c = .refclkLoss ∨ c = .railUndervoltage →
    exec c s = .next t → t.ctr i = 0) ∧
  (∀ (s t : State) (slot p x k : Nat), s.serveReq slot (.ctxCreate p x) = .ok t → k < blockCounters 6 →
    t.ctr (ctxCtr x k) = 0) ∧
  (∀ (s t : State) (path : Path) (c k qid : Nat) (cfg : Word), exec (.queueEnable path c k cfg) s = .next t →
    s.queue? qid = none → t.queue? qid ≠ none → t.ctr (queueCtr qid) = 0)
end

