-- ==== Sys2Proof/Laws/Tables.lean ====
section
/-! SUPPORT. Reading a sparse table after a write of it: the entry written reads back, every other reads as before. -/

namespace Sys2Proof

variable {α κ : Type}

@[simp] theorem Tbl.get?_set_self (t : Tbl α) (k : Nat) (v : α) : (t.set k v).get? k = some v := by
  induction t with
  | nil => simp [Tbl.set, Tbl.get?]
  | cons e t ih =>
    obtain ⟨j, w⟩ := e
    simp only [Tbl.set]
    split
    · simp [Tbl.get?]
    · split
      · simp [Tbl.get?]
      · rename_i h; simp [Tbl.get?, h, ih]

@[simp] theorem Tbl.get?_set_ne (t : Tbl α) {k i : Nat} (v : α) (h : i ≠ k) : (t.set k v).get? i = t.get? i := by
  induction t with
  | nil => simp [Tbl.set, Tbl.get?, h]
  | cons e t ih =>
    obtain ⟨j, w⟩ := e
    simp only [Tbl.set]
    split
    · simp [Tbl.get?, h]
    · split
      · rename_i hk; subst hk; simp [Tbl.get?, h]
      · simp [Tbl.get?, ih]

theorem Tbl.get?_set (t : Tbl α) (k i : Nat) (v : α) : (t.set k v).get? i = if i = k then some v else t.get? i := by
  split
  · rename_i h; subst h; simp
  · rename_i h; simp [h]

@[simp] theorem Tbl.get?_erase_self (t : Tbl α) (k : Nat) : (t.erase k).get? k = none := by
  induction t with
  | nil => rfl
  | cons e t ih =>
    obtain ⟨j, w⟩ := e
    by_cases h : j = k
    · simpa [Tbl.erase, h] using ih
    · simp only [Tbl.erase, List.filter_cons, h, ne_eq, not_false_eq_true, decide_true, if_true, Tbl.get?, if_neg (Ne.symm h)]
      exact ih

@[simp] theorem Tbl.get?_erase_ne (t : Tbl α) {k i : Nat} (h : i ≠ k) : (t.erase k).get? i = t.get? i := by
  induction t with
  | nil => rfl
  | cons e t ih =>
    obtain ⟨j, w⟩ := e
    by_cases hj : j = k
    · have : i ≠ j := by rw [hj]; exact h
      simp only [Tbl.get?, if_neg this]
      simpa [Tbl.erase, hj] using ih
    · simp only [Tbl.erase, List.filter_cons, hj, ne_eq, not_false_eq_true, decide_true, if_true, Tbl.get?]
      split
      · rfl
      · exact ih

@[simp] theorem Tbl.getD_set_self (t : Tbl α) (k : Nat) (v d : α) : (t.set k v).getD k d = v := by simp [Tbl.getD]

@[simp] theorem Tbl.getD_set_ne (t : Tbl α) {k i : Nat} (v d : α) (h : i ≠ k) : (t.set k v).getD i d = t.getD i d := by
  simp [Tbl.getD, h]

@[simp] theorem Tbl.getD_nil (k : Nat) (d : α) : Tbl.getD [] k d = d := rfl

/-- An entry that is listed is a member of the table. -/
theorem Tbl.mem_of_get? {t : Tbl α} {k : Nat} {v : α} (h : t.get? k = some v) : (k, v) ∈ t := by
  induction t with
  | nil => simp [Tbl.get?] at h
  | cons e t ih =>
    obtain ⟨j, w⟩ := e
    simp only [Tbl.get?] at h
    split at h
    · rename_i hk; simp_all
    · exact List.mem_cons_of_mem _ (ih h)

/-! ### Lists keyed by any type -/

@[simp] theorem assoc?_set_self [DecidableEq κ] (t : List (κ × α)) (k : κ) (v : α) : assoc? (assocSet t k v) k = some v := by
  induction t with
  | nil => simp [assocSet, assoc?]
  | cons e t ih =>
    obtain ⟨j, w⟩ := e
    simp only [assocSet]
    split
    · simp [assoc?]
    · rename_i h; simp [assoc?, h, ih]

@[simp] theorem assoc?_set_ne [DecidableEq κ] (t : List (κ × α)) {k i : κ} (v : α) (h : i ≠ k) :
    assoc? (assocSet t k v) i = assoc? t i := by
  induction t with
  | nil => simp [assocSet, assoc?, h]
  | cons e t ih =>
    obtain ⟨j, w⟩ := e
    simp only [assocSet]
    split
    · rename_i hk; subst hk; simp [assoc?, h]
    · simp [assoc?, ih]

@[simp] theorem assoc?_erase_self [DecidableEq κ] (t : List (κ × α)) (k : κ) : assoc? (assocErase t k) k = none := by
  induction t with
  | nil => rfl
  | cons e t ih =>
    obtain ⟨j, w⟩ := e
    by_cases h : j = k
    · simpa [assocErase, h] using ih
    · simp only [assocErase, List.filter_cons, h, ne_eq, not_false_eq_true, decide_true, if_true, assoc?, if_neg (Ne.symm h)]
      exact ih

@[simp] theorem assoc?_erase_ne [DecidableEq κ] (t : List (κ × α)) {k i : κ} (h : i ≠ k) :
    assoc? (assocErase t k) i = assoc? t i := by
  induction t with
  | nil => rfl
  | cons e t ih =>
    obtain ⟨j, w⟩ := e
    by_cases hj : j = k
    · have : i ≠ j := by rw [hj]; exact h
      simp only [assoc?, if_neg this]
      simpa [assocErase, hj] using ih
    · simp only [assocErase, List.filter_cons, hj, ne_eq, not_false_eq_true, decide_true, if_true, assoc?]
      split
      · rfl
      · exact ih

/-! ### The lowest free number -/

theorem lowestFree_spec {used : List Nat} {i n k : Nat} (h : lowestFree used i n = some k) :
    i ≤ k ∧ k < i + n ∧ k ∉ used ∧ ∀ j, i ≤ j → j < k → j ∈ used := by
  induction n generalizing i with
  | zero => simp [lowestFree] at h
  | succ n ih =>
    simp only [lowestFree] at h
    split at h
    · rename_i hm
      obtain ⟨a, b, c, d⟩ := ih h
      refine ⟨by omega, by omega, c, fun j h1 h2 => ?_⟩
      by_cases e : j = i
      · exact e ▸ hm
      · exact d j (by omega) h2
    · rename_i hm
      cases h
      exact ⟨Nat.le_refl _, by omega, hm, fun j h1 h2 => by omega⟩

end Sys2Proof
end

