-- ==== Sys2Proof/Laws/Counters.lean ====
section
/-! SUPPORT. Counting (R11): what a counter holds after it, and that no count falls or passes its limit. -/

namespace Sys2Proof.Machine

theorem ctrMax_lt (i : Nat) : ctrMax i < 2 ^ 64 := by unfold ctrMax; split <;> omega

theorem satAdd_toNat (i n : Nat) (v : Word) : (satAdd i v n).toNat = min (ctrMax i) (v.toNat + n) := by
  have := ctrMax_lt i
  simp only [satAdd, BitVec.toNat_ofNat]
  exact Nat.mod_eq_of_lt (by omega)

/-- A counter never passes its all-ones value. -/
theorem satAdd_le_max (i n : Nat) (v : Word) : (satAdd i v n).toNat ≤ ctrMax i := by rw [satAdd_toNat]; omega

/-- A counter within its limit never falls. -/
theorem le_satAdd (i n : Nat) (v : Word) (h : v.toNat ≤ ctrMax i) : v.toNat ≤ (satAdd i v n).toNat := by
  rw [satAdd_toNat]; omega

theorem ctr_count_self (s : State) (i n : Nat) (h : n ≠ 0) : (s.count i n).ctr i = satAdd i (s.ctr i) n := by
  simp only [State.count, if_neg h, State.ctr, Tbl.getD_set_self]

@[simp] theorem ctr_bump_self (s : State) (i : Nat) : (s.bump i).ctr i = satAdd i (s.ctr i) 1 :=
  ctr_count_self s i 1 (by decide)

@[simp] theorem ctr_count_ne (s : State) {i j : Nat} (n : Nat) (h : j ≠ i) : (s.count i n).ctr j = s.ctr j := by
  simp only [State.count]
  split
  · rfl
  · simp only [State.ctr, Tbl.getD_set_ne _ _ _ h]

@[simp] theorem ctr_bump_ne (s : State) {i j : Nat} (h : j ≠ i) : (s.bump i).ctr j = s.ctr j := ctr_count_ne s 1 h

/-- Counting keeps every counter within its limit. -/
theorem count_within (s : State) (i n : Nat) (h : ∀ j, (s.ctr j).toNat ≤ ctrMax j) (j : Nat) :
    ((s.count i n).ctr j).toNat ≤ ctrMax j := by
  by_cases e : j = i
  · subst e
    by_cases z : n = 0
    · simp only [State.count, if_pos z]; exact h j
    · rw [ctr_count_self s j n z]; exact satAdd_le_max j n _
  · rw [ctr_count_ne s n e]; exact h j

/-- Counting lets no counter within its limit fall. -/
theorem count_rises (s : State) (i n j : Nat) (h : (s.ctr j).toNat ≤ ctrMax j) :
    (s.ctr j).toNat ≤ ((s.count i n).ctr j).toNat := by
  by_cases e : j = i
  · subst e
    by_cases z : n = 0
    · simp only [State.count, if_pos z]; exact Nat.le_refl _
    · rw [ctr_count_self s j n z]; exact le_satAdd j n _ h
  · exact Nat.le_of_eq (by rw [ctr_count_ne s n e])

/-- Clearing a block's counters gives 0 there and leaves every other counter. -/
theorem ctr_clearCtrs (s : State) (base n i : Nat) :
    (s.clearCtrs base n).ctr i = if base ≤ i ∧ i < base + n then 0 else s.ctr i := by
  simp only [State.clearCtrs, State.ctr, Tbl.getD]
  induction s.counters with
  | nil => simp [Tbl.get?]
  | cons e t ih =>
    obtain ⟨j, w⟩ := e
    by_cases hj : base ≤ j ∧ j < base + n
    · rw [List.filter_cons_of_neg (by simp [hj]), ih]
      split
      · rfl
      · rename_i hi
        simp only [Tbl.get?]
        rw [if_neg (by rintro rfl; exact hi hj)]
    · rw [List.filter_cons_of_pos (by simp; omega)]
      simp only [Tbl.get?]
      by_cases hi : i = j
      · subst hi; simp [hj]
      · simp only [if_neg hi]; exact ih

/-- Indices of different counters differ: the block, the instance and K are read back from the index. -/
theorem ctrIndex_inj {b i k b' i' k' : Nat} (hi : i < 2 ^ 12) (hi' : i' < 2 ^ 12) (hk : k < 2 ^ 16) (hk' : k' < 2 ^ 16)
    (h : ctrIndex b i k = ctrIndex b' i' k') : b = b' ∧ i = i' ∧ k = k' := by
  simp only [ctrIndex] at h
  omega

end Sys2Proof.Machine
end

