-- ==== Sys2Proof/Laws/LineCode.lean ====
section
/-! SUPPORT. What a receiver of the line code takes off is what the sender put on: the scrambling, the Gray code of the levels
and the stuffed symbols. -/

namespace Sys2Proof.Machine

/-- The same procedure takes the scrambling off. -/
theorem scramble_scramble (s : BitVec 33) (l : List Bool) : scramble s (scramble s l) = l := by
  induction l generalizing s with
  | nil => rfl
  | cons d t ih => simp [scramble, ih]

theorem scramble_length (s : BitVec 33) (l : List Bool) : (scramble s l).length = l.length := by
  induction l generalizing s with
  | nil => rfl
  | cons d t ih => simp [scramble, ih]

/-- A level gives back the bits that it was made of. -/
@[simp] theorem levelBits_grayLevel (b0 b1 : Bool) : levelBits (grayLevel b0 b1) = [b0, b1] := by
  cases b0 <;> cases b1 <;> rfl

/-- An inverted lane shows an inverted level as it was sent. -/
@[simp] theorem flipLevel_flipLevel (x : Level) : flipLevel (flipLevel x) = x := by revert x; decide

/-- The stuffed symbols come out again, each as expected, whatever follows. -/
theorem unstuff_stuff (p : Option Level) (r : Nat) (l rest : List Level) :
    unstuff p r l.length (stuff p r l ++ rest) = (l, 0) := by
  induction l generalizing p r with
  | nil => rfl
  | cons x t ih =>
    by_cases h : runAfter p r x = 15
    · simp [stuff, unstuff, h, ih]
    · simp [stuff, unstuff, h, ih]

end Sys2Proof.Machine
end

