-- ==== Sys2Proof/Laws/Memory.lean ====
section
/-! SUPPORT. The depot's memory: what a read gives after each operation, and that each keeps the canonical form. -/

namespace Sys2Proof.Machine

/-- In canonical form from `lo` on, what lies below `lo` is not listed. -/
theorem memGet_below {lo : Nat} {m : List Host.Cell} (h : memOk lo m = true) {k : Nat} (hk : k < lo) : memGet m k = 0 := by
  cases m with
  | nil => rfl
  | cons c t =>
    obtain ⟨a, b⟩ := c
    simp only [memOk, Bool.and_eq_true, decide_eq_true_eq] at h
    simp only [memGet]
    rw [if_neg (by omega), if_pos (by omega)]

theorem memOk_mono {lo lo' : Nat} {m : List Host.Cell} (h : memOk lo m = true) (hl : lo' ≤ lo) : memOk lo' m = true := by
  cases m with
  | nil => rfl
  | cons c t =>
    obtain ⟨a, b⟩ := c
    simp only [memOk, Bool.and_eq_true, decide_eq_true_eq] at h ⊢
    exact ⟨⟨by omega, h.1.2⟩, h.2⟩

/-! ### One byte -/

theorem memGet_memSet {lo : Nat} {m : List Host.Cell} (h : memOk lo m = true) (k i : Nat) (v : Byte) :
    memGet (memSet m k v) i = if i = k then v else memGet m i := by
  induction m generalizing lo with
  | nil =>
    simp only [memSet]
    split
    · rename_i hv; split <;> simp [memGet, hv]
    · simp [memGet]
  | cons c t ih =>
    obtain ⟨a, b⟩ := c
    have h' := h
    simp only [memOk, Bool.and_eq_true, decide_eq_true_eq] at h
    obtain ⟨⟨h1, h2⟩, h3⟩ := h
    have below : ∀ j, j < a + 1 → memGet t j = 0 := fun j hj => memGet_below h3 hj
    simp only [memSet]
    split
    · rename_i hka
      split
      · rename_i hv
        split
        · rename_i hi; rw [hi, hv]; simp only [memGet]; rw [if_neg (by omega), if_pos hka]
        · rfl
      · by_cases hi : i = k
        · simp [memGet, hi]
        · simp only [memGet, if_neg hi]
          split
          · rename_i hlt
            rw [if_neg (by omega), if_pos (by omega)]
          · rfl
    · split
      · rename_i hnk hka
        subst hka
        split
        · rename_i hv
          by_cases hi : i = k
          · rw [if_pos hi, hi, hv]; exact below k (by omega)
          · rw [if_neg hi]; simp only [memGet, if_neg hi]
            split
            · rename_i hlt; exact below i (by omega)
            · rfl
        · by_cases hi : i = k
          · simp [memGet, hi]
          · simp only [memGet, if_neg hi]
      · rename_i hn hne
        simp only [memGet]
        by_cases hi : i = a
        · rw [if_pos hi, if_neg (by omega), if_pos hi]
        · rw [if_neg hi, if_neg hi]
          split
          · rename_i hlt; rw [if_neg (by omega)]
          · exact ih h3

theorem memOk_memSet {lo : Nat} {m : List Host.Cell} (h : memOk lo m = true) (k : Nat) (hk : lo ≤ k) (v : Byte) :
    memOk lo (memSet m k v) = true := by
  induction m generalizing lo with
  | nil =>
    simp only [memSet]
    split
    · rfl
    · rename_i hv; simp only [memOk, Bool.and_eq_true, decide_eq_true_eq]; exact ⟨⟨hk, by simpa using hv⟩, trivial⟩
  | cons c t ih =>
    obtain ⟨a, b⟩ := c
    have h' := h
    simp only [memOk, Bool.and_eq_true, decide_eq_true_eq] at h
    obtain ⟨⟨h1, h2⟩, h3⟩ := h
    simp only [memSet]
    split
    · rename_i hka
      split
      · exact h'
      · rename_i hv
        simp only [memOk, Bool.and_eq_true, decide_eq_true_eq]
        exact ⟨⟨hk, by simpa using hv⟩, ⟨by omega, h2⟩, h3⟩
    · split
      · rename_i hka
        split
        · exact memOk_mono h3 (by omega)
        · rename_i hv
          simp only [memOk, Bool.and_eq_true, decide_eq_true_eq]
          exact ⟨⟨hk, by simpa using hv⟩, by rw [hka]; exact h3⟩
      · simp only [memOk, Bool.and_eq_true, decide_eq_true_eq]
        exact ⟨⟨h1, h2⟩, ih h3 (by omega)⟩

/-- A write of one byte keeps the canonical form. -/
theorem wf_memSet {m : List Host.Cell} (h : Memory.wf m = true) (k : Nat) (v : Byte) : Memory.wf (memSet m k v) = true :=
  memOk_memSet h k (Nat.zero_le _) v

/-! ### Many bytes -/

/-- A write of bytes keeps the canonical form. -/
theorem wf_memWrite {m : List Host.Cell} (h : Memory.wf m = true) (k : Nat) (d : List Byte) : Memory.wf (memWrite m k d) = true := by
  induction d generalizing m k with
  | nil => exact h
  | cons b d ih => exact ih (wf_memSet h k b) (k + 1)

/-- After a write the bytes written read back, and every other byte reads as before. -/
theorem memGet_memWrite {m : List Host.Cell} (h : Memory.wf m = true) (k i : Nat) (d : List Byte) :
    memGet (memWrite m k d) i = if k ≤ i ∧ i < k + d.length then d.getD (i - k) 0 else memGet m i := by
  induction d generalizing m k with
  | nil => simp only [memWrite, List.length_nil]; rw [if_neg (by omega)]
  | cons b d ih =>
    simp only [memWrite, List.length_cons]
    rw [ih (wf_memSet h k b) (k + 1), memGet_memSet h]
    by_cases hi : i = k
    · subst hi
      rw [if_neg (by omega), if_pos rfl, if_pos (by omega), Nat.sub_self]; rfl
    · rw [if_neg hi]
      by_cases hr : k + 1 ≤ i ∧ i < k + 1 + d.length
      · rw [if_pos hr, if_pos (by omega)]
        have : i - k = (i - (k + 1)) + 1 := by omega
        rw [this]; rfl
      · rw [if_neg hr, if_neg (by omega)]

theorem memOk_filter {lo : Nat} {m : List Host.Cell} (h : memOk lo m = true) (p : Host.Cell → Bool) :
    memOk lo (m.filter p) = true := by
  induction m generalizing lo with
  | nil => rfl
  | cons c t ih =>
    obtain ⟨a, b⟩ := c
    simp only [memOk, Bool.and_eq_true, decide_eq_true_eq] at h
    simp only [List.filter_cons]
    split
    · simp only [memOk, Bool.and_eq_true, decide_eq_true_eq]; exact ⟨h.1, ih h.2⟩
    · exact memOk_mono (ih h.2) (by omega)

/-- Zeroing a range keeps the canonical form. -/
theorem wf_memZero {m : List Host.Cell} (h : Memory.wf m = true) (k n : Nat) : Memory.wf (memZero m k n) = true :=
  memOk_filter h _

/-- After zeroing a range its bytes read 0, and every other byte reads as before. -/
theorem memGet_memZero {lo : Nat} {m : List Host.Cell} (h : memOk lo m = true) (k n i : Nat) :
    memGet (memZero m k n) i = if k ≤ i ∧ i < k + n then 0 else memGet m i := by
  induction m generalizing lo with
  | nil => simp [memZero, memGet]
  | cons c t ih =>
    obtain ⟨a, b⟩ := c
    simp only [memOk, Bool.and_eq_true, decide_eq_true_eq] at h
    have keep := memOk_filter h.2 (fun c => !(decide (k ≤ c.1) && decide (c.1 < k + n)))
    have tail := ih h.2
    simp only [memZero] at tail ⊢
    by_cases ha : k ≤ a ∧ a < k + n
    · rw [List.filter_cons_of_neg (by simp [ha])]
      rw [tail]
      by_cases hr : k ≤ i ∧ i < k + n
      · rw [if_pos hr, if_pos hr]
      · rw [if_neg hr, if_neg hr]
        simp only [memGet]
        rw [if_neg (by rintro rfl; exact hr ha)]
        split
        · exact memGet_below h.2 (by omega)
        · rfl
    · rw [List.filter_cons_of_pos (by simp; omega)]
      simp only [memGet]
      by_cases hi : i = a
      · subst hi; rw [if_pos rfl, if_pos rfl, if_neg ha]
      · rw [if_neg hi, if_neg hi]
        split
        · split <;> rfl
        · exact tail

/-- A read of `n` bytes gives `n` bytes. -/
@[simp] theorem memRead_length (m : List Host.Cell) (k n : Nat) : (memRead m k n).length = n := by simp [memRead]

/-- Bytes just written read back. -/
theorem memRead_memWrite_self {m : List Host.Cell} (h : Memory.wf m = true) (k : Nat) (d : List Byte) :
    memRead (memWrite m k d) k d.length = d := by
  apply List.ext_getElem
  · simp
  · intro i h1 h2
    simp only [memRead, List.getElem_map, List.getElem_range]
    rw [memGet_memWrite h, if_pos (by omega), Nat.add_sub_cancel_left]
    simp [List.getD, h2]

/-- A read clear of the bytes written gives what it gave before. -/
theorem memRead_memWrite_clear {m : List Host.Cell} (h : Memory.wf m = true) (k : Nat) (d : List Byte) (a n : Nat)
    (hc : a + n ≤ k ∨ k + d.length ≤ a) : memRead (memWrite m k d) a n = memRead m a n := by
  simp only [memRead]
  apply List.map_congr_left
  intro i hi
  rw [List.mem_range] at hi
  rw [memGet_memWrite h, if_neg (by omega)]

/-- An empty memory is in canonical form and reads 0. -/
theorem wf_nil : Memory.wf [] = true := rfl
@[simp] theorem memGet_nil (k : Nat) : memGet [] k = 0 := rfl

/-! ### The depot's operations on the machine -/

/-- Correcting errors changes the errors that are left and the counters, and nothing else. -/
theorem eccCorrect_only (s : State) (a n : Nat) :
    { s.eccCorrect a n with depot := s.depot, counters := s.counters } = s ∧
    { (s.eccCorrect a n).depot with soft := s.depot.soft } = s.depot := by
  simp only [State.eccCorrect, State.count]
  split <;> exact ⟨rfl, rfl⟩

/-- A read of the depot leaves its bytes as they are, and gives them. -/
theorem depotRead_bytes (s : State) (a n : Nat) :
    (s.depotRead a n).2.1 = memRead s.depot.mem a n ∧ (s.depotRead a n).2.2.depot.mem = s.depot.mem := by
  refine ⟨rfl, ?_⟩
  simp only [State.depotRead, State.eccCorrect, State.count]
  split <;> split <;> rfl

/-- One piece of a store either writes its bytes and no others, or writes nothing and answers false. -/
theorem depotPiece_bytes (s : State) (a : Nat) (d : List Byte) :
    ((s.depotPiece a d).1 = true ∧ (s.depotPiece a d).2.depot.mem = memWrite s.depot.mem a d) ∨
    ((s.depotPiece a d).1 = false ∧ (s.depotPiece a d).2.depot.mem = s.depot.mem) := by
  have e (s t : State) (i n : Nat) (h : t.depot.mem = s.depot.mem) : (t.count i n).depot.mem = s.depot.mem := by
    simp only [State.count]; split <;> exact h
  simp only [State.depotPiece]
  split
  · exact .inl ⟨rfl, congrArg (fun m => memWrite m a d) (e s _ _ _ rfl)⟩
  · exact .inr ⟨rfl, e s _ _ _ (e s _ _ _ rfl)⟩

/-- One piece of a store keeps the canonical form. -/
theorem depotPiece_wf (s : State) (a : Nat) (d : List Byte) (h : Memory.wf s.depot.mem = true) :
    Memory.wf (s.depotPiece a d).2.depot.mem = true := by
  rcases depotPiece_bytes s a d with ⟨-, e⟩ | ⟨-, e⟩ <;> rw [e]
  · exact wf_memWrite h a d
  · exact h

end Sys2Proof.Machine
end

