-- ==== Sys2Proof/Laws/State.lean ====
section
/-! SUPPORT. One lemma for each field and each update of the state: the field an update is of, and those it leaves. -/

namespace Sys2Proof.Machine

/-! ### setPort -/

@[simp] theorem setPort_pending (s : State) (p : Nat) (v : Port) : (s.setPort p v).pending = s.pending := rfl
@[simp] theorem setPort_time (s : State) (p : Nat) (v : Port) : (s.setPort p v).time = s.time := rfl
@[simp] theorem setPort_free (s : State) (p : Nat) (v : Port) : (s.setPort p v).free = s.free := rfl
@[simp] theorem setPort_out (s : State) (p : Nat) (v : Port) : (s.setPort p v).out = s.out := rfl
@[simp] theorem setPort_wire (s : State) (p : Nat) (v : Port) : (s.setPort p v).wire = s.wire := rfl
@[simp] theorem setPort_counters (s : State) (p : Nat) (v : Port) : (s.setPort p v).counters = s.counters := rfl
@[simp] theorem setPort_power (s : State) (p : Nat) (v : Port) : (s.setPort p v).power = s.power := rfl
@[simp] theorem setPort_rooster (s : State) (p : Nat) (v : Port) : (s.setPort p v).rooster = s.rooster := rfl
@[simp] theorem setPort_lanes (s : State) (p : Nat) (v : Port) : (s.setPort p v).lanes = s.lanes := rfl
@[simp] theorem setPort_accts (s : State) (p : Nat) (v : Port) : (s.setPort p v).accts = s.accts := rfl
@[simp] theorem setPort_west (s : State) (p : Nat) (v : Port) : (s.setPort p v).west = s.west := rfl
@[simp] theorem setPort_east (s : State) (p : Nat) (v : Port) : (s.setPort p v).east = s.east := rfl
@[simp] theorem setPort_descs (s : State) (p : Nat) (v : Port) : (s.setPort p v).descs = s.descs := rfl
@[simp] theorem setPort_epoch (s : State) (p : Nat) (v : Port) : (s.setPort p v).epoch = s.epoch := rfl
@[simp] theorem setPort_engines (s : State) (p : Nat) (v : Port) : (s.setPort p v).engines = s.engines := rfl
@[simp] theorem setPort_threads (s : State) (p : Nat) (v : Port) : (s.setPort p v).threads = s.threads := rfl
@[simp] theorem setPort_depot (s : State) (p : Nat) (v : Port) : (s.setPort p v).depot = s.depot := rfl
@[simp] theorem setPort_parts (s : State) (p : Nat) (v : Port) : (s.setPort p v).parts = s.parts := rfl
@[simp] theorem setPort_ctxs (s : State) (p : Nat) (v : Port) : (s.setPort p v).ctxs = s.ctxs := rfl
@[simp] theorem setPort_qslots (s : State) (p : Nat) (v : Port) : (s.setPort p v).qslots = s.qslots := rfl
@[simp] theorem setPort_queues (s : State) (p : Nat) (v : Port) : (s.setPort p v).queues = s.queues := rfl
@[simp] theorem setPort_msgs (s : State) (p : Nat) (v : Port) : (s.setPort p v).msgs = s.msgs := rfl
@[simp] theorem setPort_deadMsgs (s : State) (p : Nat) (v : Port) : (s.setPort p v).deadMsgs = s.deadMsgs := rfl
@[simp] theorem setPort_txs (s : State) (p : Nat) (v : Port) : (s.setPort p v).txs = s.txs := rfl
@[simp] theorem setPort_rxs (s : State) (p : Nat) (v : Port) : (s.setPort p v).rxs = s.rxs := rfl
@[simp] theorem setPort_echoes (s : State) (p : Nat) (v : Port) : (s.setPort p v).echoes = s.echoes := rfl
@[simp] theorem setPort_funcs (s : State) (p : Nat) (v : Port) : (s.setPort p v).funcs = s.funcs := rfl
@[simp] theorem setPort_gate (s : State) (p : Nat) (v : Port) : (s.setPort p v).gate = s.gate := rfl
@[simp] theorem setPort_fw (s : State) (p : Nat) (v : Port) : (s.setPort p v).fw = s.fw := rfl
@[simp] theorem setPort_mule (s : State) (p : Nat) (v : Port) : (s.setPort p v).mule = s.mule := rfl
@[simp] theorem setPort_twin (s : State) (p : Nat) (v : Port) : (s.setPort p v).twin = s.twin := rfl
@[simp] theorem setPort_access (s : State) (p : Nat) (v : Port) : (s.setPort p v).access = s.access := rfl

/-! ### setLane -/

@[simp] theorem setLane_pending (s : State) (p j : Nat) (v : Lane) : (s.setLane p j v).pending = s.pending := rfl
@[simp] theorem setLane_time (s : State) (p j : Nat) (v : Lane) : (s.setLane p j v).time = s.time := rfl
@[simp] theorem setLane_free (s : State) (p j : Nat) (v : Lane) : (s.setLane p j v).free = s.free := rfl
@[simp] theorem setLane_out (s : State) (p j : Nat) (v : Lane) : (s.setLane p j v).out = s.out := rfl
@[simp] theorem setLane_wire (s : State) (p j : Nat) (v : Lane) : (s.setLane p j v).wire = s.wire := rfl
@[simp] theorem setLane_counters (s : State) (p j : Nat) (v : Lane) : (s.setLane p j v).counters = s.counters := rfl
@[simp] theorem setLane_power (s : State) (p j : Nat) (v : Lane) : (s.setLane p j v).power = s.power := rfl
@[simp] theorem setLane_rooster (s : State) (p j : Nat) (v : Lane) : (s.setLane p j v).rooster = s.rooster := rfl
@[simp] theorem setLane_ports (s : State) (p j : Nat) (v : Lane) : (s.setLane p j v).ports = s.ports := rfl
@[simp] theorem setLane_accts (s : State) (p j : Nat) (v : Lane) : (s.setLane p j v).accts = s.accts := rfl
@[simp] theorem setLane_west (s : State) (p j : Nat) (v : Lane) : (s.setLane p j v).west = s.west := rfl
@[simp] theorem setLane_east (s : State) (p j : Nat) (v : Lane) : (s.setLane p j v).east = s.east := rfl
@[simp] theorem setLane_descs (s : State) (p j : Nat) (v : Lane) : (s.setLane p j v).descs = s.descs := rfl
@[simp] theorem setLane_epoch (s : State) (p j : Nat) (v : Lane) : (s.setLane p j v).epoch = s.epoch := rfl
@[simp] theorem setLane_engines (s : State) (p j : Nat) (v : Lane) : (s.setLane p j v).engines = s.engines := rfl
@[simp] theorem setLane_threads (s : State) (p j : Nat) (v : Lane) : (s.setLane p j v).threads = s.threads := rfl
@[simp] theorem setLane_depot (s : State) (p j : Nat) (v : Lane) : (s.setLane p j v).depot = s.depot := rfl
@[simp] theorem setLane_parts (s : State) (p j : Nat) (v : Lane) : (s.setLane p j v).parts = s.parts := rfl
@[simp] theorem setLane_ctxs (s : State) (p j : Nat) (v : Lane) : (s.setLane p j v).ctxs = s.ctxs := rfl
@[simp] theorem setLane_qslots (s : State) (p j : Nat) (v : Lane) : (s.setLane p j v).qslots = s.qslots := rfl
@[simp] theorem setLane_queues (s : State) (p j : Nat) (v : Lane) : (s.setLane p j v).queues = s.queues := rfl
@[simp] theorem setLane_msgs (s : State) (p j : Nat) (v : Lane) : (s.setLane p j v).msgs = s.msgs := rfl
@[simp] theorem setLane_deadMsgs (s : State) (p j : Nat) (v : Lane) : (s.setLane p j v).deadMsgs = s.deadMsgs := rfl
@[simp] theorem setLane_txs (s : State) (p j : Nat) (v : Lane) : (s.setLane p j v).txs = s.txs := rfl
@[simp] theorem setLane_rxs (s : State) (p j : Nat) (v : Lane) : (s.setLane p j v).rxs = s.rxs := rfl
@[simp] theorem setLane_echoes (s : State) (p j : Nat) (v : Lane) : (s.setLane p j v).echoes = s.echoes := rfl
@[simp] theorem setLane_funcs (s : State) (p j : Nat) (v : Lane) : (s.setLane p j v).funcs = s.funcs := rfl
@[simp] theorem setLane_gate (s : State) (p j : Nat) (v : Lane) : (s.setLane p j v).gate = s.gate := rfl
@[simp] theorem setLane_fw (s : State) (p j : Nat) (v : Lane) : (s.setLane p j v).fw = s.fw := rfl
@[simp] theorem setLane_mule (s : State) (p j : Nat) (v : Lane) : (s.setLane p j v).mule = s.mule := rfl
@[simp] theorem setLane_twin (s : State) (p j : Nat) (v : Lane) : (s.setLane p j v).twin = s.twin := rfl
@[simp] theorem setLane_access (s : State) (p j : Nat) (v : Lane) : (s.setLane p j v).access = s.access := rfl

/-! ### setAcct -/

@[simp] theorem setAcct_pending (s : State) (i : Nat) (c : Bool) (v : Acct) : (s.setAcct i c v).pending = s.pending := rfl
@[simp] theorem setAcct_time (s : State) (i : Nat) (c : Bool) (v : Acct) : (s.setAcct i c v).time = s.time := rfl
@[simp] theorem setAcct_free (s : State) (i : Nat) (c : Bool) (v : Acct) : (s.setAcct i c v).free = s.free := rfl
@[simp] theorem setAcct_out (s : State) (i : Nat) (c : Bool) (v : Acct) : (s.setAcct i c v).out = s.out := rfl
@[simp] theorem setAcct_wire (s : State) (i : Nat) (c : Bool) (v : Acct) : (s.setAcct i c v).wire = s.wire := rfl
@[simp] theorem setAcct_counters (s : State) (i : Nat) (c : Bool) (v : Acct) : (s.setAcct i c v).counters = s.counters := rfl
@[simp] theorem setAcct_power (s : State) (i : Nat) (c : Bool) (v : Acct) : (s.setAcct i c v).power = s.power := rfl
@[simp] theorem setAcct_rooster (s : State) (i : Nat) (c : Bool) (v : Acct) : (s.setAcct i c v).rooster = s.rooster := rfl
@[simp] theorem setAcct_ports (s : State) (i : Nat) (c : Bool) (v : Acct) : (s.setAcct i c v).ports = s.ports := rfl
@[simp] theorem setAcct_lanes (s : State) (i : Nat) (c : Bool) (v : Acct) : (s.setAcct i c v).lanes = s.lanes := rfl
@[simp] theorem setAcct_west (s : State) (i : Nat) (c : Bool) (v : Acct) : (s.setAcct i c v).west = s.west := rfl
@[simp] theorem setAcct_east (s : State) (i : Nat) (c : Bool) (v : Acct) : (s.setAcct i c v).east = s.east := rfl
@[simp] theorem setAcct_descs (s : State) (i : Nat) (c : Bool) (v : Acct) : (s.setAcct i c v).descs = s.descs := rfl
@[simp] theorem setAcct_epoch (s : State) (i : Nat) (c : Bool) (v : Acct) : (s.setAcct i c v).epoch = s.epoch := rfl
@[simp] theorem setAcct_engines (s : State) (i : Nat) (c : Bool) (v : Acct) : (s.setAcct i c v).engines = s.engines := rfl
@[simp] theorem setAcct_threads (s : State) (i : Nat) (c : Bool) (v : Acct) : (s.setAcct i c v).threads = s.threads := rfl
@[simp] theorem setAcct_depot (s : State) (i : Nat) (c : Bool) (v : Acct) : (s.setAcct i c v).depot = s.depot := rfl
@[simp] theorem setAcct_parts (s : State) (i : Nat) (c : Bool) (v : Acct) : (s.setAcct i c v).parts = s.parts := rfl
@[simp] theorem setAcct_ctxs (s : State) (i : Nat) (c : Bool) (v : Acct) : (s.setAcct i c v).ctxs = s.ctxs := rfl
@[simp] theorem setAcct_qslots (s : State) (i : Nat) (c : Bool) (v : Acct) : (s.setAcct i c v).qslots = s.qslots := rfl
@[simp] theorem setAcct_queues (s : State) (i : Nat) (c : Bool) (v : Acct) : (s.setAcct i c v).queues = s.queues := rfl
@[simp] theorem setAcct_msgs (s : State) (i : Nat) (c : Bool) (v : Acct) : (s.setAcct i c v).msgs = s.msgs := rfl
@[simp] theorem setAcct_deadMsgs (s : State) (i : Nat) (c : Bool) (v : Acct) : (s.setAcct i c v).deadMsgs = s.deadMsgs := rfl
@[simp] theorem setAcct_txs (s : State) (i : Nat) (c : Bool) (v : Acct) : (s.setAcct i c v).txs = s.txs := rfl
@[simp] theorem setAcct_rxs (s : State) (i : Nat) (c : Bool) (v : Acct) : (s.setAcct i c v).rxs = s.rxs := rfl
@[simp] theorem setAcct_echoes (s : State) (i : Nat) (c : Bool) (v : Acct) : (s.setAcct i c v).echoes = s.echoes := rfl
@[simp] theorem setAcct_funcs (s : State) (i : Nat) (c : Bool) (v : Acct) : (s.setAcct i c v).funcs = s.funcs := rfl
@[simp] theorem setAcct_gate (s : State) (i : Nat) (c : Bool) (v : Acct) : (s.setAcct i c v).gate = s.gate := rfl
@[simp] theorem setAcct_fw (s : State) (i : Nat) (c : Bool) (v : Acct) : (s.setAcct i c v).fw = s.fw := rfl
@[simp] theorem setAcct_mule (s : State) (i : Nat) (c : Bool) (v : Acct) : (s.setAcct i c v).mule = s.mule := rfl
@[simp] theorem setAcct_twin (s : State) (i : Nat) (c : Bool) (v : Acct) : (s.setAcct i c v).twin = s.twin := rfl
@[simp] theorem setAcct_access (s : State) (i : Nat) (c : Bool) (v : Acct) : (s.setAcct i c v).access = s.access := rfl

/-! ### setEngine -/

@[simp] theorem setEngine_pending (s : State) (e : Nat) (v : Engine) : (s.setEngine e v).pending = s.pending := rfl
@[simp] theorem setEngine_time (s : State) (e : Nat) (v : Engine) : (s.setEngine e v).time = s.time := rfl
@[simp] theorem setEngine_free (s : State) (e : Nat) (v : Engine) : (s.setEngine e v).free = s.free := rfl
@[simp] theorem setEngine_out (s : State) (e : Nat) (v : Engine) : (s.setEngine e v).out = s.out := rfl
@[simp] theorem setEngine_wire (s : State) (e : Nat) (v : Engine) : (s.setEngine e v).wire = s.wire := rfl
@[simp] theorem setEngine_counters (s : State) (e : Nat) (v : Engine) : (s.setEngine e v).counters = s.counters := rfl
@[simp] theorem setEngine_power (s : State) (e : Nat) (v : Engine) : (s.setEngine e v).power = s.power := rfl
@[simp] theorem setEngine_rooster (s : State) (e : Nat) (v : Engine) : (s.setEngine e v).rooster = s.rooster := rfl
@[simp] theorem setEngine_ports (s : State) (e : Nat) (v : Engine) : (s.setEngine e v).ports = s.ports := rfl
@[simp] theorem setEngine_lanes (s : State) (e : Nat) (v : Engine) : (s.setEngine e v).lanes = s.lanes := rfl
@[simp] theorem setEngine_accts (s : State) (e : Nat) (v : Engine) : (s.setEngine e v).accts = s.accts := rfl
@[simp] theorem setEngine_west (s : State) (e : Nat) (v : Engine) : (s.setEngine e v).west = s.west := rfl
@[simp] theorem setEngine_east (s : State) (e : Nat) (v : Engine) : (s.setEngine e v).east = s.east := rfl
@[simp] theorem setEngine_descs (s : State) (e : Nat) (v : Engine) : (s.setEngine e v).descs = s.descs := rfl
@[simp] theorem setEngine_epoch (s : State) (e : Nat) (v : Engine) : (s.setEngine e v).epoch = s.epoch := rfl
@[simp] theorem setEngine_threads (s : State) (e : Nat) (v : Engine) : (s.setEngine e v).threads = s.threads := rfl
@[simp] theorem setEngine_depot (s : State) (e : Nat) (v : Engine) : (s.setEngine e v).depot = s.depot := rfl
@[simp] theorem setEngine_parts (s : State) (e : Nat) (v : Engine) : (s.setEngine e v).parts = s.parts := rfl
@[simp] theorem setEngine_ctxs (s : State) (e : Nat) (v : Engine) : (s.setEngine e v).ctxs = s.ctxs := rfl
@[simp] theorem setEngine_qslots (s : State) (e : Nat) (v : Engine) : (s.setEngine e v).qslots = s.qslots := rfl
@[simp] theorem setEngine_queues (s : State) (e : Nat) (v : Engine) : (s.setEngine e v).queues = s.queues := rfl
@[simp] theorem setEngine_msgs (s : State) (e : Nat) (v : Engine) : (s.setEngine e v).msgs = s.msgs := rfl
@[simp] theorem setEngine_deadMsgs (s : State) (e : Nat) (v : Engine) : (s.setEngine e v).deadMsgs = s.deadMsgs := rfl
@[simp] theorem setEngine_txs (s : State) (e : Nat) (v : Engine) : (s.setEngine e v).txs = s.txs := rfl
@[simp] theorem setEngine_rxs (s : State) (e : Nat) (v : Engine) : (s.setEngine e v).rxs = s.rxs := rfl
@[simp] theorem setEngine_echoes (s : State) (e : Nat) (v : Engine) : (s.setEngine e v).echoes = s.echoes := rfl
@[simp] theorem setEngine_funcs (s : State) (e : Nat) (v : Engine) : (s.setEngine e v).funcs = s.funcs := rfl
@[simp] theorem setEngine_gate (s : State) (e : Nat) (v : Engine) : (s.setEngine e v).gate = s.gate := rfl
@[simp] theorem setEngine_fw (s : State) (e : Nat) (v : Engine) : (s.setEngine e v).fw = s.fw := rfl
@[simp] theorem setEngine_mule (s : State) (e : Nat) (v : Engine) : (s.setEngine e v).mule = s.mule := rfl
@[simp] theorem setEngine_twin (s : State) (e : Nat) (v : Engine) : (s.setEngine e v).twin = s.twin := rfl
@[simp] theorem setEngine_access (s : State) (e : Nat) (v : Engine) : (s.setEngine e v).access = s.access := rfl

/-! ### setThread -/

@[simp] theorem setThread_pending (s : State) (p : Nat) (v : Thread) : (s.setThread p v).pending = s.pending := rfl
@[simp] theorem setThread_time (s : State) (p : Nat) (v : Thread) : (s.setThread p v).time = s.time := rfl
@[simp] theorem setThread_free (s : State) (p : Nat) (v : Thread) : (s.setThread p v).free = s.free := rfl
@[simp] theorem setThread_out (s : State) (p : Nat) (v : Thread) : (s.setThread p v).out = s.out := rfl
@[simp] theorem setThread_wire (s : State) (p : Nat) (v : Thread) : (s.setThread p v).wire = s.wire := rfl
@[simp] theorem setThread_counters (s : State) (p : Nat) (v : Thread) : (s.setThread p v).counters = s.counters := rfl
@[simp] theorem setThread_power (s : State) (p : Nat) (v : Thread) : (s.setThread p v).power = s.power := rfl
@[simp] theorem setThread_rooster (s : State) (p : Nat) (v : Thread) : (s.setThread p v).rooster = s.rooster := rfl
@[simp] theorem setThread_ports (s : State) (p : Nat) (v : Thread) : (s.setThread p v).ports = s.ports := rfl
@[simp] theorem setThread_lanes (s : State) (p : Nat) (v : Thread) : (s.setThread p v).lanes = s.lanes := rfl
@[simp] theorem setThread_accts (s : State) (p : Nat) (v : Thread) : (s.setThread p v).accts = s.accts := rfl
@[simp] theorem setThread_west (s : State) (p : Nat) (v : Thread) : (s.setThread p v).west = s.west := rfl
@[simp] theorem setThread_east (s : State) (p : Nat) (v : Thread) : (s.setThread p v).east = s.east := rfl
@[simp] theorem setThread_descs (s : State) (p : Nat) (v : Thread) : (s.setThread p v).descs = s.descs := rfl
@[simp] theorem setThread_epoch (s : State) (p : Nat) (v : Thread) : (s.setThread p v).epoch = s.epoch := rfl
@[simp] theorem setThread_engines (s : State) (p : Nat) (v : Thread) : (s.setThread p v).engines = s.engines := rfl
@[simp] theorem setThread_depot (s : State) (p : Nat) (v : Thread) : (s.setThread p v).depot = s.depot := rfl
@[simp] theorem setThread_parts (s : State) (p : Nat) (v : Thread) : (s.setThread p v).parts = s.parts := rfl
@[simp] theorem setThread_ctxs (s : State) (p : Nat) (v : Thread) : (s.setThread p v).ctxs = s.ctxs := rfl
@[simp] theorem setThread_qslots (s : State) (p : Nat) (v : Thread) : (s.setThread p v).qslots = s.qslots := rfl
@[simp] theorem setThread_queues (s : State) (p : Nat) (v : Thread) : (s.setThread p v).queues = s.queues := rfl
@[simp] theorem setThread_msgs (s : State) (p : Nat) (v : Thread) : (s.setThread p v).msgs = s.msgs := rfl
@[simp] theorem setThread_deadMsgs (s : State) (p : Nat) (v : Thread) : (s.setThread p v).deadMsgs = s.deadMsgs := rfl
@[simp] theorem setThread_txs (s : State) (p : Nat) (v : Thread) : (s.setThread p v).txs = s.txs := rfl
@[simp] theorem setThread_rxs (s : State) (p : Nat) (v : Thread) : (s.setThread p v).rxs = s.rxs := rfl
@[simp] theorem setThread_echoes (s : State) (p : Nat) (v : Thread) : (s.setThread p v).echoes = s.echoes := rfl
@[simp] theorem setThread_funcs (s : State) (p : Nat) (v : Thread) : (s.setThread p v).funcs = s.funcs := rfl
@[simp] theorem setThread_gate (s : State) (p : Nat) (v : Thread) : (s.setThread p v).gate = s.gate := rfl
@[simp] theorem setThread_fw (s : State) (p : Nat) (v : Thread) : (s.setThread p v).fw = s.fw := rfl
@[simp] theorem setThread_mule (s : State) (p : Nat) (v : Thread) : (s.setThread p v).mule = s.mule := rfl
@[simp] theorem setThread_twin (s : State) (p : Nat) (v : Thread) : (s.setThread p v).twin = s.twin := rfl
@[simp] theorem setThread_access (s : State) (p : Nat) (v : Thread) : (s.setThread p v).access = s.access := rfl

/-! ### setPart -/

@[simp] theorem setPart_pending (s : State) (p : Nat) (v : Part) : (s.setPart p v).pending = s.pending := rfl
@[simp] theorem setPart_time (s : State) (p : Nat) (v : Part) : (s.setPart p v).time = s.time := rfl
@[simp] theorem setPart_free (s : State) (p : Nat) (v : Part) : (s.setPart p v).free = s.free := rfl
@[simp] theorem setPart_out (s : State) (p : Nat) (v : Part) : (s.setPart p v).out = s.out := rfl
@[simp] theorem setPart_wire (s : State) (p : Nat) (v : Part) : (s.setPart p v).wire = s.wire := rfl
@[simp] theorem setPart_counters (s : State) (p : Nat) (v : Part) : (s.setPart p v).counters = s.counters := rfl
@[simp] theorem setPart_power (s : State) (p : Nat) (v : Part) : (s.setPart p v).power = s.power := rfl
@[simp] theorem setPart_rooster (s : State) (p : Nat) (v : Part) : (s.setPart p v).rooster = s.rooster := rfl
@[simp] theorem setPart_ports (s : State) (p : Nat) (v : Part) : (s.setPart p v).ports = s.ports := rfl
@[simp] theorem setPart_lanes (s : State) (p : Nat) (v : Part) : (s.setPart p v).lanes = s.lanes := rfl
@[simp] theorem setPart_accts (s : State) (p : Nat) (v : Part) : (s.setPart p v).accts = s.accts := rfl
@[simp] theorem setPart_west (s : State) (p : Nat) (v : Part) : (s.setPart p v).west = s.west := rfl
@[simp] theorem setPart_east (s : State) (p : Nat) (v : Part) : (s.setPart p v).east = s.east := rfl
@[simp] theorem setPart_descs (s : State) (p : Nat) (v : Part) : (s.setPart p v).descs = s.descs := rfl
@[simp] theorem setPart_epoch (s : State) (p : Nat) (v : Part) : (s.setPart p v).epoch = s.epoch := rfl
@[simp] theorem setPart_engines (s : State) (p : Nat) (v : Part) : (s.setPart p v).engines = s.engines := rfl
@[simp] theorem setPart_threads (s : State) (p : Nat) (v : Part) : (s.setPart p v).threads = s.threads := rfl
@[simp] theorem setPart_depot (s : State) (p : Nat) (v : Part) : (s.setPart p v).depot = s.depot := rfl
@[simp] theorem setPart_ctxs (s : State) (p : Nat) (v : Part) : (s.setPart p v).ctxs = s.ctxs := rfl
@[simp] theorem setPart_qslots (s : State) (p : Nat) (v : Part) : (s.setPart p v).qslots = s.qslots := rfl
@[simp] theorem setPart_queues (s : State) (p : Nat) (v : Part) : (s.setPart p v).queues = s.queues := rfl
@[simp] theorem setPart_msgs (s : State) (p : Nat) (v : Part) : (s.setPart p v).msgs = s.msgs := rfl
@[simp] theorem setPart_deadMsgs (s : State) (p : Nat) (v : Part) : (s.setPart p v).deadMsgs = s.deadMsgs := rfl
@[simp] theorem setPart_txs (s : State) (p : Nat) (v : Part) : (s.setPart p v).txs = s.txs := rfl
@[simp] theorem setPart_rxs (s : State) (p : Nat) (v : Part) : (s.setPart p v).rxs = s.rxs := rfl
@[simp] theorem setPart_echoes (s : State) (p : Nat) (v : Part) : (s.setPart p v).echoes = s.echoes := rfl
@[simp] theorem setPart_funcs (s : State) (p : Nat) (v : Part) : (s.setPart p v).funcs = s.funcs := rfl
@[simp] theorem setPart_gate (s : State) (p : Nat) (v : Part) : (s.setPart p v).gate = s.gate := rfl
@[simp] theorem setPart_fw (s : State) (p : Nat) (v : Part) : (s.setPart p v).fw = s.fw := rfl
@[simp] theorem setPart_mule (s : State) (p : Nat) (v : Part) : (s.setPart p v).mule = s.mule := rfl
@[simp] theorem setPart_twin (s : State) (p : Nat) (v : Part) : (s.setPart p v).twin = s.twin := rfl
@[simp] theorem setPart_access (s : State) (p : Nat) (v : Part) : (s.setPart p v).access = s.access := rfl

/-! ### setFunc -/

@[simp] theorem setFunc_pending (s : State) (n : Nat) (v : Func) : (s.setFunc n v).pending = s.pending := rfl
@[simp] theorem setFunc_time (s : State) (n : Nat) (v : Func) : (s.setFunc n v).time = s.time := rfl
@[simp] theorem setFunc_free (s : State) (n : Nat) (v : Func) : (s.setFunc n v).free = s.free := rfl
@[simp] theorem setFunc_out (s : State) (n : Nat) (v : Func) : (s.setFunc n v).out = s.out := rfl
@[simp] theorem setFunc_wire (s : State) (n : Nat) (v : Func) : (s.setFunc n v).wire = s.wire := rfl
@[simp] theorem setFunc_counters (s : State) (n : Nat) (v : Func) : (s.setFunc n v).counters = s.counters := rfl
@[simp] theorem setFunc_power (s : State) (n : Nat) (v : Func) : (s.setFunc n v).power = s.power := rfl
@[simp] theorem setFunc_rooster (s : State) (n : Nat) (v : Func) : (s.setFunc n v).rooster = s.rooster := rfl
@[simp] theorem setFunc_ports (s : State) (n : Nat) (v : Func) : (s.setFunc n v).ports = s.ports := rfl
@[simp] theorem setFunc_lanes (s : State) (n : Nat) (v : Func) : (s.setFunc n v).lanes = s.lanes := rfl
@[simp] theorem setFunc_accts (s : State) (n : Nat) (v : Func) : (s.setFunc n v).accts = s.accts := rfl
@[simp] theorem setFunc_west (s : State) (n : Nat) (v : Func) : (s.setFunc n v).west = s.west := rfl
@[simp] theorem setFunc_east (s : State) (n : Nat) (v : Func) : (s.setFunc n v).east = s.east := rfl
@[simp] theorem setFunc_descs (s : State) (n : Nat) (v : Func) : (s.setFunc n v).descs = s.descs := rfl
@[simp] theorem setFunc_epoch (s : State) (n : Nat) (v : Func) : (s.setFunc n v).epoch = s.epoch := rfl
@[simp] theorem setFunc_engines (s : State) (n : Nat) (v : Func) : (s.setFunc n v).engines = s.engines := rfl
@[simp] theorem setFunc_threads (s : State) (n : Nat) (v : Func) : (s.setFunc n v).threads = s.threads := rfl
@[simp] theorem setFunc_depot (s : State) (n : Nat) (v : Func) : (s.setFunc n v).depot = s.depot := rfl
@[simp] theorem setFunc_parts (s : State) (n : Nat) (v : Func) : (s.setFunc n v).parts = s.parts := rfl
@[simp] theorem setFunc_ctxs (s : State) (n : Nat) (v : Func) : (s.setFunc n v).ctxs = s.ctxs := rfl
@[simp] theorem setFunc_qslots (s : State) (n : Nat) (v : Func) : (s.setFunc n v).qslots = s.qslots := rfl
@[simp] theorem setFunc_queues (s : State) (n : Nat) (v : Func) : (s.setFunc n v).queues = s.queues := rfl
@[simp] theorem setFunc_msgs (s : State) (n : Nat) (v : Func) : (s.setFunc n v).msgs = s.msgs := rfl
@[simp] theorem setFunc_deadMsgs (s : State) (n : Nat) (v : Func) : (s.setFunc n v).deadMsgs = s.deadMsgs := rfl
@[simp] theorem setFunc_txs (s : State) (n : Nat) (v : Func) : (s.setFunc n v).txs = s.txs := rfl
@[simp] theorem setFunc_rxs (s : State) (n : Nat) (v : Func) : (s.setFunc n v).rxs = s.rxs := rfl
@[simp] theorem setFunc_echoes (s : State) (n : Nat) (v : Func) : (s.setFunc n v).echoes = s.echoes := rfl
@[simp] theorem setFunc_gate (s : State) (n : Nat) (v : Func) : (s.setFunc n v).gate = s.gate := rfl
@[simp] theorem setFunc_fw (s : State) (n : Nat) (v : Func) : (s.setFunc n v).fw = s.fw := rfl
@[simp] theorem setFunc_mule (s : State) (n : Nat) (v : Func) : (s.setFunc n v).mule = s.mule := rfl
@[simp] theorem setFunc_twin (s : State) (n : Nat) (v : Func) : (s.setFunc n v).twin = s.twin := rfl
@[simp] theorem setFunc_access (s : State) (n : Nat) (v : Func) : (s.setFunc n v).access = s.access := rfl

/-! ### setCtx -/

@[simp] theorem setCtx_pending (s : State) (c : Nat) (v : Ctx) : (s.setCtx c v).pending = s.pending := rfl
@[simp] theorem setCtx_time (s : State) (c : Nat) (v : Ctx) : (s.setCtx c v).time = s.time := rfl
@[simp] theorem setCtx_free (s : State) (c : Nat) (v : Ctx) : (s.setCtx c v).free = s.free := rfl
@[simp] theorem setCtx_out (s : State) (c : Nat) (v : Ctx) : (s.setCtx c v).out = s.out := rfl
@[simp] theorem setCtx_wire (s : State) (c : Nat) (v : Ctx) : (s.setCtx c v).wire = s.wire := rfl
@[simp] theorem setCtx_counters (s : State) (c : Nat) (v : Ctx) : (s.setCtx c v).counters = s.counters := rfl
@[simp] theorem setCtx_power (s : State) (c : Nat) (v : Ctx) : (s.setCtx c v).power = s.power := rfl
@[simp] theorem setCtx_rooster (s : State) (c : Nat) (v : Ctx) : (s.setCtx c v).rooster = s.rooster := rfl
@[simp] theorem setCtx_ports (s : State) (c : Nat) (v : Ctx) : (s.setCtx c v).ports = s.ports := rfl
@[simp] theorem setCtx_lanes (s : State) (c : Nat) (v : Ctx) : (s.setCtx c v).lanes = s.lanes := rfl
@[simp] theorem setCtx_accts (s : State) (c : Nat) (v : Ctx) : (s.setCtx c v).accts = s.accts := rfl
@[simp] theorem setCtx_west (s : State) (c : Nat) (v : Ctx) : (s.setCtx c v).west = s.west := rfl
@[simp] theorem setCtx_east (s : State) (c : Nat) (v : Ctx) : (s.setCtx c v).east = s.east := rfl
@[simp] theorem setCtx_descs (s : State) (c : Nat) (v : Ctx) : (s.setCtx c v).descs = s.descs := rfl
@[simp] theorem setCtx_epoch (s : State) (c : Nat) (v : Ctx) : (s.setCtx c v).epoch = s.epoch := rfl
@[simp] theorem setCtx_engines (s : State) (c : Nat) (v : Ctx) : (s.setCtx c v).engines = s.engines := rfl
@[simp] theorem setCtx_threads (s : State) (c : Nat) (v : Ctx) : (s.setCtx c v).threads = s.threads := rfl
@[simp] theorem setCtx_depot (s : State) (c : Nat) (v : Ctx) : (s.setCtx c v).depot = s.depot := rfl
@[simp] theorem setCtx_parts (s : State) (c : Nat) (v : Ctx) : (s.setCtx c v).parts = s.parts := rfl
@[simp] theorem setCtx_qslots (s : State) (c : Nat) (v : Ctx) : (s.setCtx c v).qslots = s.qslots := rfl
@[simp] theorem setCtx_queues (s : State) (c : Nat) (v : Ctx) : (s.setCtx c v).queues = s.queues := rfl
@[simp] theorem setCtx_msgs (s : State) (c : Nat) (v : Ctx) : (s.setCtx c v).msgs = s.msgs := rfl
@[simp] theorem setCtx_deadMsgs (s : State) (c : Nat) (v : Ctx) : (s.setCtx c v).deadMsgs = s.deadMsgs := rfl
@[simp] theorem setCtx_txs (s : State) (c : Nat) (v : Ctx) : (s.setCtx c v).txs = s.txs := rfl
@[simp] theorem setCtx_rxs (s : State) (c : Nat) (v : Ctx) : (s.setCtx c v).rxs = s.rxs := rfl
@[simp] theorem setCtx_echoes (s : State) (c : Nat) (v : Ctx) : (s.setCtx c v).echoes = s.echoes := rfl
@[simp] theorem setCtx_funcs (s : State) (c : Nat) (v : Ctx) : (s.setCtx c v).funcs = s.funcs := rfl
@[simp] theorem setCtx_gate (s : State) (c : Nat) (v : Ctx) : (s.setCtx c v).gate = s.gate := rfl
@[simp] theorem setCtx_fw (s : State) (c : Nat) (v : Ctx) : (s.setCtx c v).fw = s.fw := rfl
@[simp] theorem setCtx_mule (s : State) (c : Nat) (v : Ctx) : (s.setCtx c v).mule = s.mule := rfl
@[simp] theorem setCtx_twin (s : State) (c : Nat) (v : Ctx) : (s.setCtx c v).twin = s.twin := rfl
@[simp] theorem setCtx_access (s : State) (c : Nat) (v : Ctx) : (s.setCtx c v).access = s.access := rfl

/-! ### setQueue -/

@[simp] theorem setQueue_pending (s : State) (q : Nat) (v : Queue) : (s.setQueue q v).pending = s.pending := rfl
@[simp] theorem setQueue_time (s : State) (q : Nat) (v : Queue) : (s.setQueue q v).time = s.time := rfl
@[simp] theorem setQueue_free (s : State) (q : Nat) (v : Queue) : (s.setQueue q v).free = s.free := rfl
@[simp] theorem setQueue_out (s : State) (q : Nat) (v : Queue) : (s.setQueue q v).out = s.out := rfl
@[simp] theorem setQueue_wire (s : State) (q : Nat) (v : Queue) : (s.setQueue q v).wire = s.wire := rfl
@[simp] theorem setQueue_counters (s : State) (q : Nat) (v : Queue) : (s.setQueue q v).counters = s.counters := rfl
@[simp] theorem setQueue_power (s : State) (q : Nat) (v : Queue) : (s.setQueue q v).power = s.power := rfl
@[simp] theorem setQueue_rooster (s : State) (q : Nat) (v : Queue) : (s.setQueue q v).rooster = s.rooster := rfl
@[simp] theorem setQueue_ports (s : State) (q : Nat) (v : Queue) : (s.setQueue q v).ports = s.ports := rfl
@[simp] theorem setQueue_lanes (s : State) (q : Nat) (v : Queue) : (s.setQueue q v).lanes = s.lanes := rfl
@[simp] theorem setQueue_accts (s : State) (q : Nat) (v : Queue) : (s.setQueue q v).accts = s.accts := rfl
@[simp] theorem setQueue_west (s : State) (q : Nat) (v : Queue) : (s.setQueue q v).west = s.west := rfl
@[simp] theorem setQueue_east (s : State) (q : Nat) (v : Queue) : (s.setQueue q v).east = s.east := rfl
@[simp] theorem setQueue_descs (s : State) (q : Nat) (v : Queue) : (s.setQueue q v).descs = s.descs := rfl
@[simp] theorem setQueue_epoch (s : State) (q : Nat) (v : Queue) : (s.setQueue q v).epoch = s.epoch := rfl
@[simp] theorem setQueue_engines (s : State) (q : Nat) (v : Queue) : (s.setQueue q v).engines = s.engines := rfl
@[simp] theorem setQueue_threads (s : State) (q : Nat) (v : Queue) : (s.setQueue q v).threads = s.threads := rfl
@[simp] theorem setQueue_depot (s : State) (q : Nat) (v : Queue) : (s.setQueue q v).depot = s.depot := rfl
@[simp] theorem setQueue_parts (s : State) (q : Nat) (v : Queue) : (s.setQueue q v).parts = s.parts := rfl
@[simp] theorem setQueue_ctxs (s : State) (q : Nat) (v : Queue) : (s.setQueue q v).ctxs = s.ctxs := rfl
@[simp] theorem setQueue_qslots (s : State) (q : Nat) (v : Queue) : (s.setQueue q v).qslots = s.qslots := rfl
@[simp] theorem setQueue_msgs (s : State) (q : Nat) (v : Queue) : (s.setQueue q v).msgs = s.msgs := rfl
@[simp] theorem setQueue_deadMsgs (s : State) (q : Nat) (v : Queue) : (s.setQueue q v).deadMsgs = s.deadMsgs := rfl
@[simp] theorem setQueue_txs (s : State) (q : Nat) (v : Queue) : (s.setQueue q v).txs = s.txs := rfl
@[simp] theorem setQueue_rxs (s : State) (q : Nat) (v : Queue) : (s.setQueue q v).rxs = s.rxs := rfl
@[simp] theorem setQueue_echoes (s : State) (q : Nat) (v : Queue) : (s.setQueue q v).echoes = s.echoes := rfl
@[simp] theorem setQueue_funcs (s : State) (q : Nat) (v : Queue) : (s.setQueue q v).funcs = s.funcs := rfl
@[simp] theorem setQueue_gate (s : State) (q : Nat) (v : Queue) : (s.setQueue q v).gate = s.gate := rfl
@[simp] theorem setQueue_fw (s : State) (q : Nat) (v : Queue) : (s.setQueue q v).fw = s.fw := rfl
@[simp] theorem setQueue_mule (s : State) (q : Nat) (v : Queue) : (s.setQueue q v).mule = s.mule := rfl
@[simp] theorem setQueue_twin (s : State) (q : Nat) (v : Queue) : (s.setQueue q v).twin = s.twin := rfl
@[simp] theorem setQueue_access (s : State) (q : Nat) (v : Queue) : (s.setQueue q v).access = s.access := rfl

/-! ### setQslot -/

@[simp] theorem setQslot_pending (s : State) (c k : Nat) (v : QSlot) : (s.setQslot c k v).pending = s.pending := rfl
@[simp] theorem setQslot_time (s : State) (c k : Nat) (v : QSlot) : (s.setQslot c k v).time = s.time := rfl
@[simp] theorem setQslot_free (s : State) (c k : Nat) (v : QSlot) : (s.setQslot c k v).free = s.free := rfl
@[simp] theorem setQslot_out (s : State) (c k : Nat) (v : QSlot) : (s.setQslot c k v).out = s.out := rfl
@[simp] theorem setQslot_wire (s : State) (c k : Nat) (v : QSlot) : (s.setQslot c k v).wire = s.wire := rfl
@[simp] theorem setQslot_counters (s : State) (c k : Nat) (v : QSlot) : (s.setQslot c k v).counters = s.counters := rfl
@[simp] theorem setQslot_power (s : State) (c k : Nat) (v : QSlot) : (s.setQslot c k v).power = s.power := rfl
@[simp] theorem setQslot_rooster (s : State) (c k : Nat) (v : QSlot) : (s.setQslot c k v).rooster = s.rooster := rfl
@[simp] theorem setQslot_ports (s : State) (c k : Nat) (v : QSlot) : (s.setQslot c k v).ports = s.ports := rfl
@[simp] theorem setQslot_lanes (s : State) (c k : Nat) (v : QSlot) : (s.setQslot c k v).lanes = s.lanes := rfl
@[simp] theorem setQslot_accts (s : State) (c k : Nat) (v : QSlot) : (s.setQslot c k v).accts = s.accts := rfl
@[simp] theorem setQslot_west (s : State) (c k : Nat) (v : QSlot) : (s.setQslot c k v).west = s.west := rfl
@[simp] theorem setQslot_east (s : State) (c k : Nat) (v : QSlot) : (s.setQslot c k v).east = s.east := rfl
@[simp] theorem setQslot_descs (s : State) (c k : Nat) (v : QSlot) : (s.setQslot c k v).descs = s.descs := rfl
@[simp] theorem setQslot_epoch (s : State) (c k : Nat) (v : QSlot) : (s.setQslot c k v).epoch = s.epoch := rfl
@[simp] theorem setQslot_engines (s : State) (c k : Nat) (v : QSlot) : (s.setQslot c k v).engines = s.engines := rfl
@[simp] theorem setQslot_threads (s : State) (c k : Nat) (v : QSlot) : (s.setQslot c k v).threads = s.threads := rfl
@[simp] theorem setQslot_depot (s : State) (c k : Nat) (v : QSlot) : (s.setQslot c k v).depot = s.depot := rfl
@[simp] theorem setQslot_parts (s : State) (c k : Nat) (v : QSlot) : (s.setQslot c k v).parts = s.parts := rfl
@[simp] theorem setQslot_ctxs (s : State) (c k : Nat) (v : QSlot) : (s.setQslot c k v).ctxs = s.ctxs := rfl
@[simp] theorem setQslot_queues (s : State) (c k : Nat) (v : QSlot) : (s.setQslot c k v).queues = s.queues := rfl
@[simp] theorem setQslot_msgs (s : State) (c k : Nat) (v : QSlot) : (s.setQslot c k v).msgs = s.msgs := rfl
@[simp] theorem setQslot_deadMsgs (s : State) (c k : Nat) (v : QSlot) : (s.setQslot c k v).deadMsgs = s.deadMsgs := rfl
@[simp] theorem setQslot_txs (s : State) (c k : Nat) (v : QSlot) : (s.setQslot c k v).txs = s.txs := rfl
@[simp] theorem setQslot_rxs (s : State) (c k : Nat) (v : QSlot) : (s.setQslot c k v).rxs = s.rxs := rfl
@[simp] theorem setQslot_echoes (s : State) (c k : Nat) (v : QSlot) : (s.setQslot c k v).echoes = s.echoes := rfl
@[simp] theorem setQslot_funcs (s : State) (c k : Nat) (v : QSlot) : (s.setQslot c k v).funcs = s.funcs := rfl
@[simp] theorem setQslot_gate (s : State) (c k : Nat) (v : QSlot) : (s.setQslot c k v).gate = s.gate := rfl
@[simp] theorem setQslot_fw (s : State) (c k : Nat) (v : QSlot) : (s.setQslot c k v).fw = s.fw := rfl
@[simp] theorem setQslot_mule (s : State) (c k : Nat) (v : QSlot) : (s.setQslot c k v).mule = s.mule := rfl
@[simp] theorem setQslot_twin (s : State) (c k : Nat) (v : QSlot) : (s.setQslot c k v).twin = s.twin := rfl
@[simp] theorem setQslot_access (s : State) (c k : Nat) (v : QSlot) : (s.setQslot c k v).access = s.access := rfl

/-! ### setGateSlot -/

@[simp] theorem setGateSlot_pending (s : State) (k : Nat) (v : GateSlot) : (s.setGateSlot k v).pending = s.pending := rfl
@[simp] theorem setGateSlot_time (s : State) (k : Nat) (v : GateSlot) : (s.setGateSlot k v).time = s.time := rfl
@[simp] theorem setGateSlot_free (s : State) (k : Nat) (v : GateSlot) : (s.setGateSlot k v).free = s.free := rfl
@[simp] theorem setGateSlot_out (s : State) (k : Nat) (v : GateSlot) : (s.setGateSlot k v).out = s.out := rfl
@[simp] theorem setGateSlot_wire (s : State) (k : Nat) (v : GateSlot) : (s.setGateSlot k v).wire = s.wire := rfl
@[simp] theorem setGateSlot_counters (s : State) (k : Nat) (v : GateSlot) : (s.setGateSlot k v).counters = s.counters := rfl
@[simp] theorem setGateSlot_power (s : State) (k : Nat) (v : GateSlot) : (s.setGateSlot k v).power = s.power := rfl
@[simp] theorem setGateSlot_rooster (s : State) (k : Nat) (v : GateSlot) : (s.setGateSlot k v).rooster = s.rooster := rfl
@[simp] theorem setGateSlot_ports (s : State) (k : Nat) (v : GateSlot) : (s.setGateSlot k v).ports = s.ports := rfl
@[simp] theorem setGateSlot_lanes (s : State) (k : Nat) (v : GateSlot) : (s.setGateSlot k v).lanes = s.lanes := rfl
@[simp] theorem setGateSlot_accts (s : State) (k : Nat) (v : GateSlot) : (s.setGateSlot k v).accts = s.accts := rfl
@[simp] theorem setGateSlot_west (s : State) (k : Nat) (v : GateSlot) : (s.setGateSlot k v).west = s.west := rfl
@[simp] theorem setGateSlot_east (s : State) (k : Nat) (v : GateSlot) : (s.setGateSlot k v).east = s.east := rfl
@[simp] theorem setGateSlot_descs (s : State) (k : Nat) (v : GateSlot) : (s.setGateSlot k v).descs = s.descs := rfl
@[simp] theorem setGateSlot_epoch (s : State) (k : Nat) (v : GateSlot) : (s.setGateSlot k v).epoch = s.epoch := rfl
@[simp] theorem setGateSlot_engines (s : State) (k : Nat) (v : GateSlot) : (s.setGateSlot k v).engines = s.engines := rfl
@[simp] theorem setGateSlot_threads (s : State) (k : Nat) (v : GateSlot) : (s.setGateSlot k v).threads = s.threads := rfl
@[simp] theorem setGateSlot_depot (s : State) (k : Nat) (v : GateSlot) : (s.setGateSlot k v).depot = s.depot := rfl
@[simp] theorem setGateSlot_parts (s : State) (k : Nat) (v : GateSlot) : (s.setGateSlot k v).parts = s.parts := rfl
@[simp] theorem setGateSlot_ctxs (s : State) (k : Nat) (v : GateSlot) : (s.setGateSlot k v).ctxs = s.ctxs := rfl
@[simp] theorem setGateSlot_qslots (s : State) (k : Nat) (v : GateSlot) : (s.setGateSlot k v).qslots = s.qslots := rfl
@[simp] theorem setGateSlot_queues (s : State) (k : Nat) (v : GateSlot) : (s.setGateSlot k v).queues = s.queues := rfl
@[simp] theorem setGateSlot_msgs (s : State) (k : Nat) (v : GateSlot) : (s.setGateSlot k v).msgs = s.msgs := rfl
@[simp] theorem setGateSlot_deadMsgs (s : State) (k : Nat) (v : GateSlot) : (s.setGateSlot k v).deadMsgs = s.deadMsgs := rfl
@[simp] theorem setGateSlot_txs (s : State) (k : Nat) (v : GateSlot) : (s.setGateSlot k v).txs = s.txs := rfl
@[simp] theorem setGateSlot_rxs (s : State) (k : Nat) (v : GateSlot) : (s.setGateSlot k v).rxs = s.rxs := rfl
@[simp] theorem setGateSlot_echoes (s : State) (k : Nat) (v : GateSlot) : (s.setGateSlot k v).echoes = s.echoes := rfl
@[simp] theorem setGateSlot_funcs (s : State) (k : Nat) (v : GateSlot) : (s.setGateSlot k v).funcs = s.funcs := rfl
@[simp] theorem setGateSlot_fw (s : State) (k : Nat) (v : GateSlot) : (s.setGateSlot k v).fw = s.fw := rfl
@[simp] theorem setGateSlot_mule (s : State) (k : Nat) (v : GateSlot) : (s.setGateSlot k v).mule = s.mule := rfl
@[simp] theorem setGateSlot_twin (s : State) (k : Nat) (v : GateSlot) : (s.setGateSlot k v).twin = s.twin := rfl
@[simp] theorem setGateSlot_access (s : State) (k : Nat) (v : GateSlot) : (s.setGateSlot k v).access = s.access := rfl
@[simp] theorem setGateSlot_gate_queue (s : State) (k : Nat) (v : GateSlot) : (s.setGateSlot k v).gate.queue = s.gate.queue := rfl
@[simp] theorem setGateSlot_gate_drains (s : State) (k : Nat) (v : GateSlot) : (s.setGateSlot k v).gate.drains = s.gate.drains := rfl
@[simp] theorem setGateSlot_gate_staged (s : State) (k : Nat) (v : GateSlot) : (s.setGateSlot k v).gate.staged = s.gate.staged := rfl
@[simp] theorem setGateSlot_gate_stagedEpoch (s : State) (k : Nat) (v : GateSlot) : (s.setGateSlot k v).gate.stagedEpoch = s.gate.stagedEpoch := rfl
@[simp] theorem setGateSlot_gate_log (s : State) (k : Nat) (v : GateSlot) : (s.setGateSlot k v).gate.log = s.gate.log := rfl

/-! ### clearCtrs -/

@[simp] theorem clearCtrs_pending (s : State) (b n : Nat) : (s.clearCtrs b n).pending = s.pending := rfl
@[simp] theorem clearCtrs_time (s : State) (b n : Nat) : (s.clearCtrs b n).time = s.time := rfl
@[simp] theorem clearCtrs_free (s : State) (b n : Nat) : (s.clearCtrs b n).free = s.free := rfl
@[simp] theorem clearCtrs_out (s : State) (b n : Nat) : (s.clearCtrs b n).out = s.out := rfl
@[simp] theorem clearCtrs_wire (s : State) (b n : Nat) : (s.clearCtrs b n).wire = s.wire := rfl
@[simp] theorem clearCtrs_power (s : State) (b n : Nat) : (s.clearCtrs b n).power = s.power := rfl
@[simp] theorem clearCtrs_rooster (s : State) (b n : Nat) : (s.clearCtrs b n).rooster = s.rooster := rfl
@[simp] theorem clearCtrs_ports (s : State) (b n : Nat) : (s.clearCtrs b n).ports = s.ports := rfl
@[simp] theorem clearCtrs_lanes (s : State) (b n : Nat) : (s.clearCtrs b n).lanes = s.lanes := rfl
@[simp] theorem clearCtrs_accts (s : State) (b n : Nat) : (s.clearCtrs b n).accts = s.accts := rfl
@[simp] theorem clearCtrs_west (s : State) (b n : Nat) : (s.clearCtrs b n).west = s.west := rfl
@[simp] theorem clearCtrs_east (s : State) (b n : Nat) : (s.clearCtrs b n).east = s.east := rfl
@[simp] theorem clearCtrs_descs (s : State) (b n : Nat) : (s.clearCtrs b n).descs = s.descs := rfl
@[simp] theorem clearCtrs_epoch (s : State) (b n : Nat) : (s.clearCtrs b n).epoch = s.epoch := rfl
@[simp] theorem clearCtrs_engines (s : State) (b n : Nat) : (s.clearCtrs b n).engines = s.engines := rfl
@[simp] theorem clearCtrs_threads (s : State) (b n : Nat) : (s.clearCtrs b n).threads = s.threads := rfl
@[simp] theorem clearCtrs_depot (s : State) (b n : Nat) : (s.clearCtrs b n).depot = s.depot := rfl
@[simp] theorem clearCtrs_parts (s : State) (b n : Nat) : (s.clearCtrs b n).parts = s.parts := rfl
@[simp] theorem clearCtrs_ctxs (s : State) (b n : Nat) : (s.clearCtrs b n).ctxs = s.ctxs := rfl
@[simp] theorem clearCtrs_qslots (s : State) (b n : Nat) : (s.clearCtrs b n).qslots = s.qslots := rfl
@[simp] theorem clearCtrs_queues (s : State) (b n : Nat) : (s.clearCtrs b n).queues = s.queues := rfl
@[simp] theorem clearCtrs_msgs (s : State) (b n : Nat) : (s.clearCtrs b n).msgs = s.msgs := rfl
@[simp] theorem clearCtrs_deadMsgs (s : State) (b n : Nat) : (s.clearCtrs b n).deadMsgs = s.deadMsgs := rfl
@[simp] theorem clearCtrs_txs (s : State) (b n : Nat) : (s.clearCtrs b n).txs = s.txs := rfl
@[simp] theorem clearCtrs_rxs (s : State) (b n : Nat) : (s.clearCtrs b n).rxs = s.rxs := rfl
@[simp] theorem clearCtrs_echoes (s : State) (b n : Nat) : (s.clearCtrs b n).echoes = s.echoes := rfl
@[simp] theorem clearCtrs_funcs (s : State) (b n : Nat) : (s.clearCtrs b n).funcs = s.funcs := rfl
@[simp] theorem clearCtrs_gate (s : State) (b n : Nat) : (s.clearCtrs b n).gate = s.gate := rfl
@[simp] theorem clearCtrs_fw (s : State) (b n : Nat) : (s.clearCtrs b n).fw = s.fw := rfl
@[simp] theorem clearCtrs_mule (s : State) (b n : Nat) : (s.clearCtrs b n).mule = s.mule := rfl
@[simp] theorem clearCtrs_twin (s : State) (b n : Nat) : (s.clearCtrs b n).twin = s.twin := rfl
@[simp] theorem clearCtrs_access (s : State) (b n : Nat) : (s.clearCtrs b n).access = s.access := rfl

/-! ### setLine -/

@[simp] theorem setLine_pending (s : State) (p : Nat) (v : Line) : (s.setLine p v).pending = s.pending := rfl
@[simp] theorem setLine_time (s : State) (p : Nat) (v : Line) : (s.setLine p v).time = s.time := rfl
@[simp] theorem setLine_free (s : State) (p : Nat) (v : Line) : (s.setLine p v).free = s.free := rfl
@[simp] theorem setLine_out (s : State) (p : Nat) (v : Line) : (s.setLine p v).out = s.out := rfl
@[simp] theorem setLine_counters (s : State) (p : Nat) (v : Line) : (s.setLine p v).counters = s.counters := rfl
@[simp] theorem setLine_power (s : State) (p : Nat) (v : Line) : (s.setLine p v).power = s.power := rfl
@[simp] theorem setLine_rooster (s : State) (p : Nat) (v : Line) : (s.setLine p v).rooster = s.rooster := rfl
@[simp] theorem setLine_ports (s : State) (p : Nat) (v : Line) : (s.setLine p v).ports = s.ports := rfl
@[simp] theorem setLine_lanes (s : State) (p : Nat) (v : Line) : (s.setLine p v).lanes = s.lanes := rfl
@[simp] theorem setLine_accts (s : State) (p : Nat) (v : Line) : (s.setLine p v).accts = s.accts := rfl
@[simp] theorem setLine_west (s : State) (p : Nat) (v : Line) : (s.setLine p v).west = s.west := rfl
@[simp] theorem setLine_east (s : State) (p : Nat) (v : Line) : (s.setLine p v).east = s.east := rfl
@[simp] theorem setLine_descs (s : State) (p : Nat) (v : Line) : (s.setLine p v).descs = s.descs := rfl
@[simp] theorem setLine_epoch (s : State) (p : Nat) (v : Line) : (s.setLine p v).epoch = s.epoch := rfl
@[simp] theorem setLine_engines (s : State) (p : Nat) (v : Line) : (s.setLine p v).engines = s.engines := rfl
@[simp] theorem setLine_threads (s : State) (p : Nat) (v : Line) : (s.setLine p v).threads = s.threads := rfl
@[simp] theorem setLine_depot (s : State) (p : Nat) (v : Line) : (s.setLine p v).depot = s.depot := rfl
@[simp] theorem setLine_parts (s : State) (p : Nat) (v : Line) : (s.setLine p v).parts = s.parts := rfl
@[simp] theorem setLine_ctxs (s : State) (p : Nat) (v : Line) : (s.setLine p v).ctxs = s.ctxs := rfl
@[simp] theorem setLine_qslots (s : State) (p : Nat) (v : Line) : (s.setLine p v).qslots = s.qslots := rfl
@[simp] theorem setLine_queues (s : State) (p : Nat) (v : Line) : (s.setLine p v).queues = s.queues := rfl
@[simp] theorem setLine_msgs (s : State) (p : Nat) (v : Line) : (s.setLine p v).msgs = s.msgs := rfl
@[simp] theorem setLine_deadMsgs (s : State) (p : Nat) (v : Line) : (s.setLine p v).deadMsgs = s.deadMsgs := rfl
@[simp] theorem setLine_txs (s : State) (p : Nat) (v : Line) : (s.setLine p v).txs = s.txs := rfl
@[simp] theorem setLine_rxs (s : State) (p : Nat) (v : Line) : (s.setLine p v).rxs = s.rxs := rfl
@[simp] theorem setLine_echoes (s : State) (p : Nat) (v : Line) : (s.setLine p v).echoes = s.echoes := rfl
@[simp] theorem setLine_funcs (s : State) (p : Nat) (v : Line) : (s.setLine p v).funcs = s.funcs := rfl
@[simp] theorem setLine_gate (s : State) (p : Nat) (v : Line) : (s.setLine p v).gate = s.gate := rfl
@[simp] theorem setLine_fw (s : State) (p : Nat) (v : Line) : (s.setLine p v).fw = s.fw := rfl
@[simp] theorem setLine_mule (s : State) (p : Nat) (v : Line) : (s.setLine p v).mule = s.mule := rfl
@[simp] theorem setLine_twin (s : State) (p : Nat) (v : Line) : (s.setLine p v).twin = s.twin := rfl
@[simp] theorem setLine_access (s : State) (p : Nat) (v : Line) : (s.setLine p v).access = s.access := rfl

/-! ### emit -/

@[simp] theorem emit_pending (s : State) (o : Out) : (s.emit o).pending = s.pending := rfl
@[simp] theorem emit_time (s : State) (o : Out) : (s.emit o).time = s.time := rfl
@[simp] theorem emit_free (s : State) (o : Out) : (s.emit o).free = s.free := rfl
@[simp] theorem emit_counters (s : State) (o : Out) : (s.emit o).counters = s.counters := rfl
@[simp] theorem emit_power (s : State) (o : Out) : (s.emit o).power = s.power := rfl
@[simp] theorem emit_rooster (s : State) (o : Out) : (s.emit o).rooster = s.rooster := rfl
@[simp] theorem emit_ports (s : State) (o : Out) : (s.emit o).ports = s.ports := rfl
@[simp] theorem emit_lanes (s : State) (o : Out) : (s.emit o).lanes = s.lanes := rfl
@[simp] theorem emit_accts (s : State) (o : Out) : (s.emit o).accts = s.accts := rfl
@[simp] theorem emit_west (s : State) (o : Out) : (s.emit o).west = s.west := rfl
@[simp] theorem emit_east (s : State) (o : Out) : (s.emit o).east = s.east := rfl
@[simp] theorem emit_descs (s : State) (o : Out) : (s.emit o).descs = s.descs := rfl
@[simp] theorem emit_epoch (s : State) (o : Out) : (s.emit o).epoch = s.epoch := rfl
@[simp] theorem emit_engines (s : State) (o : Out) : (s.emit o).engines = s.engines := rfl
@[simp] theorem emit_threads (s : State) (o : Out) : (s.emit o).threads = s.threads := rfl
@[simp] theorem emit_depot (s : State) (o : Out) : (s.emit o).depot = s.depot := rfl
@[simp] theorem emit_parts (s : State) (o : Out) : (s.emit o).parts = s.parts := rfl
@[simp] theorem emit_ctxs (s : State) (o : Out) : (s.emit o).ctxs = s.ctxs := rfl
@[simp] theorem emit_qslots (s : State) (o : Out) : (s.emit o).qslots = s.qslots := rfl
@[simp] theorem emit_queues (s : State) (o : Out) : (s.emit o).queues = s.queues := rfl
@[simp] theorem emit_msgs (s : State) (o : Out) : (s.emit o).msgs = s.msgs := rfl
@[simp] theorem emit_deadMsgs (s : State) (o : Out) : (s.emit o).deadMsgs = s.deadMsgs := rfl
@[simp] theorem emit_txs (s : State) (o : Out) : (s.emit o).txs = s.txs := rfl
@[simp] theorem emit_rxs (s : State) (o : Out) : (s.emit o).rxs = s.rxs := rfl
@[simp] theorem emit_echoes (s : State) (o : Out) : (s.emit o).echoes = s.echoes := rfl
@[simp] theorem emit_funcs (s : State) (o : Out) : (s.emit o).funcs = s.funcs := rfl
@[simp] theorem emit_gate (s : State) (o : Out) : (s.emit o).gate = s.gate := rfl
@[simp] theorem emit_fw (s : State) (o : Out) : (s.emit o).fw = s.fw := rfl
@[simp] theorem emit_mule (s : State) (o : Out) : (s.emit o).mule = s.mule := rfl
@[simp] theorem emit_twin (s : State) (o : Out) : (s.emit o).twin = s.twin := rfl
@[simp] theorem emit_access (s : State) (o : Out) : (s.emit o).access = s.access := rfl

/-! ### log -/

@[simp] theorem log_pending (s : State) (r : DevLog) : (s.log r).pending = s.pending := rfl
@[simp] theorem log_time (s : State) (r : DevLog) : (s.log r).time = s.time := rfl
@[simp] theorem log_free (s : State) (r : DevLog) : (s.log r).free = s.free := rfl
@[simp] theorem log_out (s : State) (r : DevLog) : (s.log r).out = s.out := rfl
@[simp] theorem log_wire (s : State) (r : DevLog) : (s.log r).wire = s.wire := rfl
@[simp] theorem log_counters (s : State) (r : DevLog) : (s.log r).counters = s.counters := rfl
@[simp] theorem log_power (s : State) (r : DevLog) : (s.log r).power = s.power := rfl
@[simp] theorem log_rooster (s : State) (r : DevLog) : (s.log r).rooster = s.rooster := rfl
@[simp] theorem log_ports (s : State) (r : DevLog) : (s.log r).ports = s.ports := rfl
@[simp] theorem log_lanes (s : State) (r : DevLog) : (s.log r).lanes = s.lanes := rfl
@[simp] theorem log_accts (s : State) (r : DevLog) : (s.log r).accts = s.accts := rfl
@[simp] theorem log_west (s : State) (r : DevLog) : (s.log r).west = s.west := rfl
@[simp] theorem log_east (s : State) (r : DevLog) : (s.log r).east = s.east := rfl
@[simp] theorem log_descs (s : State) (r : DevLog) : (s.log r).descs = s.descs := rfl
@[simp] theorem log_epoch (s : State) (r : DevLog) : (s.log r).epoch = s.epoch := rfl
@[simp] theorem log_engines (s : State) (r : DevLog) : (s.log r).engines = s.engines := rfl
@[simp] theorem log_threads (s : State) (r : DevLog) : (s.log r).threads = s.threads := rfl
@[simp] theorem log_depot (s : State) (r : DevLog) : (s.log r).depot = s.depot := rfl
@[simp] theorem log_parts (s : State) (r : DevLog) : (s.log r).parts = s.parts := rfl
@[simp] theorem log_ctxs (s : State) (r : DevLog) : (s.log r).ctxs = s.ctxs := rfl
@[simp] theorem log_qslots (s : State) (r : DevLog) : (s.log r).qslots = s.qslots := rfl
@[simp] theorem log_queues (s : State) (r : DevLog) : (s.log r).queues = s.queues := rfl
@[simp] theorem log_msgs (s : State) (r : DevLog) : (s.log r).msgs = s.msgs := rfl
@[simp] theorem log_deadMsgs (s : State) (r : DevLog) : (s.log r).deadMsgs = s.deadMsgs := rfl
@[simp] theorem log_txs (s : State) (r : DevLog) : (s.log r).txs = s.txs := rfl
@[simp] theorem log_rxs (s : State) (r : DevLog) : (s.log r).rxs = s.rxs := rfl
@[simp] theorem log_echoes (s : State) (r : DevLog) : (s.log r).echoes = s.echoes := rfl
@[simp] theorem log_funcs (s : State) (r : DevLog) : (s.log r).funcs = s.funcs := rfl
@[simp] theorem log_gate (s : State) (r : DevLog) : (s.log r).gate = s.gate := rfl
@[simp] theorem log_mule (s : State) (r : DevLog) : (s.log r).mule = s.mule := rfl
@[simp] theorem log_twin (s : State) (r : DevLog) : (s.log r).twin = s.twin := rfl
@[simp] theorem log_access (s : State) (r : DevLog) : (s.log r).access = s.access := rfl
@[simp] theorem log_fw_fatal (s : State) (r : DevLog) : (s.log r).fw.fatal = s.fw.fatal := rfl
@[simp] theorem log_fw_recovery (s : State) (r : DevLog) : (s.log r).fw.recovery = s.fw.recovery := rfl
@[simp] theorem log_fw_bootFailA (s : State) (r : DevLog) : (s.log r).fw.bootFailA = s.fw.bootFailA := rfl
@[simp] theorem log_fw_bootFailB (s : State) (r : DevLog) : (s.log r).fw.bootFailB = s.fw.bootFailB := rfl
@[simp] theorem log_fw_bootCopyB (s : State) (r : DevLog) : (s.log r).fw.bootCopyB = s.fw.bootCopyB := rfl
@[simp] theorem log_fw_muleHeld (s : State) (r : DevLog) : (s.log r).fw.muleHeld = s.fw.muleHeld := rfl
@[simp] theorem log_fw_logFull (s : State) (r : DevLog) : (s.log r).fw.logFull = s.fw.logFull := rfl
@[simp] theorem log_fw_muleUp (s : State) (r : DevLog) : (s.log r).fw.muleUp = s.fw.muleUp := rfl
@[simp] theorem log_fw_minSvn (s : State) (r : DevLog) : (s.log r).fw.minSvn = s.fw.minSvn := rfl
@[simp] theorem log_fw_muleSvn (s : State) (r : DevLog) : (s.log r).fw.muleSvn = s.fw.muleSvn := rfl
@[simp] theorem log_fw_seqA (s : State) (r : DevLog) : (s.log r).fw.seqA = s.fw.seqA := rfl
@[simp] theorem log_fw_seqB (s : State) (r : DevLog) : (s.log r).fw.seqB = s.fw.seqB := rfl
@[simp] theorem log_fw_bootTry (s : State) (r : DevLog) : (s.log r).fw.bootTry = s.fw.bootTry := rfl
@[simp] theorem log_fw_petTicks (s : State) (r : DevLog) : (s.log r).fw.petTicks = s.fw.petTicks := rfl
@[simp] theorem log_fw_restarts (s : State) (r : DevLog) : (s.log r).fw.restarts = s.fw.restarts := rfl
@[simp] theorem log_fw_restarting (s : State) (r : DevLog) : (s.log r).fw.restarting = s.fw.restarting := rfl
@[simp] theorem log_fw_keys (s : State) (r : DevLog) : (s.log r).fw.keys = s.fw.keys := rfl
@[simp] theorem log_fw_services (s : State) (r : DevLog) : (s.log r).fw.services = s.fw.services := rfl
@[simp] theorem log_fw_svcRestart (s : State) (r : DevLog) : (s.log r).fw.svcRestart = s.fw.svcRestart := rfl
@[simp] theorem log_fw_svcNew (s : State) (r : DevLog) : (s.log r).fw.svcNew = s.fw.svcNew := rfl
@[simp] theorem log_fw_mreg0 (s : State) (r : DevLog) : (s.log r).fw.mreg0 = s.fw.mreg0 := rfl
@[simp] theorem log_fw_mreg1 (s : State) (r : DevLog) : (s.log r).fw.mreg1 = s.fw.mreg1 := rfl
@[simp] theorem log_fw_mreg2 (s : State) (r : DevLog) : (s.log r).fw.mreg2 = s.fw.mreg2 := rfl
@[simp] theorem log_fw_log (s : State) (r : DevLog) : (s.log r).fw.log = s.fw.log := rfl

/-! ### setDie -/

@[simp] theorem setDie_pending (s : State) (d : Nat) (v : Die) : (s.setDie d v).pending = s.pending := by unfold State.setDie; split <;> rfl
@[simp] theorem setDie_time (s : State) (d : Nat) (v : Die) : (s.setDie d v).time = s.time := by unfold State.setDie; split <;> rfl
@[simp] theorem setDie_free (s : State) (d : Nat) (v : Die) : (s.setDie d v).free = s.free := by unfold State.setDie; split <;> rfl
@[simp] theorem setDie_out (s : State) (d : Nat) (v : Die) : (s.setDie d v).out = s.out := by unfold State.setDie; split <;> rfl
@[simp] theorem setDie_wire (s : State) (d : Nat) (v : Die) : (s.setDie d v).wire = s.wire := by unfold State.setDie; split <;> rfl
@[simp] theorem setDie_counters (s : State) (d : Nat) (v : Die) : (s.setDie d v).counters = s.counters := by unfold State.setDie; split <;> rfl
@[simp] theorem setDie_power (s : State) (d : Nat) (v : Die) : (s.setDie d v).power = s.power := by unfold State.setDie; split <;> rfl
@[simp] theorem setDie_rooster (s : State) (d : Nat) (v : Die) : (s.setDie d v).rooster = s.rooster := by unfold State.setDie; split <;> rfl
@[simp] theorem setDie_ports (s : State) (d : Nat) (v : Die) : (s.setDie d v).ports = s.ports := by unfold State.setDie; split <;> rfl
@[simp] theorem setDie_lanes (s : State) (d : Nat) (v : Die) : (s.setDie d v).lanes = s.lanes := by unfold State.setDie; split <;> rfl
@[simp] theorem setDie_accts (s : State) (d : Nat) (v : Die) : (s.setDie d v).accts = s.accts := by unfold State.setDie; split <;> rfl
@[simp] theorem setDie_descs (s : State) (d : Nat) (v : Die) : (s.setDie d v).descs = s.descs := by unfold State.setDie; split <;> rfl
@[simp] theorem setDie_epoch (s : State) (d : Nat) (v : Die) : (s.setDie d v).epoch = s.epoch := by unfold State.setDie; split <;> rfl
@[simp] theorem setDie_engines (s : State) (d : Nat) (v : Die) : (s.setDie d v).engines = s.engines := by unfold State.setDie; split <;> rfl
@[simp] theorem setDie_threads (s : State) (d : Nat) (v : Die) : (s.setDie d v).threads = s.threads := by unfold State.setDie; split <;> rfl
@[simp] theorem setDie_depot (s : State) (d : Nat) (v : Die) : (s.setDie d v).depot = s.depot := by unfold State.setDie; split <;> rfl
@[simp] theorem setDie_parts (s : State) (d : Nat) (v : Die) : (s.setDie d v).parts = s.parts := by unfold State.setDie; split <;> rfl
@[simp] theorem setDie_ctxs (s : State) (d : Nat) (v : Die) : (s.setDie d v).ctxs = s.ctxs := by unfold State.setDie; split <;> rfl
@[simp] theorem setDie_qslots (s : State) (d : Nat) (v : Die) : (s.setDie d v).qslots = s.qslots := by unfold State.setDie; split <;> rfl
@[simp] theorem setDie_queues (s : State) (d : Nat) (v : Die) : (s.setDie d v).queues = s.queues := by unfold State.setDie; split <;> rfl
@[simp] theorem setDie_msgs (s : State) (d : Nat) (v : Die) : (s.setDie d v).msgs = s.msgs := by unfold State.setDie; split <;> rfl
@[simp] theorem setDie_deadMsgs (s : State) (d : Nat) (v : Die) : (s.setDie d v).deadMsgs = s.deadMsgs := by unfold State.setDie; split <;> rfl
@[simp] theorem setDie_txs (s : State) (d : Nat) (v : Die) : (s.setDie d v).txs = s.txs := by unfold State.setDie; split <;> rfl
@[simp] theorem setDie_rxs (s : State) (d : Nat) (v : Die) : (s.setDie d v).rxs = s.rxs := by unfold State.setDie; split <;> rfl
@[simp] theorem setDie_echoes (s : State) (d : Nat) (v : Die) : (s.setDie d v).echoes = s.echoes := by unfold State.setDie; split <;> rfl
@[simp] theorem setDie_funcs (s : State) (d : Nat) (v : Die) : (s.setDie d v).funcs = s.funcs := by unfold State.setDie; split <;> rfl
@[simp] theorem setDie_gate (s : State) (d : Nat) (v : Die) : (s.setDie d v).gate = s.gate := by unfold State.setDie; split <;> rfl
@[simp] theorem setDie_fw (s : State) (d : Nat) (v : Die) : (s.setDie d v).fw = s.fw := by unfold State.setDie; split <;> rfl
@[simp] theorem setDie_mule (s : State) (d : Nat) (v : Die) : (s.setDie d v).mule = s.mule := by unfold State.setDie; split <;> rfl
@[simp] theorem setDie_twin (s : State) (d : Nat) (v : Die) : (s.setDie d v).twin = s.twin := by unfold State.setDie; split <;> rfl
@[simp] theorem setDie_access (s : State) (d : Nat) (v : Die) : (s.setDie d v).access = s.access := by unfold State.setDie; split <;> rfl

/-! ### count -/

@[simp] theorem count_pending (s : State) (i n : Nat) : (s.count i n).pending = s.pending := by unfold State.count; split <;> rfl
@[simp] theorem count_time (s : State) (i n : Nat) : (s.count i n).time = s.time := by unfold State.count; split <;> rfl
@[simp] theorem count_free (s : State) (i n : Nat) : (s.count i n).free = s.free := by unfold State.count; split <;> rfl
@[simp] theorem count_out (s : State) (i n : Nat) : (s.count i n).out = s.out := by unfold State.count; split <;> rfl
@[simp] theorem count_wire (s : State) (i n : Nat) : (s.count i n).wire = s.wire := by unfold State.count; split <;> rfl
@[simp] theorem count_power (s : State) (i n : Nat) : (s.count i n).power = s.power := by unfold State.count; split <;> rfl
@[simp] theorem count_rooster (s : State) (i n : Nat) : (s.count i n).rooster = s.rooster := by unfold State.count; split <;> rfl
@[simp] theorem count_ports (s : State) (i n : Nat) : (s.count i n).ports = s.ports := by unfold State.count; split <;> rfl
@[simp] theorem count_lanes (s : State) (i n : Nat) : (s.count i n).lanes = s.lanes := by unfold State.count; split <;> rfl
@[simp] theorem count_accts (s : State) (i n : Nat) : (s.count i n).accts = s.accts := by unfold State.count; split <;> rfl
@[simp] theorem count_west (s : State) (i n : Nat) : (s.count i n).west = s.west := by unfold State.count; split <;> rfl
@[simp] theorem count_east (s : State) (i n : Nat) : (s.count i n).east = s.east := by unfold State.count; split <;> rfl
@[simp] theorem count_descs (s : State) (i n : Nat) : (s.count i n).descs = s.descs := by unfold State.count; split <;> rfl
@[simp] theorem count_epoch (s : State) (i n : Nat) : (s.count i n).epoch = s.epoch := by unfold State.count; split <;> rfl
@[simp] theorem count_engines (s : State) (i n : Nat) : (s.count i n).engines = s.engines := by unfold State.count; split <;> rfl
@[simp] theorem count_threads (s : State) (i n : Nat) : (s.count i n).threads = s.threads := by unfold State.count; split <;> rfl
@[simp] theorem count_depot (s : State) (i n : Nat) : (s.count i n).depot = s.depot := by unfold State.count; split <;> rfl
@[simp] theorem count_parts (s : State) (i n : Nat) : (s.count i n).parts = s.parts := by unfold State.count; split <;> rfl
@[simp] theorem count_ctxs (s : State) (i n : Nat) : (s.count i n).ctxs = s.ctxs := by unfold State.count; split <;> rfl
@[simp] theorem count_qslots (s : State) (i n : Nat) : (s.count i n).qslots = s.qslots := by unfold State.count; split <;> rfl
@[simp] theorem count_queues (s : State) (i n : Nat) : (s.count i n).queues = s.queues := by unfold State.count; split <;> rfl
@[simp] theorem count_msgs (s : State) (i n : Nat) : (s.count i n).msgs = s.msgs := by unfold State.count; split <;> rfl
@[simp] theorem count_deadMsgs (s : State) (i n : Nat) : (s.count i n).deadMsgs = s.deadMsgs := by unfold State.count; split <;> rfl
@[simp] theorem count_txs (s : State) (i n : Nat) : (s.count i n).txs = s.txs := by unfold State.count; split <;> rfl
@[simp] theorem count_rxs (s : State) (i n : Nat) : (s.count i n).rxs = s.rxs := by unfold State.count; split <;> rfl
@[simp] theorem count_echoes (s : State) (i n : Nat) : (s.count i n).echoes = s.echoes := by unfold State.count; split <;> rfl
@[simp] theorem count_funcs (s : State) (i n : Nat) : (s.count i n).funcs = s.funcs := by unfold State.count; split <;> rfl
@[simp] theorem count_gate (s : State) (i n : Nat) : (s.count i n).gate = s.gate := by unfold State.count; split <;> rfl
@[simp] theorem count_fw (s : State) (i n : Nat) : (s.count i n).fw = s.fw := by unfold State.count; split <;> rfl
@[simp] theorem count_mule (s : State) (i n : Nat) : (s.count i n).mule = s.mule := by unfold State.count; split <;> rfl
@[simp] theorem count_twin (s : State) (i n : Nat) : (s.count i n).twin = s.twin := by unfold State.count; split <;> rfl
@[simp] theorem count_access (s : State) (i n : Nat) : (s.count i n).access = s.access := by unfold State.count; split <;> rfl

/-! ### The shorter names -/

@[simp] theorem modPort_eq (s : State) (p : Nat) (f : Port → Port) : s.modPort p f = s.setPort p (f (s.port p)) := rfl
@[simp] theorem modLane_eq (s : State) (p j : Nat) (f : Lane → Lane) : s.modLane p j f = s.setLane p j (f (s.lane p j)) := rfl
@[simp] theorem modThread_eq (s : State) (p : Nat) (f : Thread → Thread) :
    s.modThread p f = s.setThread p (f (s.thread p)) := rfl
@[simp] theorem bump_eq (s : State) (i : Nat) : s.bump i = s.count i 1 := rfl
@[simp] theorem bumpDev_eq (s : State) (k : Nat) : s.bumpDev k = s.count (devCtr k) 1 := rfl
@[simp] theorem bumpDie_eq (s : State) (d k : Nat) : s.bumpDie d k = s.count (dieCtr d k) 1 := rfl
@[simp] theorem bumpEng_eq (s : State) (e k : Nat) : s.bumpEng e k = s.count (engCtr e k) 1 := rfl
@[simp] theorem bumpPort_eq (s : State) (p k : Nat) : s.bumpPort p k = s.count (portCtr p k) 1 := rfl
@[simp] theorem bumpLane_eq (s : State) (p j k : Nat) : s.bumpLane p j k = s.count (laneCtr p j k) 1 := rfl
@[simp] theorem bumpPart_eq (s : State) (p k : Nat) : s.bumpPart p k = s.count (partCtr p k) 1 := rfl
@[simp] theorem bumpCtx_eq (s : State) (c k : Nat) : s.bumpCtx c k = s.count (ctxCtr c k) 1 := rfl

/-! ### What was written reads back, and the rest reads as before -/

@[simp] theorem port_setPort_self (s : State) (p : Nat) (v : Port) : (s.setPort p v).port p = v := by
  simp [State.port, State.setPort]
@[simp] theorem port_setPort_ne (s : State) {p q : Nat} (v : Port) (h : q ≠ p) : (s.setPort p v).port q = s.port q := by
  simp [State.port, State.setPort, h]
@[simp] theorem lane_setLane_self (s : State) (p j : Nat) (v : Lane) : (s.setLane p j v).lane p j = v := by
  simp [State.lane, State.setLane]
@[simp] theorem lane_setLane_ne (s : State) {p j q i : Nat} (v : Lane) (h : laneKey q i ≠ laneKey p j) :
    (s.setLane p j v).lane q i = s.lane q i := by simp [State.lane, State.setLane, h]
@[simp] theorem acct_setAcct_self (s : State) (i : Nat) (c : Bool) (v : Acct) : (s.setAcct i c v).acct i c = v := by
  simp [State.acct, State.setAcct]
@[simp] theorem acct_setAcct_ne (s : State) {i j : Nat} {c d : Bool} (v : Acct) (h : acctKey j d ≠ acctKey i c) :
    (s.setAcct i c v).acct j d = s.acct j d := by simp [State.acct, State.setAcct, h]
@[simp] theorem engine_setEngine_self (s : State) (e : Nat) (v : Engine) : (s.setEngine e v).engine e = v := by
  simp [State.engine, State.setEngine]
@[simp] theorem engine_setEngine_ne (s : State) {e f : Nat} (v : Engine) (h : f ≠ e) :
    (s.setEngine e v).engine f = s.engine f := by simp [State.engine, State.setEngine, h]
@[simp] theorem thread_setThread_self (s : State) (p : Nat) (v : Thread) : (s.setThread p v).thread p = v := by
  simp [State.thread, State.setThread]
@[simp] theorem thread_setThread_ne (s : State) {p q : Nat} (v : Thread) (h : q ≠ p) :
    (s.setThread p v).thread q = s.thread q := by simp [State.thread, State.setThread, h]
@[simp] theorem part_setPart_self (s : State) (p : Nat) (v : Part) : (s.setPart p v).part p = v := by
  simp [State.part, State.setPart]
@[simp] theorem part_setPart_ne (s : State) {p q : Nat} (v : Part) (h : q ≠ p) : (s.setPart p v).part q = s.part q := by
  simp [State.part, State.setPart, h]
@[simp] theorem func_setFunc_self (s : State) (n : Nat) (v : Func) : (s.setFunc n v).func n = v := by
  simp [State.func, State.setFunc]
@[simp] theorem func_setFunc_ne (s : State) {n m : Nat} (v : Func) (h : m ≠ n) : (s.setFunc n v).func m = s.func m := by
  simp [State.func, State.setFunc, h]
@[simp] theorem ctx_setCtx_self (s : State) (c : Nat) (v : Ctx) : (s.setCtx c v).ctx? c = some v := by
  simp [State.ctx?, State.setCtx]
@[simp] theorem ctx_setCtx_ne (s : State) {c d : Nat} (v : Ctx) (h : d ≠ c) : (s.setCtx c v).ctx? d = s.ctx? d := by
  simp [State.ctx?, State.setCtx, h]
@[simp] theorem queue_setQueue_self (s : State) (q : Nat) (v : Queue) : (s.setQueue q v).queue? q = some v := by
  simp [State.queue?, State.setQueue]
@[simp] theorem queue_setQueue_ne (s : State) {q r : Nat} (v : Queue) (h : r ≠ q) : (s.setQueue q v).queue? r = s.queue? r := by
  simp [State.queue?, State.setQueue, h]
@[simp] theorem qslot_setQslot_self (s : State) (c k : Nat) (v : QSlot) : (s.setQslot c k v).qslot c k = v := by
  simp [State.qslot, State.setQslot]
@[simp] theorem qslot_setQslot_ne (s : State) {c k d j : Nat} (v : QSlot) (h : d * 16 + j ≠ c * 16 + k) :
    (s.setQslot c k v).qslot d j = s.qslot d j := by simp [State.qslot, State.setQslot, h]
@[simp] theorem gateSlot_setGateSlot_self (s : State) (k : Nat) (v : GateSlot) : (s.setGateSlot k v).gateSlot k = v := by
  simp [State.gateSlot, State.setGateSlot]
@[simp] theorem gateSlot_setGateSlot_ne (s : State) {k j : Nat} (v : GateSlot) (h : j ≠ k) :
    (s.setGateSlot k v).gateSlot j = s.gateSlot j := by simp [State.gateSlot, State.setGateSlot, h]
@[simp] theorem die_setDie_self (s : State) (d : Nat) (v : Die) : (s.setDie d v).die d = v := by
  simp only [State.die, State.setDie]; split <;> simp_all
theorem die_setDie_other (s : State) {d e : Nat} (v : Die) (h : (e = 0) ≠ (d = 0)) : (s.setDie d v).die e = s.die e := by
  simp only [State.die, State.setDie]; split <;> split <;> simp_all
@[simp] theorem line_setLine_self (s : State) (p : Nat) (v : Line) : (s.setLine p v).line p = v := by
  simp [State.line, State.setLine]
@[simp] theorem line_setLine_ne (s : State) {p q : Nat} (v : Line) (h : q ≠ p) : (s.setLine p v).line q = s.line q := by
  simp [State.line, State.setLine, h]
@[simp] theorem emit_wire (s : State) (o : Out) : (s.emit o).wire = s.wireAfter o := rfl
/-- Only frames and LINE markers go by the lines. -/
@[simp] theorem wireAfter_pcieWrite (s : State) (fn : Nat) (a : Word) (b : List Byte) (r : Bool) :
    s.wireAfter (.pcieWrite fn a b r) = s.wire := rfl
theorem wireAfter_other (s : State) (o : Out) (hf : ∀ p h b a c, o ≠ .frame p h b a c) (hl : ∀ p x, o ≠ .line p x) :
    s.wireAfter o = s.wire := by
  cases o <;> first | rfl | exact absurd rfl (hf _ _ _ _ _) | exact absurd rfl (hl _ _)
@[simp] theorem emit_out (s : State) (o : Out) : (s.emit o).out = s.out ++ [o] := rfl

end Sys2Proof.Machine
end

