-- ==== Sys2Proof/Laws/Operations.lean ====
section
/-! SUPPORT. What the operations every chapter shares leave as it is: vectors and causes, completion records, events and
context faults. -/

namespace Sys2Proof.Machine

/-! ### A vector that fires: it changes only out, funcs -/

@[simp] theorem fire_pending (s : State) (fn entry : Nat) : (s.fire fn entry).pending = s.pending := by
  simp only [State.fire]; split <;> rfl
@[simp] theorem fire_time (s : State) (fn entry : Nat) : (s.fire fn entry).time = s.time := by
  simp only [State.fire]; split <;> rfl
@[simp] theorem fire_free (s : State) (fn entry : Nat) : (s.fire fn entry).free = s.free := by
  simp only [State.fire]; split <;> rfl
@[simp] theorem fire_wire (s : State) (fn entry : Nat) : (s.fire fn entry).wire = s.wire := by
  simp only [State.fire]; split <;> rfl
@[simp] theorem fire_counters (s : State) (fn entry : Nat) : (s.fire fn entry).counters = s.counters := by
  simp only [State.fire]; split <;> rfl
@[simp] theorem fire_power (s : State) (fn entry : Nat) : (s.fire fn entry).power = s.power := by
  simp only [State.fire]; split <;> rfl
@[simp] theorem fire_rooster (s : State) (fn entry : Nat) : (s.fire fn entry).rooster = s.rooster := by
  simp only [State.fire]; split <;> rfl
@[simp] theorem fire_ports (s : State) (fn entry : Nat) : (s.fire fn entry).ports = s.ports := by
  simp only [State.fire]; split <;> rfl
@[simp] theorem fire_lanes (s : State) (fn entry : Nat) : (s.fire fn entry).lanes = s.lanes := by
  simp only [State.fire]; split <;> rfl
@[simp] theorem fire_accts (s : State) (fn entry : Nat) : (s.fire fn entry).accts = s.accts := by
  simp only [State.fire]; split <;> rfl
@[simp] theorem fire_west (s : State) (fn entry : Nat) : (s.fire fn entry).west = s.west := by
  simp only [State.fire]; split <;> rfl
@[simp] theorem fire_east (s : State) (fn entry : Nat) : (s.fire fn entry).east = s.east := by
  simp only [State.fire]; split <;> rfl
@[simp] theorem fire_descs (s : State) (fn entry : Nat) : (s.fire fn entry).descs = s.descs := by
  simp only [State.fire]; split <;> rfl
@[simp] theorem fire_epoch (s : State) (fn entry : Nat) : (s.fire fn entry).epoch = s.epoch := by
  simp only [State.fire]; split <;> rfl
@[simp] theorem fire_engines (s : State) (fn entry : Nat) : (s.fire fn entry).engines = s.engines := by
  simp only [State.fire]; split <;> rfl
@[simp] theorem fire_threads (s : State) (fn entry : Nat) : (s.fire fn entry).threads = s.threads := by
  simp only [State.fire]; split <;> rfl
@[simp] theorem fire_depot (s : State) (fn entry : Nat) : (s.fire fn entry).depot = s.depot := by
  simp only [State.fire]; split <;> rfl
@[simp] theorem fire_parts (s : State) (fn entry : Nat) : (s.fire fn entry).parts = s.parts := by
  simp only [State.fire]; split <;> rfl
@[simp] theorem fire_ctxs (s : State) (fn entry : Nat) : (s.fire fn entry).ctxs = s.ctxs := by
  simp only [State.fire]; split <;> rfl
@[simp] theorem fire_qslots (s : State) (fn entry : Nat) : (s.fire fn entry).qslots = s.qslots := by
  simp only [State.fire]; split <;> rfl
@[simp] theorem fire_queues (s : State) (fn entry : Nat) : (s.fire fn entry).queues = s.queues := by
  simp only [State.fire]; split <;> rfl
@[simp] theorem fire_msgs (s : State) (fn entry : Nat) : (s.fire fn entry).msgs = s.msgs := by
  simp only [State.fire]; split <;> rfl
@[simp] theorem fire_deadMsgs (s : State) (fn entry : Nat) : (s.fire fn entry).deadMsgs = s.deadMsgs := by
  simp only [State.fire]; split <;> rfl
@[simp] theorem fire_txs (s : State) (fn entry : Nat) : (s.fire fn entry).txs = s.txs := by
  simp only [State.fire]; split <;> rfl
@[simp] theorem fire_rxs (s : State) (fn entry : Nat) : (s.fire fn entry).rxs = s.rxs := by
  simp only [State.fire]; split <;> rfl
@[simp] theorem fire_echoes (s : State) (fn entry : Nat) : (s.fire fn entry).echoes = s.echoes := by
  simp only [State.fire]; split <;> rfl
@[simp] theorem fire_gate (s : State) (fn entry : Nat) : (s.fire fn entry).gate = s.gate := by
  simp only [State.fire]; split <;> rfl
@[simp] theorem fire_fw (s : State) (fn entry : Nat) : (s.fire fn entry).fw = s.fw := by
  simp only [State.fire]; split <;> rfl
@[simp] theorem fire_mule (s : State) (fn entry : Nat) : (s.fire fn entry).mule = s.mule := by
  simp only [State.fire]; split <;> rfl
@[simp] theorem fire_twin (s : State) (fn entry : Nat) : (s.fire fn entry).twin = s.twin := by
  simp only [State.fire]; split <;> rfl
@[simp] theorem fire_access (s : State) (fn entry : Nat) : (s.fire fn entry).access = s.access := by
  simp only [State.fire]; split <;> rfl

/-! ### A management cause: it changes only out, funcs, power -/

@[simp] theorem mgmtCause_pending (s : State) (bit : Nat) : (s.mgmtCause bit).pending = s.pending := by
  simp only [State.mgmtCause]; split <;> simp
@[simp] theorem mgmtCause_time (s : State) (bit : Nat) : (s.mgmtCause bit).time = s.time := by
  simp only [State.mgmtCause]; split <;> simp
@[simp] theorem mgmtCause_free (s : State) (bit : Nat) : (s.mgmtCause bit).free = s.free := by
  simp only [State.mgmtCause]; split <;> simp
@[simp] theorem mgmtCause_wire (s : State) (bit : Nat) : (s.mgmtCause bit).wire = s.wire := by
  simp only [State.mgmtCause]; split <;> simp
@[simp] theorem mgmtCause_counters (s : State) (bit : Nat) : (s.mgmtCause bit).counters = s.counters := by
  simp only [State.mgmtCause]; split <;> simp
@[simp] theorem mgmtCause_rooster (s : State) (bit : Nat) : (s.mgmtCause bit).rooster = s.rooster := by
  simp only [State.mgmtCause]; split <;> simp
@[simp] theorem mgmtCause_ports (s : State) (bit : Nat) : (s.mgmtCause bit).ports = s.ports := by
  simp only [State.mgmtCause]; split <;> simp
@[simp] theorem mgmtCause_lanes (s : State) (bit : Nat) : (s.mgmtCause bit).lanes = s.lanes := by
  simp only [State.mgmtCause]; split <;> simp
@[simp] theorem mgmtCause_accts (s : State) (bit : Nat) : (s.mgmtCause bit).accts = s.accts := by
  simp only [State.mgmtCause]; split <;> simp
@[simp] theorem mgmtCause_west (s : State) (bit : Nat) : (s.mgmtCause bit).west = s.west := by
  simp only [State.mgmtCause]; split <;> simp
@[simp] theorem mgmtCause_east (s : State) (bit : Nat) : (s.mgmtCause bit).east = s.east := by
  simp only [State.mgmtCause]; split <;> simp
@[simp] theorem mgmtCause_descs (s : State) (bit : Nat) : (s.mgmtCause bit).descs = s.descs := by
  simp only [State.mgmtCause]; split <;> simp
@[simp] theorem mgmtCause_epoch (s : State) (bit : Nat) : (s.mgmtCause bit).epoch = s.epoch := by
  simp only [State.mgmtCause]; split <;> simp
@[simp] theorem mgmtCause_engines (s : State) (bit : Nat) : (s.mgmtCause bit).engines = s.engines := by
  simp only [State.mgmtCause]; split <;> simp
@[simp] theorem mgmtCause_threads (s : State) (bit : Nat) : (s.mgmtCause bit).threads = s.threads := by
  simp only [State.mgmtCause]; split <;> simp
@[simp] theorem mgmtCause_depot (s : State) (bit : Nat) : (s.mgmtCause bit).depot = s.depot := by
  simp only [State.mgmtCause]; split <;> simp
@[simp] theorem mgmtCause_parts (s : State) (bit : Nat) : (s.mgmtCause bit).parts = s.parts := by
  simp only [State.mgmtCause]; split <;> simp
@[simp] theorem mgmtCause_ctxs (s : State) (bit : Nat) : (s.mgmtCause bit).ctxs = s.ctxs := by
  simp only [State.mgmtCause]; split <;> simp
@[simp] theorem mgmtCause_qslots (s : State) (bit : Nat) : (s.mgmtCause bit).qslots = s.qslots := by
  simp only [State.mgmtCause]; split <;> simp
@[simp] theorem mgmtCause_queues (s : State) (bit : Nat) : (s.mgmtCause bit).queues = s.queues := by
  simp only [State.mgmtCause]; split <;> simp
@[simp] theorem mgmtCause_msgs (s : State) (bit : Nat) : (s.mgmtCause bit).msgs = s.msgs := by
  simp only [State.mgmtCause]; split <;> simp
@[simp] theorem mgmtCause_deadMsgs (s : State) (bit : Nat) : (s.mgmtCause bit).deadMsgs = s.deadMsgs := by
  simp only [State.mgmtCause]; split <;> simp
@[simp] theorem mgmtCause_txs (s : State) (bit : Nat) : (s.mgmtCause bit).txs = s.txs := by
  simp only [State.mgmtCause]; split <;> simp
@[simp] theorem mgmtCause_rxs (s : State) (bit : Nat) : (s.mgmtCause bit).rxs = s.rxs := by
  simp only [State.mgmtCause]; split <;> simp
@[simp] theorem mgmtCause_echoes (s : State) (bit : Nat) : (s.mgmtCause bit).echoes = s.echoes := by
  simp only [State.mgmtCause]; split <;> simp
@[simp] theorem mgmtCause_gate (s : State) (bit : Nat) : (s.mgmtCause bit).gate = s.gate := by
  simp only [State.mgmtCause]; split <;> simp
@[simp] theorem mgmtCause_fw (s : State) (bit : Nat) : (s.mgmtCause bit).fw = s.fw := by
  simp only [State.mgmtCause]; split <;> simp
@[simp] theorem mgmtCause_mule (s : State) (bit : Nat) : (s.mgmtCause bit).mule = s.mule := by
  simp only [State.mgmtCause]; split <;> simp
@[simp] theorem mgmtCause_twin (s : State) (bit : Nat) : (s.mgmtCause bit).twin = s.twin := by
  simp only [State.mgmtCause]; split <;> simp
@[simp] theorem mgmtCause_access (s : State) (bit : Nat) : (s.mgmtCause bit).access = s.access := by
  simp only [State.mgmtCause]; split <;> simp

/-! ### A cause of a function: it changes only out, funcs, parts -/

@[simp] theorem funcCause_pending (s : State) (p bit : Nat) : (s.funcCause p bit).pending = s.pending := by
  simp only [State.funcCause]; split <;> simp
@[simp] theorem funcCause_time (s : State) (p bit : Nat) : (s.funcCause p bit).time = s.time := by
  simp only [State.funcCause]; split <;> simp
@[simp] theorem funcCause_free (s : State) (p bit : Nat) : (s.funcCause p bit).free = s.free := by
  simp only [State.funcCause]; split <;> simp
@[simp] theorem funcCause_wire (s : State) (p bit : Nat) : (s.funcCause p bit).wire = s.wire := by
  simp only [State.funcCause]; split <;> simp
@[simp] theorem funcCause_counters (s : State) (p bit : Nat) : (s.funcCause p bit).counters = s.counters := by
  simp only [State.funcCause]; split <;> simp
@[simp] theorem funcCause_power (s : State) (p bit : Nat) : (s.funcCause p bit).power = s.power := by
  simp only [State.funcCause]; split <;> simp
@[simp] theorem funcCause_rooster (s : State) (p bit : Nat) : (s.funcCause p bit).rooster = s.rooster := by
  simp only [State.funcCause]; split <;> simp
@[simp] theorem funcCause_ports (s : State) (p bit : Nat) : (s.funcCause p bit).ports = s.ports := by
  simp only [State.funcCause]; split <;> simp
@[simp] theorem funcCause_lanes (s : State) (p bit : Nat) : (s.funcCause p bit).lanes = s.lanes := by
  simp only [State.funcCause]; split <;> simp
@[simp] theorem funcCause_accts (s : State) (p bit : Nat) : (s.funcCause p bit).accts = s.accts := by
  simp only [State.funcCause]; split <;> simp
@[simp] theorem funcCause_west (s : State) (p bit : Nat) : (s.funcCause p bit).west = s.west := by
  simp only [State.funcCause]; split <;> simp
@[simp] theorem funcCause_east (s : State) (p bit : Nat) : (s.funcCause p bit).east = s.east := by
  simp only [State.funcCause]; split <;> simp
@[simp] theorem funcCause_descs (s : State) (p bit : Nat) : (s.funcCause p bit).descs = s.descs := by
  simp only [State.funcCause]; split <;> simp
@[simp] theorem funcCause_epoch (s : State) (p bit : Nat) : (s.funcCause p bit).epoch = s.epoch := by
  simp only [State.funcCause]; split <;> simp
@[simp] theorem funcCause_engines (s : State) (p bit : Nat) : (s.funcCause p bit).engines = s.engines := by
  simp only [State.funcCause]; split <;> simp
@[simp] theorem funcCause_threads (s : State) (p bit : Nat) : (s.funcCause p bit).threads = s.threads := by
  simp only [State.funcCause]; split <;> simp
@[simp] theorem funcCause_depot (s : State) (p bit : Nat) : (s.funcCause p bit).depot = s.depot := by
  simp only [State.funcCause]; split <;> simp
@[simp] theorem funcCause_ctxs (s : State) (p bit : Nat) : (s.funcCause p bit).ctxs = s.ctxs := by
  simp only [State.funcCause]; split <;> simp
@[simp] theorem funcCause_qslots (s : State) (p bit : Nat) : (s.funcCause p bit).qslots = s.qslots := by
  simp only [State.funcCause]; split <;> simp
@[simp] theorem funcCause_queues (s : State) (p bit : Nat) : (s.funcCause p bit).queues = s.queues := by
  simp only [State.funcCause]; split <;> simp
@[simp] theorem funcCause_msgs (s : State) (p bit : Nat) : (s.funcCause p bit).msgs = s.msgs := by
  simp only [State.funcCause]; split <;> simp
@[simp] theorem funcCause_deadMsgs (s : State) (p bit : Nat) : (s.funcCause p bit).deadMsgs = s.deadMsgs := by
  simp only [State.funcCause]; split <;> simp
@[simp] theorem funcCause_txs (s : State) (p bit : Nat) : (s.funcCause p bit).txs = s.txs := by
  simp only [State.funcCause]; split <;> simp
@[simp] theorem funcCause_rxs (s : State) (p bit : Nat) : (s.funcCause p bit).rxs = s.rxs := by
  simp only [State.funcCause]; split <;> simp
@[simp] theorem funcCause_echoes (s : State) (p bit : Nat) : (s.funcCause p bit).echoes = s.echoes := by
  simp only [State.funcCause]; split <;> simp
@[simp] theorem funcCause_gate (s : State) (p bit : Nat) : (s.funcCause p bit).gate = s.gate := by
  simp only [State.funcCause]; split <;> simp
@[simp] theorem funcCause_fw (s : State) (p bit : Nat) : (s.funcCause p bit).fw = s.fw := by
  simp only [State.funcCause]; split <;> simp
@[simp] theorem funcCause_mule (s : State) (p bit : Nat) : (s.funcCause p bit).mule = s.mule := by
  simp only [State.funcCause]; split <;> simp
@[simp] theorem funcCause_twin (s : State) (p bit : Nat) : (s.funcCause p bit).twin = s.twin := by
  simp only [State.funcCause]; split <;> simp
@[simp] theorem funcCause_access (s : State) (p bit : Nat) : (s.funcCause p bit).access = s.access := by
  simp only [State.funcCause]; split <;> simp

/-! ### The test of a CQ: it changes only out, funcs, queues -/

@[simp] theorem cqTest_pending (s : State) (qid : Nat) : (s.cqTest qid).pending = s.pending := by
  simp only [State.cqTest]; split; · rfl
  · split <;> simp
@[simp] theorem cqTest_time (s : State) (qid : Nat) : (s.cqTest qid).time = s.time := by
  simp only [State.cqTest]; split; · rfl
  · split <;> simp
@[simp] theorem cqTest_free (s : State) (qid : Nat) : (s.cqTest qid).free = s.free := by
  simp only [State.cqTest]; split; · rfl
  · split <;> simp
@[simp] theorem cqTest_wire (s : State) (qid : Nat) : (s.cqTest qid).wire = s.wire := by
  simp only [State.cqTest]; split; · rfl
  · split <;> simp
@[simp] theorem cqTest_counters (s : State) (qid : Nat) : (s.cqTest qid).counters = s.counters := by
  simp only [State.cqTest]; split; · rfl
  · split <;> simp
@[simp] theorem cqTest_power (s : State) (qid : Nat) : (s.cqTest qid).power = s.power := by
  simp only [State.cqTest]; split; · rfl
  · split <;> simp
@[simp] theorem cqTest_rooster (s : State) (qid : Nat) : (s.cqTest qid).rooster = s.rooster := by
  simp only [State.cqTest]; split; · rfl
  · split <;> simp
@[simp] theorem cqTest_ports (s : State) (qid : Nat) : (s.cqTest qid).ports = s.ports := by
  simp only [State.cqTest]; split; · rfl
  · split <;> simp
@[simp] theorem cqTest_lanes (s : State) (qid : Nat) : (s.cqTest qid).lanes = s.lanes := by
  simp only [State.cqTest]; split; · rfl
  · split <;> simp
@[simp] theorem cqTest_accts (s : State) (qid : Nat) : (s.cqTest qid).accts = s.accts := by
  simp only [State.cqTest]; split; · rfl
  · split <;> simp
@[simp] theorem cqTest_west (s : State) (qid : Nat) : (s.cqTest qid).west = s.west := by
  simp only [State.cqTest]; split; · rfl
  · split <;> simp
@[simp] theorem cqTest_east (s : State) (qid : Nat) : (s.cqTest qid).east = s.east := by
  simp only [State.cqTest]; split; · rfl
  · split <;> simp
@[simp] theorem cqTest_descs (s : State) (qid : Nat) : (s.cqTest qid).descs = s.descs := by
  simp only [State.cqTest]; split; · rfl
  · split <;> simp
@[simp] theorem cqTest_epoch (s : State) (qid : Nat) : (s.cqTest qid).epoch = s.epoch := by
  simp only [State.cqTest]; split; · rfl
  · split <;> simp
@[simp] theorem cqTest_engines (s : State) (qid : Nat) : (s.cqTest qid).engines = s.engines := by
  simp only [State.cqTest]; split; · rfl
  · split <;> simp
@[simp] theorem cqTest_threads (s : State) (qid : Nat) : (s.cqTest qid).threads = s.threads := by
  simp only [State.cqTest]; split; · rfl
  · split <;> simp
@[simp] theorem cqTest_depot (s : State) (qid : Nat) : (s.cqTest qid).depot = s.depot := by
  simp only [State.cqTest]; split; · rfl
  · split <;> simp
@[simp] theorem cqTest_parts (s : State) (qid : Nat) : (s.cqTest qid).parts = s.parts := by
  simp only [State.cqTest]; split; · rfl
  · split <;> simp
@[simp] theorem cqTest_ctxs (s : State) (qid : Nat) : (s.cqTest qid).ctxs = s.ctxs := by
  simp only [State.cqTest]; split; · rfl
  · split <;> simp
@[simp] theorem cqTest_qslots (s : State) (qid : Nat) : (s.cqTest qid).qslots = s.qslots := by
  simp only [State.cqTest]; split; · rfl
  · split <;> simp
@[simp] theorem cqTest_msgs (s : State) (qid : Nat) : (s.cqTest qid).msgs = s.msgs := by
  simp only [State.cqTest]; split; · rfl
  · split <;> simp
@[simp] theorem cqTest_deadMsgs (s : State) (qid : Nat) : (s.cqTest qid).deadMsgs = s.deadMsgs := by
  simp only [State.cqTest]; split; · rfl
  · split <;> simp
@[simp] theorem cqTest_txs (s : State) (qid : Nat) : (s.cqTest qid).txs = s.txs := by
  simp only [State.cqTest]; split; · rfl
  · split <;> simp
@[simp] theorem cqTest_rxs (s : State) (qid : Nat) : (s.cqTest qid).rxs = s.rxs := by
  simp only [State.cqTest]; split; · rfl
  · split <;> simp
@[simp] theorem cqTest_echoes (s : State) (qid : Nat) : (s.cqTest qid).echoes = s.echoes := by
  simp only [State.cqTest]; split; · rfl
  · split <;> simp
@[simp] theorem cqTest_gate (s : State) (qid : Nat) : (s.cqTest qid).gate = s.gate := by
  simp only [State.cqTest]; split; · rfl
  · split <;> simp
@[simp] theorem cqTest_fw (s : State) (qid : Nat) : (s.cqTest qid).fw = s.fw := by
  simp only [State.cqTest]; split; · rfl
  · split <;> simp
@[simp] theorem cqTest_mule (s : State) (qid : Nat) : (s.cqTest qid).mule = s.mule := by
  simp only [State.cqTest]; split; · rfl
  · split <;> simp
@[simp] theorem cqTest_twin (s : State) (qid : Nat) : (s.cqTest qid).twin = s.twin := by
  simp only [State.cqTest]; split; · rfl
  · split <;> simp
@[simp] theorem cqTest_access (s : State) (qid : Nat) : (s.cqTest qid).access = s.access := by
  simp only [State.cqTest]; split; · rfl
  · split <;> simp

/-! ### A record written: it changes only out, funcs, queues -/

@[simp] theorem writeRecord_pending (s : State) (qid : Nat) (r : List Byte) (a b c : Bool) : (s.writeRecord qid r a b c).pending = s.pending := by
  simp only [State.writeRecord]; split <;> simp
@[simp] theorem writeRecord_time (s : State) (qid : Nat) (r : List Byte) (a b c : Bool) : (s.writeRecord qid r a b c).time = s.time := by
  simp only [State.writeRecord]; split <;> simp
@[simp] theorem writeRecord_free (s : State) (qid : Nat) (r : List Byte) (a b c : Bool) : (s.writeRecord qid r a b c).free = s.free := by
  simp only [State.writeRecord]; split <;> simp
@[simp] theorem writeRecord_wire (s : State) (qid : Nat) (r : List Byte) (a b c : Bool) : (s.writeRecord qid r a b c).wire = s.wire := by
  simp only [State.writeRecord]; split <;> simp
@[simp] theorem writeRecord_counters (s : State) (qid : Nat) (r : List Byte) (a b c : Bool) : (s.writeRecord qid r a b c).counters = s.counters := by
  simp only [State.writeRecord]; split <;> simp
@[simp] theorem writeRecord_power (s : State) (qid : Nat) (r : List Byte) (a b c : Bool) : (s.writeRecord qid r a b c).power = s.power := by
  simp only [State.writeRecord]; split <;> simp
@[simp] theorem writeRecord_rooster (s : State) (qid : Nat) (r : List Byte) (a b c : Bool) : (s.writeRecord qid r a b c).rooster = s.rooster := by
  simp only [State.writeRecord]; split <;> simp
@[simp] theorem writeRecord_ports (s : State) (qid : Nat) (r : List Byte) (a b c : Bool) : (s.writeRecord qid r a b c).ports = s.ports := by
  simp only [State.writeRecord]; split <;> simp
@[simp] theorem writeRecord_lanes (s : State) (qid : Nat) (r : List Byte) (a b c : Bool) : (s.writeRecord qid r a b c).lanes = s.lanes := by
  simp only [State.writeRecord]; split <;> simp
@[simp] theorem writeRecord_accts (s : State) (qid : Nat) (r : List Byte) (a b c : Bool) : (s.writeRecord qid r a b c).accts = s.accts := by
  simp only [State.writeRecord]; split <;> simp
@[simp] theorem writeRecord_west (s : State) (qid : Nat) (r : List Byte) (a b c : Bool) : (s.writeRecord qid r a b c).west = s.west := by
  simp only [State.writeRecord]; split <;> simp
@[simp] theorem writeRecord_east (s : State) (qid : Nat) (r : List Byte) (a b c : Bool) : (s.writeRecord qid r a b c).east = s.east := by
  simp only [State.writeRecord]; split <;> simp
@[simp] theorem writeRecord_descs (s : State) (qid : Nat) (r : List Byte) (a b c : Bool) : (s.writeRecord qid r a b c).descs = s.descs := by
  simp only [State.writeRecord]; split <;> simp
@[simp] theorem writeRecord_epoch (s : State) (qid : Nat) (r : List Byte) (a b c : Bool) : (s.writeRecord qid r a b c).epoch = s.epoch := by
  simp only [State.writeRecord]; split <;> simp
@[simp] theorem writeRecord_engines (s : State) (qid : Nat) (r : List Byte) (a b c : Bool) : (s.writeRecord qid r a b c).engines = s.engines := by
  simp only [State.writeRecord]; split <;> simp
@[simp] theorem writeRecord_threads (s : State) (qid : Nat) (r : List Byte) (a b c : Bool) : (s.writeRecord qid r a b c).threads = s.threads := by
  simp only [State.writeRecord]; split <;> simp
@[simp] theorem writeRecord_depot (s : State) (qid : Nat) (r : List Byte) (a b c : Bool) : (s.writeRecord qid r a b c).depot = s.depot := by
  simp only [State.writeRecord]; split <;> simp
@[simp] theorem writeRecord_parts (s : State) (qid : Nat) (r : List Byte) (a b c : Bool) : (s.writeRecord qid r a b c).parts = s.parts := by
  simp only [State.writeRecord]; split <;> simp
@[simp] theorem writeRecord_ctxs (s : State) (qid : Nat) (r : List Byte) (a b c : Bool) : (s.writeRecord qid r a b c).ctxs = s.ctxs := by
  simp only [State.writeRecord]; split <;> simp
@[simp] theorem writeRecord_qslots (s : State) (qid : Nat) (r : List Byte) (a b c : Bool) : (s.writeRecord qid r a b c).qslots = s.qslots := by
  simp only [State.writeRecord]; split <;> simp
@[simp] theorem writeRecord_msgs (s : State) (qid : Nat) (r : List Byte) (a b c : Bool) : (s.writeRecord qid r a b c).msgs = s.msgs := by
  simp only [State.writeRecord]; split <;> simp
@[simp] theorem writeRecord_deadMsgs (s : State) (qid : Nat) (r : List Byte) (a b c : Bool) : (s.writeRecord qid r a b c).deadMsgs = s.deadMsgs := by
  simp only [State.writeRecord]; split <;> simp
@[simp] theorem writeRecord_txs (s : State) (qid : Nat) (r : List Byte) (a b c : Bool) : (s.writeRecord qid r a b c).txs = s.txs := by
  simp only [State.writeRecord]; split <;> simp
@[simp] theorem writeRecord_rxs (s : State) (qid : Nat) (r : List Byte) (a b c : Bool) : (s.writeRecord qid r a b c).rxs = s.rxs := by
  simp only [State.writeRecord]; split <;> simp
@[simp] theorem writeRecord_echoes (s : State) (qid : Nat) (r : List Byte) (a b c : Bool) : (s.writeRecord qid r a b c).echoes = s.echoes := by
  simp only [State.writeRecord]; split <;> simp
@[simp] theorem writeRecord_gate (s : State) (qid : Nat) (r : List Byte) (a b c : Bool) : (s.writeRecord qid r a b c).gate = s.gate := by
  simp only [State.writeRecord]; split <;> simp
@[simp] theorem writeRecord_fw (s : State) (qid : Nat) (r : List Byte) (a b c : Bool) : (s.writeRecord qid r a b c).fw = s.fw := by
  simp only [State.writeRecord]; split <;> simp
@[simp] theorem writeRecord_mule (s : State) (qid : Nat) (r : List Byte) (a b c : Bool) : (s.writeRecord qid r a b c).mule = s.mule := by
  simp only [State.writeRecord]; split <;> simp
@[simp] theorem writeRecord_twin (s : State) (qid : Nat) (r : List Byte) (a b c : Bool) : (s.writeRecord qid r a b c).twin = s.twin := by
  simp only [State.writeRecord]; split <;> simp
@[simp] theorem writeRecord_access (s : State) (qid : Nat) (r : List Byte) (a b c : Bool) : (s.writeRecord qid r a b c).access = s.access := by
  simp only [State.writeRecord]; split <;> simp

/-! ### A CQ that is full: it changes only out, funcs, parts, qslots -/

@[simp] theorem cqOverflow_pending (s : State) (qid : Nat) : (s.cqOverflow qid).pending = s.pending := by
  simp only [State.cqOverflow]; split; · rfl
  · split <;> simp
@[simp] theorem cqOverflow_time (s : State) (qid : Nat) : (s.cqOverflow qid).time = s.time := by
  simp only [State.cqOverflow]; split; · rfl
  · split <;> simp
@[simp] theorem cqOverflow_free (s : State) (qid : Nat) : (s.cqOverflow qid).free = s.free := by
  simp only [State.cqOverflow]; split; · rfl
  · split <;> simp
@[simp] theorem cqOverflow_wire (s : State) (qid : Nat) : (s.cqOverflow qid).wire = s.wire := by
  simp only [State.cqOverflow]; split; · rfl
  · split <;> simp
@[simp] theorem cqOverflow_counters (s : State) (qid : Nat) : (s.cqOverflow qid).counters = s.counters := by
  simp only [State.cqOverflow]; split; · rfl
  · split <;> simp
@[simp] theorem cqOverflow_power (s : State) (qid : Nat) : (s.cqOverflow qid).power = s.power := by
  simp only [State.cqOverflow]; split; · rfl
  · split <;> simp
@[simp] theorem cqOverflow_rooster (s : State) (qid : Nat) : (s.cqOverflow qid).rooster = s.rooster := by
  simp only [State.cqOverflow]; split; · rfl
  · split <;> simp
@[simp] theorem cqOverflow_ports (s : State) (qid : Nat) : (s.cqOverflow qid).ports = s.ports := by
  simp only [State.cqOverflow]; split; · rfl
  · split <;> simp
@[simp] theorem cqOverflow_lanes (s : State) (qid : Nat) : (s.cqOverflow qid).lanes = s.lanes := by
  simp only [State.cqOverflow]; split; · rfl
  · split <;> simp
@[simp] theorem cqOverflow_accts (s : State) (qid : Nat) : (s.cqOverflow qid).accts = s.accts := by
  simp only [State.cqOverflow]; split; · rfl
  · split <;> simp
@[simp] theorem cqOverflow_west (s : State) (qid : Nat) : (s.cqOverflow qid).west = s.west := by
  simp only [State.cqOverflow]; split; · rfl
  · split <;> simp
@[simp] theorem cqOverflow_east (s : State) (qid : Nat) : (s.cqOverflow qid).east = s.east := by
  simp only [State.cqOverflow]; split; · rfl
  · split <;> simp
@[simp] theorem cqOverflow_descs (s : State) (qid : Nat) : (s.cqOverflow qid).descs = s.descs := by
  simp only [State.cqOverflow]; split; · rfl
  · split <;> simp
@[simp] theorem cqOverflow_epoch (s : State) (qid : Nat) : (s.cqOverflow qid).epoch = s.epoch := by
  simp only [State.cqOverflow]; split; · rfl
  · split <;> simp
@[simp] theorem cqOverflow_engines (s : State) (qid : Nat) : (s.cqOverflow qid).engines = s.engines := by
  simp only [State.cqOverflow]; split; · rfl
  · split <;> simp
@[simp] theorem cqOverflow_threads (s : State) (qid : Nat) : (s.cqOverflow qid).threads = s.threads := by
  simp only [State.cqOverflow]; split; · rfl
  · split <;> simp
@[simp] theorem cqOverflow_depot (s : State) (qid : Nat) : (s.cqOverflow qid).depot = s.depot := by
  simp only [State.cqOverflow]; split; · rfl
  · split <;> simp
@[simp] theorem cqOverflow_ctxs (s : State) (qid : Nat) : (s.cqOverflow qid).ctxs = s.ctxs := by
  simp only [State.cqOverflow]; split; · rfl
  · split <;> simp
@[simp] theorem cqOverflow_queues (s : State) (qid : Nat) : (s.cqOverflow qid).queues = s.queues := by
  simp only [State.cqOverflow]; split; · rfl
  · split <;> simp
@[simp] theorem cqOverflow_msgs (s : State) (qid : Nat) : (s.cqOverflow qid).msgs = s.msgs := by
  simp only [State.cqOverflow]; split; · rfl
  · split <;> simp
@[simp] theorem cqOverflow_deadMsgs (s : State) (qid : Nat) : (s.cqOverflow qid).deadMsgs = s.deadMsgs := by
  simp only [State.cqOverflow]; split; · rfl
  · split <;> simp
@[simp] theorem cqOverflow_txs (s : State) (qid : Nat) : (s.cqOverflow qid).txs = s.txs := by
  simp only [State.cqOverflow]; split; · rfl
  · split <;> simp
@[simp] theorem cqOverflow_rxs (s : State) (qid : Nat) : (s.cqOverflow qid).rxs = s.rxs := by
  simp only [State.cqOverflow]; split; · rfl
  · split <;> simp
@[simp] theorem cqOverflow_echoes (s : State) (qid : Nat) : (s.cqOverflow qid).echoes = s.echoes := by
  simp only [State.cqOverflow]; split; · rfl
  · split <;> simp
@[simp] theorem cqOverflow_gate (s : State) (qid : Nat) : (s.cqOverflow qid).gate = s.gate := by
  simp only [State.cqOverflow]; split; · rfl
  · split <;> simp
@[simp] theorem cqOverflow_fw (s : State) (qid : Nat) : (s.cqOverflow qid).fw = s.fw := by
  simp only [State.cqOverflow]; split; · rfl
  · split <;> simp
@[simp] theorem cqOverflow_mule (s : State) (qid : Nat) : (s.cqOverflow qid).mule = s.mule := by
  simp only [State.cqOverflow]; split; · rfl
  · split <;> simp
@[simp] theorem cqOverflow_twin (s : State) (qid : Nat) : (s.cqOverflow qid).twin = s.twin := by
  simp only [State.cqOverflow]; split; · rfl
  · split <;> simp
@[simp] theorem cqOverflow_access (s : State) (qid : Nat) : (s.cqOverflow qid).access = s.access := by
  simp only [State.cqOverflow]; split; · rfl
  · split <;> simp

/-! ### An event dropped: it changes only out, funcs, parts, counters -/

@[simp] theorem eventDrop_pending (s : State) (c : Nat) : (s.eventDrop c).pending = s.pending := by
  simp [State.eventDrop]
@[simp] theorem eventDrop_time (s : State) (c : Nat) : (s.eventDrop c).time = s.time := by simp [State.eventDrop]
@[simp] theorem eventDrop_free (s : State) (c : Nat) : (s.eventDrop c).free = s.free := by simp [State.eventDrop]
@[simp] theorem eventDrop_wire (s : State) (c : Nat) : (s.eventDrop c).wire = s.wire := by simp [State.eventDrop]
@[simp] theorem eventDrop_power (s : State) (c : Nat) : (s.eventDrop c).power = s.power := by simp [State.eventDrop]
@[simp] theorem eventDrop_rooster (s : State) (c : Nat) : (s.eventDrop c).rooster = s.rooster := by
  simp [State.eventDrop]
@[simp] theorem eventDrop_ports (s : State) (c : Nat) : (s.eventDrop c).ports = s.ports := by simp [State.eventDrop]
@[simp] theorem eventDrop_lanes (s : State) (c : Nat) : (s.eventDrop c).lanes = s.lanes := by simp [State.eventDrop]
@[simp] theorem eventDrop_accts (s : State) (c : Nat) : (s.eventDrop c).accts = s.accts := by simp [State.eventDrop]
@[simp] theorem eventDrop_west (s : State) (c : Nat) : (s.eventDrop c).west = s.west := by simp [State.eventDrop]
@[simp] theorem eventDrop_east (s : State) (c : Nat) : (s.eventDrop c).east = s.east := by simp [State.eventDrop]
@[simp] theorem eventDrop_descs (s : State) (c : Nat) : (s.eventDrop c).descs = s.descs := by simp [State.eventDrop]
@[simp] theorem eventDrop_epoch (s : State) (c : Nat) : (s.eventDrop c).epoch = s.epoch := by simp [State.eventDrop]
@[simp] theorem eventDrop_engines (s : State) (c : Nat) : (s.eventDrop c).engines = s.engines := by
  simp [State.eventDrop]
@[simp] theorem eventDrop_threads (s : State) (c : Nat) : (s.eventDrop c).threads = s.threads := by
  simp [State.eventDrop]
@[simp] theorem eventDrop_depot (s : State) (c : Nat) : (s.eventDrop c).depot = s.depot := by simp [State.eventDrop]
@[simp] theorem eventDrop_ctxs (s : State) (c : Nat) : (s.eventDrop c).ctxs = s.ctxs := by simp [State.eventDrop]
@[simp] theorem eventDrop_qslots (s : State) (c : Nat) : (s.eventDrop c).qslots = s.qslots := by simp [State.eventDrop]
@[simp] theorem eventDrop_queues (s : State) (c : Nat) : (s.eventDrop c).queues = s.queues := by simp [State.eventDrop]
@[simp] theorem eventDrop_msgs (s : State) (c : Nat) : (s.eventDrop c).msgs = s.msgs := by simp [State.eventDrop]
@[simp] theorem eventDrop_deadMsgs (s : State) (c : Nat) : (s.eventDrop c).deadMsgs = s.deadMsgs := by
  simp [State.eventDrop]
@[simp] theorem eventDrop_txs (s : State) (c : Nat) : (s.eventDrop c).txs = s.txs := by simp [State.eventDrop]
@[simp] theorem eventDrop_rxs (s : State) (c : Nat) : (s.eventDrop c).rxs = s.rxs := by simp [State.eventDrop]
@[simp] theorem eventDrop_echoes (s : State) (c : Nat) : (s.eventDrop c).echoes = s.echoes := by simp [State.eventDrop]
@[simp] theorem eventDrop_gate (s : State) (c : Nat) : (s.eventDrop c).gate = s.gate := by simp [State.eventDrop]
@[simp] theorem eventDrop_fw (s : State) (c : Nat) : (s.eventDrop c).fw = s.fw := by simp [State.eventDrop]
@[simp] theorem eventDrop_mule (s : State) (c : Nat) : (s.eventDrop c).mule = s.mule := by simp [State.eventDrop]
@[simp] theorem eventDrop_twin (s : State) (c : Nat) : (s.eventDrop c).twin = s.twin := by simp [State.eventDrop]
@[simp] theorem eventDrop_access (s : State) (c : Nat) : (s.eventDrop c).access = s.access := by simp [State.eventDrop]

/-! ### An event: it changes only out, funcs, parts, counters, queues, qslots -/

@[simp] theorem postEvent_pending (s : State) (c e w4 w8 : Nat) : (s.postEvent c e w4 w8).pending = s.pending := by
  simp only [State.postEvent]; repeat' split
  all_goals simp
@[simp] theorem postEvent_time (s : State) (c e w4 w8 : Nat) : (s.postEvent c e w4 w8).time = s.time := by
  simp only [State.postEvent]; repeat' split
  all_goals simp
@[simp] theorem postEvent_free (s : State) (c e w4 w8 : Nat) : (s.postEvent c e w4 w8).free = s.free := by
  simp only [State.postEvent]; repeat' split
  all_goals simp
@[simp] theorem postEvent_wire (s : State) (c e w4 w8 : Nat) : (s.postEvent c e w4 w8).wire = s.wire := by
  simp only [State.postEvent]; repeat' split
  all_goals simp
@[simp] theorem postEvent_power (s : State) (c e w4 w8 : Nat) : (s.postEvent c e w4 w8).power = s.power := by
  simp only [State.postEvent]; repeat' split
  all_goals simp
@[simp] theorem postEvent_rooster (s : State) (c e w4 w8 : Nat) : (s.postEvent c e w4 w8).rooster = s.rooster := by
  simp only [State.postEvent]; repeat' split
  all_goals simp
@[simp] theorem postEvent_ports (s : State) (c e w4 w8 : Nat) : (s.postEvent c e w4 w8).ports = s.ports := by
  simp only [State.postEvent]; repeat' split
  all_goals simp
@[simp] theorem postEvent_lanes (s : State) (c e w4 w8 : Nat) : (s.postEvent c e w4 w8).lanes = s.lanes := by
  simp only [State.postEvent]; repeat' split
  all_goals simp
@[simp] theorem postEvent_accts (s : State) (c e w4 w8 : Nat) : (s.postEvent c e w4 w8).accts = s.accts := by
  simp only [State.postEvent]; repeat' split
  all_goals simp
@[simp] theorem postEvent_west (s : State) (c e w4 w8 : Nat) : (s.postEvent c e w4 w8).west = s.west := by
  simp only [State.postEvent]; repeat' split
  all_goals simp
@[simp] theorem postEvent_east (s : State) (c e w4 w8 : Nat) : (s.postEvent c e w4 w8).east = s.east := by
  simp only [State.postEvent]; repeat' split
  all_goals simp
@[simp] theorem postEvent_descs (s : State) (c e w4 w8 : Nat) : (s.postEvent c e w4 w8).descs = s.descs := by
  simp only [State.postEvent]; repeat' split
  all_goals simp
@[simp] theorem postEvent_epoch (s : State) (c e w4 w8 : Nat) : (s.postEvent c e w4 w8).epoch = s.epoch := by
  simp only [State.postEvent]; repeat' split
  all_goals simp
@[simp] theorem postEvent_engines (s : State) (c e w4 w8 : Nat) : (s.postEvent c e w4 w8).engines = s.engines := by
  simp only [State.postEvent]; repeat' split
  all_goals simp
@[simp] theorem postEvent_threads (s : State) (c e w4 w8 : Nat) : (s.postEvent c e w4 w8).threads = s.threads := by
  simp only [State.postEvent]; repeat' split
  all_goals simp
@[simp] theorem postEvent_depot (s : State) (c e w4 w8 : Nat) : (s.postEvent c e w4 w8).depot = s.depot := by
  simp only [State.postEvent]; repeat' split
  all_goals simp
@[simp] theorem postEvent_ctxs (s : State) (c e w4 w8 : Nat) : (s.postEvent c e w4 w8).ctxs = s.ctxs := by
  simp only [State.postEvent]; repeat' split
  all_goals simp
@[simp] theorem postEvent_msgs (s : State) (c e w4 w8 : Nat) : (s.postEvent c e w4 w8).msgs = s.msgs := by
  simp only [State.postEvent]; repeat' split
  all_goals simp
@[simp] theorem postEvent_deadMsgs (s : State) (c e w4 w8 : Nat) : (s.postEvent c e w4 w8).deadMsgs = s.deadMsgs := by
  simp only [State.postEvent]; repeat' split
  all_goals simp
@[simp] theorem postEvent_txs (s : State) (c e w4 w8 : Nat) : (s.postEvent c e w4 w8).txs = s.txs := by
  simp only [State.postEvent]; repeat' split
  all_goals simp
@[simp] theorem postEvent_rxs (s : State) (c e w4 w8 : Nat) : (s.postEvent c e w4 w8).rxs = s.rxs := by
  simp only [State.postEvent]; repeat' split
  all_goals simp
@[simp] theorem postEvent_echoes (s : State) (c e w4 w8 : Nat) : (s.postEvent c e w4 w8).echoes = s.echoes := by
  simp only [State.postEvent]; repeat' split
  all_goals simp
@[simp] theorem postEvent_gate (s : State) (c e w4 w8 : Nat) : (s.postEvent c e w4 w8).gate = s.gate := by
  simp only [State.postEvent]; repeat' split
  all_goals simp
@[simp] theorem postEvent_fw (s : State) (c e w4 w8 : Nat) : (s.postEvent c e w4 w8).fw = s.fw := by
  simp only [State.postEvent]; repeat' split
  all_goals simp
@[simp] theorem postEvent_mule (s : State) (c e w4 w8 : Nat) : (s.postEvent c e w4 w8).mule = s.mule := by
  simp only [State.postEvent]; repeat' split
  all_goals simp
@[simp] theorem postEvent_twin (s : State) (c e w4 w8 : Nat) : (s.postEvent c e w4 w8).twin = s.twin := by
  simp only [State.postEvent]; repeat' split
  all_goals simp
@[simp] theorem postEvent_access (s : State) (c e w4 w8 : Nat) : (s.postEvent c e w4 w8).access = s.access := by
  simp only [State.postEvent]; repeat' split
  all_goals simp

/-! ### A context fault: it changes only out, funcs, parts, counters, queues, qslots, ctxs -/

@[simp] theorem ctxFault_pending (s : State) (c code : Nat) : (s.ctxFault c code).pending = s.pending := by
  simp only [State.ctxFault]; repeat' split
  all_goals simp
@[simp] theorem ctxFault_time (s : State) (c code : Nat) : (s.ctxFault c code).time = s.time := by
  simp only [State.ctxFault]; repeat' split
  all_goals simp
@[simp] theorem ctxFault_free (s : State) (c code : Nat) : (s.ctxFault c code).free = s.free := by
  simp only [State.ctxFault]; repeat' split
  all_goals simp
@[simp] theorem ctxFault_wire (s : State) (c code : Nat) : (s.ctxFault c code).wire = s.wire := by
  simp only [State.ctxFault]; repeat' split
  all_goals simp
@[simp] theorem ctxFault_power (s : State) (c code : Nat) : (s.ctxFault c code).power = s.power := by
  simp only [State.ctxFault]; repeat' split
  all_goals simp
@[simp] theorem ctxFault_rooster (s : State) (c code : Nat) : (s.ctxFault c code).rooster = s.rooster := by
  simp only [State.ctxFault]; repeat' split
  all_goals simp
@[simp] theorem ctxFault_ports (s : State) (c code : Nat) : (s.ctxFault c code).ports = s.ports := by
  simp only [State.ctxFault]; repeat' split
  all_goals simp
@[simp] theorem ctxFault_lanes (s : State) (c code : Nat) : (s.ctxFault c code).lanes = s.lanes := by
  simp only [State.ctxFault]; repeat' split
  all_goals simp
@[simp] theorem ctxFault_accts (s : State) (c code : Nat) : (s.ctxFault c code).accts = s.accts := by
  simp only [State.ctxFault]; repeat' split
  all_goals simp
@[simp] theorem ctxFault_west (s : State) (c code : Nat) : (s.ctxFault c code).west = s.west := by
  simp only [State.ctxFault]; repeat' split
  all_goals simp
@[simp] theorem ctxFault_east (s : State) (c code : Nat) : (s.ctxFault c code).east = s.east := by
  simp only [State.ctxFault]; repeat' split
  all_goals simp
@[simp] theorem ctxFault_descs (s : State) (c code : Nat) : (s.ctxFault c code).descs = s.descs := by
  simp only [State.ctxFault]; repeat' split
  all_goals simp
@[simp] theorem ctxFault_epoch (s : State) (c code : Nat) : (s.ctxFault c code).epoch = s.epoch := by
  simp only [State.ctxFault]; repeat' split
  all_goals simp
@[simp] theorem ctxFault_engines (s : State) (c code : Nat) : (s.ctxFault c code).engines = s.engines := by
  simp only [State.ctxFault]; repeat' split
  all_goals simp
@[simp] theorem ctxFault_threads (s : State) (c code : Nat) : (s.ctxFault c code).threads = s.threads := by
  simp only [State.ctxFault]; repeat' split
  all_goals simp
@[simp] theorem ctxFault_depot (s : State) (c code : Nat) : (s.ctxFault c code).depot = s.depot := by
  simp only [State.ctxFault]; repeat' split
  all_goals simp
@[simp] theorem ctxFault_msgs (s : State) (c code : Nat) : (s.ctxFault c code).msgs = s.msgs := by
  simp only [State.ctxFault]; repeat' split
  all_goals simp
@[simp] theorem ctxFault_deadMsgs (s : State) (c code : Nat) : (s.ctxFault c code).deadMsgs = s.deadMsgs := by
  simp only [State.ctxFault]; repeat' split
  all_goals simp
@[simp] theorem ctxFault_txs (s : State) (c code : Nat) : (s.ctxFault c code).txs = s.txs := by
  simp only [State.ctxFault]; repeat' split
  all_goals simp
@[simp] theorem ctxFault_rxs (s : State) (c code : Nat) : (s.ctxFault c code).rxs = s.rxs := by
  simp only [State.ctxFault]; repeat' split
  all_goals simp
@[simp] theorem ctxFault_echoes (s : State) (c code : Nat) : (s.ctxFault c code).echoes = s.echoes := by
  simp only [State.ctxFault]; repeat' split
  all_goals simp
@[simp] theorem ctxFault_gate (s : State) (c code : Nat) : (s.ctxFault c code).gate = s.gate := by
  simp only [State.ctxFault]; repeat' split
  all_goals simp
@[simp] theorem ctxFault_fw (s : State) (c code : Nat) : (s.ctxFault c code).fw = s.fw := by
  simp only [State.ctxFault]; repeat' split
  all_goals simp
@[simp] theorem ctxFault_mule (s : State) (c code : Nat) : (s.ctxFault c code).mule = s.mule := by
  simp only [State.ctxFault]; repeat' split
  all_goals simp
@[simp] theorem ctxFault_twin (s : State) (c code : Nat) : (s.ctxFault c code).twin = s.twin := by
  simp only [State.ctxFault]; repeat' split
  all_goals simp
@[simp] theorem ctxFault_access (s : State) (c code : Nat) : (s.ctxFault c code).access = s.access := by
  simp only [State.ctxFault]; repeat' split
  all_goals simp

/-! ### A plan fault reaches every context of a partition -/

theorem ctxFaults_pending (l : List Nat) (code : Nat) (s : State) :
    (l.foldl (fun t c => t.ctxFault c code) s).pending = s.pending := by
  induction l generalizing s with
  | nil => rfl
  | cons c l ih => rw [List.foldl_cons, ih, ctxFault_pending]
@[simp] theorem faultAll_pending (s : State) (p code : Nat) : (s.faultAll p code).pending = s.pending := ctxFaults_pending _ _ s
theorem ctxFaults_time (l : List Nat) (code : Nat) (s : State) :
    (l.foldl (fun t c => t.ctxFault c code) s).time = s.time := by
  induction l generalizing s with
  | nil => rfl
  | cons c l ih => rw [List.foldl_cons, ih, ctxFault_time]
@[simp] theorem faultAll_time (s : State) (p code : Nat) : (s.faultAll p code).time = s.time := ctxFaults_time _ _ s
theorem ctxFaults_free (l : List Nat) (code : Nat) (s : State) :
    (l.foldl (fun t c => t.ctxFault c code) s).free = s.free := by
  induction l generalizing s with
  | nil => rfl
  | cons c l ih => rw [List.foldl_cons, ih, ctxFault_free]
@[simp] theorem faultAll_free (s : State) (p code : Nat) : (s.faultAll p code).free = s.free := ctxFaults_free _ _ s
theorem ctxFaults_wire (l : List Nat) (code : Nat) (s : State) :
    (l.foldl (fun t c => t.ctxFault c code) s).wire = s.wire := by
  induction l generalizing s with
  | nil => rfl
  | cons c l ih => rw [List.foldl_cons, ih, ctxFault_wire]
@[simp] theorem faultAll_wire (s : State) (p code : Nat) : (s.faultAll p code).wire = s.wire := ctxFaults_wire _ _ s
theorem ctxFaults_power (l : List Nat) (code : Nat) (s : State) :
    (l.foldl (fun t c => t.ctxFault c code) s).power = s.power := by
  induction l generalizing s with
  | nil => rfl
  | cons c l ih => rw [List.foldl_cons, ih, ctxFault_power]
@[simp] theorem faultAll_power (s : State) (p code : Nat) : (s.faultAll p code).power = s.power := ctxFaults_power _ _ s
theorem ctxFaults_rooster (l : List Nat) (code : Nat) (s : State) :
    (l.foldl (fun t c => t.ctxFault c code) s).rooster = s.rooster := by
  induction l generalizing s with
  | nil => rfl
  | cons c l ih => rw [List.foldl_cons, ih, ctxFault_rooster]
@[simp] theorem faultAll_rooster (s : State) (p code : Nat) : (s.faultAll p code).rooster = s.rooster := ctxFaults_rooster _ _ s
theorem ctxFaults_ports (l : List Nat) (code : Nat) (s : State) :
    (l.foldl (fun t c => t.ctxFault c code) s).ports = s.ports := by
  induction l generalizing s with
  | nil => rfl
  | cons c l ih => rw [List.foldl_cons, ih, ctxFault_ports]
@[simp] theorem faultAll_ports (s : State) (p code : Nat) : (s.faultAll p code).ports = s.ports := ctxFaults_ports _ _ s
theorem ctxFaults_lanes (l : List Nat) (code : Nat) (s : State) :
    (l.foldl (fun t c => t.ctxFault c code) s).lanes = s.lanes := by
  induction l generalizing s with
  | nil => rfl
  | cons c l ih => rw [List.foldl_cons, ih, ctxFault_lanes]
@[simp] theorem faultAll_lanes (s : State) (p code : Nat) : (s.faultAll p code).lanes = s.lanes := ctxFaults_lanes _ _ s
theorem ctxFaults_accts (l : List Nat) (code : Nat) (s : State) :
    (l.foldl (fun t c => t.ctxFault c code) s).accts = s.accts := by
  induction l generalizing s with
  | nil => rfl
  | cons c l ih => rw [List.foldl_cons, ih, ctxFault_accts]
@[simp] theorem faultAll_accts (s : State) (p code : Nat) : (s.faultAll p code).accts = s.accts := ctxFaults_accts _ _ s
theorem ctxFaults_west (l : List Nat) (code : Nat) (s : State) :
    (l.foldl (fun t c => t.ctxFault c code) s).west = s.west := by
  induction l generalizing s with
  | nil => rfl
  | cons c l ih => rw [List.foldl_cons, ih, ctxFault_west]
@[simp] theorem faultAll_west (s : State) (p code : Nat) : (s.faultAll p code).west = s.west := ctxFaults_west _ _ s
theorem ctxFaults_east (l : List Nat) (code : Nat) (s : State) :
    (l.foldl (fun t c => t.ctxFault c code) s).east = s.east := by
  induction l generalizing s with
  | nil => rfl
  | cons c l ih => rw [List.foldl_cons, ih, ctxFault_east]
@[simp] theorem faultAll_east (s : State) (p code : Nat) : (s.faultAll p code).east = s.east := ctxFaults_east _ _ s
theorem ctxFaults_descs (l : List Nat) (code : Nat) (s : State) :
    (l.foldl (fun t c => t.ctxFault c code) s).descs = s.descs := by
  induction l generalizing s with
  | nil => rfl
  | cons c l ih => rw [List.foldl_cons, ih, ctxFault_descs]
@[simp] theorem faultAll_descs (s : State) (p code : Nat) : (s.faultAll p code).descs = s.descs := ctxFaults_descs _ _ s
theorem ctxFaults_epoch (l : List Nat) (code : Nat) (s : State) :
    (l.foldl (fun t c => t.ctxFault c code) s).epoch = s.epoch := by
  induction l generalizing s with
  | nil => rfl
  | cons c l ih => rw [List.foldl_cons, ih, ctxFault_epoch]
@[simp] theorem faultAll_epoch (s : State) (p code : Nat) : (s.faultAll p code).epoch = s.epoch := ctxFaults_epoch _ _ s
theorem ctxFaults_engines (l : List Nat) (code : Nat) (s : State) :
    (l.foldl (fun t c => t.ctxFault c code) s).engines = s.engines := by
  induction l generalizing s with
  | nil => rfl
  | cons c l ih => rw [List.foldl_cons, ih, ctxFault_engines]
@[simp] theorem faultAll_engines (s : State) (p code : Nat) : (s.faultAll p code).engines = s.engines := ctxFaults_engines _ _ s
theorem ctxFaults_threads (l : List Nat) (code : Nat) (s : State) :
    (l.foldl (fun t c => t.ctxFault c code) s).threads = s.threads := by
  induction l generalizing s with
  | nil => rfl
  | cons c l ih => rw [List.foldl_cons, ih, ctxFault_threads]
@[simp] theorem faultAll_threads (s : State) (p code : Nat) : (s.faultAll p code).threads = s.threads := ctxFaults_threads _ _ s
theorem ctxFaults_depot (l : List Nat) (code : Nat) (s : State) :
    (l.foldl (fun t c => t.ctxFault c code) s).depot = s.depot := by
  induction l generalizing s with
  | nil => rfl
  | cons c l ih => rw [List.foldl_cons, ih, ctxFault_depot]
@[simp] theorem faultAll_depot (s : State) (p code : Nat) : (s.faultAll p code).depot = s.depot := ctxFaults_depot _ _ s
theorem ctxFaults_msgs (l : List Nat) (code : Nat) (s : State) :
    (l.foldl (fun t c => t.ctxFault c code) s).msgs = s.msgs := by
  induction l generalizing s with
  | nil => rfl
  | cons c l ih => rw [List.foldl_cons, ih, ctxFault_msgs]
@[simp] theorem faultAll_msgs (s : State) (p code : Nat) : (s.faultAll p code).msgs = s.msgs := ctxFaults_msgs _ _ s
theorem ctxFaults_deadMsgs (l : List Nat) (code : Nat) (s : State) :
    (l.foldl (fun t c => t.ctxFault c code) s).deadMsgs = s.deadMsgs := by
  induction l generalizing s with
  | nil => rfl
  | cons c l ih => rw [List.foldl_cons, ih, ctxFault_deadMsgs]
@[simp] theorem faultAll_deadMsgs (s : State) (p code : Nat) : (s.faultAll p code).deadMsgs = s.deadMsgs := ctxFaults_deadMsgs _ _ s
theorem ctxFaults_txs (l : List Nat) (code : Nat) (s : State) :
    (l.foldl (fun t c => t.ctxFault c code) s).txs = s.txs := by
  induction l generalizing s with
  | nil => rfl
  | cons c l ih => rw [List.foldl_cons, ih, ctxFault_txs]
@[simp] theorem faultAll_txs (s : State) (p code : Nat) : (s.faultAll p code).txs = s.txs := ctxFaults_txs _ _ s
theorem ctxFaults_rxs (l : List Nat) (code : Nat) (s : State) :
    (l.foldl (fun t c => t.ctxFault c code) s).rxs = s.rxs := by
  induction l generalizing s with
  | nil => rfl
  | cons c l ih => rw [List.foldl_cons, ih, ctxFault_rxs]
@[simp] theorem faultAll_rxs (s : State) (p code : Nat) : (s.faultAll p code).rxs = s.rxs := ctxFaults_rxs _ _ s
theorem ctxFaults_echoes (l : List Nat) (code : Nat) (s : State) :
    (l.foldl (fun t c => t.ctxFault c code) s).echoes = s.echoes := by
  induction l generalizing s with
  | nil => rfl
  | cons c l ih => rw [List.foldl_cons, ih, ctxFault_echoes]
@[simp] theorem faultAll_echoes (s : State) (p code : Nat) : (s.faultAll p code).echoes = s.echoes := ctxFaults_echoes _ _ s
theorem ctxFaults_gate (l : List Nat) (code : Nat) (s : State) :
    (l.foldl (fun t c => t.ctxFault c code) s).gate = s.gate := by
  induction l generalizing s with
  | nil => rfl
  | cons c l ih => rw [List.foldl_cons, ih, ctxFault_gate]
@[simp] theorem faultAll_gate (s : State) (p code : Nat) : (s.faultAll p code).gate = s.gate := ctxFaults_gate _ _ s
theorem ctxFaults_fw (l : List Nat) (code : Nat) (s : State) :
    (l.foldl (fun t c => t.ctxFault c code) s).fw = s.fw := by
  induction l generalizing s with
  | nil => rfl
  | cons c l ih => rw [List.foldl_cons, ih, ctxFault_fw]
@[simp] theorem faultAll_fw (s : State) (p code : Nat) : (s.faultAll p code).fw = s.fw := ctxFaults_fw _ _ s
theorem ctxFaults_mule (l : List Nat) (code : Nat) (s : State) :
    (l.foldl (fun t c => t.ctxFault c code) s).mule = s.mule := by
  induction l generalizing s with
  | nil => rfl
  | cons c l ih => rw [List.foldl_cons, ih, ctxFault_mule]
@[simp] theorem faultAll_mule (s : State) (p code : Nat) : (s.faultAll p code).mule = s.mule := ctxFaults_mule _ _ s
theorem ctxFaults_twin (l : List Nat) (code : Nat) (s : State) :
    (l.foldl (fun t c => t.ctxFault c code) s).twin = s.twin := by
  induction l generalizing s with
  | nil => rfl
  | cons c l ih => rw [List.foldl_cons, ih, ctxFault_twin]
@[simp] theorem faultAll_twin (s : State) (p code : Nat) : (s.faultAll p code).twin = s.twin := ctxFaults_twin _ _ s
theorem ctxFaults_access (l : List Nat) (code : Nat) (s : State) :
    (l.foldl (fun t c => t.ctxFault c code) s).access = s.access := by
  induction l generalizing s with
  | nil => rfl
  | cons c l ih => rw [List.foldl_cons, ih, ctxFault_access]
@[simp] theorem faultAll_access (s : State) (p code : Nat) : (s.faultAll p code).access = s.access := ctxFaults_access _ _ s

/-! ### What has left the package stays, in its order -/

theorem fire_out (s : State) (fn entry : Nat) : s.out <+: (s.fire fn entry).out := by
  simp only [State.fire]; split
  · exact List.prefix_append _ _
  · exact List.prefix_refl _
theorem funcCause_out (s : State) (p bit : Nat) : s.out <+: (s.funcCause p bit).out := by
  simp only [State.funcCause]; split
  · exact List.prefix_refl _
  · exact fire_out (s.setPart p _) _ _
theorem mgmtCause_out (s : State) (bit : Nat) : s.out <+: (s.mgmtCause bit).out := by
  simp only [State.mgmtCause]; split
  · exact List.prefix_refl _
  · refine List.IsPrefix.trans ?_ (fire_out _ 0 0)
    exact List.prefix_refl _
theorem cqTest_out (s : State) (qid : Nat) : s.out <+: (s.cqTest qid).out := by
  simp only [State.cqTest]; split
  · exact List.prefix_refl _
  · split
    · exact fire_out (s.setQueue qid _) _ _
    · exact List.prefix_refl _
theorem writeRecord_out (s : State) (qid : Nat) (r : List Byte) (a b c : Bool) : s.out <+: (s.writeRecord qid r a b c).out := by
  simp only [State.writeRecord]; split
  · exact List.prefix_refl _
  · refine List.IsPrefix.trans ?_ (cqTest_out _ _)
    simp [State.emit, State.setQueue]
theorem cqOverflow_out (s : State) (qid : Nat) : s.out <+: (s.cqOverflow qid).out := by
  simp only [State.cqOverflow]; split
  · exact List.prefix_refl _
  · split
    · exact List.prefix_refl _
    · exact funcCause_out (s.setQslot _ _ _) _ _
theorem eventDrop_out (s : State) (c : Nat) : s.out <+: (s.eventDrop c).out := by
  have h := funcCause_out (s.bump (ctxCtr c 1)) (s.ctxPart c) 3
  rw [bump_eq, count_out] at h
  exact h
theorem postEvent_out (s : State) (c e w4 w8 : Nat) : s.out <+: (s.postEvent c e w4 w8).out := by
  simp only [State.postEvent]
  split
  · exact List.prefix_refl _
  · split
    · exact eventDrop_out s c
    · split
      · exact eventDrop_out s c
      · split
        · exact (eventDrop_out s c).trans (cqOverflow_out _ _)
        · exact writeRecord_out _ _ _ _ _ _
theorem ctxFault_out (s : State) (c code : Nat) : s.out <+: (s.ctxFault c code).out := by
  simp only [State.ctxFault]; split
  · exact List.prefix_refl _
  · split
    · exact (funcCause_out (s.setCtx c _) _ _).trans (postEvent_out _ _ _ _ _)
    · split <;> simp
theorem faultAll_out (s : State) (p code : Nat) : s.out <+: (s.faultAll p code).out := by
  have h : ∀ (l : List Nat) (s : State), s.out <+: (l.foldl (fun t c => t.ctxFault c code) s).out := by
    intro l
    induction l with
    | nil => intro s; exact List.prefix_refl _
    | cons c l ih => intro s; exact (ctxFault_out s c code).trans (ih _)
  exact h _ s

/-! ### No counter within its limit falls -/

/-- Counters only rise, within their limits. -/
def State.Rises (s t : State) : Prop :=
  (∀ i, (s.ctr i).toNat ≤ ctrMax i) → ∀ i, (s.ctr i).toNat ≤ (t.ctr i).toNat ∧ (t.ctr i).toNat ≤ ctrMax i

theorem Rises_of_same {s t : State} (h : t.counters = s.counters) : s.Rises t := by
  intro hw i
  have e : t.ctr i = s.ctr i := by simp [State.ctr, h]
  rw [e]; exact ⟨Nat.le_refl _, hw i⟩
theorem Rises_trans {s t u : State} (h : s.Rises t) (k : t.Rises u) : s.Rises u := by
  intro hw i
  have a := h hw
  have b := k (fun j => (a j).2) i
  exact ⟨Nat.le_trans (a i).1 b.1, b.2⟩
theorem count_Rises (s : State) (i n : Nat) : s.Rises (s.count i n) :=
  fun hw j => ⟨count_rises s i n j (hw j), count_within s i n hw j⟩
theorem eventDrop_Rises (s : State) (c : Nat) : s.Rises (s.eventDrop c) :=
  Rises_trans (count_Rises s (ctxCtr c 1) 1) (Rises_of_same (funcCause_counters _ _ _))
theorem postEvent_Rises (s : State) (c e w4 w8 : Nat) : s.Rises (s.postEvent c e w4 w8) := by
  simp only [State.postEvent]
  split
  · exact Rises_of_same rfl
  · split
    · exact eventDrop_Rises s c
    · split
      · exact eventDrop_Rises s c
      · split
        · exact Rises_trans (eventDrop_Rises s c) (Rises_of_same (cqOverflow_counters _ _))
        · exact Rises_of_same (writeRecord_counters _ _ _ _ _ _)
theorem ctxFault_Rises (s : State) (c code : Nat) : s.Rises (s.ctxFault c code) := by
  simp only [State.ctxFault]; split
  · exact Rises_of_same rfl
  · split
    · exact Rises_trans (Rises_of_same (by simp)) (postEvent_Rises _ _ _ _ _)
    · split
      · exact Rises_trans (Rises_of_same (by simp)) (count_Rises _ _ 1)
      · exact count_Rises s _ 1
theorem faultAll_Rises (s : State) (p code : Nat) : s.Rises (s.faultAll p code) := by
  have h : ∀ (l : List Nat) (s : State), s.Rises (l.foldl (fun t c => t.ctxFault c code) s) := by
    intro l
    induction l with
    | nil => intro s; exact Rises_of_same rfl
    | cons c l ih => intro s; exact Rises_trans (ctxFault_Rises s c code) (ih _)
  exact h _ s

end Sys2Proof.Machine
end

