-- ==== Sys2Proof/Laws/Threads.lean ====
section
/-! SUPPORT. Scalar registers, predicates and issue: what a write of one leaves of the others, and what issuing does. -/

namespace Sys2Proof.Machine

/-! ### Registers and predicates -/

/-- s0 reads 0. -/
@[simp] theorem reg_zero (t : Thread) : t.reg 0 = 0 := rfl

@[simp] theorem reg_setReg_self (t : Thread) {r : Nat} (v : Word) (h : r ≠ 0) : (t.setReg r v).reg r = v := by
  simp [Thread.reg, Thread.setReg, h]

@[simp] theorem reg_setReg_ne (t : Thread) {r k : Nat} (v : Word) (h : k ≠ r) : (t.setReg r v).reg k = t.reg k := by
  simp only [Thread.reg, Thread.setReg]
  split
  · rfl
  · split
    · rfl
    · simp [h]

/-- A write to s0 is discarded. -/
@[simp] theorem setReg_zero (t : Thread) (v : Word) : t.setReg 0 v = t := rfl

/-- p0 reads 1, and a write to it is discarded. -/
@[simp] theorem pred_zero (t : Thread) : t.pred 0 = true := rfl
@[simp] theorem setPred_zero (t : Thread) (b : Bool) : t.setPred 0 b = t := rfl

theorem pred_setPred_self (t : Thread) {k : Nat} (b : Bool) (h : k ≠ 0) (hk : k < 8) : (t.setPred k b).pred k = b := by
  simp only [Thread.pred, Thread.setPred, if_neg h]
  have : (k == 0) = false := by simp [h]
  cases b <;> simp [h, hk]

theorem pred_setPred_ne (t : Thread) {k j : Nat} (b : Bool) (h : j ≠ k) (hk : k < 8) : (t.setPred k b).pred j = t.pred j := by
  simp only [Thread.pred, Thread.setPred]
  split
  · rfl
  · by_cases hj : j < 8
    · have e : (decide (j < k) || !decide (j - k = 0)) = true := by simp; omega
      cases b
      · simp only [BitVec.getLsbD_or, BitVec.getLsbD_and, BitVec.getLsbD_not, BitVec.getLsbD_shiftLeft]
        simp [hj, e]
      · have e' : (!decide (j < k) && decide (j - k = 0)) = false := by simp; omega
        simp [hj, e']
    · cases b <;> simp [BitVec.getLsbD_of_ge _ _ (Nat.le_of_not_lt hj)]

/-- What is left of a thread by a write of a register, a predicate or the flags. -/
@[simp] theorem setReg_pc (t : Thread) (r : Nat) (v : Word) : (t.setReg r v).pc = t.pc := by unfold Thread.setReg; split <;> rfl
@[simp] theorem setReg_preds (t : Thread) (r : Nat) (v : Word) : (t.setReg r v).preds = t.preds := by
  unfold Thread.setReg; split <;> rfl
@[simp] theorem setReg_sflags (t : Thread) (r : Nat) (v : Word) : (t.setReg r v).sflags = t.sflags := by
  unfold Thread.setReg; split <;> rfl
@[simp] theorem setReg_recs (t : Thread) (r : Nat) (v : Word) : (t.setReg r v).recs = t.recs := by
  unfold Thread.setReg; split <;> rfl
@[simp] theorem setReg_wb (t : Thread) (r : Nat) (v : Word) : (t.setReg r v).wb = t.wb := by unfold Thread.setReg; split <;> rfl
@[simp] theorem setReg_st (t : Thread) (r : Nat) (v : Word) : (t.setReg r v).st = t.st := by unfold Thread.setReg; split <;> rfl
@[simp] theorem setPred_pc (t : Thread) (k : Nat) (b : Bool) : (t.setPred k b).pc = t.pc := by unfold Thread.setPred; split <;> rfl
@[simp] theorem setPred_regs (t : Thread) (k : Nat) (b : Bool) : (t.setPred k b).regs = t.regs := by
  unfold Thread.setPred; split <;> rfl
@[simp] theorem setPred_sflags (t : Thread) (k : Nat) (b : Bool) : (t.setPred k b).sflags = t.sflags := by
  unfold Thread.setPred; split <;> rfl
@[simp] theorem setPred_recs (t : Thread) (k : Nat) (b : Bool) : (t.setPred k b).recs = t.recs := by
  unfold Thread.setPred; split <;> rfl
@[simp] theorem setPred_wb (t : Thread) (k : Nat) (b : Bool) : (t.setPred k b).wb = t.wb := by unfold Thread.setPred; split <;> rfl
@[simp] theorem orFlags_regs (t : Thread) (f : BitVec 3) : (t.orFlags f).regs = t.regs := rfl
@[simp] theorem orFlags_pc (t : Thread) (f : BitVec 3) : (t.orFlags f).pc = t.pc := rfl
@[simp] theorem orFlags_preds (t : Thread) (f : BitVec 3) : (t.orFlags f).preds = t.preds := rfl
@[simp] theorem orFlags_recs (t : Thread) (f : BitVec 3) : (t.orFlags f).recs = t.recs := rfl
@[simp] theorem orFlags_wb (t : Thread) (f : BitVec 3) : (t.orFlags f).wb = t.wb := rfl

/-- A register depends on the register file alone. -/
theorem reg_congr {t u : Thread} (h : t.regs = u.regs) (r : Nat) : t.reg r = u.reg r := by simp [Thread.reg, h]

/-! ### The stops -/

@[simp] theorem withPart_lt {p : Nat} (r : Res) (h : p < 128) : withPart p r = r := if_pos h
@[simp] theorem withPort_lt {p : Nat} (r : Res) (h : p < 49) : withPort p r = r := if_pos h
@[simp] theorem withCtx_lt {c : Nat} (r : Res) (h : c < 1024) : withCtx c r = r := if_pos h
@[simp] theorem withQueue_lt {q : Nat} (r : Res) (h : q < 4096) : withQueue q r = r := if_pos h
@[simp] theorem withFunc_lt {n : Nat} (r : Res) (h : n < 129) : withFunc n r = r := if_pos h
@[simp] theorem withUnit_true (r : Res) : withUnit true r = r := rfl
@[simp] theorem withLane_lt {p j : Nat} (r : Res) (hp : p < 49) (hj : j < laneCount p) : withLane p j r = r := by
  simp [withLane, hp, hj]

/-! ### Issue (R243, R244, R260) -/

/-- An instruction that issues with its guard holding acts on the thread whose pc has moved on, or is held back. -/
theorem issue_acts {s : State} {p : Nat} {i : Instr} (ok : Thread → Bool) (act : State → Thread → State) (h : s.issues p i) :
    s.issue p i ok act = .next (if ok (s.thread p) then act s (s.movedOn p i) else s) := by
  obtain ⟨hp, hc, hg⟩ := h
  simp only [State.issue, withPart_lt _ hp, hc, hg, if_true]
  rfl

/-- A scalar instruction that issues gives its value to RD and its flags to SFLAGS. -/
theorem scalar_acts {s : State} {p : Nat} {i : Instr} (rd : BitVec 5) (f : Thread → Word × BitVec 3) (h : s.issues p i) :
    s.scalar p i rd f = .next (s.setThread p
      (((s.movedOn p i).setReg rd.toNat (f (s.movedOn p i)).1).orFlags (f (s.movedOn p i)).2)) := by
  simp only [State.scalar, State.issueT, issue_acts _ _ h, if_true]

/-- An instruction issues, whatever it is, only by moving on: with its guard not holding nothing else happens. -/
theorem issue_unguarded {s : State} {p : Nat} {i : Instr} (ok : Thread → Bool) (act : State → Thread → State) (hp : p < 128)
    (hc : s.canIssue p i = true) (hg : (s.thread p).guard (guandHead i) = false) :
    s.issue p i ok act = .next (s.setThread p (s.movedOn p i)) := by
  simp only [State.issue, withPart_lt _ hp, hc, hg, if_true]
  rfl

/-- An instruction that its thread cannot issue does nothing. -/
theorem issue_not {s : State} {p : Nat} {i : Instr} (ok : Thread → Bool) (act : State → Thread → State) (hp : p < 128)
    (hc : s.canIssue p i = false) : s.issue p i ok act = .next s := by
  simp only [State.issue, withPart_lt _ hp, hc]
  rfl

/-- Moving on changes the pc alone. -/
@[simp] theorem movedOn_reg (s : State) (p : Nat) (i : Instr) (r : Nat) : (s.movedOn p i).reg r = (s.thread p).reg r := rfl
@[simp] theorem movedOn_pred (s : State) (p : Nat) (i : Instr) (k : Nat) : (s.movedOn p i).pred k = (s.thread p).pred k := rfl

end Sys2Proof.Machine
end

