-- ==== Sys2Proof/Tests/Slice0.lean ====
section
/-! SUPPORT. Small checks of the model by hand-made values: commands that name what the part has not are ill-formed and
fault; Guand words written out bit by bit; effects worked out from the spec's own examples; and, for every clause of a
statement that has hypotheses, a state and operands that meet all of them together. -/

namespace Sys2Proof.Tests

open Sys2Proof Sys2Proof.Machine

set_option Elab.async false

/-! ### Small states -/

/-- A READY device whose Mule runs. -/
def live : State := { State.reset with power := { coldReset := false, rstLow := false, ready := true }, fw := { muleUp := true } }

/-- A frame whose checks all pass. -/
def good (h : Header) (b : List Byte) : RxFrame :=
  { hdr := h, hcrc := hcrc16 h.bytes, payload := b, crc := frameCrc h (padTo h.len.toNat b), status := 0, lostLane := false
    bridgeBad := false }

/-- What a partner Dolmo, or an accelerator, has said. -/
def caps (dolmo : Bool) : Caps :=
  { dolmo := dolmo, rxMask := 0xFFFF, reach := 1, loc := 1, maxLanes := 16, epoch := 0, tickSlots := 2048 }

/-- An ACTIVE port with every lane healthy. -/
def up : Port :=
  { active := true, admitted := true, caps := some (caps true), widthIn := 8, widthOut := 8, maskIn := 0xFF, maskOut := 0xFF
    healthyIn := 0xFF, healthyOut := 0xFF, pwrOut := .awake, pwrIn := .awake }

/-- Port 3 is such a port. -/
def at3 (q : Port) : State := live.setPort 3 q

/-- Lane 2 of port 3. -/
def lane32 (q : Port) (l : Lane) : State := (at3 q).setLane 3 2 l

/-- A marker of a lane with 18 bits of content and its check field. -/
def mark (lane : BitVec 4) (v : BitVec 18) : LaneMarker := { symbols := markerLevels lane (markerInfo v) }

/-- A shortened window of lane 7 with 15 identical levels, in which the stuffed symbol and one data symbol were changed on the
way. -/
def worn : RxWindow :=
  let payload := (cutInto 8 5 (scramble (laneSeed 7) (List.replicate 40 false))).map (fun b => BitVec.ofNat 8 (bitsNat b))
  let l := windowLevels 7 0 109 payload 0
  { lane := 7, logical := 7, bits := 0, levels := (l.set 15 1).set 40 (flipLevel (l.getD 40 0)), header := false }

/-- A valid CAPS record: VERSION 1, a Dolmo, eight lanes, its CRC at the end. -/
def record : List Byte :=
  let b := padTo 316 [1, 1, 1, 0, 1, 0, 1, 0, 0, 8]
  b ++ leBytes 4 (crc32c b).toNat

/-- A head with no slot and guard p0. -/
def h0 : GHead := ⟨0, 0, false⟩

/-- A variant with one inbound grant on port 3. -/
def variant0 : Variant :=
  { entry := 0, oxMask := 1, grants := [⟨3, false, 1, 4⟩], limp := false, minWidth := 1, uses := 0, minTwin := 1 }

/-- A plan whose code is `c`. -/
def plan (c : List Word) : Plan :=
  { homeCtx := 0, slots := 2048, code := c, digest := 0, bytes := 0, variants := [variant0] }

/-- A context of partition 0 with two segments. -/
def ctx0 : Ctx := { part := 0, wslot := 0, segs := [(0, (0, 16)), (15, (16, 1))] }

/-- The words of an instruction. -/
def words (i : Instr) : List Word :=
  match guandEncode i with
  | some (a, some b) => [a, b]
  | some (a, none) => [a]
  | none => []

/-- Partition 0 runs a plan that holds one instruction; it has a granule, a context and two segments. -/
def runs (i : Instr) (t : Thread) : State :=
  { live with
    epoch := { cur := { plans := [(0, plan (words i))], remap := [(1, 0x03000000)] } }
    threads := [(0, { t with st := .running })]
    parts := [(0, { carve := (0, 1), ports := 0x1FFFFFFFFFFFF })]
    ctxs := [(0, ctx0)] }

/-- The thread of `runs` with one record. -/
def holds (r : Rec) (t : Thread) : State := runs (.nop 0 h0) { t with recs := [r] }

/-- The queue in slot 1. -/
def q1 : Queue := { ctx := 0, slot := 1, kind := 1 }

/-- Queue slots of context 0: slot 0 a CQ with QID 0, slot 1 an SQ or RQ with QID 1. -/
def queued (kind : Nat) (q : Queue) : State :=
  { runs (.nop 0 h0) {} with
    power := { coldReset := false, rstLow := false, ready := true, numVfs := 128 }
    qslots := [(0, { kind := 3, size := 8, enabled := true, qid := 0 }),
               (1, { kind := kind, size := 8, cq := 0, enabled := true, qid := 1 })]
    queues := [(0, { ctx := 0, slot := 0, kind := 3 }), (1, { q with ctx := 0, slot := 1, kind := kind })] }

/-- The service `n` runs, and its message waits. -/
def served (n : Nat) (m : SvcMsg) : State :=
  { runs (.nop 0 h0) {} with
    fw := { muleUp := true, services := [(n, 1)] }
    mule := { inbox := [m] }
    ctxs := [(0, { part := 0, wslot := 0, segs := [(0, (0, 64))], grants := [(0, n, true)] })] }

/-- A service message over context 0, segment 0, from port 3. -/
def msg (service op scope : Nat) (body : List Byte) : SvcMsg :=
  { src := 0x03000000, part := 0, ctx := 0
    bytes := leBytes 1 service ++ leBytes 1 op ++ leBytes 2 0 ++ leBytes 4 7 ++ leBytes 4 scope ++ leBytes 4 body.length ++ body }

/-- A message from a Mule to this Mule. -/
def fmsg (op : Nat) (body : List Byte) : SvcMsg := { msg 0 op 0 body with src := 0x41000002 }

/-- A handle for the grant of `variant0`. -/
def bound : Handle := { grant := ⟨3, false, 1, 4⟩, chunk := 0, dl := 9 }

/-- A class S frame for it. -/
def sFrame : RxFrame := good { blankHeader tySData with last := true, len := 1, w20 := 1 } [5]

/-- A class B or C frame for port 4. -/
def bcFrame (t : Nat) : RxFrame := good { blankHeader t with last := true, len := 1, dstPort := 4 } [5]

/-- A frame in a queue. -/
def entry (t : Nat) : QEntry := { desc := none, hdr := { blankHeader t with last := true, len := 1 }, payload := [5], ingress := 4 }

/-- Port 3 receives, and port 4 is busy. -/
def fed (v : Handle) (f : RxFrame) : State :=
  (((((runs (.nop 0 h0) { handles := [(2, v)] }).setPort 3 { up with sIn := 100 }).setPort 4
    { up with busy := some (entry f.hdr.typ.toNat) }).setAcct 3 false { limit := 64, gmin := 0 }).setAcct 3 true { limit := 64, gmin := 0 })

/-- A class C stream with one frame sent `n` times. -/
def key : StreamKey := ⟨0x40, 0x03000000, 0⟩
def unacked (n : Nat) : Unacked := { seq := 0, syn := true, part := 0, dq := 0, payload := [], sends := n }
def tx (n : Nat) : TxStream := { unacked := [unacked n], timer := some 5 }
def sent (n : Nat) : State := { live with time := 5, txs := [(key, tx n)] }
def waits (n : Nat) : State := { live with time := 5, txs := [(key, { retryAt := some 5, waited := n, waitFrom := 5 })] }

/-- Port 3 in slot 1. -/
def slot1 (q : Port) : State := { at3 q with rooster := { slot := 1 } }

/-- A stored frame with one reference. -/
def stored : Stored := ⟨blankHeader tyBData, [], false, 1, .none, .acct 3 false, 1, false⟩

/-- A B_SEND that has started. -/
def begun : Started := { idx := 0, opc := 1, tag := 0, rank := 1, len := 4096 }

/-- Records of thread 0. -/
def rec (o : Op) : Rec := { id := 4, pc := 0, op := o }
def loaded : Rec := rec (.ld 1 (some 0x40000000) 8 false (some (5, 0)))
def cleared : Rec := { rec (.lclr 0 0 0 1 .t32 .sum false) with begun := true, res := { window := some (0, {}), clear := true } }

/-- A SEND of tile 0 of engine 0, which holds 1,024 FP32 elements, at port 3. -/
def job : SendJob := ⟨4, 0, .send 3 1 1 false 0 1 0 0 none 0 false false 0, 0⟩
def tileSent : State :=
  { (runs (.nop 0 h0) { sends := [job] }).setPort 3 { sOut := 100 } with
    engines := [(0, { tiles := [(0, { kind := .packed, count := 1024 })] })] }

theorem tile_mayUse (h : Header) (e : h.part = BitVec.ofNat 7 0) : tileSent.mayUse h 3 = true := by
  have k : (tileSent.portsUsable (BitVec.ofNat 7 0).toNat).getLsbD 3 = true := by decide +kernel
  rw [State.mayUse, e, k, Bool.or_true]

/-- A START entry: one FP32 element summed by one rank, from tick 2 on. -/
def startEntry : List Byte :=
  [4] ++ List.replicate 11 0 ++ leBytes 8 0 ++ leBytes 8 1 ++ [1, 0, 0, 0, 0, 0, 16, 0] ++ leBytes 8 2 ++ leBytes 4 0 ++ leBytes 4 1

/-- A message under RING_HOLD. -/
def heldMsg : OpenMsg := { key := ⟨3, 0, 1⟩, die := 1, part := 0, qid := 1, hold := some 2 }

/-- Depot: a segment with one place for an extent of no bytes, and a shard. -/
def place1 : Ctx := { part := 0, wslot := 0, segs := [(0, (0, 32))], grants := [(0, 1, true)] }
def createMsg : SvcMsg := msg 1 1 0 (leBytes 8 5 ++ leBytes 4 0)
def putMsg : SvcMsg := msg 1 2 0 (leBytes 8 5 ++ leBytes 4 1 ++ leBytes 4 0 ++ [7])
def shard : Shard := { ctx := 0, seg := 0, id := 5, cap := 16, ext := [65536, 131072, 196608] }

def withShard (m : SvcMsg) (x : Shard) : State := { served 1 m with mule := { inbox := [m], shards := [x] } }

/-- Roll-call holds job 9. -/
def withJob (m : SvcMsg) (j : Job) : State := { served 2 m with mule := { inbox := [m], jobs := [(9, j)] } }

theorem create_places : (State.takeMsg { served 1 createMsg with ctxs := [(0, place1)] } createMsg).placeExtents 131072 (shardRoom 0) 3
    ((State.shardsOf { served 1 createMsg with ctxs := [(0, place1)] } createMsg).flatMap
      (fun x => x.ext.map (fun o => (o, shardRoom x.cap)))) [] =
    (some [65536, 65536, 65536],
      { State.takeMsg { served 1 createMsg with ctxs := [(0, place1)] } createMsg with free := 3 }) := by
  have one (u : List (Nat × Nat)) (h : u.all (fun x => !overlaps 65536 0 x.1 x.2) = true) : extentPlaces 131072 0 u = [65536] := by
    simp [extentPlaces, List.range, List.range.loop, h]
  have z : shardRoom 0 = 0 := rfl
  simp [State.placeExtents, one, overlaps, State.fresh, Nat.mod_one, z]
  trivial

/-- A job with one arrival. -/
def waiting : Job := { parts := 4, ranks := [], arrivals := [⟨0, 0, msg 2 3 9 (leBytes 4 1), 0⟩] }

/-- A drain of five bytes. -/
def drain (l : Tbl DrainPart) : Drain :=
  { id := 1, req := msg 3 1 0 [], ctx := 0, seg := 0, offset := 0, len := 5, rank := 0, obj := 7, dq := 0, parts := l }
def doneMsg : SvcMsg := msg 3 2 0 (leBytes 8 7 ++ leBytes 4 0)

/-- A digest of tick 0. -/
def digest : Digest := ⟨0, [], [], ⟨0, 0, 0, 0, 0, 0, 0⟩, 0, 0, .free, 0, [], [], []⟩

/-- The lane procedure at its last waiting hinge. -/
def proc (todo : List Nat) (j : Option Nat) : LaneProc := { todo := todo, current := j, newReach := 1, oldReach := 1, waited := 63 }

/-- The PF's call that creates context 5 is next, and a counter of context 5 holds its last count. -/
def ctxServed : State :=
  { live with counters := [(ctxCtr 5 0, 7)], gate := { queue := [⟨0, 1, false, .ctxCreate 0 5⟩] } }

/-- The counter of QID 2 holds its last count. -/
def qidCounted : State := { queued 1 q1 with counters := [(queueCtr 2, 5)] }


/-! ### Ill-formed commands -/

/-- A command that names what the part has not is ill-formed, and it faults with `f`. -/
def refuses (i : Instr) (f : Fault) : Bool :=
  !i.wf && (match exec i live with | .fault g => g = f | _ => false)

theorem test_wf_port : refuses (.creditSend 49) .noSuchPort = true := by decide +kernel
theorem test_wf_lane : refuses (.bitLock 3 8) .noSuchLane = true := by decide +kernel
theorem test_wf_lane48 : refuses (.bitLock 48 16) .noSuchLane = true ∧ (Instr.bitLock 48 15).wf = true := by decide +kernel
theorem test_wf_partition : refuses (.retire 128) .noSuchPartition = true := by decide +kernel
theorem test_wf_guand : refuses (.add 128 h0 1 2 3) .noSuchPartition = true := by decide +kernel
theorem test_wf_context : refuses (.clearFault .pf 1024) .noSuchContext = true := by decide +kernel
theorem test_wf_queue : refuses (.start 4096 []) .noSuchQueue = true := by decide +kernel
theorem test_wf_function : refuses (.configRequest 129 (.read 0)) .noSuchFunction = true := by decide +kernel
theorem test_wf_slot : refuses (.queueDisable .pf 0 16) .noSuchUnit = true := by decide +kernel
theorem test_wf_page : refuses (.sqDoorbell 0 32 0) .noSuchUnit = true := by decide +kernel
theorem test_wf_caller : refuses (.mulePet ⟨130, false⟩) .noSuchFunction = true := by decide +kernel
theorem test_wf_pool : refuses (.henAllocation 0 3) .noSuchUnit = true := by decide +kernel
theorem test_wf_list : refuses (.henListRebuild 2) .noSuchUnit = true := by decide +kernel
theorem test_wf_die : refuses (.henLevelChange 2) .noSuchUnit = true := by decide +kernel
theorem test_wf_tile : refuses (.copyBackEnd 31 64) .noSuchUnit = true := by decide +kernel
theorem test_wf_group : refuses (.portGroupAdmit 8) .noSuchUnit = true := by decide +kernel
theorem test_wf_agent : refuses (.storePerformed (.mule 8)) .noSuchUnit = true := by decide +kernel
theorem test_wf_mule : refuses (.muleDepotAccess 8 (.atomicAdd 0 1)) .noSuchUnit = true := by decide +kernel
theorem test_wf_vector : refuses (.msixUnmask 1 33) .noSuchUnit = true := by decide +kernel
theorem test_wf_vf0 : refuses (.vfFlr 0) .noSuchUnit = true := by decide +kernel

/-! ### Guand words, from the encodings of chapter 10 -/

/-- The spec's own words: RECV h0 and h3 with GRANT 3, CR s2, DL 264; TACC e0, t8, w0, K 2. -/
theorem test_word_recv :
    guandDecode 0 0x4000000000040840 0 = some (.recv 0 ⟨0, 0, false⟩ 0 0 2 264) ∧
    guandDecode 0 0x4000000C00C40840 0 = some (.recv 0 ⟨0, 0, false⟩ 3 3 2 264) := by decide +kernel
theorem test_word_tacc : guandDecode 0 0x5200000040200000 0 = some (.tacc 0 ⟨0, 0, false⟩ 0 8 0 2 0) := by decide +kernel
/-- ADD s1, s2, s3 before slot 5 under not p6: 00010000 00000000000101 110 1 00001 00010 00011 00000 0s. -/
theorem test_word_add :
    guandDecode 7 0b0001000000000000000101110100001000100001100000000000000000000000 0 =
      some (.add 7 ⟨5, 6, true⟩ 1 2 3) := by decide +kernel
/-- DIVU quotient s4, dividend s5, divisor s6, remainder s7. -/
theorem test_word_divu :
    guandDecode 0 0b0001010000000000000000000000100001010011000111000000000000000000 0 =
      some (.divu 0 ⟨0, 0, false⟩ 4 5 6 7) := by decide +kernel
/-- ADDI s3, s3, 0x10000, as at index 22 of the spec's listing. -/
theorem test_word_addi :
    guandDecode 0 0b0010001000000000000000000000011000110000000000010000000000000000 0 =
      some (.addi 0 ⟨0, 0, false⟩ 3 3 0x10000) := by decide +kernel
/-- LOOP s4, END 23, MAX 16, as at index 19. -/
theorem test_word_loop :
    guandDecode 0 0b0000001100000000000000000000100000000000001011100000000000100000 0 =
      some (.loop 0 ⟨0, 0, false⟩ 4 23 16) := by decide +kernel
/-- LD s1, [s2 - 8], 4 bytes, sign extended. -/
theorem test_word_ld :
    guandDecode 0 0b0011000000000000000000000000001000101011111111111111111111111000 0 =
      some (.ld 0 ⟨0, 0, false⟩ 1 2 2 true (-8)) := by decide +kernel
/-- ACAS s1, s2, s3, s4, offset 8. -/
theorem test_word_acas :
    guandDecode 0 0b0011010000000000000000000000001000100001100100000000000000001000 0 =
      some (.acas 0 ⟨0, 0, false⟩ 1 2 3 4 8) := by decide +kernel
/-- FENCE: the depot's, and the tick's. -/
theorem test_word_fence :
    guandDecode 0 0x3600000000000000 0 = some (.fenceDepot 0 ⟨0, 0, false⟩) ∧
    guandDecode 0 0x3600000000000001 0 = some (.fenceTick 0 ⟨0, 0, false⟩) := by decide +kernel
/-- EXPECT p1, HMASK 0xFFFF, NFR 256, HF 1, HENG 0, HW 0, HOLE 40, as at index 24. -/
theorem test_word_expect :
    guandDecode 0 0b0100001000000000000000000000111111111111111111000000000000000000
        0b0000000000101000000001000000000000000000000000000000000000000000 =
      some (.expect 0 ⟨0, 0, false⟩ 1 0xFFFF true 0 0 40 256) := by decide +kernel
/-- SEND port 16, SLOT 266, NF 1, tile t16, RR s6, CR s2, FR s0, SLEN 4,096, FF 1, as at index 28. -/
theorem test_word_send :
    guandDecode 0 0b0100000100000000000000000001000000000100001010000000010010000000
        0b0011000010000000000010000000000001000000000000000000000000000000 =
      some (.send 0 ⟨0, 0, false⟩ 16 266 1 false 16 6 2 0 0 4096 true false 0) := by decide +kernel
/-- EMIT e0, w0, t16, BF16, SRK, KR s5, CR s2, ER s0, N 2,048, as at index 26. -/
theorem test_word_emit :
    guandDecode 0 0b0101001100000000000000000000000000010000000011000001010001000000
        0b0000100000000000000000000000000000000000000000000000000000000000 =
      some (.emit 0 ⟨0, 0, false⟩ 0 0 16 1 4 false 5 2 0 2048 0 0) := by decide +kernel
/-- POST handle s1, records s2, with flags, engine 3, window 4, no interrupt; with a reserved bit set it is none. -/
theorem test_word_post :
    guandDecode 0 0b0110000000000000000000000000001000101000111000000000000000000000 0 =
      some (.post 0 ⟨0, 0, false⟩ 1 2 true 3 4 false) ∧
    guandDecode 0 0b0110000000000000000000000000001000101000111000000000000000000001 0 = none := by decide +kernel
/-- A word of zeros, and an opcode that is not in the map, are no instruction (R259). -/
theorem test_word_none : guandDecode 0 0 0 = none ∧ guandDecode 0 0xFF00000000000000 0 = none := by decide +kernel

/-! ### Values that the spec works out -/

/-- The three conversions of the Quillmere case of chapter 2. -/
theorem test_conversion :
    toForm .t32 (floatIn 1 0x3FC0) = { v := 192 * 2 ^ 142 } ∧
    toForm .t32 (floatIn 0 0x80000001) = { v := -1 } ∧
    toForm .t16 (floatIn 4 0xFE) = { v := -(14 * 2 ^ 29) } := by decide +kernel

/-- A T32 window of operation `o`. -/
def t32 (o : Oper) : Window := { opened := true, rows := 1, oper := o }

/-- 1 + 3 x 2^-9 to BF16 under SRK: up from the draw 0x40000000 on, down below it. -/
theorem test_srk :
    emitLane (t32 .sum) 1 .srk false 0x40000000 (.count 1) { v := 2 ^ 140 + 2 ^ 141 + 2 ^ 149 } = (0x3F81, fINEXACT) ∧
    emitLane (t32 .sum) 1 .srk false 0x3FFFFFFF (.count 1) { v := 2 ^ 140 + 2 ^ 141 + 2 ^ 149 } = (0x3F80, fINEXACT) := by
  decide +kernel
/-- 1 + 2^-24 + 2^-24, and Table 2.8: 131,008 to BF16 and E4M3, 2^-149 to FP16. -/
theorem test_sum_rne :
    emitLane (t32 .sum) 0 .rne false 0 (.count 3) { v := 2 ^ 149 + 2 ^ 126 } = (0x3F800001, 0) ∧
    emitLane { t32 .sum with form := .t16 } 1 .rne false 0 (.count 2) { v := 131008 * 2 ^ 24 } = (0x4800, fINEXACT) ∧
    emitLane { t32 .sum with form := .t16 } 4 .rne false 0 (.count 2) { v := 131008 * 2 ^ 24 } =
      (0x7F, fOVERFLOW ||| fINEXACT) ∧
    emitLane (t32 .sum) 2 .rne false 0 (.count 1) { v := 1 } = (0, fUNDERFLOW ||| fINEXACT) := by decide +kernel
/-- Tables 2.9 and 2.10: RUP, RDN, CLAMP, AVG, the infinities, CNT 0. -/
theorem test_emission_edges :
    emitLane (t32 .sum) 1 .rup false 0 (.count 1) { v := 1 } = (1, fUNDERFLOW ||| fINEXACT) ∧
    emitLane (t32 .sum) 0 .rdn false 0 (.count 2) { v := 0 } = (0x80000000, 0) ∧
    emitLane (t32 .avg) 0 .rne false 0 (.count 3) { v := 4 * 2 ^ 149 } = (0x3FAAAAAB, fINEXACT) ∧
    emitLane (t32 .sum) 0 .rne false 0 (.count 2) { v := 0, pinf := true, ninf := true } = (0x7FC00000, fINVALID) ∧
    emitLane (t32 .sum) 4 .rne true 0 (.count 2) { v := 0, pinf := true } = (0x7E, fSAT) ∧
    emitLane (t32 .avg) 0 .rne false 0 (.count 0) { v := 0 } = (0, fEMPTY ||| fDZ) := by decide +kernel
/-- S32 sums (Table 2.10). -/
theorem test_integer_sum :
    emitLane { t32 .sum with form := .i64, sgn := true } 10 .rne false 0 (.count 2) { v := 2 ^ 31 } = (0x80000000, fOVERFLOW) ∧
    emitLane { t32 .sum with form := .i64, sgn := true } 10 .rne true 0 (.count 2) { v := 2 ^ 31 } = (0x7FFFFFFF, fSAT) ∧
    emitLane { t32 .avg with form := .i64, sgn := true } 10 .rne false 0 (.count 2) { v := 3 } = (2, fINEXACT) := by decide +kernel

/-- Table 9.2. -/
theorem test_scalar_edges :
    addOp 0x7FFFFFFFFFFFFFFF 1 = (0x8000000000000000, sfOVF) ∧ absOp 0x8000000000000000 = (0x8000000000000000, sfOVF) ∧
    divsOp 0x8000000000000000 (-1) = (0x8000000000000000, 0, sfOVF) ∧ divsOp (-7) 2 = (-3, -1, 0) ∧
    divuOp 7 0 = (0, 7, sfDZ) ∧ sraOp (-1) 64 = -1 ∧ shlOp 1 64 = 0 ∧
    addsOp 0x7FFFFFFFFFFFFFFF 1 = (0x7FFFFFFFFFFFFFFF, sfSAT) ∧ subusOp 0 1 = (0, sfSAT) := by decide +kernel

/-- Thread 0 after a step. -/
def after (r : Host.Outcome State Fault Refusal) : Thread :=
  match r with
  | .next s => s.thread 0
  | _ => {}

/-- MOVI s1, -1; a write to s0 is discarded. -/
theorem test_movi : (after (exec (.movi 0 h0 1 (-1)) (runs (.movi 0 h0 1 (-1)) {}))).reg 1 = 0xFFFFFFFFFFFFFFFF := by decide +kernel
theorem test_s0 : (after (exec (.movi 0 h0 0 5) (runs (.movi 0 h0 0 5) {}))).reg 0 = 0 := by decide +kernel
/-- ADDU.S 1 + all ones saturates and sets SAT. -/
theorem test_addus :
    let t := after (exec (.adduS 0 h0 3 1 2) (runs (.adduS 0 h0 3 1 2) { regs := [(1, 1), (2, 0xFFFFFFFFFFFFFFFF)] }))
    t.reg 3 = 0xFFFFFFFFFFFFFFFF ∧ t.sflags = sfSAT := by decide +kernel

/-- SHARED with 69,632 units of class S and minima of 25 x 1,152 = 28,800 (Table 5.3). -/
theorem test_shared : sharedOf 69632 28800 = 556928 := by decide
/-- The pace halves on an echo and gains 512 without one (R209); throttle level 3 caps it at 2,048 (Table 16.2). -/
theorem test_pace :
    nextPace 8192 true 0 = 4096 ∧ nextPace 2048 false 0 = 2560 ∧ nextPace 100 true 0 = 64 ∧ nextPace 16384 false 3 = 2048 := by decide
/-- At LOC 0x000153 the SEAT is 9, so stagger group 0 is ports 7, 15, 23, 31, 39 and 47, and port 48 is in group 1. -/
theorem test_stagger :
    let s := { State.reset with power := { State.reset.power with loc := 0x000153 } }
    (List.range 49).filter (fun p => s.groupOf p = 0) = [7, 15, 23, 31, 39, 47] ∧ s.groupOf 48 = 1 := by decide +kernel
/-- At a hinge of a long tick the earliest tick of a flood is eight later. -/
theorem test_earliest :
    ({ State.reset with rooster := { tickNo := 100, hingeTime := 0, slots := 2048 } } : State).earliestTick = 108 := by decide +kernel
/-- A CQ with COUNT 8 fires at 8 records, not at 2. -/
theorem test_moderation :
    ({ q1 with kind := 3, armed := true, cqCount := 8, pending := 8 } : Queue).fires 0 = true ∧
    ({ q1 with kind := 3, armed := true, cqCount := 8, pending := 2 } : Queue).fires 0 = false := by decide +kernel

/-- The last window of a default tick: L = 656 gives m = 104 and 130 B (R84). -/
theorem test_short_window : shortWindow 656 = 104 ∧ windowBytes 656 = 130 ∧ windowBytes 1452 = 320 := by decide
/-- A window with one wrong stuffed symbol and one wrong data symbol still gives the payload that was sent (R79, R82). -/
theorem test_window_read :
    let payload := (cutInto 8 5 (scramble (laneSeed 7) (List.replicate 40 false))).map (fun b => BitVec.ofNat 8 (bitsNat b))
    worn.read = (some (payload, 1), 1) := by decide +kernel
/-- A marker of lane 5 reads back, and upside down as inverted (Table 3.4, R93). -/
theorem test_marker :
    let m := mark 5 0x2A7
    let n : LaneMarker := { m with symbols := m.symbols.map flipLevel }
    markerOk m = true ∧ m.lane = 5 ∧ m.info.extractLsb' 0 18 = 0x2A7 ∧ m.inverted = false ∧
      markerOk n = true ∧ n.lane = 5 ∧ n.inverted = true := by decide +kernel
/-- A depot list is last in, first out: what is freed is taken next (R177). -/
theorem test_depot_list :
    let a := (live.depotTake 4 1).2
    let b := (a.depotTake 4 1).2.depotFree 4 0
    (live.depotTake 4 1).1 = some 0 ∧ (a.depotTake 4 1).1 = some 1 ∧ (b.depotTake 4 2).1 = some 0 := by decide +kernel

/-! ### Hypotheses that can be met -/

theorem witness_SlotsAndTicksAdvance :
  (∃ (s : State), s.alive = true ∧ s.rooster.slot + 1 < s.rooster.slots) ∧
  (∃ (s : State), s.hingeDue = true ∧ s.rooster.early = []) ∧
  (∃ (s : State), s.alive = true ∧ s.rooster.slot = 1) :=
  ⟨⟨{ live with rooster := { slot := 2046 } }, by decide +kernel⟩,
   ⟨{ live with rooster := { slot := 2047 } }, by decide +kernel⟩,
   ⟨{ live with rooster := { slot := 1 } }, by decide +kernel⟩⟩

theorem witness_RoosterStateChanges :
  (∃ (s : State), s.alive = true ∧ s.rooster.st = .locked ∧ 2 ≤ s.rooster.missRun ∧ s.otherAsGood = false) ∧
  (∃ (s : State), s.alive = true ∧ s.rooster.st = .acquiring ∧ 16 ≤ s.rooster.closeRun) ∧
  (∃ (s : State), s.alive = true ∧ s.rooster.st = .holdover ∧ s.rooster.parentGood = true) ∧
  (∃ (s : State), s.alive = true ∧ s.rooster.st = .holdover ∧ 4 ≤ s.rooster.holdTicks) ∧
  (∃ (s : State), ∃ (port : Nat), ∃ (h : Heard), port < 49 ∧ s.alive = true ∧ s.rooster.heard.get? port = some h ∧
    4 ≤ h.age) ∧
  (∃ (s : State), s.alive = true ∧ s.rooster.refLive = true ∧
    ((s.rooster.refEn = false ∨ s.rooster.refRun = 0 ∨ (s.rooster.slot ≠ 0 ∧ s.rooster.refSeen = false)))) :=
  ⟨⟨{ live with rooster := { st := .locked, missRun := 2 } }, by decide +kernel⟩,
   ⟨{ live with rooster := { st := .acquiring, closeRun := 16 } }, by decide +kernel⟩,
   ⟨{ live with rooster := { st := .holdover, parent := some 3, judged := [(3, .accepted 0)] } }, by decide +kernel⟩,
   ⟨{ live with rooster := { st := .holdover, holdTicks := 4 } }, by decide +kernel⟩,
   ⟨{ live with rooster := { heard := [(3, ⟨1, 0, 0, true, 0, 2048, 4⟩)] } }, 3, ⟨1, 0, 0, true, 0, 2048, 4⟩,
     by decide +kernel⟩,
   ⟨{ live with rooster := { refLive := true } }, by decide +kernel⟩⟩

theorem witness_MarkersSlipsAndReference :
  (∃ (s : State), ∃ (port : Nat), ∃ (f : RxFrame), ∃ (offset : Int), port < 49 ∧ s.alive = true ∧
    s.ahead offset = false ∧ s.rxFail port f = none ∧ f.hdr.typ.toNat = tyMarker ∧ (s.port port).marksCount = true ∧
    s.rooster.st = .locked ∧ s.rooster.parent = some port ∧ BitVec.ofNat 64 (natAt f.body 0 8) = s.rooster.tickNo ∧
    inWindow (offset - s.delayUsed port) = true) ∧
  (∃ (s : State), ∃ (offset : Int), s.alive = true ∧ s.ahead offset = false ∧ inWindow offset = true) ∧
  (∃ (s : State), ∃ (m : Word), ∃ (o : Int), s.alive = true ∧ s.rooster.slot = 0 ∧ s.rooster.slipTo = some (m, o) ∧
    s.rooster.slipHinge < s.rooster.hinges) ∧
  (∃ (s : State), ∃ (n : Nat), s.alive = true ∧ s.rooster.slot = 0 ∧ s.rooster.lenAdopt = some n ∧
    s.rooster.lenHinge < s.rooster.hinges) :=
  ⟨⟨{ at3 up with rooster := { st := .locked, parent := some 3 } }, 3, good (linkHeader tyMarker 32) [], 256,
    by decide +kernel⟩,
   ⟨live, -256, by decide +kernel⟩,
   ⟨{ live with rooster := { slipTo := some (5, 0), hinges := 1 } }, 5, 0, by decide +kernel⟩,
   ⟨{ live with rooster := { lenAdopt := some 64, hinges := 1 } }, 64, by decide +kernel⟩⟩

theorem witness_LaneBringUpSteps :
  (∃ (s : State), ∃ (p j : Nat), p < 49 ∧ j < laneCount p ∧ s.alive = true ∧ (s.lane p j).st = .detect) ∧
  (∃ (s : State), ∃ (p j : Nat), p < 49 ∧ j < laneCount p ∧ s.alive = true ∧ (s.lane p j).st = .detect) ∧
  (∃ (s : State), ∃ (p j : Nat), p < 49 ∧ j < laneCount p ∧ s.alive = true ∧ (s.lane p j).st = .detect) ∧
  (∃ (s : State), ∃ (p j : Nat), p < 49 ∧ j < laneCount p ∧ s.alive = true ∧ (s.lane p j).st = .detect ∧
    (s.port p).reach = 3) ∧
  (∃ (s : State), ∃ (p j : Nat), p < 49 ∧ j < laneCount p ∧ s.alive = true ∧ (s.lane p j).st = .quiet ∧
    (s.lane p j).parked = false) ∧
  (∃ (s : State), ∃ (p j : Nat), p < 49 ∧ j < laneCount p ∧ s.alive = true ∧ (s.lane p j).st = .train) ∧
  (∃ (s : State), ∃ (p j : Nat), p < 49 ∧ j < laneCount p ∧ s.alive = true ∧ (s.lane p j).excluded = true ∧
    (s.lane p j).parked = true ∧ (s.lane p j).st = .quiet) ∧
  (∃ (s : State), ∃ (p j : Nat), p < 49 ∧ j < laneCount p ∧ s.alive = true ∧ (s.lane p j).st.trains = true) :=
  ⟨⟨lane32 {} { st := .detect }, 3, 2, by decide +kernel⟩,
   ⟨lane32 {} { st := .detect, detectFails := 98 }, 3, 2, by decide +kernel⟩,
   ⟨lane32 {} { st := .detect }, 3, 2, by decide +kernel⟩,
   ⟨lane32 { reach := 3 } { st := .detect }, 3, 2, by decide +kernel⟩,
   ⟨lane32 {} { st := .quiet }, 3, 2, by decide +kernel⟩,
   ⟨lane32 {} { st := .train }, 3, 2, by decide +kernel⟩,
   ⟨lane32 {} { st := .quiet, excluded := true, parked := true }, 3, 2, by decide +kernel⟩,
   ⟨lane32 {} { st := .caps }, 3, 2, by decide +kernel⟩⟩

set_option maxRecDepth 20000 in
theorem witness_LaneTrainingIsRead :
  (∃ (s : State), ∃ (p j : Nat), ∃ (m : LaneMarker), p < 49 ∧ j < laneCount p ∧ s.alive = true ∧ markerOk m = true ∧
    m.info.extractLsb' 0 3 ≠ 7 ∧ (s.lane p j).st = .lock ∧ m.gap = 1516) ∧
  (∃ (s : State), ∃ (p j : Nat), ∃ (m : LaneMarker), p < 49 ∧ j < laneCount p ∧ s.alive = true ∧ markerOk m = true ∧
    m.info.extractLsb' 0 3 ≠ 7 ∧ (s.lane p j).st = .lock ∧ m.gap ≠ 1516) ∧
  (∃ (s : State), ∃ (p j : Nat), ∃ (m : LaneMarker), p < 49 ∧ j < laneCount p ∧ s.alive = true ∧ markerOk m = true ∧
    m.info.extractLsb' 0 3 ≠ 7 ∧ (s.lane p j).st = .orient ∧ (s.lane p j).logical = m.lane.toNat ∧
    (s.lane p j).inverted = m.inverted ∧ (s.lane p j).marks = 7) ∧
  (∃ (s : State), ∃ (p j : Nat), ∃ (m : LaneMarker), p < 49 ∧ j < laneCount p ∧ s.alive = true ∧ markerOk m = false ∧
    m.info.extractLsb' 0 3 ≠ 7 ∧ ((s.lane p j).st = .lock ∨ (s.lane p j).st = .orient)) ∧
  (∃ (s : State), ∃ (p j : Nat), ∃ (b : List Byte), ∃ (c : Caps), p < 49 ∧ j < laneCount p ∧ s.alive = true ∧
    (s.lane p j).st = .caps ∧ capsOf b = some c ∧ (s.lane p j).capsAcks + 1 < 8) ∧
  (∃ (s : State), ∃ (p j : Nat), ∃ (b : List Byte), p < 49 ∧ j < laneCount p ∧ s.alive = true ∧
    (s.lane p j).st = .caps ∧ capsOf b = none ∧ (s.lane p j).capsAcks + 1 < 8) ∧
  (∃ (s : State), ∃ (p j : Nat), ∃ (eyes : List EyeOpening), p < 49 ∧ j < laneCount p ∧ s.alive = true ∧
    (s.lane p j).st = .active ∧ 32 ≤ eyeFigure eyes) ∧
  (∃ (s : State), ∃ (p j : Nat), ∃ (eyes : List EyeOpening), p < 49 ∧ j < laneCount p ∧ s.alive = true ∧
    (s.port p).active = true ∧ (s.lane p j).st = .active ∧ eyeFigure eyes < 32) :=
  ⟨⟨lane32 {} { st := .lock, marks := 7 }, 3, 2, mark 2 0, by decide +kernel⟩,
   ⟨lane32 {} { st := .lock, marks := 7 }, 3, 2, { mark 2 0 with gap := 3032 }, by decide +kernel⟩,
   ⟨lane32 {} { st := .orient, logical := 2, marks := 7 }, 3, 2, mark 2 0, by decide +kernel⟩,
   ⟨lane32 {} { st := .lock }, 3, 2, { symbols := List.replicate 64 0 }, by decide +kernel⟩,
   ⟨lane32 {} { st := .caps, capsAcks := 6 }, 3, 2, record, ⟨true, 1, 1, 1, 8, 0, 0⟩, by decide +kernel⟩,
   ⟨lane32 {} { st := .caps, capsAcks := 6 }, 3, 2, [], by decide +kernel⟩,
   ⟨lane32 up { st := .active }, 3, 2, [⟨32, 255, 1, 1⟩], by decide +kernel⟩,
   ⟨lane32 up { st := .active }, 3, 2, [⟨1, 1, 31, 255⟩], by decide +kernel⟩⟩

theorem witness_LaneLossAndNotice :
  (∃ (s : State), ∃ (p j : Nat), p < 49 ∧ j < laneCount p ∧ s.alive = true ∧ (s.port p).active = true ∧
    (s.lane p j).st = .active) ∧
  (∃ (s : State), ∃ (p j : Nat), p < 49 ∧ j < laneCount p ∧ s.alive = true ∧ (s.port p).active = true ∧
    (s.lane p j).st = .active ∧ 16 ≤ (s.lane p j).marginal ∧ (s.port p).healthyIn.getLsbD (s.lane p j).logical = true) ∧
  (∃ (s : State), ∃ (p : Nat), ∃ (m : LaneMarker), p < 49 ∧ s.alive = true ∧ (s.port p).active = true ∧
    markerSub m = some 2 ∧ s.rooster.slot ≠ 0 ∧
    laneSet p ((s.port p).healthyOut &&& ~~~laneBit (m.info.extractLsb' 8 4).toNat) ≠ 0) ∧
  (∃ (s : State), ∃ (p : Nat), ∃ (m : LaneMarker), p < 49 ∧ s.alive = true ∧ (s.port p).active = true ∧
    markerSub m = some 1 ∧ (s.port p).noticed ≠ [] ∧ laneSet p (s.port p).healthyIn ≠ 0) ∧
  (∃ (s : State), ∃ (p : Nat), ∃ (m : LaneMarker), p < 49 ∧ s.alive = true ∧ (s.port p).active = true ∧
    (markerSub m = some 1 ∧ (s.port p).noticed ≠ [] ∧ laneSet p (s.port p).healthyIn = 0)) ∧
  (∃ (s : State), ∃ (p : Nat), ∃ (m : LaneMarker), p < 49 ∧ s.alive = true ∧ (s.port p).active = true ∧
    (markerSub m = some 2 ∧ s.rooster.slot ≠ 0 ∧
    laneSet p ((s.port p).healthyOut &&& ~~~laneBit (m.info.extractLsb' 8 4).toNat) = 0)) ∧
  (∃ (s : State), ∃ (p l : Nat), p < 49 ∧ s.alive = true ∧ (s.port p).active = true ∧ (s.port p).noticed = [l]) ∧
  (∃ (s : State), ∃ (p : Nat), p < 49 ∧ s.alive = true ∧ (s.port p).active = true ∧ (s.port p).noticed ≠ []) :=
  ⟨⟨lane32 up { st := .active }, 3, 2, by decide +kernel⟩,
   ⟨lane32 up { st := .active, marginal := 16, logical := 2 }, 3, 2, by decide +kernel⟩,
   ⟨{ at3 up with rooster := { slot := 1 } }, 3, mark 0 0x027, by decide +kernel⟩,
   ⟨at3 { up with noticed := [2] }, 3, mark 0 0x017, by decide +kernel⟩,
   ⟨at3 { up with noticed := [2], healthyIn := 0 }, 3, mark 0 0x017, by decide +kernel⟩,
   ⟨{ at3 { up with healthyOut := 1 } with rooster := { slot := 1 } }, 3, mark 0 0x027, by decide +kernel⟩,
   ⟨at3 { up with noticed := [2] }, 3, 2, by decide +kernel⟩,
   ⟨at3 { up with noticed := [2] }, 3, by decide +kernel⟩⟩

theorem witness_HingeFramesAreTaken :
  (∃ (s : State), ∃ (p : Nat), p < 49 ∧ s.alive = true ∧ s.power.ready = true ∧ (s.port p).active = true ∧
    (s.port p).range = none ∧ s.initiates p = true) ∧
  (∃ (s : State), ∃ (p : Nat), ∃ (f : RxFrame), p < 49 ∧ s.alive = true ∧ (s.port p).active = true ∧
    s.rxFail p f = none ∧ f.hdr.typ.toNat = tyRange ∧ natAt f.body 0 1 = 1 ∧ natAt f.body 1 1 = 0 ∧
    (s.port p).range = none) ∧
  (∃ (s : State), ∃ (p : Nat), ∃ (r : RangeRun), p < 49 ∧ (s.port p).range = some r ∧ r.initiator = true ∧ r.index = 64) ∧
  (∃ (s : State), ∃ (p : Nat), ∃ (f : RxFrame), p < 49 ∧ s.alive = true ∧ (s.port p).active = true ∧
    s.rxFail p f = none ∧ f.hdr.typ.toNat = tyAdapt ∧ s.heldMask p = 0 ∧ BitVec.ofNat 16 (natAt f.body 28 2) ≠ 0 ∧
    BitVec.ofNat 16 (natAt f.body 28 2) ≠ (s.port p).maskOut) :=
  ⟨⟨at3 { up with caps := some (caps false) }, 3, by decide +kernel⟩,
   ⟨at3 up, 3, good (linkHeader tyRange 32) [1, 0], by decide +kernel⟩,
   ⟨at3 { up with range := some { initiator := true, index := 64 } }, 3, { initiator := true, index := 64 },
     by decide +kernel⟩,
   ⟨at3 up, 3, good (linkHeader tyAdapt 64) (List.replicate 28 0 ++ [0x7F]), by decide +kernel⟩⟩

theorem witness_SleepAndWake :
  (∃ (s : State), ∃ (p : Nat), ∃ (w : Nat × Nat), p < 49 ∧ s.alive = true ∧ (s.port p).active = true ∧
    (s.port p).down = false ∧ (s.port p).pwrOut = .awake ∧ (s.port p).busy = none ∧
    (s.port p).napMap.find? (fun x => x.1 = s.rooster.slot) = some w) ∧
  (∃ (s : State), ∃ (p : Nat), p < 49 ∧ s.alive = true ∧ (s.port p).active = true ∧
    ((s.port p).pwrOut = .nap ∨ (s.port p).pwrOut = .doze) ∧ (s.port p).waking = false) ∧
  (∃ (s : State), ∃ (p : Nat), ∃ (m : LaneMarker), p < 49 ∧ s.alive = true ∧ (s.port p).active = true ∧
    ((s.port p).pwrIn = .nap ∨ (s.port p).pwrIn = .doze) ∧ markerSub m = some 5) ∧
  (∃ (s : State), ∃ (p : Nat), ∃ (m : LaneMarker), p < 49 ∧ s.alive = true ∧ (s.port p).active = true ∧
    (s.port p).pwrIn = .awake ∧ ((markerSub m = some 3 ∨ markerSub m = some 4))) ∧
  (∃ (s : State), ∃ (p : Nat), p < 49 ∧ s.alive = true ∧ (s.port p).active = true ∧
    ((s.port p).pwrIn = .nap ∨ (s.port p).pwrIn = .doze)) :=
  ⟨⟨at3 { up with napMap := [(0, 2)] }, 3, (0, 2), by decide +kernel⟩,
   ⟨at3 { up with pwrOut := .doze }, 3, by decide +kernel⟩,
   ⟨at3 { up with pwrIn := .nap }, 3, mark 0 0x057, by decide +kernel⟩,
   ⟨at3 up, 3, mark 0 0x037, by decide +kernel⟩,
   ⟨at3 { up with pwrIn := .doze }, 3, by decide +kernel⟩⟩

theorem witness_BoundFramesAreHeld :
  ∃ (s : State), ∃ (port part k n : Nat), ∃ (v : Handle), ∃ (b : Buffer), ∃ (fb : Bool), ∃ (f : RxFrame), port < 49 ∧
    s.takes port f ∧ f.hdr.typ.toNat = tySData ∧ s.twin.st ≠ .detached ∧
    (f.hdr.tick - s.rooster.tickNo.setWidth 32).msb = false ∧ (s.port port).delayOver = false ∧
    s.handleFor port f.hdr = some (part, k, v) ∧ (s.thread part).handles.get? k = some v ∧ s.rooster.slot ≤ v.dl ∧
    f.hdr.chunk = v.chunk ∧ v.frames.get? f.hdr.frame = none ∧ v.dead.contains f.hdr.frame = false ∧
    (s.port port).sInHeld + frameUnits f.hdr.len.toNat ≤ (s.port port).sIn ∧
    (s.die (homeDie port)).behind port f.hdr = false ∧ s.henChoose (homeDie port) f.hdr false false = .got b fb ∧
    s.nextDesc (homeDie port) = some n :=
  ⟨fed bound sFrame, 3, 0, 2, 0, bound, .pool 0 622592, false, sFrame, by decide +kernel⟩

theorem witness_FramesAreStoredAndQueued :
  (∃ (s : State), ∃ (port n : Nat), ∃ (b : Buffer), ∃ (fb : Bool), ∃ (f : RxFrame), port < 49 ∧ s.takes port f ∧
    f.hdr.dstLoc = s.power.loc ∧ f.hdr.dstPort.toNat < 49 ∧ f.hdr.dstPort.toNat ≠ port ∧
    s.queuesAt f.hdr.dstPort.toNat f.hdr ∧ (s.die (homeDie port)).behind port f.hdr = false ∧
    s.henChoose (homeDie port) f.hdr false false = .got b fb ∧ s.nextDesc (homeDie port) = some n ∧
    f.hdr.typ.toNat = tyBData) ∧
  (∃ (s : State), ∃ (port n : Nat), ∃ (b : Buffer), ∃ (fb : Bool), ∃ (f : RxFrame), port < 49 ∧ s.takes port f ∧
    f.hdr.dstLoc = s.power.loc ∧ f.hdr.dstPort.toNat < 49 ∧ f.hdr.dstPort.toNat ≠ port ∧
    s.queuesAt f.hdr.dstPort.toNat f.hdr ∧ (s.die (homeDie port)).behind port f.hdr = false ∧
    s.henChoose (homeDie port) f.hdr false false = .got b fb ∧ s.nextDesc (homeDie port) = some n ∧
    f.hdr.typ.toNat = tyBEcho) ∧
  (∃ (s : State), ∃ (port n : Nat), ∃ (b : Buffer), ∃ (fb : Bool), ∃ (f : RxFrame), port < 49 ∧ s.takes port f ∧
    f.hdr.dstLoc = s.power.loc ∧ f.hdr.dstPort.toNat < 49 ∧ f.hdr.dstPort.toNat ≠ port ∧
    s.queuesAt f.hdr.dstPort.toNat f.hdr ∧ (s.die (homeDie port)).behind port f.hdr = false ∧
    s.henChoose (homeDie port) f.hdr false false = .got b fb ∧ s.nextDesc (homeDie port) = some n ∧
    f.hdr.typ.toNat = tyCData) ∧
  (∃ (s : State), ∃ (port n : Nat), ∃ (b : Buffer), ∃ (fb : Bool), ∃ (f : RxFrame), port < 49 ∧ s.takes port f ∧
    f.hdr.dstLoc = s.power.loc ∧ f.hdr.dstPort.toNat < 49 ∧ f.hdr.dstPort.toNat ≠ port ∧
    s.queuesAt f.hdr.dstPort.toNat f.hdr ∧ (s.die (homeDie port)).behind port f.hdr = false ∧
    s.henChoose (homeDie port) f.hdr false false = .got b fb ∧ s.nextDesc (homeDie port) = some n ∧
    f.hdr.typ.toNat = tyCAck) ∧
  (∃ (s : State), ∃ (port n : Nat), ∃ (b : Buffer), ∃ (fb : Bool), ∃ (f : RxFrame), port < 49 ∧ s.takes port f ∧
    f.hdr.dstLoc = s.power.loc ∧ f.hdr.dstPort.toNat < 49 ∧ f.hdr.dstPort.toNat ≠ port ∧
    s.queuesAt f.hdr.dstPort.toNat f.hdr ∧ (s.die (homeDie port)).behind port f.hdr = false ∧
    s.henChoose (homeDie port) f.hdr false false = .got b fb ∧ s.nextDesc (homeDie port) = some n ∧
    f.hdr.typ.toNat = tyCNotready) ∧
  (∃ (s : State), ∃ (port : Nat), ∃ (f : RxFrame), port < 49 ∧ s.takes port f ∧ f.hdr.dstLoc = s.power.loc ∧
    f.hdr.dstPort.toNat = port ∧ f.hdr.typ.toNat = tyBData) ∧
  (∃ (s : State), ∃ (port : Nat), ∃ (f : RxFrame), port < 49 ∧ s.takes port f ∧ f.hdr.dstLoc = s.power.loc ∧
    f.hdr.dstPort.toNat = port ∧ f.hdr.typ.toNat = tyBEcho) ∧
  (∃ (s : State), ∃ (port : Nat), ∃ (f : RxFrame), port < 49 ∧ s.takes port f ∧ f.hdr.dstLoc = s.power.loc ∧
    f.hdr.dstPort.toNat = port ∧ f.hdr.typ.toNat = tyCData) ∧
  (∃ (s : State), ∃ (port : Nat), ∃ (f : RxFrame), port < 49 ∧ s.takes port f ∧ f.hdr.dstLoc = s.power.loc ∧
    f.hdr.dstPort.toNat = port ∧ f.hdr.typ.toNat = tyCAck) ∧
  (∃ (s : State), ∃ (port : Nat), ∃ (f : RxFrame), port < 49 ∧ s.takes port f ∧ f.hdr.dstLoc = s.power.loc ∧
    f.hdr.dstPort.toNat = port ∧ f.hdr.typ.toNat = tyCNotready) :=
  ⟨⟨fed bound (good { blankHeader tyBData with last := true, len := 1, dstPort := 4 } [5]), 3, 0, .pool 0 622592,
    false, good { blankHeader tyBData with last := true, len := 1, dstPort := 4 } [5], by decide +kernel⟩,
   ⟨fed bound (good { blankHeader tyBEcho with len := 16, dstPort := 4 } []), 3, 0, .pool 0 622592, false,
     good { blankHeader tyBEcho with len := 16, dstPort := 4 } [], by decide +kernel⟩,
   ⟨fed bound (good { blankHeader tyCData with last := true, len := 1, dstPort := 4 } [5]), 3, 0, .pool 0 622592,
     false, good { blankHeader tyCData with last := true, len := 1, dstPort := 4 } [5], by decide +kernel⟩,
   ⟨fed bound (good { blankHeader tyCAck with dstPort := 4 } []), 3, 0, .none, false,
     good { blankHeader tyCAck with dstPort := 4 } [], by decide +kernel⟩,
   ⟨fed bound (good { blankHeader tyCNotready with len := 8, dstPort := 4 } []), 3, 0, .pool 0 622592, false,
     good { blankHeader tyCNotready with len := 8, dstPort := 4 } [], by decide +kernel⟩,
   ⟨fed bound (bcFrame tyBData), 3, good { blankHeader tyBData with last := true, len := 1, dstPort := 3 } [5],
     by decide +kernel⟩,
   ⟨fed bound (bcFrame tyBData), 3, good { blankHeader tyBEcho with len := 16, dstPort := 3 } [], by decide +kernel⟩,
   ⟨fed bound (bcFrame tyBData), 3, good { blankHeader tyCData with last := true, len := 1, dstPort := 3 } [5],
     by decide +kernel⟩,
   ⟨fed bound (bcFrame tyBData), 3, good { blankHeader tyCAck with dstPort := 3 } [], by decide +kernel⟩,
   ⟨fed bound (bcFrame tyBData), 3, good { blankHeader tyCNotready with len := 8, dstPort := 3 } [], by decide +kernel⟩⟩

theorem witness_BadFramesAreDiscarded :
  (∃ (s : State), ∃ (port : Nat), port < 49 ∧ s.alive = true ∧ (s.port port).active = true ∧ (s.port port).hunt = false) ∧
  (∃ (s : State), ∃ (port : Nat), ∃ (f : RxFrame), ∃ (c : Instr), port < 49 ∧ s.alive = true ∧
    (s.port port).active = true ∧ s.lostToLane port f = false ∧ f.fecLanes = [] ∧ f.hcrc = hcrc16 f.hdr.bytes ∧
    headerLegal f.hdr = true ∧ f.hdr.cls = .link ∧ f.status.getLsbD 0 = false ∧ f.crc ≠ frameCrc f.hdr f.body ∧
    ((c = .credit port f ∨ ∃ early, c = .adapt port f early))) ∧
  (∃ (s : State), ∃ (port : Nat), ∃ (f : RxFrame), ∃ (c : Instr), port < 49 ∧ s.alive = true ∧
    (s.port port).active = true ∧ s.lostToLane port f = true ∧ ((c = .credit port f ∨ ∃ early,
    c = .adapt port f early))) ∧
  (∃ (s : State), ∃ (port j : Nat), ∃ (f : RxFrame), port < 49 ∧ s.alive = true ∧ (s.port port).active = true ∧
    j < laneCount port ∧ f.fecFixed = [j] ∧ f.stuffed = [j]) :=
  ⟨⟨at3 up, 3, by decide +kernel⟩,
   ⟨at3 up, 3, { good (linkHeader tyCredit 16) [] with crc := 0 },
     .credit 3 { good (linkHeader tyCredit 16) [] with crc := 0 },
     by and_intros <;> first | exact Or.inl rfl | decide +kernel⟩,
   ⟨at3 up, 3, { good (linkHeader tyCredit 16) [] with lostLane := true },
     .credit 3 { good (linkHeader tyCredit 16) [] with lostLane := true },
     by and_intros <;> first | exact Or.inl rfl | decide +kernel⟩,
   ⟨at3 up, 3, 7, { good (linkHeader tyCredit 16) [] with windows := [worn] }, by decide +kernel⟩⟩

theorem witness_CreditsMoveAsTheRulesSay :
  (∃ (s : State), ∃ (port : Nat), ∃ (f : RxFrame), port < 49 ∧ s.alive = true ∧ (s.port port).active = true ∧
    s.rxFail port f = none ∧ f.hdr.typ.toNat = tyCredit) ∧
  (∃ (s : State), ∃ (port : Nat), port < 49 ∧ s.alive = true ∧ (s.port port).active = true ∧ s.creditWanted port = true) ∧
  (∃ (s : State), ∃ (port : Nat), port < 49 ∧ 64 ≤ (s.port port).credC.wait ∧ (s.port port).credC.stalled = false) ∧
  (∃ (s : State), ∃ (port : Nat), port < 49 ∧ 64 ≤ (s.port port).credB.wait ∧ (s.port port).credB.stalled = false) :=
  ⟨⟨at3 up, 3, good (linkHeader tyCredit 16) [], by decide +kernel⟩,
   ⟨at3 { up with creditSlots := 16 }, 3, by decide +kernel⟩,
   ⟨at3 { credC := { wait := 64 } }, 3, by decide +kernel⟩,
   ⟨at3 { credB := { wait := 64 } }, 3, by decide +kernel⟩⟩

theorem witness_ClassCTimersRun :
  (∃ (s : State), ∃ (k : StreamKey), ∃ (t : TxStream), ∃ (at_ : Nat), ∃ (u : Unacked), ∃ (l : List Unacked),
    assoc? s.txs k = some t ∧ t.timer = some at_ ∧ t.unacked = u :: l ∧ at_ ≤ s.time ∧ u.sends < 8) ∧
  (∃ (s : State), ∃ (k : StreamKey), ∃ (t : TxStream), ∃ (at_ : Nat), ∃ (u : Unacked), ∃ (l : List Unacked),
    assoc? s.txs k = some t ∧ t.timer = some at_ ∧ t.unacked = u :: l ∧ at_ ≤ s.time ∧ 8 ≤ u.sends) ∧
  (∃ (s : State), ∃ (k : StreamKey), ∃ (r : RxStream), assoc? s.rxs k = some r ∧ r.ackAt.isSome = true) ∧
  (∃ (s : State), ∃ (k : StreamKey), ∃ (t : TxStream), ∃ (at_ : Nat), assoc? s.txs k = some t ∧ t.retryAt = some at_ ∧
    at_ ≤ s.time ∧ t.waited + (s.time - t.waitFrom) ≤ 2000000000) ∧
  (∃ (s : State), ∃ (k : StreamKey), ∃ (t : TxStream), ∃ (at_ : Nat), assoc? s.txs k = some t ∧ t.retryAt = some at_ ∧
    2000000000 < t.waited + (s.time - t.waitFrom)) :=
  ⟨⟨sent 7, key, tx 7, 5, unacked 7, [], by decide +kernel⟩,
   ⟨sent 8, key, tx 8, 5, unacked 8, [], by decide +kernel⟩,
   ⟨{ live with rxs := [(key, { a := 0, part := 0, port := 3, ackAt := some 0 })] }, key,
     { a := 0, part := 0, port := 3, ackAt := some 0 }, by decide +kernel⟩,
   ⟨waits 2000000000, key, { retryAt := some 5, waited := 2000000000, waitFrom := 5 }, 5, by decide +kernel⟩,
   ⟨waits 2000000001, key, { retryAt := some 5, waited := 2000000001, waitFrom := 5 }, 5, by decide +kernel⟩⟩

theorem witness_EgressSendsAndReleases :
  (∃ (s : State), ∃ (port : Nat), port < 49 ∧ s.alive = true ∧ (s.port port).canSend = true ∧ s.rooster.slot ≠ 0 ∧
    (s.port port).qS = [] ∧ (s.port port).qB = [] ∧ (s.port port).qC = [] ∧ (s.port port).creditDue = true ∧
    s.time + frameNs (s.port port).widthOut 16 ≤ s.egressEnd port) ∧
  (∃ (s : State), ∃ (port : Nat), ∃ (e : QEntry), ∃ (bad : Bool), port < 49 ∧ s.alive = true ∧
    (s.port port).canSend = true ∧ s.rooster.slot ≠ 0 ∧ (s.port port).qS = [] ∧ (s.port port).qB = [] ∧
    (s.port port).qC = [e] ∧ (s.port port).creditDue = false ∧ e.hdr.cls = .c ∧ e.ingress < 49 ∧ e.own = none ∧
    s.epochOk e.hdr.epoch = true ∧ s.bcReady port e = true ∧ (bad && e.crosses port) = false) ∧
  (∃ (s : State), ∃ (port : Nat), ∃ (e : QEntry), ∃ (bad : Bool), port < 49 ∧ s.alive = true ∧
    (s.port port).canSend = true ∧ s.rooster.slot ≠ 0 ∧ (s.port port).qS = [] ∧ (s.port port).qB = [e] ∧
    (s.port port).qC = [] ∧ (s.port port).creditDue = false ∧ e.hdr.cls = .b ∧ e.ingress < 49 ∧ e.own = none ∧
    s.epochOk e.hdr.epoch = true ∧ s.bcReady port e = true ∧ (bad && e.crosses port) = false) ∧
  (∃ (s : State), ∃ (port n : Nat), ∃ (e : QEntry), ∃ (f : Stored), port < 49 ∧ s.alive = true ∧
    (s.port port).canSend = true ∧ s.rooster.slot ≠ 0 ∧ (s.port port).qS = [] ∧ (s.port port).qB = [] ∧
    (s.port port).qC = [e] ∧ (s.port port).creditDue = false ∧ e.hdr.cls = .c ∧ s.epochOk e.hdr.epoch = true ∧
    s.bcReady port e = true ∧ e.crosses port = true ∧ e.desc = some n ∧ s.descs.get? n = some f) ∧
  (∃ (s : State), ∃ (port n : Nat), ∃ (e : QEntry), ∃ (f : Stored), port < 49 ∧ (s.port port).busy = some e ∧
    e.desc = some n ∧ s.descs.get? n = some f) ∧
  (∃ (s : State), ∃ (port n : Nat), ∃ (e : QEntry), ∃ (f : Stored), port < 49 ∧
    (s.port port).qB.find? (fun x => x.mc && x.desc = some n) = some e ∧ s.descs.get? n = some f ∧
    e.at_ + (s.die e.die).mcHold * s.tickNs ≤ s.time ∧ (s.port port).down = false) ∧
  (∃ (s : State), ∃ (port n : Nat), ∃ (e : QEntry), ∃ (f : Stored), port < 49 ∧
    ((s.port port).qB ++ (s.port port).qS).find? (fun x => x.mc && x.desc = some n) = some e ∧
    s.descs.get? n = some f ∧ e.at_ + (s.die e.die).mcHold * s.tickNs ≤ s.time ∧ (s.port port).down = true) :=
  ⟨⟨slot1 { up with creditDue := true }, 3, by decide +kernel⟩,
   ⟨slot1 { up with qC := [entry tyCData], credC := { txLimit := 64 } }, 3, entry tyCData, true, by decide +kernel⟩,
   ⟨slot1 { up with qB := [entry tyBData], credB := { txLimit := 64 } }, 3, entry tyBData, true, by decide +kernel⟩,
   ⟨{ slot1 { up with qC := [{ entry tyCData with desc := some (245760) }], credC := { txLimit := 64 } } with descs := [(245760, stored)] }, 3, 245760, { entry tyCData with desc := some (245760) }, stored, by decide +kernel⟩,
   ⟨{ at3 { up with busy := some { entry tyBData with desc := some 0 } } with descs := [(0, stored)] }, 3, 0,
     { entry tyBData with desc := some 0 }, stored, by decide +kernel⟩,
   ⟨{ at3 { up with qB := [{ entry tyBData with desc := some 0, mc := true }] } with descs := [(0, stored)], time := 524288 }, 3, 0, { entry tyBData with desc := some 0, mc := true }, stored, by decide +kernel⟩,
   ⟨{ at3 { up with down := true, qB := [{ entry tyBData with desc := some 0, mc := true }] } with descs := [(0, stored)], time := 524288 }, 3, 0, { entry tyBData with desc := some 0, mc := true }, stored, by decide +kernel⟩⟩

theorem witness_SendQueuesBuildFrames :
  ∃ (s : State), ∃ (qid : Nat), ∃ (q : Queue), ∃ (e : Started), ∃ (dst : BitVec 32), qid < 4096 ∧ s.alive = true ∧
    s.power.ready = true ∧ s.dueStream qid = none ∧ s.queue? qid = some q ∧
    q.started.find? (fun x => x.opc = 1 && x.status.isNone) = some e ∧
    s.rankAddr (s.ctxPart q.ctx) e.rank = some dst ∧ min 4096 (e.len - e.built) ≤ q.bucket ∧
    s.mayBuild ingHP (s.bHeader 0x40 dst (s.ctxPart q.ctx) q.ctx e.dq (min 4096 (e.len - e.built)) e.msg (e.built /
    4096) (decide (e.len ≤ e.built + min 4096 (e.len - e.built)))) = true :=
  ⟨queued 1 { q1 with started := [begun] }, 1, { ctx := 0, slot := 1, kind := 1, started := [begun] }, begun,
    0x03000000, by decide +kernel⟩

theorem witness_HenActs :
  (∃ (s : State), ∃ (d pool : Nat), ∃ (w : HenWait), d < 2 ∧ pool < 3 ∧
    (s.die d).waits.find? (fun x => x.pool = pool && s.waitReady d x) = some w ∧ w.at_ ≠ s.time ∧
    ((s.die d).pool pool).allocAt ≠ some s.time) ∧
  (∃ (s : State), ∃ (d pool : Nat), ∃ (w : HenWait), d < 2 ∧ pool < 3 ∧
    (s.die d).waits.find? (fun x => x.pool = pool && s.waitReady d x) = some w ∧
    ((w.at_ = s.time ∨ ((s.die d).pool pool).allocAt = some s.time))) ∧
  (∃ (s : State), ∃ (pool : Nat), ((pool = 3 ∨ pool = 4)) ∧ (s.depot.pool pool).bad = true ∧ s.rooster.slot = 0) ∧
  (∃ (s : State), ∃ (d : Nat), d < 2 ∧ (s.die d).level = 0 ∧ (s.die d).fillGe (s.die d).thrA = true ∧
    (s.die d).fillGe (s.die d).thrR = false ∧ (s.die d).fillGe (s.die d).thrB = false) ∧
  (∃ (s : State), ∃ (d : Nat), d < 2 ∧ (s.die d).level ≠ 0 ∧ ((∀ l,
    (s.die d).level < l → l ≤ 3 → (s.die d).fillGe ((s.die d).thr l) = false)) ∧ (s.die d).level ≤ 3 ∧
    (s.die d).fillLe ((s.die d).thr (s.die d).level - 8) = true) :=
  ⟨⟨{ live with time := 1, west := { waits := [{ pool := 0, ingress := 3, at_ := 0, hdr := { blankHeader tyBData with len := 1 }, payload := [5], crowd := false, dest := {} }] } }, 0, 0, { pool := 0, ingress := 3, at_ := 0, hdr := { blankHeader tyBData with len := 1 }, payload := [5], crowd := false, dest := {} }, by decide +kernel⟩,
   ⟨{ live with west := { waits := [{ pool := 0, ingress := 3, at_ := 0, hdr := { blankHeader tyBData with len := 1 }, payload := [5], crowd := false, dest := {} }] } }, 0, 0, { pool := 0, ingress := 3, at_ := 0, hdr := { blankHeader tyBData with len := 1 }, payload := [5], crowd := false, dest := {} }, by decide +kernel⟩,
   ⟨{ live with depot := { live.depot with p3 := { head := 5, bad := true } } }, 3, by decide +kernel⟩,
   ⟨{ live with west := { thrA := 0, thrR := 1, thrB := 1 } }, 0, by decide +kernel⟩,
   ⟨{ live with west := { level := 3 } }, 0,
     by and_intros <;> first | exact (fun _ a b => absurd b (Nat.not_le.mpr a)) | decide +kernel⟩⟩

theorem witness_EchoesAndMessageTimeouts :
  (∃ (s : State), ∃ (src : BitVec 32), ∃ (ctx : Nat), ∃ (e : Echo), ∃ (d : BitVec 32 × Nat × Nat × Nat),
    assoc? s.echoes (src, ctx) = some e ∧ e.due = some d) ∧
  (∃ (s : State), ∃ (k : MsgKey), ∃ (m : OpenMsg), s.msgs.find? (fun x => x.key = k) = some m ∧ m.complete = false ∧
    m.lastAt + 4 * s.tickNs ≤ s.time) :=
  ⟨⟨{ live with echoes := [((0x03000000, 0), { due := some (1, 1, 1, 0) })] }, 0x03000000, 0,
    { due := some (1, 1, 1, 0) }, (1, 1, 1, 0), by decide +kernel⟩,
   ⟨{ live with msgs := [⟨⟨3, 0, 1⟩, 1, 0, 1, [], none, 0, [], none, [], [], 0⟩], time := 1048576 }, ⟨3, 0, 1⟩, ⟨⟨3,
     0, 1⟩, 1, 0, 1, [], none, 0, [], none, [], [], 0⟩, by decide +kernel⟩⟩

theorem witness_ScalarResults :
  (∃ (s : State), ∃ (p : Nat), ∃ (h : GHead), ∃ (rd ra rb : BitVec 5), s.issues p (.add p h rd ra rb)) ∧
  (∃ (s : State), ∃ (p : Nat), ∃ (h : GHead), ∃ (rd ra rb : BitVec 5), s.issues p (.sub p h rd ra rb)) ∧
  (∃ (s : State), ∃ (p : Nat), ∃ (h : GHead), ∃ (rd ra rb : BitVec 5), s.issues p (.mul p h rd ra rb)) ∧
  (∃ (s : State), ∃ (p : Nat), ∃ (h : GHead), ∃ (rd ra : BitVec 5), s.issues p (.neg p h rd ra)) ∧
  (∃ (s : State), ∃ (p : Nat), ∃ (h : GHead), ∃ (rd ra : BitVec 5), s.issues p (.abs p h rd ra)) ∧
  (∃ (s : State), ∃ (p : Nat), ∃ (h : GHead), ∃ (rd ra rb : BitVec 5), s.issues p (.and p h rd ra rb)) ∧
  (∃ (s : State), ∃ (p : Nat), ∃ (h : GHead), ∃ (rd ra rb : BitVec 5), s.issues p (.or p h rd ra rb)) ∧
  (∃ (s : State), ∃ (p : Nat), ∃ (h : GHead), ∃ (rd ra rb : BitVec 5), s.issues p (.xor p h rd ra rb)) ∧
  (∃ (s : State), ∃ (p : Nat), ∃ (h : GHead), ∃ (rd ra rb : BitVec 5), s.issues p (.shl p h rd ra rb)) ∧
  (∃ (s : State), ∃ (p : Nat), ∃ (h : GHead), ∃ (rd ra rb : BitVec 5), s.issues p (.shr p h rd ra rb)) ∧
  (∃ (s : State), ∃ (p : Nat), ∃ (h : GHead), ∃ (rd ra rb : BitVec 5), s.issues p (.sra p h rd ra rb)) ∧
  (∃ (s : State), ∃ (p : Nat), ∃ (h : GHead), ∃ (rd ra : BitVec 5), ∃ (imm : BitVec 28),
    s.issues p (.addi p h rd ra imm)) ∧
  (∃ (s : State), ∃ (p : Nat), ∃ (h : GHead), ∃ (rd : BitVec 5), ∃ (imm : BitVec 28), s.issues p (.movi p h rd imm)) ∧
  (∃ (s : State), ∃ (p : Nat), ∃ (h : GHead), ∃ (rd ra : BitVec 5), ∃ (imm : BitVec 28),
    s.issues p (.ori p h rd ra imm)) :=
  ⟨⟨runs (.add 0 h0 1 2 3) {}, 0, h0, 1, 2, 3, by decide +kernel⟩,
   ⟨runs (.sub 0 h0 1 2 3) {}, 0, h0, 1, 2, 3, by decide +kernel⟩,
   ⟨runs (.mul 0 h0 1 2 3) {}, 0, h0, 1, 2, 3, by decide +kernel⟩,
   ⟨runs (.neg 0 h0 1 2) {}, 0, h0, 1, 2, by decide +kernel⟩,
   ⟨runs (.abs 0 h0 1 2) {}, 0, h0, 1, 2, by decide +kernel⟩,
   ⟨runs (.and 0 h0 1 2 3) {}, 0, h0, 1, 2, 3, by decide +kernel⟩,
   ⟨runs (.or 0 h0 1 2 3) {}, 0, h0, 1, 2, 3, by decide +kernel⟩,
   ⟨runs (.xor 0 h0 1 2 3) {}, 0, h0, 1, 2, 3, by decide +kernel⟩,
   ⟨runs (.shl 0 h0 1 2 3) {}, 0, h0, 1, 2, 3, by decide +kernel⟩,
   ⟨runs (.shr 0 h0 1 2 3) {}, 0, h0, 1, 2, 3, by decide +kernel⟩,
   ⟨runs (.sra 0 h0 1 2 3) {}, 0, h0, 1, 2, 3, by decide +kernel⟩,
   ⟨runs (.addi 0 h0 1 2 5) {}, 0, h0, 1, 2, 5, by decide +kernel⟩,
   ⟨runs (.movi 0 h0 1 5) {}, 0, h0, 1, 5, by decide +kernel⟩,
   ⟨runs (.ori 0 h0 1 2 5) {}, 0, h0, 1, 2, 5, by decide +kernel⟩⟩

theorem witness_ScalarSaturatesAndDivides :
  (∃ (s : State), ∃ (p : Nat), ∃ (h : GHead), ∃ (rd ra rb : BitVec 5), s.issues p (.adds p h rd ra rb)) ∧
  (∃ (s : State), ∃ (p : Nat), ∃ (h : GHead), ∃ (rd ra rb : BitVec 5), s.issues p (.subs p h rd ra rb)) ∧
  (∃ (s : State), ∃ (p : Nat), ∃ (h : GHead), ∃ (rd ra rb : BitVec 5), s.issues p (.muls p h rd ra rb)) ∧
  (∃ (s : State), ∃ (p : Nat), ∃ (h : GHead), ∃ (rd ra rb : BitVec 5), s.issues p (.adduS p h rd ra rb)) ∧
  (∃ (s : State), ∃ (p : Nat), ∃ (h : GHead), ∃ (rd ra rb : BitVec 5), s.issues p (.subuS p h rd ra rb)) ∧
  (∃ (s : State), ∃ (p : Nat), ∃ (h : GHead), ∃ (rd ra rb re : BitVec 5), s.issues p (.divs p h rd ra rb re)) ∧
  (∃ (s : State), ∃ (p : Nat), ∃ (h : GHead), ∃ (rd ra rb re : BitVec 5), s.issues p (.divu p h rd ra rb re)) :=
  ⟨⟨runs (.adds 0 h0 1 2 3) {}, 0, h0, 1, 2, 3, by decide +kernel⟩,
   ⟨runs (.subs 0 h0 1 2 3) {}, 0, h0, 1, 2, 3, by decide +kernel⟩,
   ⟨runs (.muls 0 h0 1 2 3) {}, 0, h0, 1, 2, 3, by decide +kernel⟩,
   ⟨runs (.adduS 0 h0 1 2 3) {}, 0, h0, 1, 2, 3, by decide +kernel⟩,
   ⟨runs (.subuS 0 h0 1 2 3) {}, 0, h0, 1, 2, 3, by decide +kernel⟩,
   ⟨runs (.divs 0 h0 1 2 3 5) {}, 0, h0, 1, 2, 3, 5, by decide +kernel⟩,
   ⟨runs (.divu 0 h0 1 2 3 5) {}, 0, h0, 1, 2, 3, 5, by decide +kernel⟩⟩

theorem witness_FlowAndPredicates :
  (∃ (s : State), ∃ (p : Nat), ∃ (h : GHead), s.issues p (.nop p h)) ∧
  (∃ (s : State), ∃ (p : Nat), ∃ (h : GHead), ∃ (cp : BitVec 3), ∃ (cn : Bool), ∃ (target : BitVec 16),
    s.issues p (.br p h cp cn target)) ∧
  (∃ (s : State), ∃ (p : Nat), ∃ (h : GHead), ∃ (rc : BitVec 5), ∃ (end_ max : BitVec 16),
    s.issues p (.loop p h rc end_ max)) ∧
  (∃ (s : State), ∃ (p : Nat), ∃ (h : GHead), ∃ (rc : BitVec 5), ∃ (start : BitVec 16), s.issues p (.lend p h rc start)) ∧
  (∃ (s : State), ∃ (p : Nat), ∃ (h : GHead), s.issues p (.tickwait p h)) ∧
  (∃ (s : State), ∃ (p : Nat), p < 128 ∧ (s.thread p).st = .running ∧ (s.thread p).waiting = true ∧
    (s.thread p).recs = [] ∧ (s.thread p).sends = [] ∧ s.ownQueued p = false) ∧
  (∃ (s : State), ∃ (p : Nat), ∃ (h : GHead), ∃ (pd cond : BitVec 3), ∃ (ra : BitVec 5), ∃ (imm : Bool),
    ∃ (rb : BitVec 5), ∃ (imm26 : BitVec 26), ∃ (a b : Word), s.issues p (.cmp p h pd cond ra imm rb imm26) ∧
    cond.toNat ≤ 5 ∧ a = s.sreg p ra ∧ b = (if imm then imm26.signExtend 64 else s.sreg p rb)) ∧
  (∃ (s : State), ∃ (p : Nat), ∃ (h : GHead), ∃ (pd : BitVec 3), ∃ (opl : BitVec 2), ∃ (pa pb : BitVec 3),
    s.issues p (.plog p h pd opl pa pb)) ∧
  (∃ (s : State), ∃ (p : Nat), ∃ (h : GHead), ∃ (rd : BitVec 5), ∃ (sel : BitVec 3), s.issues p (.rdt p h rd sel) ∧
    sel.toNat ≤ 5) :=
  ⟨⟨runs (.nop 0 h0) {}, 0, h0, by decide +kernel⟩,
   ⟨runs (.br 0 h0 0 false 7) {}, 0, h0, 0, false, 7, by decide +kernel⟩,
   ⟨runs (.loop 0 h0 1 9 5) {}, 0, h0, 1, 9, 5, by decide +kernel⟩,
   ⟨runs (.lend 0 h0 1 0) {}, 0, h0, 1, 0, by decide +kernel⟩,
   ⟨runs (.tickwait 0 h0) {}, 0, h0, by decide +kernel⟩,
   ⟨runs (.nop 0 h0) { waiting := true }, 0, by decide +kernel⟩,
   ⟨runs (.cmp 0 h0 1 5 2 true 0 9) {}, 0, h0, 1, 5, 2, true, 0, 9, 0, 9, by decide +kernel⟩,
   ⟨runs (.plog 0 h0 1 3 2 4) {}, 0, h0, 1, 3, 2, 4, by decide +kernel⟩,
   ⟨runs (.rdt 0 h0 1 5) {}, 0, h0, 1, 5, by decide +kernel⟩⟩

theorem witness_GuardsAndIssue :
  (∃ (s : State), ∃ (p : Nat), ∃ (i : Instr), p < 128 ∧ s.canIssue p i = true ∧
    (s.thread p).guard (guandHead i) = false) ∧
  (∃ (s : State), ∃ (p : Nat), ∃ (i : Instr), ∃ (w x : Word), p < 128 ∧ guandDecode p w x = some i ∧
    s.canIssue p i = false) :=
  ⟨⟨runs (.nop 0 ⟨0, 0, true⟩) {}, 0, .nop 0 ⟨0, 0, true⟩, by decide +kernel⟩,
   ⟨live, 0, .nop 0 h0, 0x0100000000000000, 0, by decide +kernel⟩⟩

theorem witness_DepotInstructionsIssue :
  (∃ (s : State), ∃ (p a : Nat), ∃ (h : GHead), ∃ (rd ra : BitVec 5), ∃ (sz : BitVec 2), ∃ (sx : Bool),
    ∃ (off : BitVec 25), s.issues p (.ld p h rd ra sz sx off) ∧ (s.thread p).fenced = false ∧
    s.depot.draining = false ∧ s.ptrAddr p (s.sreg p ra) off.toInt (2 ^ sz.toNat) = some a ∧
    (s.thread p).atomicOver a (2 ^ sz.toNat) = false ∧ s.depot.bad = [] ∧ s.depot.soft = [] ∧ (s.thread p).recs = [] ∧
    (s.thread p).wb = []) ∧
  (∃ (s : State), ∃ (p : Nat), ∃ (h : GHead), ∃ (rs ra : BitVec 5), ∃ (sz : BitVec 2), ∃ (off : BitVec 25),
    s.issues p (.st p h rs ra sz off) ∧ (s.thread p).fenced = false) ∧
  (∃ (s : State), ∃ (p : Nat), ∃ (h : GHead), s.issues p (.fenceDepot p h)) ∧
  (∃ (s : State), ∃ (p : Nat), ∃ (h : GHead), s.issues p (.fenceTick p h)) ∧
  (∃ (s : State), ∃ (p : Nat), ∃ (r : Rec), ∃ (l : List Rec), p < 128 ∧ (s.thread p).recs = r :: l ∧
    r.op = .fence false [] ∧ (s.thread p).wb = []) ∧
  (∃ (s : State), ∃ (p : Nat), ∃ (r : Rec), ∃ (l : List Rec), p < 128 ∧ (s.thread p).recs = r :: l ∧
    r.op = .fence false [] ∧ (s.thread p).wb ≠ []) ∧
  (∃ (s : State), ∃ (p : Nat), ∃ (i : Instr), ∃ (x : Rec), ∃ (h : GHead), ∃ (rd ra rb re : BitVec 5),
    ∃ (sz : BitVec 2), ∃ (sx : Bool), ∃ (o25 : BitVec 25), ∃ (o23 : BitVec 23), ∃ (o18 : BitVec 18),
    ∃ (eng fmt : BitVec 5), ∃ (t : BitVec 6), ∃ (rows : BitVec 8), ∃ (tw : BitVec 2), ∃ (tr tc : BitVec 4),
    s.issues p i ∧ x ∈ (s.thread p).recs ∧ x.op = .fence false [] ∧
    ((i = .ld p h rd ra sz sx o25 ∨ i = .st p h rd ra sz o25 ∨ i = .aadd p h rd ra rb o23 ∨ i = .aswp p h rd ra rb o23
    ∨ i = .acas p h rd ra rb re o18 ∨ i = .acas2 p h rd ra rb re o18 ∨ i = .tld p h eng t fmt true ra rows tr tc ∨ i =
    .tst p h eng t ra rows tw tr tc))) :=
  ⟨⟨runs (.ld 0 h0 1 2 3 true 8) {}, 0, 0x40000008, h0, 1, 2, 3, true, 8, by decide +kernel⟩,
   ⟨runs (.st 0 h0 1 2 3 8) {}, 0, h0, 1, 2, 3, 8, by decide +kernel⟩,
   ⟨runs (.fenceDepot 0 h0) {}, 0, h0, by decide +kernel⟩,
   ⟨runs (.fenceTick 0 h0) {}, 0, h0, by decide +kernel⟩,
   ⟨holds (rec (.fence false [])) {}, 0, rec (.fence false []), [], by decide +kernel⟩,
   ⟨holds (rec (.fence false [])) { wb := [{ id := 1, pc := 0, addr := 0x40000000, op := .bytes [1] }] }, 0,
     rec (.fence false []), [], by decide +kernel⟩,
   ⟨runs (.st 0 h0 1 2 3 8) { recs := [rec (.fence false [])] }, 0, .st 0 h0 1 2 3 8, rec (.fence false []), h0, 1, 2,
     0, 0, 3, true, 8, 0, 0, 0, 0, 0, 0, 0, 0, 0, by and_intros <;> first | exact Or.inr (Or.inl rfl) | decide +kernel⟩⟩

theorem witness_AtomicsAreRoundedDown :
  (∃ (s : State), ∃ (p c g o : Nat), ∃ (h : GHead), ∃ (rd ra rb : BitVec 5), ∃ (off : BitVec 23),
    s.issues p (.aadd p h rd ra rb off) ∧ (s.thread p).fenced = false ∧ ptrPlus (s.sreg p ra) off.toInt = some (c, g,
    o)) ∧
  (∃ (s : State), ∃ (p c g o : Nat), ∃ (h : GHead), ∃ (rd ra rb : BitVec 5), ∃ (off : BitVec 23),
    s.issues p (.aswp p h rd ra rb off) ∧ (s.thread p).fenced = false ∧ ptrPlus (s.sreg p ra) off.toInt = some (c, g,
    o)) ∧
  (∃ (s : State), ∃ (p c g o : Nat), ∃ (h : GHead), ∃ (rd ra rb re : BitVec 5), ∃ (off : BitVec 18),
    s.issues p (.acas p h rd ra rb re off) ∧ (s.thread p).fenced = false ∧ ptrPlus (s.sreg p ra) off.toInt = some (c,
    g, o)) ∧
  (∃ (s : State), ∃ (p c g o : Nat), ∃ (h : GHead), ∃ (rd ra rb re : BitVec 5), ∃ (off : BitVec 18),
    s.issues p (.acas2 p h rd ra rb re off) ∧ (s.thread p).fenced = false ∧ ptrPlus (s.sreg p ra) off.toInt = some (c,
    g, o)) ∧
  (∃ (s : State), ∃ (p a n rd : Nat), ∃ (mis : Bool), ∃ (op : StoreOp), ∃ (r : Rec), ∃ (l : List Rec), p < 128 ∧
    (s.thread p).recs = r :: l ∧ r.op = .atomic (some a) n mis op rd ∧ (s.thread p).wb.length < 16) :=
  ⟨⟨runs (.aadd 0 h0 1 2 3 8) {}, 0, 0, 0, 8, h0, 1, 2, 3, 8, by decide +kernel⟩,
   ⟨runs (.aswp 0 h0 1 2 3 8) {}, 0, 0, 0, 8, h0, 1, 2, 3, 8, by decide +kernel⟩,
   ⟨runs (.acas 0 h0 1 2 3 5 8) {}, 0, 0, 0, 8, h0, 1, 2, 3, 5, 8, by decide +kernel⟩,
   ⟨runs (.acas2 0 h0 1 2 3 5 8) {}, 0, 0, 0, 8, h0, 1, 2, 3, 5, 8, by decide +kernel⟩,
   ⟨holds (rec (.atomic (some 0x40000000) 8 true (.aadd 5) 1)) {}, 0, 0x40000000, 8, 1, true, .aadd 5,
     rec (.atomic (some 0x40000000) 8 true (.aadd 5) 1), [], by decide +kernel⟩⟩

theorem witness_LinkAndCombineIssue :
  (∃ (s : State), ∃ (p : Nat), ∃ (h : GHead), ∃ (hd : BitVec 4), ∃ (grant : BitVec 12), ∃ (cr : BitVec 5),
    ∃ (dl : BitVec 14), ∃ (v : Variant), ∃ (g : Grant), s.issues p (.recv p h hd grant cr dl) ∧
    s.variantOf p = some v ∧ v.grants[grant.toNat]? = some g) ∧
  (∃ (s : State), ∃ (p : Nat), ∃ (h : GHead), ∃ (port : BitVec 6), ∃ (slot : BitVec 14), ∃ (nf : BitVec 8),
    ∃ (srck : Bool), ∃ (t : BitVec 6), ∃ (rr cr fr dr : BitVec 5), ∃ (slen : BitVec 13), ∃ (ff lf : Bool),
    ∃ (eng : BitVec 5), s.issues p (.send p h port slot nf srck t rr cr fr dr slen ff lf eng)) ∧
  (∃ (s : State), ∃ (p : Nat), ∃ (h : GHead), ∃ (pr : BitVec 3), ∃ (hmask : BitVec 16), ∃ (hf : Bool),
    ∃ (heng : BitVec 5), ∃ (hw : BitVec 3), ∃ (hole : BitVec 16), ∃ (nfr : BitVec 14),
    s.issues p (.expect p h pr hmask hf heng hw hole nfr) ∧ (s.thread p).ckpts.length < 4) ∧
  (∃ (s : State), ∃ (p : Nat), ∃ (h : GHead), ∃ (eng : BitVec 5), ∃ (w : BitVec 3), ∃ (base : BitVec 7),
    ∃ (rows : BitVec 8), ∃ (form : BitVec 2), ∃ (oper : BitVec 4), ∃ (sgn : Bool), ∃ (fm : Form), ∃ (o : Oper),
    s.issues p (.lclr p h eng w base rows form oper sgn) ∧ formOf form.toNat = some fm ∧ operOf oper.toNat = some o) ∧
  (∃ (s : State), ∃ (p : Nat), ∃ (h : GHead), ∃ (eng : BitVec 5), ∃ (t : BitVec 6), ∃ (fmt : BitVec 5),
    ∃ (ra : BitVec 5), ∃ (rows : BitVec 8), ∃ (tr tc : BitVec 4), s.issues p (.tld p h eng t fmt true ra rows tr tc) ∧
    (s.thread p).fenced = false) ∧
  (∃ (s : State), ∃ (p : Nat), ∃ (h : GHead), ∃ (eng : BitVec 5), ∃ (t : BitVec 6), ∃ (fmt : BitVec 5),
    ∃ (ra : BitVec 5), ∃ (rows : BitVec 8), ∃ (tr tc : BitVec 4), ∃ (hd fr : Nat), ∃ (x : Handle),
    s.issues p (.tld p h eng t fmt false ra rows tr tc) ∧ hd = (s.sreg p ra).toNat / 2 ^ 16 % 16 ∧
    fr = (s.sreg p ra).toNat % 2 ^ 14 ∧ (s.thread p).handles.get? hd = some x ∧ x.claims.contains fr = false) ∧
  (∃ (s : State), ∃ (p : Nat), ∃ (h : GHead), ∃ (eng : BitVec 5), ∃ (t : BitVec 6), ∃ (w : BitVec 3),
    ∃ (k : BitVec 4), ∃ (lane : BitVec 10), s.issues p (.tacc p h eng t w k lane)) ∧
  (∃ (s : State), ∃ (p : Nat), ∃ (h : GHead), ∃ (eng : BitVec 5), ∃ (w : BitVec 3), ∃ (t : BitVec 6),
    ∃ (fmt : BitVec 5), ∃ (rm : BitVec 3), ∃ (clamp : Bool), ∃ (kr cr er : BitVec 5), ∃ (n : BitVec 16),
    ∃ (lane : BitVec 10), ∃ (e0i : BitVec 22), s.issues p (.emit p h eng w t fmt rm clamp kr cr er n lane e0i)) ∧
  (∃ (s : State), ∃ (p : Nat), ∃ (h : GHead), ∃ (eng : BitVec 5), ∃ (t : BitVec 6), ∃ (ra : BitVec 5),
    ∃ (rows : BitVec 8), ∃ (tw : BitVec 2), ∃ (tr tc : BitVec 4), s.issues p (.tst p h eng t ra rows tw tr tc) ∧
    (s.thread p).fenced = false) ∧
  (∃ (s : State), ∃ (p : Nat), ∃ (h : GHead), ∃ (rq ra : BitVec 5), ∃ (fl : Bool), ∃ (eng : BitVec 5),
    ∃ (w : BitVec 3), ∃ (irq : Bool), s.issues p (.post p h rq ra fl eng w irq)) :=
  ⟨⟨runs (.recv 0 h0 2 0 1 9) {}, 0, h0, 2, 0, 1, 9, variant0, ⟨3, false, 1, 4⟩, by decide +kernel⟩,
   ⟨runs (.send 0 h0 3 1 1 false 0 1 2 3 4 0 false true 0) {}, 0, h0, 3, 1, 1, false, 0, 1, 2, 3, 4, 0, false, true,
     0, by decide +kernel⟩,
   ⟨runs (.expect 0 h0 1 1 false 0 0 0 1) { ckpts := [⟨0, [], 1, 0⟩, ⟨1, [], 1, 0⟩, ⟨2, [], 1, 0⟩] }, 0, h0, 1, 1,
     false, 0, 0, 0, 1, by decide +kernel⟩,
   ⟨runs (.lclr 0 h0 0 0 0 1 1 0 false) {}, 0, h0, 0, 0, 0, 1, 1, 0, false, .t32, .sum, by decide +kernel⟩,
   ⟨runs (.tld 0 h0 0 1 0 true 2 3 0 0) {}, 0, h0, 0, 1, 0, 2, 3, 0, 0, by decide +kernel⟩,
   ⟨runs (.tld 0 h0 0 1 0 false 2 3 0 0) { handles := [(0, bound)] }, 0, h0, 0, 1, 0, 2, 3, 0, 0, 0, 0, bound,
     by decide +kernel⟩,
   ⟨runs (.tacc 0 h0 0 1 2 8 1) {}, 0, h0, 0, 1, 2, 8, 1, by decide +kernel⟩,
   ⟨runs (.emit 0 h0 0 1 2 3 0 true 1 2 3 96 5 9) {}, 0, h0, 0, 1, 2, 3, 0, true, 1, 2, 3, 96, 5, 9, by decide +kernel⟩,
   ⟨runs (.tst 0 h0 0 1 2 3 1 0 0) {}, 0, h0, 0, 1, 2, 3, 1, 0, 0, by decide +kernel⟩,
   ⟨runs (.post 0 h0 1 2 true 0 1 true) {}, 0, h0, 1, 2, true, 0, 1, true, by decide +kernel⟩⟩

theorem witness_RecordsComplete :
  (∃ (s : State), ∃ (p id : Nat), ∃ (r : Rec), ∃ (rd n : Nat), ∃ (addr : Option Nat), ∃ (sx : Bool), ∃ (v : Word),
    p < 128 ∧ (s.thread p).recs.find? (fun r => r.id = id && !r.done) = some r ∧ r.op = .ld rd addr n sx (some (v, 0))) ∧
  (∃ (s : State), ∃ (p : Nat), ∃ (r : Rec), ∃ (l : List Rec), ∃ (rd n : Nat), ∃ (addr : Option Nat), ∃ (sx : Bool),
    ∃ (v : Word), p < 128 ∧ (s.thread p).recs = r :: l ∧ r.op = .ld rd addr n sx (some (v, 0)) ∧ r.done = true) ∧
  (∃ (s : State), ∃ (p a : Nat), ∃ (r : Rec), ∃ (l : List Rec), ∃ (d : List Byte), p < 128 ∧
    (s.thread p).recs = r :: l ∧ r.op = .store (some a) d ∧ (s.thread p).wb.length < 16) ∧
  (∃ (s : State), ∃ (p : Nat), ∃ (r : Rec), ∃ (l : List Rec), ∃ (d : List Byte), p < 128 ∧
    (s.thread p).recs = r :: l ∧ r.op = .store none d ∧ (s.thread p).st = .running ∧ (s.thread p).fCode = 0) ∧
  (∃ (s : State), ∃ (p : Nat), ∃ (r : Rec), ∃ (l : List Rec), ∃ (pr hmask nfr heng hw hole dl : Nat), ∃ (c : Ckpt),
    p < 128 ∧ (s.thread p).recs = r :: l ∧ r.op = .expect pr hmask nfr false heng hw hole dl (some false) ∧
    (s.thread p).ckpts.find? (fun x => x.id = r.id) = some c) ∧
  (∃ (s : State), ∃ (p : Nat), ∃ (r : Rec), ∃ (l : List Rec), ∃ (pr hmask nfr heng hw hole dl : Nat), ∃ (hf : Bool),
    p < 128 ∧ (s.thread p).recs = r :: l ∧ r.op = .expect pr hmask nfr hf heng hw hole dl none ∧ s.slotEnded dl = true) :=
  ⟨⟨holds loaded {}, 0, 4, loaded, 1, 8, some 0x40000000, false, 5, by decide +kernel⟩,
   ⟨holds { loaded with done := true } {}, 0, { loaded with done := true }, [], 1, 8, some 0x40000000, false, 5,
     by decide +kernel⟩,
   ⟨holds (rec (.store (some 0x40000000) [1])) {}, 0, 0x40000000, rec (.store (some 0x40000000) [1]), [], [1],
     by decide +kernel⟩,
   ⟨holds (rec (.store none [1])) {}, 0, rec (.store none [1]), [], [1], by decide +kernel⟩,
   ⟨holds (rec (.expect 1 1 0 false 0 0 0 5 (some false))) { ckpts := [⟨4, [], 1, 0⟩] }, 0,
     rec (.expect 1 1 0 false 0 0 0 5 (some false)), [], 1, 1, 0, 0, 0, 0, 5, ⟨4, [], 1, 0⟩, by decide +kernel⟩,
   ⟨holds (rec (.expect 1 1 0 false 0 0 0 0 none)) {}, 0, rec (.expect 1 1 0 false 0 0 0 0 none), [], 1, 1, 0, 0, 0,
     0, 0, false, by decide +kernel⟩⟩

theorem witness_WriteBuffersPerform :
  (∃ (s : State), ∃ (p : Nat), ∃ (e : WbEntry), ∃ (rest : List WbEntry), ∃ (d : List Byte), p < 128 ∧
    (s.thread p).wb = e :: rest ∧ ((e.op = .bytes d ∨ e.op = .stream d)) ∧ s.drainHolds e = false ∧ s.depot.bad = [] ∧
    s.memOk) ∧
  (∃ (s : State), ∃ (p rd : Nat), ∃ (e : WbEntry), ∃ (rest : List WbEntry), ∃ (v : Word), p < 128 ∧
    (s.thread p).wb = e :: rest ∧ e.op = .aadd v ∧ e.rd = some rd ∧ s.drainHolds e = false ∧ s.depot.bad = [] ∧ s.memOk) ∧
  (∃ (s : State), ∃ (p rd : Nat), ∃ (e : WbEntry), ∃ (rest : List WbEntry), ∃ (c n : Word), p < 128 ∧
    (s.thread p).wb = e :: rest ∧ e.op = .acas c n ∧ e.rd = some rd ∧ s.drainHolds e = false ∧ s.depot.bad = [] ∧
    s.memOk) ∧
  (∃ (s : State), s.depot.draining = true ∧ (∀ x ∈ s.threads, ∀ e ∈ x.2.wb, e.drain = false) ∧ (∀ x ∈ s.mule.wbs,
    ∀ e ∈ x.2, e.drain = false)) :=
  ⟨⟨runs (.nop 0 h0) { wb := [⟨0, 0, 0x40000000, .bytes [1], none, false⟩] }, 0, ⟨0, 0, 0x40000000, .bytes [1], none,
    false⟩, [], [1], by decide +kernel⟩,
   ⟨runs (.nop 0 h0) { wb := [⟨0, 0, 0x40000000, .aadd 5, some 1, false⟩] }, 0, 1, ⟨0, 0, 0x40000000, .aadd 5, some 1,
     false⟩, [], 5, by decide +kernel⟩,
   ⟨runs (.nop 0 h0) { wb := [⟨0, 0, 0x40000000, .acas 0 5, some 1, false⟩] }, 0, 1, ⟨0, 0, 0x40000000, .acas 0 5,
     some 1, false⟩, [], 0, 5, by decide +kernel⟩,
   ⟨{ live with depot := { live.depot with draining := true } }, by decide +kernel⟩⟩

theorem witness_MuleCoresAndScrub :
  (∃ (s : State), ∃ (core a n : Nat), core < 8 ∧ s.alive = true ∧ s.fw.muleUp = true ∧
    s.muleReaches a n false = true ∧ s.depot.draining = false ∧ s.wbOf (.mule core) = [] ∧ s.depot.bad = [] ∧
    s.depot.soft = []) ∧
  (∃ (s : State), ∃ (core a : Nat), ∃ (d : List Byte), core < 8 ∧ s.alive = true ∧ s.fw.muleUp = true ∧
    s.muleReaches a d.length true = true ∧ (s.wbOf (.mule core)).length < 32) ∧
  (∃ (s : State), ∃ (core a : Nat), ∃ (d : List Byte), core < 8 ∧ s.alive = true ∧ s.fw.muleUp = true ∧
    s.muleReaches a d.length true = false) ∧
  (∃ (s : State), ∃ (core a n : Nat), core < 8 ∧ s.alive = true ∧ s.fw.muleUp = true ∧ s.muleReaches a n false = false) ∧
  (∃ (s : State), ∃ (core a n : Nat), ∃ (x : MuleAccess), ∃ (op : StoreOp), ∃ (v c w cl ch nl nh : Word), core < 8 ∧
    s.alive = true ∧ s.fw.muleUp = true ∧ ((x = .atomicAdd a v ∧ n = 8 ∧ op = .aadd v ∨ x = .atomicSwap a v ∧ n = 8 ∧
    op = .aswp v ∨ x = .atomicCas a c w ∧ n = 8 ∧ op = .acas c w ∨ x = .atomicCas2 a cl ch nl nh ∧ n = 16 ∧
    op = .acas2 cl ch nl nh)) ∧ s.muleReaches (a / n * n) n true = true ∧ (s.wbOf (.mule core)).length < 32) ∧
  (∃ (s : State), ∃ (t0 : Nat), s.alive = true ∧ s.power.scrubFrom = some t0 ∧ t0 + 86400000000000 ≤ s.time) :=
  ⟨⟨live, 7, 0x20000000, 8, by decide +kernel⟩,
   ⟨live, 7, 0x20000000, [1], by decide +kernel⟩,
   ⟨live, 0, 0, [1], by decide +kernel⟩,
   ⟨live, 0, 0, 8, by decide +kernel⟩,
   ⟨live, 7, 0x20000005, 8, .atomicAdd 0x20000005 1, .aadd 1, 1, 0, 0, 0, 0, 0, 0,
     by and_intros <;> first | exact Or.inl ⟨rfl, rfl, rfl⟩ | decide +kernel | rfl⟩,
   ⟨{ live with power := { coldReset := false, scrubFrom := some 0 }, time := 86400000000000 }, 0, by decide +kernel⟩⟩

theorem witness_OxOperationsAct :
  (∃ (s : State), ∃ (p id : Nat), ∃ (r : Rec), ∃ (e w base rows : Nat), ∃ (fm : Form), ∃ (o : Oper), ∃ (sgn : Bool),
    p < 128 ∧ (s.thread p).recs = [r] ∧ r.id = id ∧ r.begun = false ∧ r.held = false ∧
    r.op = .lclr e w base rows fm o sgn ∧ s.shadowsUsed p e ≤ 8 ∧ s.sparesUsed p e ≤ 64) ∧
  (∃ (s : State), ∃ (p : Nat), ∃ (r : Rec), ∃ (l : List Rec), ∃ (e w base rows : Nat), ∃ (fm : Form), ∃ (o : Oper),
    ∃ (sgn : Bool), ∃ (v : Window), p < 128 ∧ (s.thread p).recs = r :: l ∧ r.op = .lclr e w base rows fm o sgn ∧
    r.begun = true ∧ r.res = { window := some (w, v), clear := true }) ∧
  (∃ (s : State), ∃ (e k : Nat), e < 32 ∧ k < 64 ∧ (s.engine e).copyBacks.find? (fun x => x % 32 = k % 32) = some k) ∧
  (∃ (s : State), ∃ (e k : Nat), e < 32 ∧ k < 64 ∧ (s.engine e).copyBacks.find? (fun x => x % 32 = k % 32) ≠ some k) ∧
  (∃ (s : State), ∃ (p id port slot tt rank frame slen eng n : Nat), ∃ (chunk dst : BitVec 32), ∃ (addr : Option Nat),
    ∃ (ff lf fb : Bool), ∃ (j : SendJob), ∃ (l : List SendJob), ∃ (x : Tile), ∃ (b : Buffer), ∃ (h : Header),
    p < 128 ∧ port < 49 ∧ (s.thread p).sends = j :: l ∧ j.id = id ∧
    j.op = .send port slot 1 false tt rank chunk frame addr slen ff lf eng ∧ s.rankAddr p rank = some dst ∧
    (s.engine eng).eccBad = [] ∧ (s.engine eng).eccOne = [] ∧ (s.engine eng).tile tt = x ∧ x.kind = .packed ∧
    0 < x.count * fmtSize x.src ∧ x.count * fmtSize x.src ≤ 4096 ∧
    h = s.sHeader p port slot dst (x.count * fmtSize x.src) ff (lf || decide (x.count * fmtSize x.src < 4096)) false
    j.tick chunk frame ∧ s.henChoose (homeDie port) h false false = .got b fb ∧ s.nextDesc (homeDie port) = some n ∧
    s.mayUse h port = true ∧ (s.port port).quarantined = false ∧ (s.port port).down = false ∧
    (s.port port).delayOver = false ∧
    (s.port port).sOutHeld + frameUnits (x.count * fmtSize x.src) ≤ (s.port port).sOut) :=
  ⟨⟨holds (rec (.lclr 0 0 0 1 .t32 .sum false)) {}, 0, 4, rec (.lclr 0 0 0 1 .t32 .sum false), 0, 0, 0, 1, .t32, .sum,
    false, by decide +kernel⟩,
   ⟨holds cleared {}, 0, cleared, [], 0, 0, 0, 1, .t32, .sum, false, {}, by decide +kernel⟩,
   ⟨{ live with engines := [(31, { copyBacks := [63] })] }, 31, 63, by decide +kernel⟩,
   ⟨live, 31, 63, by decide +kernel⟩,
   ⟨tileSent, 0, 4, 3, 1, 0, 1, 0, 0, 0, 0, 0, 0x03000000, none, false, false, false, job, [],
     { kind := .packed, count := 1024 }, .pool 2 0, tileSent.sHeader 0 3 1 0x03000000 4096 false false false 0 0 0,
     by decide +kernel⟩⟩

theorem witness_PartitionAndContextCommands :
  (∃ (s : State), ∃ (path : Path), ∃ (p : Nat), p < 128 ∧ s.reachesPart path p = true ∧ (s.thread p).cmd ≠ some .flr ∧
    (s.thread p).st = .halted) ∧
  (∃ (s : State), ∃ (path : Path), ∃ (p : Nat), p < 128 ∧ s.reachesPart path p = true ∧ (s.thread p).cmd ≠ some .flr ∧
    (s.thread p).st = .running) ∧
  (∃ (s : State), ∃ (path : Path), ∃ (p : Nat), p < 128 ∧ s.reachesPart path p = true ∧ (s.thread p).cmd ≠ some .flr ∧
    (s.thread p).st = .stopped) ∧
  (∃ (s : State), ∃ (path : Path), ∃ (p : Nat), p < 128 ∧ s.reachesPart path p = true ∧ (s.thread p).cmd ≠ some .flr ∧
    (s.thread p).st ≠ .halted) ∧
  (∃ (s : State), ∃ (path : Path), ∃ (p : Nat), p < 128 ∧ s.reachesPart path p = true ∧ (s.thread p).cmd ≠ some .flr ∧
    (s.thread p).st ≠ .running) ∧
  (∃ (s : State), ∃ (path : Path), ∃ (p : Nat), p < 128 ∧ s.reachesPart path p = true ∧ (s.thread p).cmd ≠ some .flr ∧
    (s.thread p).st ≠ .stopped) ∧
  (∃ (s : State), ∃ (path : Path), ∃ (c : Nat), ∃ (x : Ctx), c < 1024 ∧ s.ctx? c = some x ∧
    s.reachesCtx path c = true ∧ x.faultAt ≠ some s.time) ∧
  (∃ (s : State), ∃ (path : Path), ∃ (c : Nat), ∃ (x : Ctx), c < 1024 ∧ s.ctx? c = some x ∧
    s.reachesCtx path c = true ∧ x.faultAt = some s.time) ∧
  (∃ (s : State), ∃ (path : Path), ∃ (c : Nat), ∃ (x : Ctx), ∃ (v : BitVec 32), c < 1024 ∧ s.ctx? c = some x ∧
    s.reachesCtx path c = true ∧ ((v.toNat % 32 = 31 ∨ (s.cqAt c (v.toNat % 32)).isSome = true))) ∧
  (∃ (s : State), ∃ (c : Nat), ∃ (x : Ctx), ∃ (v : BitVec 32), c < 1024 ∧ s.ctx? c = some x ∧ v.toNat % 32 ≠ 31 ∧
    s.cqAt c (v.toNat % 32) = none) :=
  ⟨⟨{ live with threads := [(0, { st := .halted })] }, .pf, 0, by decide +kernel⟩,
   ⟨{ live with threads := [(0, { st := .running })] }, .pf, 0, by decide +kernel⟩,
   ⟨{ live with threads := [(0, { st := .stopped })] }, .pf, 0, by decide +kernel⟩,
   ⟨live, .pf, 0, by decide +kernel⟩,
   ⟨live, .pf, 0, by decide +kernel⟩,
   ⟨live, .pf, 0, by decide +kernel⟩,
   ⟨runs (.nop 0 h0) {}, .pf, 0, ctx0, by decide +kernel⟩,
   ⟨{ runs (.nop 0 h0) {} with ctxs := [(0, { ctx0 with fault := 5, faultAt := some 0 })] }, .pf, 0,
     { ctx0 with fault := 5, faultAt := some 0 }, by decide +kernel⟩,
   ⟨queued 1 q1, .pf, 0, ctx0, 0, by decide +kernel⟩,
   ⟨queued 1 q1, 0, ctx0, 5, by decide +kernel⟩⟩

theorem witness_QueuesComeAndGo :
  (∃ (s : State), ∃ (path : Path), ∃ (c k qid : Nat), ∃ (cfg : Word), ∃ (x : Ctx), c < 1024 ∧ k < 16 ∧
    s.reachesCtx path c = true ∧ s.ctx? c = some x ∧ bitsOf cfg.toNat 19 4 ≠ 0 ∧ (s.qslot c k).enabled = false ∧
    ((s.qslot c k).withCfg cfg).inRange = true ∧
    (((s.qslot c k).withCfg cfg).kind = 3 ∨ (s.cqAt c ((s.qslot c k).withCfg cfg).cq).isSome = true) ∧
    s.freeQid x.part = some qid) ∧
  (∃ (s : State), ∃ (path : Path), ∃ (c k : Nat), ∃ (cfg : Word), c < 1024 ∧ k < 16 ∧ s.reachesCtx path c = true ∧
    bitsOf cfg.toNat 19 4 ≠ 0 ∧ (s.qslot c k).enabled = true) ∧
  (∃ (s : State), ∃ (path : Path), ∃ (c k : Nat), c < 1024 ∧ k < 16 ∧ s.reachesCtx path c = true ∧
    (s.qslot c k).enabled = true ∧ ((s.qslot c k).kind = 2 ∨ ((s.qslot c k).kind = 3 ∧ s.cqNamed c k = false))) ∧
  (∃ (s : State), ∃ (path : Path), ∃ (c k : Nat), ∃ (q : Queue), c < 1024 ∧ k < 16 ∧ s.reachesCtx path c = true ∧
    (s.qslot c k).enabled = true ∧ (s.qslot c k).kind = 1 ∧ s.queue? (s.qslot c k).qid = some q ∧ q.started ≠ []) :=
  ⟨⟨queued 1 q1, .pf, 0, 2, 2, 131, ctx0, by decide +kernel⟩,
   ⟨queued 1 q1, .pf, 0, 0, 131, by decide +kernel⟩,
   ⟨queued 2 q1, .pf, 0, 1, by decide +kernel⟩,
   ⟨queued 1 { q1 with started := [begun] }, .pf, 0, 1, { ctx := 0, slot := 1, kind := 1, started := [begun] },
     by decide +kernel⟩⟩

theorem witness_DoorbellsMoveIndices :
  (∃ (s : State), ∃ (vf page : Nat), ∃ (v : BitVec 32), ∃ q, 1 ≤ vf ∧ vf < 129 ∧ page < 32 ∧
    s.pathOpen (.vf vf) = true ∧ s.queue? (32 * (vf - 1) + page) = some q ∧ v.toNat < 2 ^ 17 ∧ q.kind = 1 ∧
    (v.setWidth 16 - q.ci).toNat ≤ (s.slotOf q).size) ∧
  (∃ (s : State), ∃ (vf page : Nat), ∃ (v : BitVec 32), ∃ q, 1 ≤ vf ∧ vf < 129 ∧ page < 32 ∧
    s.pathOpen (.vf vf) = true ∧ s.queue? (32 * (vf - 1) + page) = some q ∧ v.toNat < 2 ^ 17 ∧ q.kind = 2 ∧
    (v.setWidth 16 - q.ci).toNat ≤ (s.slotOf q).size) ∧
  (∃ (s : State), ∃ (vf page : Nat), ∃ (v : BitVec 32), ∃ q, 1 ≤ vf ∧ vf < 129 ∧ page < 32 ∧
    s.pathOpen (.vf vf) = true ∧ s.queue? (32 * (vf - 1) + page) = some q ∧ v.toNat < 2 ^ 16 ∧ q.kind = 3 ∧
    (q.pi - v.setWidth 16).toNat ≤ (s.slotOf q).size ∧ s.rqsOn q = []) ∧
  (∃ (s : State), ∃ (vf page : Nat), ∃ (v : BitVec 32), ∃ q, 1 ≤ vf ∧ vf < 129 ∧ page < 32 ∧
    s.pathOpen (.vf vf) = true ∧ s.queue? (32 * (vf - 1) + page) = some q ∧ v.toNat < 2 ^ 16 ∧ q.kind = 3 ∧
    (q.pi - v.setWidth 16).toNat ≤ (s.slotOf q).size ∧ s.rqsOn q = []) ∧
  (∃ (s : State), ∃ (vf page : Nat), 1 ≤ vf ∧ vf < 129 ∧ page < 32 ∧ s.pathOpen (.vf vf) = true ∧
    s.queue? (32 * (vf - 1) + page) = none) ∧
  (∃ (s : State), ∃ (vf page : Nat), ∃ (v : BitVec 32), ∃ q, 1 ≤ vf ∧ vf < 129 ∧ page < 32 ∧
    s.pathOpen (.vf vf) = true ∧ s.queue? (32 * (vf - 1) + page) = some q ∧ 2 ^ 17 ≤ v.toNat) ∧
  (∃ (s : State), ∃ (vf page : Nat), ∃ (v : BitVec 32), ∃ q, 1 ≤ vf ∧ vf < 129 ∧ page < 32 ∧
    s.pathOpen (.vf vf) = true ∧ s.queue? (32 * (vf - 1) + page) = some q ∧ v.toNat < 2 ^ 17 ∧ q.kind = 1 ∧
    (s.slotOf q).size < (v.setWidth 16 - q.ci).toNat) ∧
  (∃ (s : State), ∃ (vf page : Nat), ∃ (v : BitVec 32), ∃ q, 1 ≤ vf ∧ vf < 129 ∧ page < 32 ∧
    s.pathOpen (.vf vf) = true ∧ s.queue? (32 * (vf - 1) + page) = some q ∧ v.toNat < 2 ^ 17 ∧ q.kind = 2 ∧
    (s.slotOf q).size < (v.setWidth 16 - q.ci).toNat) ∧
  (∃ (s : State), ∃ (vf page : Nat), ∃ (v : BitVec 32), ∃ q, 1 ≤ vf ∧ vf < 129 ∧ page < 32 ∧
    s.pathOpen (.vf vf) = true ∧ s.queue? (32 * (vf - 1) + page) = some q ∧ v.toNat < 2 ^ 17 ∧ q.kind = 3 ∧
    (s.slotOf q).size < (q.pi - v.setWidth 16).toNat) ∧
  (∃ (s : State), ∃ (vf page : Nat), ∃ q, 1 ≤ vf ∧ vf < 129 ∧ page < 32 ∧ s.pathOpen (.vf vf) = true ∧
    s.queue? (32 * (vf - 1) + page) = some q ∧ q.kind = 1) ∧
  (∃ (s : State), ∃ (vf page : Nat), ∃ q, 1 ≤ vf ∧ vf < 129 ∧ page < 32 ∧ s.pathOpen (.vf vf) = true ∧
    s.queue? (32 * (vf - 1) + page) = some q ∧ q.kind = 2) ∧
  (∃ (s : State), ∃ (vf page : Nat), ∃ q, 1 ≤ vf ∧ vf < 129 ∧ page < 32 ∧ s.pathOpen (.vf vf) = true ∧
    s.queue? (32 * (vf - 1) + page) = some q ∧ q.kind = 3) ∧
  (∃ (s : State), ∃ (vf page : Nat), 1 ≤ vf ∧ vf < 129 ∧ page < 32 ∧ s.pathOpen (.vf vf) = true) :=
  ⟨⟨queued 1 q1, 1, 1, 8, { ctx := 0, slot := 1, kind := 1 }, by decide +kernel⟩,
   ⟨queued 2 q1, 1, 1, 8, { ctx := 0, slot := 1, kind := 2 }, by decide +kernel⟩,
   ⟨queued 1 q1, 1, 0, 0, { ctx := 0, slot := 0, kind := 3 }, by decide +kernel⟩,
   ⟨queued 1 q1, 1, 0, 0, { ctx := 0, slot := 0, kind := 3 }, by decide +kernel⟩,
   ⟨queued 1 q1, 128, 31, by decide +kernel⟩,
   ⟨queued 1 q1, 1, 1, 131072, { ctx := 0, slot := 1, kind := 1 }, by decide +kernel⟩,
   ⟨queued 1 q1, 1, 1, 9, { ctx := 0, slot := 1, kind := 1 }, by decide +kernel⟩,
   ⟨queued 2 q1, 1, 1, 9, { ctx := 0, slot := 1, kind := 2 }, by decide +kernel⟩,
   ⟨queued 1 q1, 1, 0, 65527, { ctx := 0, slot := 0, kind := 3 }, by decide +kernel⟩,
   ⟨queued 1 q1, 1, 1, { ctx := 0, slot := 1, kind := 1 }, by decide +kernel⟩,
   ⟨queued 2 q1, 1, 1, { ctx := 0, slot := 1, kind := 2 }, by decide +kernel⟩,
   ⟨queued 1 q1, 1, 0, { ctx := 0, slot := 0, kind := 3 }, by decide +kernel⟩,
   ⟨queued 1 q1, 128, 31, by decide +kernel⟩⟩

theorem witness_SendEntriesStart :
  (∃ (s : State), ∃ (qid : Nat), ∃ (q : Queue), ∃ (e : List Byte), ∃ (c : Ctx), ∃ (dst : BitVec 32), qid < 4096 ∧
    s.queue? qid = some q ∧ s.sqReady q e = true ∧ entryOk e = true ∧ natAt e 0 1 = 1 ∧ natAt e 16 4 ≠ 0 ∧
    s.ctx? q.ctx = some c ∧ s.rankAddr c.part (natAt e 8 4) = some dst) ∧
  (∃ (s : State), ∃ (qid : Nat), ∃ (q : Queue), ∃ (e : List Byte), ∃ (dst : BitVec 32), ∃ (t0 : TxStream),
    qid < 4096 ∧ s.queue? qid = some q ∧ s.sqReady q e = true ∧ entryOk e = true ∧ natAt e 0 1 = 2 ∧
    s.rankAddr (s.ctxPart q.ctx) (natAt e 8 4) = some dst ∧
    assoc? s.txs { localPort := 0x40, far := dst, ctx := q.ctx } = some t0) ∧
  (∃ (s : State), ∃ (qid a : Nat), ∃ (q : Queue), ∃ (e data : List Byte), qid < 4096 ∧ s.queue? qid = some q ∧
    s.sqReady q e = true ∧ entryOk e = true ∧ natAt e 0 1 = 3 ∧ natAt e 8 4 = 0 ∧ data.length = natAt e 16 4 ∧
    data ≠ [] ∧ s.depot.draining = false ∧ s.dmaRange (s.ctxPart q.ctx) e (natAt e 16 4) = some a ∧ s.depot.bad = [] ∧
    s.memOk) ∧
  (∃ (s : State), ∃ (qid a : Nat), ∃ (q : Queue), ∃ (e : List Byte), qid < 4096 ∧ s.queue? qid = some q ∧
    s.sqReady q e = true ∧ entryOk e = true ∧ natAt e 0 1 = 3 ∧ natAt e 8 4 = 1 ∧ natAt e 16 4 ≠ 0 ∧
    s.depot.draining = false ∧ s.dmaRange (s.ctxPart q.ctx) e (natAt e 16 4) = some a ∧ s.depot.bad = []) ∧
  (∃ (s : State), ∃ (qid base a : Nat), ∃ (q : Queue), ∃ (e : List Byte), qid < 4096 ∧ s.queue? qid = some q ∧
    s.sqReady q e = true ∧ entryOk e = true ∧ natAt e 0 1 = 4 ∧ s.depot.draining = false ∧ s.depot.bad = [] ∧
    s.memOk ∧ s.collTable (s.ctxPart q.ctx) = some base ∧ a = base + natAt e 8 1 % 16 * 64 ∧
    startStatus (bytesAt e 12 44) (natAt (memRead s.depot.mem a 48) 23 1) s.rooster.tickNo = 0) :=
  ⟨⟨queued 1 { q1 with pi := 1 }, 1, { ctx := 0, slot := 1, kind := 1, pi := 1 },
    leBytes 8 1 ++ leBytes 8 1 ++ leBytes 8 1, ctx0, 0x03000000, by decide +kernel⟩,
   ⟨{ queued 1 { q1 with pi := 1 } with txs := [(⟨0x40, 0x03000000, 0⟩, {})] }, 1,
     { ctx := 0, slot := 1, kind := 1, pi := 1 }, leBytes 8 2 ++ leBytes 8 1 ++ leBytes 8 1, 0x03000000, {},
     by decide +kernel⟩,
   ⟨queued 1 { q1 with pi := 1 }, 1, 0x40000000, { ctx := 0, slot := 1, kind := 1, pi := 1 },
     leBytes 8 3 ++ leBytes 8 0 ++ leBytes 8 1, [9], by decide +kernel⟩,
   ⟨queued 1 { q1 with pi := 1 }, 1, 0x40000000, { ctx := 0, slot := 1, kind := 1, pi := 1 },
     leBytes 8 3 ++ leBytes 8 1 ++ leBytes 8 1, by decide +kernel⟩,
   ⟨queued 1 { q1 with pi := 1 }, 1, 0x40010000, 0x40010000, { ctx := 0, slot := 1, kind := 1, pi := 1 }, startEntry,
     by decide +kernel⟩⟩

theorem witness_SendEntriesComplete :
  (∃ (s : State), ∃ (qid n st : Nat), ∃ (q v : Queue), ∃ (x : Started), qid < 4096 ∧ s.queue? qid = some q ∧
    q.started.find? (fun y => y.idx = x.idx) = some x ∧ x.status = some st ∧ s.cqOf q = some n ∧ n ≠ qid ∧
    s.queue? n = some v ∧ (s.slotOf q).disabling = false) ∧
  (∃ (s : State), ∃ (qid idx : Nat), ∃ (q : Queue), qid < 4096 ∧ s.queue? qid = some q ∧ (∃ x ∈ q.started,
    x.idx = idx) ∧ (∀ x ∈ s.txs, ∀ u ∈ x.2.unacked, u.entry ≠ some (qid, idx))) ∧
  (∃ (s : State), ∃ (k : MsgKey), ∃ (m : OpenMsg), ∃ (n : Nat), ∃ (q : Queue),
    s.msgs.find? (fun x => x.key = k) = some m ∧ m.hold = some n ∧ s.queue? m.qid = some q ∧ (s.slotOf q).ringHold ≤ n) :=
  ⟨⟨queued 1 { q1 with started := [{ begun with status := some 0 }] }, 1, 0, 0,
    { ctx := 0, slot := 1, kind := 1, started := [{ begun with status := some 0 }] },
    { ctx := 0, slot := 0, kind := 3 }, { begun with status := some 0 }, by decide +kernel⟩,
   ⟨queued 1 { q1 with started := [begun] }, 1, 0, { ctx := 0, slot := 1, kind := 1, started := [begun] },
     by decide +kernel⟩,
   ⟨{ queued 2 q1 with msgs := [heldMsg] }, ⟨3, 0, 1⟩, heldMsg, 2, { ctx := 0, slot := 1, kind := 2 }, by decide +kernel⟩⟩

theorem witness_VectorsAndCauses :
  (∃ (s : State), ∃ (qid : Nat), ∃ (q : Queue), qid < 4096 ∧ s.alive = true ∧ s.queue? qid = some q ∧ q.kind = 3 ∧
    q.fires s.time = true) ∧
  (∃ (s : State), ∃ (fn entry : Nat), fn < 129 ∧ entry < vectorCount fn ∧ s.alive = true ∧ s.power.ready = true ∧
    s.funcExists fn = true) ∧
  (∃ (s : State), ∃ (fn entry : Nat), fn < 129 ∧ entry < vectorCount fn ∧ s.power.coldReset = false ∧
    s.power.ready = true ∧ s.power.hpRetry = false ∧ (s.func fn).flr = false ∧ s.funcExists fn = true ∧
    entry ∈ (s.func fn).unmasked ∧ entry ∈ (s.func fn).pba) ∧
  (∃ (s : State), ∃ (path : Path), ∃ (p : Nat), p < 128 ∧ s.reachesPart path p = true) ∧
  (∃ (s : State), s.alive = true ∧ s.power.ready = true) :=
  ⟨⟨{ queued 1 q1 with queues := [(0, { ctx := 0, slot := 0, kind := 3, pending := 1 })] }, 0,
    { ctx := 0, slot := 0, kind := 3, pending := 1 }, by decide +kernel⟩,
   ⟨queued 1 q1, 128, 32, by decide +kernel⟩,
   ⟨{ live with funcs := [(0, { unmasked := [0], pba := [0] })] }, 0, 0, by decide +kernel⟩,
   ⟨live, .pf, 127, by decide +kernel⟩,
   ⟨live, by decide +kernel⟩⟩

theorem witness_FunctionsReset :
  (∃ (s : State), ∃ (vf : Nat), 1 ≤ vf ∧ vf < 129 ∧ s.alive = true ∧ s.power.ready = true ∧ s.funcExists vf = true) ∧
  (∃ (s : State), s.alive = true ∧ s.power.ready = true) ∧
  (∃ (s : State), s.power.coldReset = false) ∧
  (∃ (s : State), s.power.coldReset = false ∧ s.power.perstLow = false ∧ s.power.hp = .down ∧ 30000000 ≤ s.time ∧
    s.power.tripped = false) ∧
  (∃ (s : State), s.power.hp = .training) ∧
  (∃ (s : State), (s.func 0).flr = true) ∧
  (∃ (s : State), ∃ (fn : Nat), fn < 129 ∧ fn ≠ 0 ∧ (s.func fn).flr = true ∧ (s.thread (fn - 1)).cmd ≠ some .flr ∧
    ((∀ c ∈ s.ctxsOf (fn - 1), s.slotsOfKind c 1 = [] ∧ ∃ x, s.ctx? c = some x ∧ x.destroying = false))) :=
  ⟨⟨queued 1 q1, 128, by decide +kernel⟩,
   ⟨live, by decide +kernel⟩,
   ⟨live, by decide +kernel⟩,
   ⟨{ live with time := 30000000 }, by decide +kernel⟩,
   ⟨{ live with power := { hp := .training } }, by decide +kernel⟩,
   ⟨{ live with funcs := [(0, { flr := true })] }, by decide +kernel⟩,
   ⟨{ live with funcs := [(128, { flr := true })] }, 128,
     by and_intros <;> first | exact (fun c h => nomatch (show c ∈ ([] : List Nat) from h)) | decide +kernel⟩⟩

theorem witness_ConfigurationRequests :
  (∃ (s : State), ∃ (fn : Nat), fn < 129 ∧
    ((s.power.coldReset = true ∨ s.power.ready = false ∨ s.power.hpRetry = true ∨ (s.func fn).flr = true))) ∧
  (∃ (s : State), ∃ (fn : Nat), fn < 129 ∧ s.power.coldReset = false ∧ s.power.ready = true ∧
    s.power.hpRetry = false ∧ (s.func fn).flr = false ∧ s.funcExists fn = true) ∧
  (∃ (s : State), ∃ (fn : Nat), fn < 129 ∧ s.power.coldReset = false ∧ s.power.ready = true ∧
    s.power.hpRetry = false ∧ (s.func fn).flr = false ∧ s.funcExists fn = true) ∧
  (∃ (s : State), ∃ (n : Nat), s.power.coldReset = false ∧ s.power.ready = true ∧ s.power.hpRetry = false ∧
    (s.func 0).flr = false ∧ s.fw.recovery = false ∧ 1 ≤ n ∧ n ≤ 128) ∧
  (∃ (s : State), s.alive = true ∧ s.power.ready = false ∧ 1000000000 ≤ s.time) ∧
  (∃ (s : State), ∃ (path : Path), path ≠ .smbus ∧ s.power.ready = false) :=
  ⟨⟨State.reset, 128, by decide +kernel⟩,
   ⟨live, 0, by decide +kernel⟩,
   ⟨live, 0, by decide +kernel⟩,
   ⟨live, 128, by decide +kernel⟩,
   ⟨{ live with power := { coldReset := false, rstLow := false }, time := 1000000000 }, by decide +kernel⟩,
   ⟨State.reset, .pf, by decide +kernel⟩⟩

theorem witness_SmbusAnswers :
  (∃ (s : State), ∃ (off : Nat), ∃ (r : Reg), s.smbusUp = true ∧ s.power.ready = true ∧ off % 8 = 0 ∧ off ≠ 0x4000 ∧
    s.regAt .smbus off = some r ∧ r.wide = true) ∧
  (∃ (s : State), ∃ (off : Nat), ∃ (r : Reg), s.smbusUp = true ∧ s.power.ready = true ∧ off % 4 = 0 ∧ off ≠ 0x4000 ∧
    s.regAt .smbus off = some r ∧ r.wide = false) ∧
  (∃ (s : State), ∃ (off bytes : Nat), s.smbusUp = true ∧ s.power.ready = true ∧ bytes ≠ 4 ∧ bytes ≠ 8 ∧ off ≠ 0x4000) ∧
  (∃ (s : State), s.smbusUp = true ∧ s.power.ready = true) ∧
  (∃ (s : State), s.smbusUp = true ∧ s.power.ready = true) ∧
  (∃ (s : State), s.smbusUp = true ∧ s.power.ready = true) ∧
  (∃ (s : State), ∃ (code : BitVec 8), s.smbusUp = true ∧ s.power.ready = true ∧ (code = 0 ∨ 4 ≤ code.toNat)) ∧
  (∃ (s : State), ∃ off, s.smbusUp = true ∧ s.power.ready = true ∧ s.isGa .smbus off = false) ∧
  (∃ (s : State), ∃ off, s.smbusUp = true ∧ s.power.ready = true ∧ s.isGa .smbus off = true) :=
  ⟨⟨live, 0x1010, ⟨true, 0, .ro⟩, by decide +kernel⟩,
   ⟨live, 0x1038, ⟨false, 0, .ro⟩, by decide +kernel⟩,
   ⟨live, 0x1010, 2, by decide +kernel⟩,
   ⟨live, by decide +kernel⟩,
   ⟨live, by decide +kernel⟩,
   ⟨live, by decide +kernel⟩,
   ⟨live, 4, by decide +kernel⟩,
   ⟨live, 0x1038, by decide +kernel⟩,
   ⟨live, 0x1000, by decide +kernel⟩⟩

theorem witness_GateCallsWait :
  (∃ (s : State), ∃ (c : Caller), c.slot ≤ 129 ∧ s.slotOpen c.slot = true ∧ (s.gateSlot c.slot).pending = false ∧
    s.fw.fatal = false) ∧
  (∃ (s : State), ∃ (i : Instr), ∃ (c : Caller), ∃ (r : GateReq), gateOf i = some (c, r) ∧ c.slot ≤ 129 ∧
    s.slotOpen c.slot = true ∧ (s.gateSlot c.slot).pending = false ∧ s.fw.fatal = false) ∧
  (∃ (s : State), ∃ (i : Instr), ∃ (c : Caller), ∃ (r : GateReq), gateOf i = some (c, r) ∧ c.slot ≤ 129 ∧
    s.slotOpen c.slot = true ∧ (s.gateSlot c.slot).pending = true) ∧
  (∃ (s : State), ∃ (i : Instr), ∃ (c : Caller), ∃ (r : GateReq), gateOf i = some (c, r) ∧ c.slot ≤ 129 ∧
    s.slotOpen c.slot = true ∧ (s.gateSlot c.slot).pending = false ∧ s.fw.fatal = true) :=
  ⟨⟨live, ⟨1, false⟩, by decide +kernel⟩,
   ⟨live, .setTick ⟨1, false⟩ 64, ⟨1, false⟩, .setTick 64, by decide +kernel⟩,
   ⟨{ live with gate := { slots := [(1, { pending := true })] } }, .setTick ⟨1, false⟩ 64, ⟨1, false⟩, .setTick 64,
     by decide +kernel⟩,
   ⟨{ live with fw := { fatal := true } }, .setTick ⟨1, false⟩ 64, ⟨1, false⟩, .setTick 64, by decide +kernel⟩⟩

theorem witness_GateCallsAreJudgedInOrder :
  (∃ (s : State), s.fw.fatal = true) ∧
  (∃ (s : State), ∃ (slot : Nat), ∃ (r : GateReq), s.fw.fatal = false ∧ ((r.mayCall slot = false ∨ (∃ p,
    r.part? = some p ∧ 2 ≤ slot ∧ p ≠ slot - 2) ∨ (s.fw.recovery = true ∧ r.inRecovery = false)))) ∧
  (∃ (s : State), ∃ (slot : Nat), ∃ (rsv : Bool), ∃ (r : GateReq), s.fw.fatal = false ∧ r.mayCall slot = true ∧ ((∀ p,
    r.part? = some p → slot < 2 ∨ p = slot - 2)) ∧ ((s.fw.recovery = true → r.inRecovery = true)) ∧
    (r.inRange = false ∨ rsv = true)) ∧
  (∃ (s : State), ∃ (slot : Nat), ∃ (rsv : Bool), ∃ (r : GateReq), s.fw.fatal = false ∧ r.mayCall slot = true ∧ ((∀ p,
    r.part? = some p → slot < 2 ∨ p = slot - 2)) ∧ ((s.fw.recovery = true → r.inRecovery = true)) ∧ r.inRange = true ∧
    rsv = false ∧ s.epoch.armed.isSome = true ∧ ((r.epochTable = true ∨ r.code = 0x26))) ∧
  (∃ (s : State), ∃ (slot : Nat), ∃ (rsv : Bool), ∃ (r : GateReq), s.fw.fatal = false ∧ r.mayCall slot = true ∧ ((∀ p,
    r.part? = some p → slot < 2 ∨ p = slot - 2)) ∧ ((s.fw.recovery = true → r.inRecovery = true)) ∧ r.inRange = true ∧
    rsv = false ∧ ((s.epoch.armed = none ∨ (r.epochTable = false ∧ r.code ≠ 0x26))) ∧ s.settingBusy r = true) ∧
  (∃ (s : State), ∃ (slot : Nat), ∃ (rsv : Bool), ∃ (r : GateReq), s.gateOpen slot r ∧ rsv = false) ∧
  (∃ (s : State), ∃ (i : Instr), ∃ (c : Caller), ∃ (r : GateReq), ∃ (t : State), gateOf i = some (c, r) ∧
    c.slot ≤ 129 ∧ s.slotOpen c.slot = true ∧ (s.gateSlot c.slot).pending = false ∧ s.fw.fatal = false ∧
    s.gate.queue = [] ∧ (s.depot.draining && r.readsDepot) = false ∧
    State.serve { s.setGateSlot c.slot { s.gateSlot c.slot with pending := true } with gate := { (s.setGateSlot c.slot { s.gateSlot c.slot with pending := true }).gate with queue := [] } } c.slot c.rsv r = .ok t) ∧
  (∃ (s : State), ∃ (w : GateWait), ∃ (rest : List GateWait), ∃ (e : Nat × Nat), s.gate.queue = w :: rest ∧
    s.power.coldReset = false ∧ s.power.tripped = false ∧ (s.depot.draining && w.req.readsDepot) = false ∧
    State.serve { s with gate := { s.gate with queue := rest } } w.slot w.rsv w.req = .error e) :=
  ⟨⟨{ live with fw := { fatal := true } }, by decide +kernel⟩,
   ⟨live, 1, .mulePet, by and_intros <;> first | exact Or.inl (by decide +kernel) | decide +kernel⟩,
   ⟨live, 1, true, .setTick 64, by and_intros <;> first | exact (fun _ h => nomatch h) | exact Or.inr rfl | decide +kernel⟩,
   ⟨{ live with epoch := { armed := some 9 } }, 1, false, .setTick 64,
     by and_intros <;> first | exact (fun _ h => nomatch h) | exact Or.inl rfl | decide +kernel | rfl⟩,
   ⟨{ live with gate := { drains := [⟨1, .setPorts 0 1, 1, 0x11, some 0⟩] } }, 1, false, .setPorts 0 5,
     by and_intros <;> first | exact (fun _ _ => Or.inl (by decide)) | exact Or.inl rfl | decide +kernel | rfl⟩,
   ⟨live, 1, false, .setTick 64, by and_intros <;> first | exact ⟨by decide +kernel, by decide +kernel, (fun _ _ => Or.inl (by decide)), by decide +kernel, by decide +kernel, by decide +kernel, by decide +kernel⟩ | decide +kernel | rfl⟩,
   ⟨live, .setTickRole ⟨1, false⟩ true true, ⟨1, false⟩, .setTickRole true true, _,
     by and_intros <;> first | decide +kernel | rfl⟩,
   ⟨{ live with gate := { queue := [⟨0, 1, true, .setTick 64⟩] } }, ⟨0, 1, true, .setTick 64⟩, [], (1, 0),
     by and_intros <;> first | decide +kernel | rfl⟩⟩

theorem witness_ServedCallsTakeEffect :
  (∃ n, ((64 ≤ n ∧ n ≤ 16384 ∧ n % 64 = 0))) ∧
  (∃ n, (¬ (64 ≤ n ∧ n ≤ 16384 ∧ n % 64 = 0))) ∧
  (∃ e, routeOk e = true) ∧
  (∃ e, routeOk e = false) ∧
  (∃ (s : State), ∃ p v, variantLegal (s.nextPlan p) v = true) ∧
  (∃ (s : State), ∃ p l, s.grantsLegal p l s.nextGrants = true ∧ s.nextPlan p = none) ∧
  (∃ (s : State), ∃ (t0 : Word), s.rooster.tickNo.toNat + 8 ≤ t0.toNat ∧ s.shadowBad = none) ∧
  (∃ (s : State), ∃ (t0 : Word), t0.toNat < s.rooster.tickNo.toNat + 8) ∧
  (∃ (s : State), ∃ p c, s.ctx? c = none ∧ (s.ctxs.filter (fun e => e.2.part = p)).length < 32) ∧
  (∃ (s : State), ∃ c x, s.ctx? c = some x) ∧
  (∃ (s : State), ∃ p c x, s.ctxOf p c = some x ∧ s.isHome p c = false) ∧
  (∃ l, l ≤ 3) ∧
  (∃ (s : State), s.fw.minSvn ≤ s.fw.muleSvn ∧ s.fw.muleSvn ≤ 64) ∧
  (∃ (s : State), s.fw.muleSvn < s.fw.minSvn) ∧
  (∃ (s : State), s.fw.keys.length < 8 ∧ s.fw.keys ≠ []) ∧
  (∃ (s : State), s.fw.keys.length = 8) ∧
  (∃ (s : State), ∃ k, k ∉ s.fw.keys) :=
  ⟨⟨16384, by decide +kernel⟩,
   ⟨65, by decide +kernel⟩,
   ⟨0, by decide +kernel⟩,
   ⟨1#128 <<< 115, by decide +kernel⟩,
   ⟨live, 127, 0, by decide +kernel⟩,
   ⟨live, 0, [], by decide +kernel⟩,
   ⟨live, 8, by decide +kernel⟩,
   ⟨live, 7, by decide +kernel⟩,
   ⟨live, 0, 5, by decide +kernel⟩,
   ⟨runs (.nop 0 h0) {}, 0, ctx0, by decide +kernel⟩,
   ⟨{ live with ctxs := [(1, ctx0)] }, 0, 1, ctx0, by decide +kernel⟩,
   ⟨3, by decide +kernel⟩,
   ⟨{ live with fw := { minSvn := 1, muleSvn := 64 } }, by decide +kernel⟩,
   ⟨{ live with fw := { minSvn := 2, muleSvn := 1 } }, by decide +kernel⟩,
   ⟨{ live with fw := { keys := [[1]] } }, by decide +kernel⟩,
   ⟨{ live with fw := { keys := List.replicate 8 [1] } }, by decide +kernel⟩,
   ⟨live, [], by decide +kernel⟩⟩

theorem witness_DrainsLandOrRollBack :
  (∃ (s : State), ∃ (d : DrainPending), ∃ (p : Nat), ∃ (m : BitVec 49), s.alive = true ∧ s.rooster.slot = 0 ∧
    s.gate.drains = [d] ∧ d.req = .setPorts p m ∧ d.age.isSome = true ∧ s.drainLands d.req = true) ∧
  (∃ (s : State), ∃ (d : DrainPending), ∃ (p w e : Nat), s.alive = true ∧ s.rooster.slot = 0 ∧ s.gate.drains = [d] ∧
    d.req = .setHenMin p w e ∧ d.age.isSome = true ∧ s.west.reserve.getD p 0 ≤ w ∧ s.east.reserve.getD p 0 ≤ e) ∧
  (∃ (s : State), ∃ (d : DrainPending), ∃ (p f n : Nat), s.alive = true ∧ s.rooster.slot = 0 ∧ s.gate.drains = [d] ∧
    d.req = .setCarve p f n ∧ d.age.isSome = true ∧ s.drainLands d.req = true ∧ s.memOk) ∧
  (∃ (s : State), ∃ (d : DrainPending), ∃ (k b c : Nat), s.alive = true ∧ s.rooster.slot = 0 ∧ s.gate.drains = [d] ∧
    d.req = .setGmin k b c ∧ d.age.isSome = true ∧ s.drainLands d.req = true) ∧
  (∃ (s : State), ∃ (d : DrainPending), ∃ (n : Nat), s.alive = true ∧ s.rooster.slot = 0 ∧ s.gate.drains = [d] ∧
    d.age = some n ∧ 64 ≤ n ∧ s.drainLands d.req = false ∧ d.req.sameSetting d.req = true) :=
  ⟨⟨{ live with gate := { drains := [⟨1, .setPorts 0 5, 1, 0x11, some 0⟩] } }, ⟨1, .setPorts 0 5, 1, 0x11, some 0⟩, 0,
    5, by decide +kernel⟩,
   ⟨{ live with gate := { drains := [⟨2, .setHenMin 0 2 0, 1, 0x11, some 0⟩] }, west := { reserve := [(0, 2)] } }, ⟨2,
     .setHenMin 0 2 0, 1, 0x11, some 0⟩, 0, 2, 0, by decide +kernel⟩,
   ⟨{ live with gate := { drains := [⟨0, .setCarve 0 0 1, 1, 0x11, some 0⟩] } }, ⟨0, .setCarve 0 0 1, 1, 0x11,
     some 0⟩, 0, 0, 1, by decide +kernel⟩,
   ⟨{ live with gate := { drains := [⟨4, .setGmin 3 8 8, 1, 0x11, some 0⟩] } }, ⟨4, .setGmin 3 8 8, 1, 0x11, some 0⟩,
     3, 8, 8, by decide +kernel⟩,
   ⟨{ live with gate := { drains := [⟨2, .setHenMin 0 1 1, 1, 0x11, some 64⟩] }, west := { reserve := [(0, 2)] } },
     ⟨2, .setHenMin 0 1 1, 1, 0x11, some 64⟩, 64, by decide +kernel⟩⟩

theorem witness_BootReachesReady :
  (∃ (s : State), ∃ (b : BoardRead), s.power.coldReset = true ∧ b.stackFail = 0) ∧
  (∃ (s : State), ∃ (copyB : Bool), s.alive = true ∧ s.fw.bootTry.head? = some copyB) ∧
  (∃ (s : State), ∃ (copyB : Bool), ∃ (image : List Byte), s.alive = true ∧ s.fw.bootTry = [copyB] ∧
    s.fw.restarting = false ∧ muleImageOk image s.fw.minSvn = false) ∧
  (∃ (s : State), ∃ (g p : Nat), g < 8 ∧ p < 49 ∧ s.alive = true ∧ s.confined = false ∧
    (120 + 40 * g) * 1000000 ≤ s.time ∧ (locSeat s.power.loc + p) % 8 = g ∧ (s.port p).enable = true) ∧
  (∃ (s : State), s.alive = true ∧ s.confined = false ∧ s.rooster.candidate = false ∧ 600000000 ≤ s.time ∧
    ((s.rooster.st ≠ .free ∨ s.rooster.gmEligible = false))) ∧
  (∃ (s : State), s.alive = true ∧ s.confined = false ∧ s.rooster.candidate = false ∧ 600000000 ≤ s.time ∧
    s.rooster.st = .free ∧ s.rooster.gmEligible = true) ∧
  (∃ (s : State), s.alive = true ∧ s.power.ready = false ∧ 1000000000 ≤ s.time) ∧
  (∃ (s : State), s.alive = true ∧ s.rooster.slot = 0 ∧ s.fw.muleUp = true ∧ 64 < s.fw.petTicks) :=
  ⟨⟨State.reset, ⟨0, 0, 0, [], [], 0⟩, by decide +kernel⟩,
   ⟨{ live with fw := { bootTry := [false] } }, false, by decide +kernel⟩,
   ⟨{ live with fw := { bootTry := [false] } }, false, [], by decide +kernel⟩,
   ⟨{ live with time := 400000000 }, 7, 7, by decide +kernel⟩,
   ⟨{ live with time := 600000000, rooster := { st := .locked } }, by decide +kernel⟩,
   ⟨{ live with time := 600000000 }, by decide +kernel⟩,
   ⟨{ live with time := 1000000000, power := { coldReset := false } }, by decide +kernel⟩,
   ⟨{ live with fw := { muleUp := true, petTicks := 65 } }, by decide +kernel⟩⟩

theorem witness_FatalStopsAndTap :
  (∃ (s : State), s.power.coldReset = false ∧ s.fw.fatal = false) ∧
  (∃ (s : State), ∃ (west east stack : BitVec 16), s.power.coldReset = false ∧ s.power.tripped = false ∧
    ((115 ≤ west.toInt ∨ 115 ≤ east.toInt ∨ 95 ≤ stack.toInt))) ∧
  (∃ (s : State), ∃ (ir v : BitVec 8),
    (v = (if ir = bypassIr ∨ ir = Config.idcodeIr ∨ s.power.rstLow = true then ir else bypassIr))) :=
  ⟨⟨live, by decide +kernel⟩,
   ⟨live, 115, 0, 0, by decide +kernel⟩,
   ⟨live, bypassIr, bypassIr, by first | exact (if_pos (Or.inl rfl)).symm | decide +kernel⟩⟩

theorem witness_DepotKeepsShards :
  (∃ (s u : State), ∃ (m : SvcMsg), ∃ (c : Ctx), ∃ (len cap : Nat), ∃ (l : List Nat), s.serves m 1 1 ∧
    (msgBody m).length = 12 ∧ (s.takeMsg m).msgGranted m 1 true = true ∧ s.ctx? (msgCtx m) = some c ∧
    len = (c.segs.getD (msgSeg m) (0, 0)).2 * 4096 ∧ cap = natAt (msgBody m) 8 4 ∧ shardRoom cap ≤ 0x4000000 ∧
    s.shardFor m = none ∧ (s.shardsOf m).length < 1024 ∧
    (s.takeMsg m).placeExtents len (shardRoom cap) 3 ((s.shardsOf m).flatMap (fun x => x.ext.map (fun o => (o,
    shardRoom x.cap)))) [] = (some l, u)) ∧
  (∃ (s : State), ∃ (m : SvcMsg), ∃ (x : Shard), ∃ (a e : Nat), s.serves m 1 2 ∧ 16 ≤ (msgBody m).length ∧
    (msgBody m).length ≤ 4080 ∧ (s.takeMsg m).msgGranted m 1 true = true ∧ s.shardFor m = some x ∧ ((∀ w sz o,
    x.latest = some (w, sz, o) → w < natAt (msgBody m) 8 4)) ∧
    natAt (msgBody m) 12 4 + ((msgBody m).length - 16) ≤ x.cap ∧ x.staged = none ∧ e = x.freeExtent ∧
    s.segAddr m.part (msgCtx m) (msgSeg m) (e + natAt (msgBody m) 12 4) ((msgBody m).length - 16) = some a ∧
    s.depot.draining = false ∧ s.depot.bad = [] ∧ s.memOk) ∧
  (∃ (s : State), ∃ (m : SvcMsg), ∃ (x : Shard), ∃ (e : Nat), s.serves m 1 3 ∧ (msgBody m).length = 16 ∧
    (s.takeMsg m).msgGranted m 1 true = true ∧ s.shardFor m = some x ∧ x.staged = some (natAt (msgBody m) 8 4, e) ∧
    natAt (msgBody m) 12 4 ≤ x.cap) ∧
  (∃ (s : State), ∃ (m : SvcMsg), ∃ (x : Shard), ∃ (v size e a : Nat), s.serves m 1 4 ∧ (msgBody m).length = 20 ∧
    (s.takeMsg m).msgGranted m 1 false = true ∧ s.shardFor m = some x ∧ x.version (natAt (msgBody m) 8 4) = some (v,
    size, e) ∧ natAt (msgBody m) 16 4 ≤ 4064 ∧ natAt (msgBody m) 12 4 + natAt (msgBody m) 16 4 ≤ size ∧
    s.segAddr m.part (msgCtx m) (msgSeg m) (e + natAt (msgBody m) 12 4) (natAt (msgBody m) 16 4) = some a ∧
    s.depot.draining = false ∧ s.depot.bad = [] ∧ s.depot.soft = []) ∧
  (∃ (s : State), ∃ (m : SvcMsg), ∃ (x : Shard), s.serves m 1 5 ∧ (msgBody m).length = 8 ∧
    (s.takeMsg m).msgGranted m 1 true = true ∧ s.shardFor m = some x) ∧
  (∃ (s : State), ∃ (m : SvcMsg), ∃ (c : Instr), s.alive = true ∧ s.fw.muleUp = true ∧ s.msgTurn m = true ∧
    msgFormed m = true ∧ msgOp m < 128 ∧ msgService m ≠ 0 ∧
    ((c = .create m ∨ c = .put m ∨ c = .commit m ∨ c = .get m ∨ c = .drop m ∨ c = .join m ∨ c = .leave m ∨ c = .arrive
    m ∨ c = .propose m ∨ c = .forget m ∨ c = .drain m ∨ c = .partDone m)) ∧ s.serviceUp (msgService m) = false) ∧
  (∃ (s : State), ∃ (m : SvcMsg), ∃ (c : Instr), s.alive = true ∧ s.fw.muleUp = true ∧ s.msgTurn m = true ∧
    msgFormed m = true ∧ msgOp m < 128 ∧ msgService m ≠ 0 ∧
    ((c = .create m ∨ c = .put m ∨ c = .commit m ∨ c = .get m ∨ c = .drop m ∨ c = .join m ∨ c = .leave m ∨ c = .arrive
    m ∨ c = .propose m ∨ c = .forget m ∨ c = .drain m ∨ c = .partDone m)) ∧ s.serviceUp (msgService m) = true ∧
    4 ≤ msgService m) :=
  ⟨⟨{ served 1 createMsg with ctxs := [(0, place1)] },
    { ({ served 1 createMsg with ctxs := [(0, place1)] } : State).takeMsg createMsg with free := 3 }, createMsg,
    place1, 131072, 0, [65536, 65536, 65536], by and_intros <;> first | exact create_places | decide +kernel⟩,
   ⟨withShard putMsg shard, putMsg, shard, 0x40010000, 65536,
     by and_intros <;> first | exact (fun _ _ _ h => nomatch h) | decide +kernel⟩,
   ⟨withShard (msg 1 3 0 (leBytes 8 5 ++ leBytes 4 1 ++ leBytes 4 16)) { shard with staged := some (1, 65536) },
     msg 1 3 0 (leBytes 8 5 ++ leBytes 4 1 ++ leBytes 4 16), { shard with staged := some (1, 65536) }, 65536,
     by decide +kernel⟩,
   ⟨withShard (msg 1 4 0 (leBytes 8 5 ++ leBytes 4 0 ++ leBytes 4 0 ++ leBytes 4 16))
     { shard with latest := some (1, 16, 65536) },
     msg 1 4 0 (leBytes 8 5 ++ leBytes 4 0 ++ leBytes 4 0 ++ leBytes 4 16),
     { shard with latest := some (1, 16, 65536) }, 1, 16, 65536, 0x40010000, by decide +kernel⟩,
   ⟨withShard (msg 1 5 0 (leBytes 8 5)) shard, msg 1 5 0 (leBytes 8 5), shard, by decide +kernel⟩,
   ⟨served 1 (msg 2 1 0 []), msg 2 1 0 [], .join (msg 2 1 0 []), by and_intros <;> first | (simp; done) | decide +kernel⟩,
   ⟨served 16 (msg 16 1 0 []), msg 16 1 0 [], .create (msg 16 1 0 []),
     by and_intros <;> first | (simp; done) | decide +kernel⟩⟩

theorem witness_RollCallKeepsJobs :
  (∃ (s : State), ∃ (m : SvcMsg), ∃ (j : Job), ∃ (rank parts : Nat), s.serves m 2 1 ∧ (msgBody m).length = 8 ∧
    msgScope m ≠ 0 ∧ rank = natAt (msgBody m) 0 4 ∧ parts = natAt (msgBody m) 4 4 ∧ rank < parts ∧ parts ≤ 4096 ∧
    s.mule.jobs.get? (msgScope m) = some j ∧ j.parts = parts ∧ j.arrivals = [] ∧ j.ranks.get? rank = none) ∧
  (∃ (s : State), ∃ (m : SvcMsg), ∃ (j : Job), ∃ (a : BitVec 32), s.serves m 2 2 ∧ (msgBody m).length = 4 ∧
    s.mule.jobs.get? (msgScope m) = some j ∧ j.ranks.get? (natAt (msgBody m) 0 4) = some a) ∧
  (∃ (s : State), ∃ (m : SvcMsg), ∃ (j : Job), ∃ (e : Nat × BitVec 32), s.serves m 2 3 ∧ (msgBody m).length = 4 ∧
    s.mule.jobs.get? (msgScope m) = some j ∧ j.ranks.find? (fun x => x.2 = m.src) = some e) ∧
  (∃ (s : State), ∃ (k : Nat), ∃ (j : Job), s.alive = true ∧ s.fw.muleUp = true ∧ s.mule.jobs.get? k = some j ∧
    (∃ x ∈ j.arrivals, 65536 ≤ (s.rooster.tickNo - x.tick).toNat)) ∧
  (∃ (s : State), ∃ (m : SvcMsg), ∃ (j : Job), ∃ v, s.serves m 2 5 ∧ 4 ≤ (msgBody m).length ∧
    (msgBody m).length ≤ 68 ∧ s.mule.jobs.get? (msgScope m) = some j ∧ j.topics.get? (natAt (msgBody m) 0 4) = some v) ∧
  (∃ (s : State), ∃ (m : SvcMsg), ∃ (j : Job), s.serves m 2 5 ∧ 4 ≤ (msgBody m).length ∧ (msgBody m).length ≤ 68 ∧
    s.mule.jobs.get? (msgScope m) = some j ∧ j.topics.get? (natAt (msgBody m) 0 4) = none ∧ j.topics.length < 256) ∧
  (∃ (s : State), ∃ (m : SvcMsg), ∃ (j : Job), ∃ (v : List Byte), s.serves m 2 6 ∧ (msgBody m).length = 4 ∧
    s.mule.jobs.get? (msgScope m) = some j ∧ j.topics.get? (natAt (msgBody m) 0 4) = some v) :=
  ⟨⟨withJob (msg 2 1 9 (leBytes 4 3 ++ leBytes 4 4)) { parts := 4, ranks := [] },
    msg 2 1 9 (leBytes 4 3 ++ leBytes 4 4), { parts := 4, ranks := [] }, 3, 4, by decide +kernel⟩,
   ⟨withJob (msg 2 2 9 (leBytes 4 0)) { parts := 4, ranks := [(0, 0x03000000)] }, msg 2 2 9 (leBytes 4 0),
     { parts := 4, ranks := [(0, 0x03000000)] }, 0x03000000, by decide +kernel⟩,
   ⟨withJob (msg 2 3 9 (leBytes 4 1)) { parts := 4, ranks := [(0, 0x03000000)] }, msg 2 3 9 (leBytes 4 1),
     { parts := 4, ranks := [(0, 0x03000000)] }, (0, 0x03000000), by decide +kernel⟩,
   ⟨{ live with rooster := { tickNo := 65536 }, mule := { jobs := [(9, waiting)] } }, 9, waiting, by decide +kernel⟩,
   ⟨withJob (msg 2 5 9 (leBytes 4 0)) { parts := 4, ranks := [], topics := [(0, [1])] }, msg 2 5 9 (leBytes 4 0),
     { parts := 4, ranks := [], topics := [(0, [1])] }, [1], by decide +kernel⟩,
   ⟨withJob (msg 2 5 9 (leBytes 4 0 ++ List.replicate 64 1)) { parts := 4, ranks := [] },
     msg 2 5 9 (leBytes 4 0 ++ List.replicate 64 1), { parts := 4, ranks := [] }, by decide +kernel⟩,
   ⟨withJob (msg 2 6 9 (leBytes 4 0)) { parts := 4, ranks := [], topics := [(0, [1])] }, msg 2 6 9 (leBytes 4 0),
     { parts := 4, ranks := [], topics := [(0, [1])] }, [1], by decide +kernel⟩⟩

theorem witness_CheckpointDrains :
  (∃ (s : State), ∃ (m : SvcMsg), s.serves m 3 1 ∧ (msgBody m).length = 30 ∧
    (s.takeMsg m).msgGranted m 3 false = true ∧ 1 ≤ natAt (msgBody m) 8 8 ∧ natAt (msgBody m) 8 8 ≤ 2 ^ 40 ∧
    s.mule.drains.length < 64) ∧
  (∃ (s : State), ∃ (id : Nat), ∃ (d : Drain), s.mule.drains.find? (fun x => x.id = id) = some d ∧ s.alive = true ∧
    s.fw.muleUp = true ∧ s.mule.throttle < 3 ∧ d.next < ceilDiv d.len 0x1000000 ∧ d.sending = none) ∧
  (∃ (s : State), ∃ (m : SvcMsg), ∃ (d : Drain), ∃ (k : Nat), ∃ (x : DrainPart), s.serves m 3 2 ∧
    (msgBody m).length = 12 ∧ (s.takeMsg m).msgGranted m 3 false = true ∧ k = natAt (msgBody m) 8 4 ∧
    s.mule.drains.find? (fun y => y.obj = natAt (msgBody m) 0 8 && y.ctx = msgCtx m && y.seg = msgSeg m &&
    (y.parts.get? k).isSome) = some d ∧ d.parts.get? k = some x ∧ d.next ≠ ceilDiv d.len 0x1000000) ∧
  (∃ (s : State), ∃ (id k : Nat), ∃ (d : Drain), ∃ (x : DrainPart),
    s.mule.drains.find? (fun y => y.id = id) = some d ∧ d.parts.get? k = some x ∧ s.alive = true ∧
    s.fw.muleUp = true ∧ x.done = false ∧ ((x.lost = true ∨ 64 ≤ (s.rooster.tickNo - x.tick).toNat)) ∧ x.sends < 4) ∧
  (∃ (s : State), ∃ (id k : Nat), ∃ (d : Drain), ∃ (x : DrainPart),
    s.mule.drains.find? (fun y => y.id = id) = some d ∧ d.parts.get? k = some x ∧ s.alive = true ∧
    s.fw.muleUp = true ∧ x.done = false ∧ ((x.lost = true ∨ 64 ≤ (s.rooster.tickNo - x.tick).toNat)) ∧ 4 ≤ x.sends) :=
  ⟨⟨served 3 (msg 3 1 0 (leBytes 8 0 ++ leBytes 8 1 ++ List.replicate 14 0)),
    msg 3 1 0 (leBytes 8 0 ++ leBytes 8 1 ++ List.replicate 14 0), by decide +kernel⟩,
   ⟨{ live with mule := { drains := [drain []] } }, 1, drain [], by decide +kernel⟩,
   ⟨{ served 3 doneMsg with mule := { inbox := [doneMsg], drains := [drain [(0, {})]] } }, doneMsg, drain [(0, {})],
     0, {}, by decide +kernel⟩,
   ⟨{ live with mule := { drains := [drain [(0, { lost := true, sends := 3 })]] } }, 1, 0, drain [(0,
     { lost := true, sends := 3 })], { lost := true, sends := 3 }, by decide +kernel⟩,
   ⟨{ live with mule := { drains := [drain [(0, { lost := true, sends := 4 })]] } }, 1, 0, drain [(0,
     { lost := true, sends := 4 })], { lost := true, sends := 4 }, by decide +kernel⟩⟩

theorem witness_ArmsAreFlooded :
  (∃ (s : State), ∃ (m : SvcMsg), s.serves m 0 1 ∧ (msgBody m).length = 12 ∧ s.rooster.st = .gm ∧
    s.mule.flooded.isSome = true) ∧
  (∃ (s : State), ∃ (m : SvcMsg), s.serves m 0 1 ∧ (msgBody m).length = 12 ∧ s.rooster.st ≠ .gm) ∧
  (∃ (s : State), ∃ (w : ArmWait), s.alive = true ∧ s.fw.muleUp = true ∧ s.mule.requests = [w] ∧ w.msg = none ∧
    8 ≤ (s.rooster.tickNo - w.tick).toNat ∧ s.rooster.st ≠ .gm) ∧
  (∃ (s : State), ∃ (w : ArmWait), s.alive = true ∧ s.fw.muleUp = true ∧ s.rooster.st = .gm ∧ s.mule.flooded = none ∧
    s.mule.held = [w] ∧ s.rooster.tickNo.toNat + 2 ^ 40 < 2 ^ 64 ∧ s.earliestTick < s.rooster.tickNo.toNat + 2 ^ 40) ∧
  (∃ (s : State), ∃ (port : Nat), ∃ (m : SvcMsg), port < 49 ∧ s.serves m 0 2 ∧
    (BitVec.ofNat 64 (natAt (msgBody m) 0 8) : Word) ∉ s.mule.armSeen) ∧
  (∃ (s : State), ∃ (port : Nat), ∃ (m : SvcMsg), port < 49 ∧ s.serves m 0 2 ∧
    (BitVec.ofNat 64 (natAt (msgBody m) 0 8) : Word) ∈ s.mule.armSeen) ∧
  (∃ (s : State), ∃ (t0 : Word), ∃ (l : List GateReq), s.mule.staging = some (t0, l) ∧ s.alive = true ∧
    s.fw.muleUp = true ∧ s.rooster.hingeTime + (t0.toNat - 7 - s.rooster.tickNo.toNat) * s.tickNs ≤ s.time + 20000) :=
  ⟨⟨{ served 0 (fmsg 1 (leBytes 12 0)) with rooster := { st := .gm }, mule := { inbox := [fmsg 1 (leBytes 12 0)], flooded := some 9 } }, fmsg 1 (leBytes 12 0), by decide +kernel⟩,
   ⟨served 0 (fmsg 1 (leBytes 12 0)), fmsg 1 (leBytes 12 0), by decide +kernel⟩,
   ⟨{ live with rooster := { tickNo := 8 }, mule := { requests := [⟨1, 0, none, none, 0⟩] } }, ⟨1, 0, none, none, 0⟩,
     by decide +kernel⟩,
   ⟨{ live with rooster := { st := .gm }, mule := { held := [⟨1, 0, none, none, 0⟩] } }, ⟨1, 0, none, none, 0⟩,
     by decide +kernel⟩,
   ⟨served 0 (fmsg 2 (leBytes 24 5)), 3, fmsg 2 (leBytes 24 5), by decide +kernel⟩,
   ⟨{ served 0 (fmsg 2 (leBytes 24 5)) with mule := { inbox := [fmsg 2 (leBytes 24 5)], armSeen := [5] } }, 3,
     fmsg 2 (leBytes 24 5), by decide +kernel⟩,
   ⟨{ live with time := 242144, mule := { staging := some (8, []) } }, 8, [], by decide +kernel⟩⟩

theorem witness_MuleDecides :
  (∃ (s : State), ∃ (d : Digest), s.mule.digest = some d ∧ s.alive = true ∧ s.fw.muleUp = true ∧
    s.mule.reviewed = false) ∧
  (∃ (s : State), ∃ (d : Digest), s.mule.digest = some d ∧ s.alive = true ∧ s.fw.muleUp = true ∧ s.mule.reviewed = true) ∧
  (∃ (s : State), ∃ (d : Digest), ∃ (k : Nat), ∃ (l : List Nat), s.mule.digest = some d ∧ s.alive = true ∧
    s.fw.muleUp = true ∧ d.tick = s.rooster.tickNo ∧ d.tick.toNat % 64 = 0 ∧ s.rooster.slot = 0 ∧ s.epochIdle = true ∧
    s.holdOver s.mule.holdSpread = true ∧ s.mayRetry 0x21 = true ∧ k < 64 ∧ s.spreadWanted k = some l) ∧
  (∃ (s : State), ∃ (port lane : Nat), ∃ (t0 : Word), port < 49 ∧ lane < laneCount port ∧
    (s.lane port lane).heldUntil = some t0 ∧ s.alive = true ∧ s.fw.muleUp = true ∧ t0.toNat ≤ s.rooster.tickNo.toNat ∧
    s.holdOver s.mule.holdPort = true ∧ s.mayRetry 0x30 = true) ∧
  (∃ (s : State), ∃ (p k : Nat), ∃ (pl : Plan), p < 128 ∧ s.planOf p = some pl ∧
    pl.lowest (fun v => !v.limp) = some k ∧ s.alive = true ∧ s.fw.muleUp = true ∧ s.underPolicy p = true ∧
    64 ≤ s.mule.fitRun.getD p 0 ∧ (s.thread p).variant ≠ k ∧ s.mayVary = true) ∧
  (∃ (s : State), s.alive = true ∧ s.fw.muleUp = true ∧ s.mule.throttle ≠ 0 ∧ 64 ≤ s.mule.cool ∧
    s.mayRetry 0x32 = true) :=
  ⟨⟨{ live with mule := { digest := some digest, reviewed := false } }, digest, by decide +kernel⟩,
   ⟨{ live with mule := { digest := some digest } }, digest, by decide +kernel⟩,
   ⟨{ at3 up with mule := { digest := some digest }, epoch := { cur := { route := [(0, 1#128 <<< 48 ||| 1#128 <<< 67)] } } }, digest, 0, (List.range 49).map (fun p => if p = 3 then 15 else 0), by decide +kernel⟩,
   ⟨lane32 up { heldUntil := some 0 }, 3, 2, 0, by decide +kernel⟩,
   ⟨{ runs (.nop 0 h0) { variant := 1 } with mule := { fitRun := [(0, 64)] } }, 0, 0, plan (words (.nop 0 h0)),
     by decide +kernel⟩,
   ⟨{ live with mule := { throttle := 1, cool := 64 } }, by decide +kernel⟩⟩

set_option maxRecDepth 20000 in
theorem witness_TwinStatesChange :
  (∃ (s : State), ∃ (f : RxFrame), ∃ (offset : Int), s.alive = true ∧ (s.port 48).active = true ∧
    s.ahead offset = false ∧ s.rxFail 48 f = none ∧ f.hdr.typ.toNat = tyHeartbeat ∧
    natAt f.body 0 8 = s.rooster.tickNo.toNat ∧ natAt f.body 8 3 = s.pairLoc.toNat ∧ s.twin.st = .linkOnly ∧
    natAt f.body 11 1 % 8 ≠ 5) ∧
  (∃ (s : State), ∃ (port : Nat), ∃ (f : RxFrame), ∃ (offset : Int), port < 49 ∧ s.alive = true ∧
    (s.port port).active = true ∧ s.ahead offset = false ∧ s.rxFail port f = none ∧ f.hdr.typ.toNat = tyHeartbeat ∧
    ((port ≠ 48 ∨ natAt f.body 0 8 ≠ s.rooster.tickNo.toNat ∨ natAt f.body 8 3 ≠ s.pairLoc.toNat))) ∧
  (∃ (s : State), ∃ (offset : Int), s.alive = true ∧ s.ahead offset = false ∧ inWindow offset = true) ∧
  (∃ (s : State), s.alive = true ∧ s.power.ready = true ∧ s.rooster.slot = 0 ∧ s.twin.st = .unpaired ∧
    s.twin.heardSince = true ∧ s.twin.farState = some 3) ∧
  (∃ (s : State), s.alive = true ∧ s.power.ready = true ∧ s.rooster.slot = 0 ∧ s.twin.st = .unpaired ∧
    s.twin.heardSince = true ∧ s.twin.farState ≠ some 3 ∧ s.twin.farState ≠ some 5) ∧
  (∃ (s : State), s.alive = true ∧ s.power.ready = true ∧ s.rooster.slot = 0 ∧ s.twin.st = .unpaired ∧
    s.twin.heardSince = false ∧ 4 ≤ s.twin.readyHinges ∧ s.twin.heardNow = false) ∧
  (∃ (s : State), s.alive = true ∧ s.twin.st = .paired ∧ s.twin.pulseNow = true ∧ s.twin.hbNow = none ∧
    2 ≤ s.twin.hbMiss) ∧
  (∃ (s : State), s.alive = true ∧ s.rooster.slot = 0 ∧ 3 ≤ s.twin.silent ∧
    ((s.twin.st = .paired ∨ s.twin.st = .linkOnly))) ∧
  (∃ (s : State), s.alive = true ∧ s.rooster.slot = 0 ∧ s.twin.detachAt = some s.rooster.tickNo) ∧
  (∃ (s : State), s.alive = true ∧ s.rooster.slot = 0 ∧ s.twin.attachDue s.rooster.tickNo = true ∧
    s.twin.unheardSinceArm = false ∧ s.twin.attachNamed = some s.rooster.tickNo) ∧
  (∃ (s : State), s.alive = true ∧ s.rooster.slot = 0 ∧ s.twin.attachDue s.rooster.tickNo = true ∧
    s.twin.unheardSinceArm = true) :=
  ⟨⟨{ live.setPort 48 up with twin := { st := .linkOnly } },
    good (linkHeader tyHeartbeat 256) (leBytes 8 0 ++ leBytes 3 1 ++ [2]), 256, by decide +kernel⟩,
   ⟨at3 up, 3, good (linkHeader tyHeartbeat 256) [], 0, by decide +kernel⟩,
   ⟨live, -256, by decide +kernel⟩,
   ⟨{ live with twin := { heardSince := true, farState := some 3 } }, by decide +kernel⟩,
   ⟨{ live with twin := { heardSince := true } }, by decide +kernel⟩,
   ⟨{ live with twin := { readyHinges := 4 } }, by decide +kernel⟩,
   ⟨{ live with twin := { st := .paired, pulseNow := true, hbMiss := 2 } }, by decide +kernel⟩,
   ⟨{ live with twin := { st := .linkOnly, silent := 3 } }, by decide +kernel⟩,
   ⟨{ live with twin := { detachAt := some 0 } }, by decide +kernel⟩,
   ⟨{ live with twin := { st := .standby, attachAt := some 0, attachNamed := some 0 } }, by decide +kernel⟩,
   ⟨{ live with twin := { st := .standby, attachAt := some 0, unheardSinceArm := true } }, by decide +kernel⟩⟩

theorem witness_PortSettingsChange :
  (∃ (s : State), ∃ (port : Nat), ∃ (v : BitVec 32), port < 49 ∧ s.pathOpen .pf = true ∧
    s.portCfgOpen port v.toNat = true) ∧
  (∃ (s : State), ∃ (port : Nat), port < 49 ∧ s.pathOpen .pf = true) ∧
  (∃ (s : State), ∃ (port lane : Nat), port < 49 ∧ lane < laneCount port ∧ s.pathOpen .pf = true ∧
    (s.port port).lanProc = none ∧ coPackaged port = false) ∧
  (∃ (s : State), ∃ (port : Nat), ∃ (pr : LaneProc), port < 49 ∧ (s.port port).lanProc = some pr ∧ s.alive = true ∧
    s.rooster.slot = 0 ∧ (s.port port).active = true ∧ pr.current = none ∧ pr.waited < 64 ∧ pr.todo = []) ∧
  (∃ (s : State), ∃ (port l j : Nat), ∃ (rest : List Nat), ∃ (pr : LaneProc), port < 49 ∧
    (s.port port).lanProc = some pr ∧ s.alive = true ∧ s.rooster.slot = 0 ∧ (s.port port).active = true ∧
    pr.current = none ∧ pr.waited < 64 ∧ pr.todo = l :: rest ∧ s.laneSpare port l = true ∧ s.physOf port l = some j ∧
    (s.lane port j).st ≠ .standby) ∧
  (∃ (s : State), ∃ (port j : Nat), ∃ (pr : LaneProc), port < 49 ∧ (s.port port).lanProc = some pr ∧ s.alive = true ∧
    pr.undoing = false ∧ pr.current = some j ∧ s.laneFailed port j = true) :=
  ⟨⟨live, 48, 3, by decide +kernel⟩,
   ⟨live, 48, by decide +kernel⟩,
   ⟨live, 3, 7, by decide +kernel⟩,
   ⟨at3 { up with lanProc := some (proc [] none) }, 3, proc [] none, by decide +kernel⟩,
   ⟨lane32 { up with lanProc := some (proc [2] none) } { st := .active, capsDone := true, logical := 2 }, 3, 2, 2, [],
     proc [2] none, by decide +kernel⟩,
   ⟨lane32 { up with lanProc := some (proc [] (some 2)) } { fails := 1 }, 3, 2, proc [] (some 2), by decide +kernel⟩⟩

theorem witness_RegisterAccess :
  (∃ (s : State), ∃ (path : Path), ∃ (off : Nat), ∃ (r : Reg), s.pathOpen path = true ∧ off % 4 = 0 ∧
    s.regAt path off = some r ∧ r.wide = true) ∧
  (∃ (s : State), ∃ (path : Path), ∃ (off : Nat), ∃ (r : Reg), ∃ (l : BitVec 32), s.pathOpen path = true ∧
    off % 4 = 0 ∧ s.regAt path off = some r ∧ r.wide = true ∧ s.regAt path (off + 4) = none ∧
    (assoc? s.access.staged (path, off) = some l ∨ (assoc? s.access.staged (path, off) = none ∧ l = 0))) ∧
  (∃ (s : State), ∃ (path : Path), ∃ (off : Nat), ∃ (r : Reg), s.pathOpen path = true ∧ off % 8 = 0 ∧
    s.regAt path off = some r ∧ r.wide = true) ∧
  (∃ (s : State), ∃ (path : Path), ∃ (bytes : Nat), ((s.pathOpen path = false ∧ s.fw.fatal = false) ∨ (bytes ≠ 4 ∧
    bytes ≠ 8))) ∧
  (∃ (s : State), ∃ (path : Path), ∃ (off : Nat), ∃ (r : Reg), s.pathOpen path = true ∧ off % 4 = 0 ∧
    s.regAt path off = some r ∧ r.wide = false ∧ r.kind = .ga) ∧
  (∃ (s : State), ∃ (off : Nat), ∃ (r : Reg), s.readable .pf = true ∧ off % 4 = 0 ∧ off ≠ 0x4000 ∧
    s.regAt .pf off = some r ∧ r.wide = true) ∧
  (∃ (s : State), ∃ (off : Nat), ∃ (r : Reg), ∃ (v : BitVec 32), s.readable .pf = true ∧ off % 4 = 0 ∧
    s.regAt .pf off = some r ∧ r.wide = true ∧ s.regAt .pf (off + 4) = none ∧ off + 4 ≠ 0x4000 ∧
    (assoc? s.access.latched (.pf, off) = some v ∨ (assoc? s.access.latched (.pf, off) = none ∧ v = 0))) ∧
  (∃ (s : State), ∃ (off : Nat), ∃ (r : Reg), s.readable .pf = true ∧ off % 8 = 0 ∧ off ≠ 0x4000 ∧
    s.regAt .pf off = some r ∧ r.wide = true) ∧
  (∃ (path : Path), ∃ (bytes : Nat), path ≠ .smbus ∧ bytes ≠ 4 ∧ bytes ≠ 8) ∧
  (∃ (s : State), s.readable .pf = false) ∧
  (∃ (s : State), s.readable .pf = true) :=
  ⟨⟨live, .pf, 0x5100, ⟨true, 0, .gateArg 1 0⟩, by decide +kernel⟩,
   ⟨{ live with access := { staged := [((.pf, 0x5100), 7)] } }, .pf, 0x5100, ⟨true, 0, .gateArg 1 0⟩, 7,
     by decide +kernel⟩,
   ⟨live, .pf, 0x5100, ⟨true, 0, .gateArg 1 0⟩, by decide +kernel⟩,
   ⟨live, .smbus, 4, by decide +kernel⟩,
   ⟨live, .pf, 0x1000, ⟨false, 198656, .ga⟩, by decide +kernel⟩,
   ⟨live, 0x1010, ⟨true, 0, .ro⟩, by decide +kernel⟩,
   ⟨{ live with access := { latched := [((.pf, 0x1010), 7)] } }, 0x1010, ⟨true, 0, .ro⟩, 7, by decide +kernel⟩,
   ⟨live, 0x1010, ⟨true, 0, .ro⟩, by decide +kernel⟩,
   ⟨.pf, 2, by decide +kernel⟩,
   ⟨State.reset, by decide +kernel⟩,
   ⟨live, by decide +kernel⟩⟩

theorem witness_StepRunsTheFrontCommand :
  (∃ (c : Instr), ∃ (rest : List Instr), ∃ (s : State), s.pending = c :: rest) ∧
  (∃ (s : State), s.pending = []) :=
  ⟨⟨.slotStart, [], { live with pending := [.slotStart] }, by decide +kernel⟩,
   ⟨live, by decide +kernel⟩⟩

theorem witness_WellFormedCommandsComplete :
  (∃ (c : Instr), c.wf = true) ∧
  (∃ (c : Instr), c.wf = false) :=
  ⟨⟨.portEnable .pf 48 0, by decide +kernel⟩,
   ⟨.portEnable .pf 49 0, by decide +kernel⟩⟩

theorem witness_GuandDecodesItsWords :
  (∃ (i : Instr), ∃ (p : Nat), ∃ (w x : Word), ∃ (e : Option Word), guandOf i = some p ∧ guandEncode i = some (w, e) ∧
    ((∀ b, e = some b → x = b)) ∧ ((∀ q h pd cond ra imm rb imm26,
    i = .cmp q h pd cond ra imm rb imm26 → (imm = true → rb = 0) ∧ (imm = false → imm26 = 0)))) ∧
  (∃ (p : Nat), ∃ (w x : Word), ∃ (i : Instr), guandDecode p w x = some i ∧ guandLen i = 2) :=
  ⟨⟨.nop 0 h0, 0, 0x0100000000000000, 0, none,
    by and_intros <;> first | exact (fun _ _ _ _ _ _ _ _ h => nomatch h) | exact (fun _ h => nomatch h) | decide +kernel⟩,
   ⟨7, 0x4100243001900A00, 0x088647FFC5000000, .send 7 ⟨9, 0, false⟩ 48 100 2 true 0 1 2 3 4 4095 true false 5,
     by decide +kernel⟩⟩

theorem witness_TallyOrderMakesNoDifference :
  (∃ (fm : Form), ∃ (xs ys : List (LaneVal × Bool)), xs.Perm ys ∧ (∀ c ∈ xs, c.1.v.natAbs < 2 ^ fm.valueBits)) ∧
  (∃ (xs ys : List Cnt), xs.Perm ys) :=
  ⟨⟨.t16, [({ v := 1 }, true), ({ v := -2 }, true)], [({ v := -2 }, true), ({ v := 1 }, true)], by decide +kernel⟩,
   ⟨[.count 1, .overcount], [.overcount, .count 1], by decide +kernel⟩⟩

theorem witness_StepKeepsTheInvariant :
  ∃ (s t : State), s.memOk ∧ (∀ i, (s.ctr i).toNat ≤ ctrMax i) ∧ step s = .next t :=
  ⟨live, live.idle, by and_intros <;> first | exact (fun _ => Nat.zero_le _) | decide +kernel | rfl⟩

theorem witness_NothingIsTakenBack :
  ∃ (s t : State), step s = .next t :=
  ⟨live, live.idle, by first | decide +kernel | rfl⟩

theorem witness_CountersClearOnlyWhenSaid :
  (∃ (c : Instr), ∃ (s t : State), ∃ i, c ≠ .coldRstNLow ∧ c ≠ .pwrgoodLow ∧ c ≠ .refclkLoss ∧ c ≠ .railUndervoltage ∧
    exec c s = .next t ∧ i < ctxCtr 0 0) ∧
  (∃ (c : Instr), ∃ (s t : State), ∃ x k, c ≠ .coldRstNLow ∧ c ≠ .pwrgoodLow ∧ c ≠ .refclkLoss ∧
    c ≠ .railUndervoltage ∧ exec c s = .next t ∧ x < 1024 ∧ k < 2 ^ 16 ∧
    (t.ctr (ctxCtr x k)).toNat < (s.ctr (ctxCtr x k)).toNat) ∧
  (∃ (c : Instr), ∃ (s t : State), ∃ q, c ≠ .coldRstNLow ∧ c ≠ .pwrgoodLow ∧ c ≠ .refclkLoss ∧ c ≠ .railUndervoltage ∧
    exec c s = .next t ∧ q < 4096 ∧ (t.ctr (queueCtr q)).toNat < (s.ctr (queueCtr q)).toNat) ∧
  (∃ (c : Instr), ∃ (s t : State), (c = .coldRstNLow ∨ c = .pwrgoodLow ∨ c = .refclkLoss ∨ c = .railUndervoltage) ∧
    exec c s = .next t) ∧
  (∃ (s t : State), ∃ (slot p x k : Nat), s.serveReq slot (.ctxCreate p x) = .ok t ∧ k < blockCounters 6) ∧
  (∃ (s t : State), ∃ (path : Path), ∃ (c k qid : Nat), ∃ (cfg : Word), exec (.queueEnable path c k cfg) s = .next t ∧
    s.queue? qid = none ∧ t.queue? qid ≠ none) :=
  ⟨⟨.seqSnapshotRead (.vf 1), live, live, 0, by and_intros <;> first | decide +kernel | rfl⟩,
   ⟨.gateCallComplete, ctxServed, (match exec .gateCallComplete ctxServed with | .next t => t | _ => live), 5, 0,
     by and_intros <;> first | decide +kernel | rfl⟩,
   ⟨.queueEnable .pf 0 2 131, qidCounted,
     (match exec (.queueEnable .pf 0 2 131) qidCounted with | .next t => t | _ => live), 2,
     by and_intros <;> first | decide +kernel | rfl⟩,
   ⟨.coldRstNLow, live, live.startCold true, by and_intros <;> first | exact Or.inl rfl | decide +kernel | rfl⟩,
   ⟨live, (match live.serveReq 1 (.ctxCreate 0 5) with | .ok t => t | _ => live), 1, 0, 5, 9,
     by and_intros <;> first | decide +kernel | rfl⟩,
   ⟨queued 1 q1, (match exec (.queueEnable .pf 0 2 131) (queued 1 q1) with | .next t => t | _ => live), .pf, 0, 2, 2,
     131, by and_intros <;> first | decide +kernel | rfl⟩⟩

end Sys2Proof.Tests
end

section
/-! SUPPORT. What the commands may do to the ledger of the machine: the depot's bytes, the counters, what has left the
package, the number of the next free value, the fused MIN_SVN and the queue of commands. Every operation is shown once to do
nothing to it but the moves of `Grown`; what the moves keep, every step keeps. -/

namespace Sys2Proof.Machine

-- One proof at a time, as in the tests: the text has many, and each elaborated aside takes a thread and its stack.
set_option Elab.async false

/-! ### The ledger and its moves -/

/-- The part of the state that outlives a command only in the ways of `Grown`. -/
structure Ledger where
  mem : List Host.Cell
  ctrs : Tbl Word
  out : List Out
  free : Nat
  minSvn : Nat
  pending : List Instr

/-- The ledger of a state. -/
def State.ledger (s : State) : Ledger :=
  { mem := s.depot.mem, ctrs := s.counters, out := s.out, free := s.free, minSvn := s.fw.minSvn, pending := s.pending }

/-- A ledger that comes from `L` by the moves that commands make: counting (R11), clearing counters of a context or a queue
(R441), storing and zeroing bytes of the depot, sending, giving free values, and fusing a higher MIN_SVN (R375). -/
inductive Grown (L : Ledger) : Ledger → Prop
  | same : Grown L L
  | counted {K : Ledger} (i n : Nat) (h : Grown L K) :
      Grown L { K with ctrs := K.ctrs.set i (satAdd i (K.ctrs.getD i 0) n) }
  | cleared {K : Ledger} (b n : Nat) (hb : ctxCtr 0 0 ≤ b) (h : Grown L K) :
      Grown L { K with ctrs := K.ctrs.filter (fun e => !(b ≤ e.1 && e.1 < b + n)) }
  | written {K : Ledger} (a : Nat) (d : List Byte) (h : Grown L K) : Grown L { K with mem := memWrite K.mem a d }
  | zeroed {K : Ledger} (a n : Nat) (h : Grown L K) : Grown L { K with mem := memZero K.mem a n }
  | sent {K : Ledger} (o : List Out) (h : Grown L K) : Grown L { K with out := K.out ++ o }
  | gave {K : Ledger} (f : Nat) (hf : K.free ≤ f) (h : Grown L K) : Grown L { K with free := f }
  | fused {K : Ledger} (v : Nat) (hv : K.minSvn ≤ v) (h : Grown L K) : Grown L { K with minSvn := v }

/-- The answer of a command: the ledger of a next state has grown. -/
def Grows (L : Ledger) : Res → Prop
  | .next t => Grown L t.ledger
  | _ => True

/-- The answer of a gate call: the ledger of a state that it allows has grown. -/
def Allows (L : Ledger) : Verdict → Prop
  | .ok t => Grown L t.ledger
  | .error _ => True

/-- A delivery: the ledger of the state after it has grown. -/
def Delivers (L : Ledger) (o : Option State) : Prop := ∀ t, o = some t → Grown L t.ledger

variable {L : Ledger} {s s₁ s₂ : State} {α β : Type}

/-! ### Choices, folds and results -/

theorem Grown.ite {c : Prop} [Decidable c] (h₁ : Grown L s₁.ledger) (h₂ : Grown L s₂.ledger) :
    Grown L (if c then s₁ else s₂).ledger := by split <;> assumption

theorem Grown.ite_fst {c : Prop} [Decidable c] {p q : State × β} (hp : Grown L p.1.ledger) (hq : Grown L q.1.ledger) :
    Grown L (if c then p else q).1.ledger := by split <;> assumption

theorem Grown.ite_snd {c : Prop} [Decidable c] {p q : β × State} (hp : Grown L p.2.ledger) (hq : Grown L q.2.ledger) :
    Grown L (if c then p else q).2.ledger := by split <;> assumption

theorem Grown.foldl {f : State → α → State} {xs : List α} (hg : Grown L s.ledger)
    (step : ∀ t x, Grown L t.ledger → Grown L (f t x).ledger) : Grown L (xs.foldl f s).ledger :=
  List.foldlRecOn (motive := fun t => Grown L t.ledger) xs f hg (fun t ht x _ => step t x ht)

theorem Grown.foldl_snd {f : β × State → α → β × State} {xs : List α} {r : β × State} (hg : Grown L r.2.ledger)
    (step : ∀ r x, Grown L r.2.ledger → Grown L (f r x).2.ledger) : Grown L (xs.foldl f r).2.ledger :=
  List.foldlRecOn (motive := fun r => Grown L r.2.ledger) xs f hg (fun r hr x _ => step r x hr)

theorem Grown.foldl_fst {f : State × β → α → State × β} {xs : List α} {r : State × β} (hg : Grown L r.1.ledger)
    (step : ∀ r x, Grown L r.1.ledger → Grown L (f r x).1.ledger) : Grown L (xs.foldl f r).1.ledger :=
  List.foldlRecOn (motive := fun r => Grown L r.1.ledger) xs f hg (fun r hr x _ => step r x hr)

/-- The state of a pair that an operation has given. -/
theorem Grown.fst {p : State × β} {x : β} (e : p = (s, x)) (hg : Grown L p.1.ledger) : Grown L s.ledger := by
  subst e; exact hg
theorem Grown.snd {p : β × State} {x : β} (e : p = (x, s)) (hg : Grown L p.2.ledger) : Grown L s.ledger := by
  subst e; exact hg
theorem Grown.got {o : Option State} (e : o = some s) (hg : Delivers L o) : Grown L s.ledger := hg s e
theorem Grown.served {v : Verdict} (e : v = .ok s) (hg : Allows L v) : Grown L s.ledger := by subst e; exact hg

theorem Grows.next (hg : Grown L s.ledger) : Grows L (.next s) := hg
theorem Grows.fault {f : Fault} : Grows L (.fault f) := trivial
theorem Grows.ite {c : Prop} [Decidable c] {r₁ r₂ : Res} (h₁ : Grows L r₁) (h₂ : Grows L r₂) :
    Grows L (if c then r₁ else r₂) := by split <;> assumption
theorem Grows.withPort {p r} (hr : Grows L r) : Grows L (withPort p r) := .ite hr .fault
theorem Grows.withLane {p j r} (hr : Grows L r) : Grows L (withLane p j r) := .ite (.ite hr .fault) .fault
theorem Grows.withPart {p r} (hr : Grows L r) : Grows L (withPart p r) := .ite hr .fault
theorem Grows.withCtx {c r} (hr : Grows L r) : Grows L (withCtx c r) := .ite hr .fault
theorem Grows.withQueue {q r} (hr : Grows L r) : Grows L (withQueue q r) := .ite hr .fault
theorem Grows.withFunc {n r} (hr : Grows L r) : Grows L (withFunc n r) := .ite hr .fault
theorem Grows.withUnit {b r} (hr : Grows L r) : Grows L (withUnit b r) := .ite hr .fault

theorem Allows.ok (hg : Grown L s.ledger) : Allows L (.ok s) := hg
theorem Allows.error {e : Nat × Nat} : Allows L (.error e) := trivial
theorem Allows.ite {c : Prop} [Decidable c] {v₁ v₂ : Verdict} (h₁ : Allows L v₁) (h₂ : Allows L v₂) :
    Allows L (if c then v₁ else v₂) := by split <;> assumption
theorem Allows.need {b status v} (hv : Allows L v) : Allows L (need b status v) := .ite hv .error

theorem Delivers.some (hg : Grown L s.ledger) : Delivers L (some s) := by rintro t ⟨⟩; exact hg
theorem Delivers.ite {c : Prop} [Decidable c] {o₁ o₂ : Option State} (h₁ : Delivers L o₁) (h₂ : Delivers L o₂) :
    Delivers L (if c then o₁ else o₂) := by split <;> assumption
theorem Delivers.none : Delivers L none := by rintro t ⟨⟩

/-! ### The moves on the machine -/

theorem Grown.emit {o} (hg : Grown L s.ledger) : Grown L (s.emit o).ledger := .sent [o] hg
theorem Grown.count {i n} (hg : Grown L s.ledger) : Grown L (s.count i n).ledger := .ite hg (.counted i n hg)
theorem Grown.bump {i} (hg : Grown L s.ledger) : Grown L (s.bump i).ledger := .count hg
theorem Grown.fresh (hg : Grown L s.ledger) : Grown L s.fresh.2.ledger := .gave _ (Nat.le_succ _) hg
theorem Grown.clearCtrs {b n} (hb : ctxCtr 0 0 ≤ b) (hg : Grown L s.ledger) : Grown L (s.clearCtrs b n).ledger :=
  .cleared b n hb hg

/-- An update of what is not in the ledger. -/
theorem Grown.upd {ti wi po ro pt la ac we ea de ep en th pa cx qs qu ms dm tx rx ec fn ga mu tw ax} {d : Depot} {f : Fw}
    (hg : Grown L s.ledger) (hd : d.mem = s.depot.mem := by simp only)
    (hf : f.minSvn = s.fw.minSvn := by simp only) :
    Grown L (State.ledger
      { s with time := ti, wire := wi, power := po, rooster := ro, ports := pt, lanes := la, accts := ac, west := we
               east := ea, descs := de, epoch := ep, engines := en, threads := th, depot := d, parts := pa, ctxs := cx
               qslots := qs, queues := qu, msgs := ms, deadMsgs := dm, txs := tx, rxs := rx, echoes := ec, funcs := fn
               gate := ga, fw := f, mule := mu, twin := tw, access := ax }) := by
  show Grown L ⟨d.mem, s.counters, s.out, s.free, f.minSvn, s.pending⟩
  rw [hd, hf]; exact hg

/-- Bytes stored in the depot. -/
theorem Grown.store {ba so p3 p4 dr} {f : Fw} {a b} (hg : Grown L s.ledger) (hf : f.minSvn = s.fw.minSvn := by simp only) :
    Grown L (State.ledger { s with
      depot := { mem := memWrite s.depot.mem a b, bad := ba, soft := so, p3 := p3, p4 := p4, draining := dr }, fw := f }) := by
  show Grown L ⟨memWrite s.depot.mem a b, s.counters, s.out, s.free, f.minSvn, s.pending⟩
  rw [hf]; exact .written a b hg

/-! ### Operations that every chapter shares -/

theorem Grown.setDie {d v} (hg : Grown L s.ledger) : Grown L (s.setDie d v).ledger := .ite hg hg

theorem Grown.fire {fn entry} (hg : Grown L s.ledger) : Grown L (s.fire fn entry).ledger := .ite (.emit hg) hg

theorem Grown.mgmtCause {bit} (hg : Grown L s.ledger) : Grown L (s.mgmtCause bit).ledger := .ite hg (.fire hg)

theorem Grown.funcCause {p bit} (hg : Grown L s.ledger) : Grown L (s.funcCause p bit).ledger := .ite hg (.fire hg)

theorem Grown.cqTest {qid} (hg : Grown L s.ledger) : Grown L (s.cqTest qid).ledger := by
  dsimp only [State.cqTest]
  split
  · exact hg
  · exact .ite (.fire hg) hg

theorem Grown.writeRecord {qid rcd reserved eligible event} (hg : Grown L s.ledger) :
    Grown L (s.writeRecord qid rcd reserved eligible event).ledger := by
  dsimp only [State.writeRecord]
  split
  · exact hg
  · exact .cqTest (.emit (.emit hg))

theorem Grown.cqOverflow {qid} (hg : Grown L s.ledger) : Grown L (s.cqOverflow qid).ledger := by
  dsimp only [State.cqOverflow]
  split
  · exact hg
  · split
    · exact hg
    · exact .funcCause hg

theorem Grown.eventDrop {c} (hg : Grown L s.ledger) : Grown L (s.eventDrop c).ledger := .funcCause (.bump hg)

theorem Grown.postEvent {c event w4 w8} (hg : Grown L s.ledger) : Grown L (s.postEvent c event w4 w8).ledger := by
  dsimp only [State.postEvent]
  split
  · exact hg
  · split
    · exact .eventDrop hg
    · split
      · exact .eventDrop hg
      · exact .ite (.cqOverflow (.eventDrop hg)) (.writeRecord hg)

theorem Grown.ctxFault {c code} (hg : Grown L s.ledger) : Grown L (s.ctxFault c code).ledger := by
  dsimp only [State.ctxFault]
  split
  · exact hg
  · exact .ite (.postEvent (.funcCause hg)) (.bump (.ite hg hg))

theorem Grown.faultAll {p code} (hg : Grown L s.ledger) : Grown L (s.faultAll p code).ledger :=
  .foldl hg (fun _ _ ht => .ctxFault ht)

/-! ### Counters -/

theorem Grown.bumpDev {k} (hg : Grown L s.ledger) : Grown L (s.bumpDev k).ledger := .bump hg

theorem Grown.bumpDie {d k} (hg : Grown L s.ledger) : Grown L (s.bumpDie d k).ledger := .bump hg

theorem Grown.bumpEng {e k} (hg : Grown L s.ledger) : Grown L (s.bumpEng e k).ledger := .bump hg

theorem Grown.bumpPort {p k} (hg : Grown L s.ledger) : Grown L (s.bumpPort p k).ledger := .bump hg

theorem Grown.bumpLane {p j k} (hg : Grown L s.ledger) : Grown L (s.bumpLane p j k).ledger := .bump hg

theorem Grown.bumpPart {p k} (hg : Grown L s.ledger) : Grown L (s.bumpPart p k).ledger := .bump hg

theorem Grown.bumpCtx {c k} (hg : Grown L s.ledger) : Grown L (s.bumpCtx c k).ledger := .bump hg

theorem Grown.bumpC {mule port ctx k} (hg : Grown L s.ledger) : Grown L (s.bumpC mule port ctx k).ledger :=
  .ite (.ite (.bumpPort hg) hg) (.bumpCtx hg)

/-! ### Hen and the accounts -/

theorem Grown.henTake {d b fallback} (hg : Grown L s.ledger) : Grown L (s.henTake d b fallback).ledger := by
  dsimp only [State.henTake]
  split
  · exact hg
  · exact .ite (.bumpDie (.setDie hg)) (.setDie hg)
  · exact .bumpDie (.setDie hg)

theorem Grown.henFree {d b} (hg : Grown L s.ledger) : Grown L (s.henFree d b).ledger := by
  dsimp only [State.henFree]
  split
  · exact hg
  · exact .setDie hg
  · exact .setDie hg

theorem Grown.charge {c units} (hg : Grown L s.ledger) : Grown L (s.charge c units).ledger := by
  dsimp only [State.charge]
  split <;> exact hg

theorem Grown.uncharge {c units} (hg : Grown L s.ledger) : Grown L (s.uncharge c units).ledger := by
  dsimp only [State.uncharge]
  split
  · exact .ite hg hg
  · exact hg
  · exact hg

theorem Grown.noBuffer {d} (hg : Grown L s.ledger) : Grown L (s.noBuffer d).ledger := .bumpDie (.ite (.setDie hg) hg)

theorem Grown.henStore {d b fallback h payload crowd refs c} (hg : Grown L s.ledger) :
    Grown L (s.henStore d b fallback h payload crowd refs c).2.ledger := by
  dsimp only [State.henStore]
  split
  · exact .noBuffer hg
  · exact .upd (.charge (.henTake hg))

theorem Grown.release {n} (hg : Grown L s.ledger) : Grown L (s.release n).ledger := by
  dsimp only [State.release]
  split
  · exact .mgmtCause (.bumpDie hg)
  · exact .ite (.setDie (.uncharge (.henFree hg))) hg

theorem Grown.releaseAll {l} (hg : Grown L s.ledger) : Grown L (s.releaseAll l).ledger :=
  .foldl hg (fun _ _ ht => .release ht)

theorem Grown.enterLevel {d l} (hg : Grown L s.ledger) : Grown L (s.enterLevel d l).ledger := by
  dsimp only [State.enterLevel]
  split
  · exact .bumpDie (.setDie hg)
  · exact .bumpDie (.setDie hg)
  · exact .mgmtCause (.bumpDie (.setDie hg))

theorem Grown.levelRise {d} (hg : Grown L s.ledger) : Grown L (s.levelRise d).ledger :=
  .foldl hg (fun _ _ ht => .ite (.enterLevel ht) ht)

theorem Grown.levelFall {d} (hg : Grown L s.ledger) : Grown L (s.levelFall d).ledger := .ite (.setDie hg) hg

theorem Grown.levelHeld {d} (hg : Grown L s.ledger) : Grown L (s.levelHeld d).ledger := .setDie hg

theorem Grown.judgeLevel {d} (hg : Grown L s.ledger) : Grown L (s.judgeLevel d).ledger :=
  .ite (.levelFall (.levelRise (.levelHeld hg))) (.levelRise (.levelHeld hg))

theorem Grown.rejudgeLevel {d} (hg : Grown L s.ledger) : Grown L (s.rejudgeLevel d).ledger :=
  .ite (.levelFall (.levelFall (.levelFall (.levelRise (.levelHeld hg))))) (.levelRise (.levelHeld hg))

/-! ### The depot -/

theorem Grown.eccCorrect {a n} (hg : Grown L s.ledger) : Grown L (s.eccCorrect a n).ledger := .count hg

theorem Grown.depotRead {a n} (hg : Grown L s.ledger) : Grown L (s.depotRead a n).2.2.ledger :=
  .count (.eccCorrect hg)

/-- A piece of a store writes its bytes, or only counts. -/
theorem Grown.depotPiece {a bytes} (hg : Grown L s.ledger) : Grown L (s.depotPiece a bytes).2.ledger := by
  simp only [State.depotPiece]
  split
  · exact .store (.count hg)
  · exact .count (.count hg)

theorem Grown.depotStore {k a bytes} (hg : Grown L s.ledger) : Grown L (s.depotStore k a bytes).2.ledger :=
  .foldl_snd hg (fun _ _ hr => .depotPiece hr)

theorem Grown.depotStream {a bytes} (hg : Grown L s.ledger) : Grown L (s.depotStream a bytes).2.ledger :=
  .depotStore hg

@[simp] theorem Depot.setPool_mem (m : Depot) (k : Nat) (p : DepotPool) : (m.setPool k p).mem = m.mem := by
  unfold Depot.setPool; split <;> rfl

theorem Grown.depotTake {k tag} (hg : Grown L s.ledger) : Grown L (s.depotTake k tag).2.ledger := by
  simp only [State.depotTake]
  split
  · exact .bumpDev hg
  · exact .bumpDev (.mgmtCause (.upd (.depotRead hg) (Depot.setPool_mem _ _ _)))
  · exact .upd (.depotRead hg) (Depot.setPool_mem _ _ _)

theorem Grown.depotFree {k i} (hg : Grown L s.ledger) : Grown L (s.depotFree k i).ledger :=
  .upd hg (Depot.setPool_mem _ _ _)

/-! ### Frames through the switch -/

theorem Grown.lineCounts {p f} (hg : Grown L s.ledger) : Grown L (s.lineCounts p f).ledger :=
  .foldl (.foldl hg (fun _ _ ht => .bumpLane ht)) (fun _ _ ht => .bumpLane ht)

theorem Grown.enterHunt {p} (hg : Grown L s.ledger) : Grown L (s.enterHunt p).ledger := .ite hg (.bumpPort hg)

theorem Grown.rxDiscard {p f r} (hg : Grown L s.ledger) : Grown L (s.rxDiscard p f r).ledger := by
  dsimp only [State.rxDiscard]
  split
  · exact .bumpPort hg
  · exact .ite (.enterHunt (.foldl hg (fun _ _ ht => .bumpLane ht))) (.foldl hg (fun _ _ ht => .bumpLane ht))
  · exact .ite hg (.enterHunt (.bumpPort hg))
  · exact .ite hg (.bumpPort hg)
  · exact .bumpPort (.ite hg hg)
  · exact .bumpPort hg
  · exact .bumpPort hg
  · exact .bumpPort hg

theorem Grown.linkRx {p typ f} (hg : Grown L s.ledger) : Grown L (s.linkRx p typ f).1.ledger := by
  dsimp only [State.linkRx]
  refine .ite_fst hg ?_
  split
  · exact .rxDiscard (.lineCounts hg)
  · exact .upd (.lineCounts hg)

theorem Grown.bumpIng {ing k} (hg : Grown L s.ledger) : Grown L (s.bumpIng ing k).ledger := .ite (.bumpPort hg) hg

/-- A routed frame changes no more than a counter (R190-R202). -/
theorem route_fst {P : State → Prop} {ing h} (hs : P s) (hb : ∀ k, P (s.bumpIng ing k))
    (hd : P (s.bumpDev dkTwinDrop)) : P (s.route ing h).1 := by
  have kinds {p q r : State × Option Dest} (k : Nat) (hp : P p.1) (hq : P q.1) (hr : P r.1) :
      P (match k with | 3 => p | 2 => q | _ => r).1 := by split <;> assumption
  unfold State.route
  split
  · split
    · exact hs
    · exact hb _
  split
  · split
    · split
      · exact hs
      · exact hb _
    · exact hd
  split
  · exact hb _
  refine kinds _ (hb _) ?_ ?_
  · split
    · exact hb _
    · extract_lets d
      split
      · exact hb _
      · exact hs
  · split
    · extract_lets sp
      split
      · exact hs
      · exact hb _
    · split
      · exact hs
      · exact hb _
    · split
      · exact hb _
      · extract_lets ws el up
        split
        · exact hs
        · split
          · exact hb _
          · exact hb _

theorem Grown.route {ing h} (hg : Grown L s.ledger) : Grown L (s.route ing h).1.ledger :=
  route_fst (P := fun t => Grown L t.ledger) hg (fun _ => .bumpIng hg) (.bumpDev hg)

theorem Grown.releaseEntry {e} (hg : Grown L s.ledger) : Grown L (s.releaseEntry e).ledger := by
  dsimp only [State.releaseEntry]
  split
  · exact .release hg
  · exact hg

theorem Grown.dropEntry {port e} (hg : Grown L s.ledger) : Grown L (s.dropEntry port e).ledger :=
  .releaseEntry (.ite hg hg)

theorem Grown.crossBridge {d n} (hg : Grown L s.ledger) : Grown L (s.crossBridge d n).ledger := .setDie hg

theorem Grown.startEntry {port e stomped} (hg : Grown L s.ledger) : Grown L (s.startEntry port e stomped).ledger := by
  unfold State.startEntry
  extract_lets q crowd marked h hdr u q1 cb cc q2 d s0 s1 s2
  have h0 : Grown L s0.ledger := .ite (.setDie (.crossBridge hg)) hg
  have h1 : Grown L s1.ledger := .emit (.upd h0)
  have h2 : Grown L s2.ledger := .ite (.bumpPort h1) h1
  exact .ite (.bumpPort h2) h2

theorem Grown.downDiscard {port e} (hg : Grown L s.ledger) : Grown L (s.downDiscard port e).ledger :=
  .bumpPort (.dropEntry hg)

theorem Grown.enqueue {port e} (hg : Grown L s.ledger) : Grown L (s.enqueue port e).ledger := by
  have hd {k : Nat} : Grown L ((s.releaseEntry e).bumpPort port k).ledger := .bumpPort (.releaseEntry hg)
  dsimp only [State.enqueue]
  refine .ite hd (.ite hd ?_)
  split
  · exact .ite hd (.ite hd (.upd hg))
  · exact .ite hd (.upd hg)
  · exact .ite hd (.upd hg)

theorem Grown.quarantineQueues {port} (hg : Grown L s.ledger) : Grown L (s.quarantineQueues port).ledger :=
  .ite hg (.foldl hg (fun _ _ ht => .bumpPort (.dropEntry ht)))

theorem Grown.startNow {port e stomped} (hg : Grown L s.ledger) : Grown L (s.startNow port e stomped).ledger :=
  .startEntry (.ite hg hg)

theorem Grown.place {ing hold e port} (hg : Grown L s.ledger) : Grown L (s.place ing hold e port).ledger :=
  .ite (.startNow hg) (.ite (.bumpPort (.releaseEntry hg)) (.enqueue hg))

theorem Grown.purgeLate {port} (hg : Grown L s.ledger) : Grown L (s.purgeLate port).ledger :=
  .foldl hg (fun _ _ ht => .bumpPort (.dropEntry ht))

theorem Grown.purgeStale {port} (hg : Grown L s.ledger) : Grown L (s.purgeStale port).ledger :=
  .foldl hg (fun _ _ ht => .bumpPort (.dropEntry ht))

theorem Grown.egressLaunch {port e bridgeBad} (hg : Grown L s.ledger) :
    Grown L (s.egressLaunch port e bridgeBad).ledger :=
  .ite (.bumpDie (.dropEntry hg)) (.startEntry hg)

theorem Grown.egressWaits {port} (hg : Grown L s.ledger) : Grown L (s.egressWaits port).ledger := .ite (.setDie hg) hg

theorem Grown.egressStart {port bridgeBad} (hg : Grown L s.ledger) :
    Grown L (s.egressStart port bridgeBad).ledger := by
  dsimp only [State.egressStart]
  refine .ite hg (.ite (.emit (.upd (.egressWaits (.purgeLate (.purgeStale hg))))) ?_)
  split
  · exact .egressWaits (.purgeLate (.purgeStale hg))
  · exact .egressLaunch (.egressWaits (.purgeLate (.purgeStale hg)))

theorem Grown.egressEndFrame {port} (hg : Grown L s.ledger) : Grown L (s.egressEndFrame port).ledger := by
  dsimp only [State.egressEndFrame]
  split
  · exact hg
  · exact .dropEntry hg

theorem Grown.portDownQueues {port} (hg : Grown L s.ledger) : Grown L (s.portDownQueues port).ledger := by
  dsimp only [State.portDownQueues]
  refine .foldl (.upd ?_) (fun _ _ ht => .downDiscard ht)
  split
  · exact .dropEntry hg
  · exact hg

theorem Grown.dropPartS {p} (hg : Grown L s.ledger) : Grown L (s.dropPartS p).ledger :=
  .foldl hg (fun _ _ ht => .ite ht (.foldl ht (fun _ _ hu => .bumpPort (.dropEntry hu))))

/-! ### Endpoints: messages, streams and echoes -/

theorem Grown.placeCopy {ing hold bad e port} (hg : Grown L s.ledger) :
    Grown L (s.placeCopy ing hold bad e port).ledger :=
  .ite (.ite (.startNow (.bumpDie hg)) (.releaseEntry (.bumpDie hg))) (.place hg)

theorem Grown.storeCopies {ing h payload crowd d b fb bad own} (hg : Grown L s.ledger) :
    Grown L (s.storeCopies ing h payload crowd d b fb bad own).2.ledger := by
  dsimp only [State.storeCopies]
  split
  · rename_i e
    have hs1 := Grown.snd e (.henStore hg)
    exact hs1
  · rename_i e
    have hs1 := Grown.snd e (.henStore hg)
    exact .foldl (.ite hs1 hs1) (fun _ _ ht => .ite (.enqueue ht) (.placeCopy ht))

theorem Grown.addWait {w} (hg : Grown L s.ledger) : Grown L (s.addWait w).ledger :=
  .ite (.setDie hg) (.charge (.setDie hg))

theorem Grown.dropWaits {d p} (hg : Grown L s.ledger) : Grown L (s.dropWaits d p).ledger :=
  .foldl (.setDie hg) (fun _ _ ht => .ite ht (.uncharge ht))

theorem Grown.sendLocal {ing h payload} (hg : Grown L s.ledger) : Grown L (s.sendLocal ing h payload).ledger := by
  dsimp only [State.sendLocal]
  split
  · rename_i e
    have hs1 := Grown.fst e (.route hg)
    exact hs1
  · rename_i e
    have hs1 := Grown.fst e (.route hg)
    refine .ite (.addWait hs1) (.ite (.addWait hs1) ?_)
    split
    · exact .noBuffer hs1
    · exact .addWait hs1
    · exact .storeCopies hs1

theorem Grown.echoAccount {h crowd mule} (hg : Grown L s.ledger) : Grown L (s.echoAccount h crowd mule).ledger := by
  dsimp only [State.echoAccount]
  split
  · exact .ite (.ite (.bumpDev hg) hg) hg
  · exact hg

theorem Grown.sendEcho {mule dst part ctx msg marked total kind} (hg : Grown L s.ledger) :
    Grown L (s.sendEcho mule dst part ctx msg marked total kind).ledger :=
  .sendLocal (.bumpDev hg)

theorem Grown.lossEcho {k part mule} (hg : Grown L s.ledger) : Grown L (s.lossEcho k part mule).ledger := by
  dsimp only [State.lossEcho]
  split <;> exact .sendEcho hg

theorem Grown.cqReserve {q} (hg : Grown L s.ledger) : Grown L (s.cqReserve q).ledger := by
  dsimp only [State.cqReserve]
  split
  · split <;> exact hg
  · exact hg

theorem Grown.rqTake {qid} (hg : Grown L s.ledger) : Grown L (s.rqTake qid).2.ledger := by
  dsimp only [State.rqTake]
  split
  · exact hg
  · exact .ite_snd (.upd (.cqReserve hg)) hg

theorem Grown.takeBufs {qid n acc} (hg : Grown L s.ledger) : Grown L (s.takeBufs qid n acc).2.ledger := by
  induction n generalizing s acc with
  | zero => exact hg
  | succ n ih =>
    simp only [State.takeBufs]
    split
    · rename_i e
      exact ih (.snd e (.rqTake hg))
    · rename_i e
      exact .snd e (.rqTake hg)

theorem Grown.bufWrite {qid part ring off bytes} (hg : Grown L s.ledger) :
    Grown L (s.bufWrite qid part ring off bytes).ledger :=
  .emit hg

theorem Grown.recvRecord {qid status marks src msg index bytes ring} (hg : Grown L s.ledger) :
    Grown L (s.recvRecord qid status marks src msg index bytes ring).ledger := by
  dsimp only [State.recvRecord]
  split
  · exact hg
  · split
    · exact hg
    · exact .writeRecord hg

theorem Grown.finishMsg {m} (hg : Grown L s.ledger) : Grown L (s.finishMsg m).ledger :=
  .foldl hg (fun _ _ ht => .recvRecord ht)

theorem Grown.voidMsg {m} (hg : Grown L s.ledger) : Grown L (s.voidMsg m).ledger :=
  .upd (.foldl (.foldl hg (fun _ _ ht => .recvRecord ht)) (fun _ _ ht => .depotFree ht))

theorem Grown.dropMsg {m ctr} (hg : Grown L s.ledger) : Grown L (s.dropMsg m ctr).ledger :=
  .lossEcho (.bump (.voidMsg hg))

theorem Grown.holdFrame {m moff payload ringHold} (hg : Grown L s.ledger) :
    Grown L (s.holdFrame m moff payload ringHold).ledger := by
  dsimp only [State.holdFrame]
  refine .ite (.dropMsg hg) (.ite ?_ (.ite (.upd (.depotStore hg)) (.upd (.depotStore hg))))
  split
  · rename_i e
    have ht := Grown.snd e (.depotTake hg)
    exact .ite (.upd (.depotStore ht)) (.upd (.depotStore ht))
  · rename_i e
    have ht := Grown.snd e (.depotTake hg)
    exact .dropMsg ht

theorem Grown.takeFrame {m h payload} (hg : Grown L s.ledger) : Grown L (s.takeFrame m h payload).ledger := by
  dsimp only [State.takeFrame]
  refine .ite (.ite hg hg) ?_
  split
  · exact .ite (.finishMsg (.bufWrite (.takeBufs hg))) (.upd (.bufWrite (.takeBufs hg)))
  · exact .holdFrame (.upd (.takeBufs hg))

theorem Grown.serveHeld {m} (hg : Grown L s.ledger) : Grown L (s.serveHeld m).ledger :=
  .ite (.ite (.finishMsg (.foldl (.foldl (.takeBufs hg) (fun _ _ ht => .bufWrite ht)) (fun _ _ ht => .depotFree ht)))
    (.upd (.foldl (.foldl (.takeBufs hg) (fun _ _ ht => .bufWrite ht)) (fun _ _ ht => .depotFree ht))))
    (.upd (.takeBufs hg))

theorem Grown.serveRing {qid} (hg : Grown L s.ledger) : Grown L (s.serveRing qid).ledger :=
  .foldl hg (fun _ _ ht => .serveHeld ht)

theorem Grown.deliverB {ing h payload crowd mule} (hg : Grown L s.ledger) :
    Grown L (s.deliverB ing h payload crowd mule).ledger := by
  dsimp only [State.deliverB]
  refine .ite (.bumpIng hg) ?_
  split
  · exact .bumpCtx (.echoAccount hg)
  · refine .ite (.bumpDev (.echoAccount hg)) ?_
    split
    · exact .ite (.bumpDev (.echoAccount hg)) (.takeFrame (.echoAccount hg))
    · exact .ite (.lossEcho (.bumpDev (.echoAccount hg))) (.takeFrame (.upd (.echoAccount hg)))

theorem Grown.setEntry {e f} (hg : Grown L s.ledger) : Grown L (s.setEntry e f).ledger := by
  dsimp only [State.setEntry]
  split <;> exact hg

theorem Grown.sendAck {k r} (hg : Grown L s.ledger) : Grown L (s.sendAck k r).ledger := .sendLocal hg

theorem Grown.sendRst {k part port} (hg : Grown L s.ledger) : Grown L (s.sendRst k part port).ledger :=
  .sendLocal (.bumpC (.fresh hg))

theorem Grown.withdrawC {k t u} (hg : Grown L s.ledger) : Grown L (s.withdrawC k t u).ledger := .ite hg hg

theorem Grown.aimC {k t u} (hg : Grown L s.ledger) : Grown L (s.aimC k t u).2.ledger := by
  dsimp only [State.aimC]
  split
  · exact hg
  · refine .ite_snd hg ?_
    split
    · split
      · exact .setEntry (.bumpPart (.withdrawC hg))
      · exact .bumpPart (.withdrawC hg)
    · exact .ite_snd hg (.upd (.withdrawC hg))

theorem Grown.muleStreamFailed {k t} (hg : Grown L s.ledger) : Grown L (s.muleStreamFailed k t).ledger := by
  dsimp only [State.muleStreamFailed]
  split
  · exact .upd (.upd (.bumpDev hg))
  · exact .upd (.bumpDev hg)

theorem Grown.failStream {k code} (hg : Grown L s.ledger) : Grown L (s.failStream k code).ledger := by
  dsimp only [State.failStream]
  split
  · exact hg
  · refine .ite (.muleStreamFailed hg) (.ctxFault (.foldl hg (fun _ _ ha => ?_)))
    split
    · exact .setEntry ha
    · exact ha

theorem Grown.ackArrives {k ack} (hg : Grown L s.ledger) : Grown L (s.ackArrives k ack).ledger := by
  dsimp only [State.ackArrives]
  split
  · exact hg
  · split
    · exact hg
    · refine .ite hg (.ite hg (.foldl hg (fun _ _ ha => ?_)))
      split
      · exact .setEntry ha
      · exact ha

theorem Delivers.deliverMsg {h payload mule} (hg : Grown L s.ledger) : Delivers L (s.deliverMsg h payload mule) := by
  dsimp only [State.deliverMsg]
  refine .ite (.ite (.some hg) .none) ?_
  split
  · exact .none
  · split
    · exact .none
    · rename_i e
      have ht := Grown.snd e (.rqTake hg)
      exact .some (.recvRecord (.bufWrite ht))

theorem Grown.acceptC {ing h payload mule old} (hg : Grown L s.ledger) :
    Grown L (s.acceptC ing h payload mule old).ledger := by
  dsimp only [State.acceptC]
  refine .ite (.bumpC hg) ?_
  split
  · exact .bumpC hg
  · rename_i e
    have ht := Grown.got e (.deliverMsg hg)
    exact ht

theorem Grown.judgeC {ing h payload mule} (hg : Grown L s.ledger) : Grown L (s.judgeC ing h payload mule).ledger := by
  dsimp only [State.judgeC]
  split
  · exact .ite (.ite (.acceptC hg) (.bumpC hg)) (.sendRst hg)
  · exact .ite (.acceptC hg) (.ite (.sendAck (.bumpC hg)) (.ite (.sendAck (.bumpC hg)) (.bumpC hg)))

theorem Grown.refuseC {ing h} (hg : Grown L s.ledger) : Grown L (s.refuseC ing h).ledger := .ite (.sendRst hg) hg

theorem Grown.deliverC {ing h payload mule} (hg : Grown L s.ledger) :
    Grown L (s.deliverC ing h payload mule).ledger := by
  unfold State.deliverC
  extract_lets k s1
  have h1 : Grown L s1.ledger := .ite (.ackArrives hg) hg
  refine .ite (.refuseC (.bumpIng hg)) ?_
  split
  · exact .ite (.failStream h1) h1
  · split
    · exact h1
    · exact .ite h1 (.upd h1)
  · exact .ite (.refuseC (.bumpCtx h1)) (.judgeC h1)

theorem Grown.deliverEcho {ing h payload mule} (hg : Grown L s.ledger) :
    Grown L (s.deliverEcho ing h payload mule).ledger := by
  have h1 : Grown L ((s.echoAccount h false mule).bumpDev dkEchoRx).ledger := .bumpDev (.echoAccount hg)
  dsimp only [State.deliverEcho]
  refine .ite (.bumpIng hg) (.ite ?_ ?_)
  · split
    · exact .ite (.upd h1) h1
    · exact .upd h1
    · exact h1
  · split
    · split
      · exact .upd h1
      · exact h1
    · exact .postEvent h1
    · exact h1

theorem Grown.deliver {ing h payload crowd mule} (hg : Grown L s.ledger) :
    Grown L (s.deliver ing h payload crowd mule).ledger := by
  dsimp only [State.deliver]
  split
  · exact .bumpIng hg
  · exact .deliverB hg
  · exact .deliverEcho hg
  · exact .deliverC hg

theorem Grown.deliverAcross {ing h payload crowd mule bad} (hg : Grown L s.ledger) :
    Grown L (s.deliverAcross ing h payload crowd mule bad).ledger :=
  .ite (.bumpDie hg) (.deliver hg)

theorem Grown.bindFrame {d h n} (hg : Grown L s.ledger) : Grown L (s.bindFrame d h n).ledger := by
  dsimp only [State.bindFrame]
  split
  · exact hg
  · split
    · exact .release hg
    · exact .ite (.release hg) hg

theorem Grown.finishStore {ing h payload crowd d b fb bad own} (hg : Grown L s.ledger) :
    Grown L (s.finishStore ing h payload crowd d b fb bad own).ledger := by
  dsimp only [State.finishStore]
  split
  · rename_i e
    have hs1 := Grown.snd e (.storeCopies hg)
    exact hs1
  · rename_i e
    have hs1 := Grown.snd e (.storeCopies hg)
    exact .ite (.release (.deliverAcross (.ite (.release (.deliverAcross (.bindFrame hs1))) (.bindFrame hs1))))
      (.ite (.release (.deliverAcross (.bindFrame hs1))) (.bindFrame hs1))

theorem Grown.admitFrame {ing h payload crowd d bad limited} (hg : Grown L s.ledger) :
    Grown L (s.admitFrame ing h payload crowd d bad limited).ledger := by
  dsimp only [State.admitFrame]
  refine .ite (.addWait hg) ?_
  split
  · exact .noBuffer hg
  · exact .addWait hg
  · exact .finishStore hg

theorem Grown.serveWait {d w} (hg : Grown L s.ledger) : Grown L (s.serveWait d w).ledger := by
  dsimp only [State.serveWait]
  split
  · exact .noBuffer (.dropWaits hg)
  · exact .addWait (.dropWaits hg)
  · exact .finishStore (.dropWaits hg)

/-! ### Frames on links -/

theorem Grown.countRx {p h} (hg : Grown L s.ledger) : Grown L (s.countRx p h).ledger := .ite hg hg

theorem Grown.stompCopies {p f r} (hg : Grown L s.ledger) : Grown L (s.stompCopies p f r).ledger := by
  dsimp only [State.stompCopies]
  refine .ite ?_ hg
  split
  · exact hg
  · exact .foldl hg (fun _ _ ht => .ite (.startNow ht) ht)

theorem Grown.notReady {h} (hg : Grown L s.ledger) : Grown L (s.notReady h).ledger :=
  .ite (.bumpDev hg) (.sendLocal (.bumpDev hg))

theorem Grown.admitS {p f d} (hg : Grown L s.ledger) : Grown L (s.admitS p f d).ledger :=
  .ite (.bumpPort hg) (.admitFrame hg)

theorem Grown.arriveS {p f} (hg : Grown L s.ledger) : Grown L (s.arriveS p f).ledger := by
  dsimp only [State.arriveS]
  refine .ite hg (.ite (.bumpPort hg) ?_)
  split
  · exact .ite (.bumpPort hg) (.ite (.bumpPort hg) (.admitS hg))
  · split
    · rename_i e
      have hs1 := Grown.fst e (.route hg)
      exact hs1
    · rename_i e
      have hs1 := Grown.fst e (.route hg)
      exact .admitS hs1

theorem Grown.arriveBC {p f} (hg : Grown L s.ledger) : Grown L (s.arriveBC p f).ledger := by
  dsimp only [State.arriveBC]
  split
  · rename_i e
    have hs1 := Grown.fst e (.route hg)
    exact hs1
  · rename_i e
    have hs1 := Grown.fst e (.route hg)
    exact .admitFrame hs1

theorem Grown.judge {p typ f} (hg : Grown L s.ledger) : Grown L (s.judge p typ f).ledger := by
  dsimp only [State.judge]
  split
  · exact .rxDiscard (.ite (.countRx (.stompCopies hg)) hg)
  · refine .ite hg (.ite (.upd (.bumpPort hg)) (.ite (.upd (.notReady (.countRx hg))) ?_))
    split
    · exact .upd (.bumpPort (.countRx hg))
    · exact .upd (.ite (.arriveS (.countRx hg)) (.arriveBC (.countRx hg)))

theorem Grown.arrive {p typ f} (hg : Grown L s.ledger) : Grown L (s.arrive p typ f).ledger :=
  .ite hg (.judge (.lineCounts hg))

theorem Grows.credit {port f} (hg : Grown L s.ledger) : Grows L (execCredit port f s) := by
  dsimp only [execCredit]
  refine .withPort (.next ?_)
  split
  · rename_i e
    have hs1 := Grown.fst e (.linkRx hg)
    exact hs1
  · rename_i e
    have hs1 := Grown.fst e (.linkRx hg)
    exact hs1

theorem Grows.creditSend {port} (hg : Grown L s.ledger) : Grows L (execCreditSend port s) :=
  .withPort (.next (.ite hg hg))

theorem Grows.creditStall {port classC} (hg : Grown L s.ledger) : Grows L (execCreditStall port classC s) :=
  .withPort (.next (.ite (.bumpPort hg) hg))

theorem Grows.cRetryTimeout {k} (hg : Grown L s.ledger) : Grows L (execCRetryTimeout k s) := by
  dsimp only [execCRetryTimeout]
  refine .next ?_
  split
  · exact hg
  · split
    · exact .ite hg (.ite (.failStream hg) (.bumpC hg))
    · exact hg

theorem Grows.cAckSend {k} (hg : Grown L s.ledger) : Grows L (execCAckSend k s) := by
  dsimp only [execCAckSend]
  refine .next ?_
  split
  · exact hg
  · exact .ite (.sendAck hg) hg

theorem Grows.notreadyRetry {k} (hg : Grown L s.ledger) : Grows L (execNotreadyRetry k s) := by
  dsimp only [execNotreadyRetry]
  refine .next ?_
  split
  · exact hg
  · split
    · exact hg
    · exact .ite (.failStream hg) (.ite hg hg)

theorem Grows.egressFrameStart {start} (hg : Grown L s.ledger) : Grows L (execEgressFrameStart start s) :=
  .withPort (.next (.ite (.egressStart hg) hg))

theorem Grows.egressFrameEnd {port} (hg : Grown L s.ledger) : Grows L (execEgressFrameEnd port s) :=
  .withPort (.next (.egressEndFrame hg))

theorem Grows.mcHoldExpiry {port desc} (hg : Grown L s.ledger) : Grows L (execMcHoldExpiry port desc s) := by
  dsimp only [execMcHoldExpiry]
  refine .withPort (.next ?_)
  split
  · exact hg
  · exact .ite hg (.bumpPort (.dropEntry hg))

theorem Grown.launch {ing h payload} (hg : Grown L s.ledger) : Grown L (s.launch ing h payload).ledger := by
  dsimp only [State.launch]
  split
  · rename_i e
    have hs1 := Grown.fst e (.route hg)
    exact hs1
  · rename_i e
    have hs1 := Grown.fst e (.route hg)
    exact .admitFrame hs1

theorem Grown.buildC {k t u} (hg : Grown L s.ledger) : Grown L (s.buildC k t u).ledger := by
  dsimp only [State.buildC]
  refine .ite (.launch ?_) hg
  split <;> exact hg

theorem Grown.buildB {qid q e data} (hg : Grown L s.ledger) : Grown L (s.buildB qid q e data).ledger := by
  dsimp only [State.buildB]
  split
  · exact .bumpPart (.setEntry hg)
  · exact .ite (.launch (.emit hg)) hg

theorem Grown.buildDrain {d k x} (hg : Grown L s.ledger) : Grown L (s.buildDrain d k x).ledger := by
  dsimp only [State.buildDrain]
  split
  · exact hg
  · split
    · exact .bumpPart hg
    · exact .ite (.ite (.launch (.upd (.upd (.depotRead hg)))) (.upd (.depotRead hg))) hg

theorem Grows.hostFrameBuild {src data} (hg : Grown L s.ledger) : Grows L (execHostFrameBuild src data s) := by
  dsimp only [execHostFrameBuild]
  refine .ite .fault (.next (.ite hg ?_))
  split
  · split
    · rename_i e
      have hs1 := Grown.snd e (.aimC hg)
      exact hs1
    · rename_i e
      have hs1 := Grown.snd e (.aimC hg)
      split
      · exact hs1
      · split
        · exact .buildC hs1
        · exact hs1
  · refine .ite ?_ ?_
    · split
      · exact .buildDrain hg
      · exact hg
    · split
      · exact hg
      · split
        · exact .buildB hg
        · exact hg

theorem Grows.henAllocation {die pool} (hg : Grown L s.ledger) : Grows L (execHenAllocation die pool s) := by
  dsimp only [execHenAllocation]
  refine .withUnit (.next ?_)
  split
  · exact hg
  · exact .serveWait hg

@[simp] theorem Depot.rebuild_mem (m : Depot) (k : Nat) : (m.rebuild k).mem = m.mem := Depot.setPool_mem _ _ _

theorem Grows.henLevelChange {die} (hg : Grown L s.ledger) : Grows L (execHenLevelChange die s) :=
  .withUnit (.next (.judgeLevel hg))

theorem Grows.echoSend {src ctx} (hg : Grown L s.ledger) : Grows L (execEchoSend src ctx s) := by
  dsimp only [execEchoSend]
  refine .next ?_
  split
  · exact hg
  · split
    · exact hg
    · exact .sendEcho hg

theorem Grows.bMsgTimeout {k} (hg : Grown L s.ledger) : Grows L (execBMsgTimeout k s) := by
  dsimp only [execBMsgTimeout]
  refine .next ?_
  split
  · exact hg
  · exact .ite hg (.dropMsg hg)

/-! ### Epoch tables -/

theorem Grown.openRoute (hg : Grown L s.ledger) : Grown L (s.openRoute).ledger := .ite hg hg

theorem Grown.openSpread (hg : Grown L s.ledger) : Grown L (s.openSpread).ledger := .ite hg hg

theorem Grown.openGrants (hg : Grown L s.ledger) : Grown L (s.openGrants).ledger := .ite hg hg

theorem Grown.openVariant (hg : Grown L s.ledger) : Grown L (s.openVariant).ledger := .ite hg hg

theorem Grown.openRemap {p} (hg : Grown L s.ledger) : Grown L (s.openRemap p).ledger := .ite hg hg

theorem Grown.stageRoute {i e} (hg : Grown L s.ledger) : Grown L (s.stageRoute i e).ledger := .upd (.openRoute hg)

theorem Grown.stageSpread {i w} (hg : Grown L s.ledger) : Grown L (s.stageSpread i w).ledger := .upd (.openSpread hg)

theorem Grown.stageGrants {p g} (hg : Grown L s.ledger) : Grown L (s.stageGrants p g).ledger := .upd (.openGrants hg)

theorem Grown.stageVariant {p v} (hg : Grown L s.ledger) : Grown L (s.stageVariant p v).ledger :=
  .upd (.openVariant hg)

theorem Grown.stageRemap {p l} (hg : Grown L s.ledger) : Grown L (s.stageRemap p l).ledger := .upd (.openRemap hg)

theorem Grown.applyPlans {l fresh} (hg : Grown L s.ledger) : Grown L (s.applyPlans l fresh).ledger :=
  .foldl hg (fun _ _ ht => .ite ht ht)

/-! ### Lanes -/

theorem Grown.setDown {p} (hg : Grown L s.ledger) : Grown L (s.setDown p).ledger :=
  .ite hg (.mgmtCause (.portDownQueues hg))

theorem Grown.lanesFrom {p st} (hg : Grown L s.ledger) : Grown L (s.lanesFrom p st).ledger :=
  .foldl hg (fun _ _ ht => ht)

theorem Grown.restartPort {p st} (hg : Grown L s.ledger) : Grown L (s.restartPort p st).ledger := .upd (.lanesFrom hg)

theorem Grown.sendRange {p kind index t2 t3 ab ba} (hg : Grown L s.ledger) :
    Grown L (s.sendRange p kind index t2 t3 ab ba).ledger :=
  .emit hg

theorem Grown.sendRangeReq {p r t1} (hg : Grown L s.ledger) : Grown L (s.sendRangeReq p r t1).ledger := .sendRange hg

theorem Grown.startRange {p} (hg : Grown L s.ledger) : Grown L (s.startRange p).ledger :=
  .ite (.ite (.sendRangeReq (.fresh hg)) hg) hg

theorem Grows.portRangeStart {path port} (hg : Grown L s.ledger) : Grows L (execPortRangeStart path port s) :=
  .withPort (.next (.ite (.startRange hg) hg))

theorem Grown.setDelays {p out inn} (hg : Grown L s.ledger) : Grown L (s.setDelays p out inn).ledger :=
  .ite (.bumpPort hg) hg

theorem Grown.answerRange {port index stamp reply} (hg : Grown L s.ledger) :
    Grown L (s.answerRange port index stamp reply).ledger :=
  .sendRange hg

theorem Grows.range {port f stamp reply} (hg : Grown L s.ledger) : Grows L (execRange port f stamp reply s) := by
  dsimp only [execRange]
  refine .withPort (.next ?_)
  split
  · rename_i e
    have hs1 := Grown.fst e (.linkRx hg)
    exact hs1
  · rename_i e
    have hs1 := Grown.fst e (.linkRx hg)
    refine .ite ?_ ?_
    · split <;> exact .ite (.answerRange hs1) hs1
    · split
      · exact hs1
      · exact .ite (.ite (.sendRangeReq hs1) hs1) (.ite (.setDelays hs1) hs1)

theorem Grows.rangingComplete {port} (hg : Grown L s.ledger) : Grows L (execRangingComplete port s) := by
  dsimp only [execRangingComplete]
  refine .withPort (.next ?_)
  split
  · exact .ite (.setDelays (.sendRange hg)) hg
  · exact hg

theorem Grown.settleLanes {p old} (hg : Grown L s.ledger) : Grown L (s.settleLanes p old).ledger :=
  .foldl hg (fun _ _ ht => .ite ht (.ite ht (.ite ht (.ite (.ite ht ht) ht))))

theorem Grown.takeMaskIn {p m readmit} (hg : Grown L s.ledger) : Grown L (s.takeMaskIn p m readmit).ledger := by
  dsimp only [State.takeMaskIn]
  refine .ite ?_ ?_
  · refine .restartPort (.setDown (.ite (.foldl (.settleLanes hg) (fun _ _ ht => ?_)) (.settleLanes hg)))
    split
    · exact .bumpLane ht
    · exact ht
  · refine .startRange (.ite (.foldl (.settleLanes hg) (fun _ _ ht => ?_)) (.settleLanes hg))
    split
    · exact .bumpLane ht
    · exact ht

theorem Grown.takeMaskOut {p m readmit} (hg : Grown L s.ledger) : Grown L (s.takeMaskOut p m readmit).ledger := by
  unfold State.takeMaskOut
  extract_lets s0 q s1 s2 s3
  have h0 : Grown L s0.ledger := .egressEndFrame hg
  have h2 : Grown L s2.ledger := .emit (.upd h0)
  have h3 : Grown L s3.ledger := by
    refine .ite (.foldl h2 (fun _ _ ht => ?_)) h2
    split
    · exact .bumpLane ht
    · exact ht
  exact .ite (.restartPort (.setDown h0)) (.ite h3 (.startRange h3))

theorem Grown.enterActive {p c inn out} (hg : Grown L s.ledger) : Grown L (s.enterActive p c inn out).ledger := by
  unfold State.enterActive
  extract_lets q loc dup q1 s0 s1 s2 pw s3
  have h1 : Grown L s1.ledger := .settleLanes (.upd (.quarantineQueues (.upd (.upd hg))))
  have h2 : Grown L s2.ledger := .ite (.bumpPort h1) h1
  have h3 : Grown L s3.ledger := .ite (.bumpDev (.upd h2)) h2
  exact .startRange h3

theorem Grown.tryActive {p} (hg : Grown L s.ledger) : Grown L (s.tryActive p).ledger := by
  dsimp only [State.tryActive]
  refine .ite hg (.ite (.setDown hg) (.ite ?_ hg))
  split
  · exact hg
  · exact .ite hg (.enterActive hg)

theorem Grows.laneDetectPulse {port lane found} (hg : Grown L s.ledger) :
    Grows L (execLaneDetectPulse port lane found s) := by
  dsimp only [execLaneDetectPulse]
  exact .withLane (.next (.ite (.ite (.upd (.ite hg (.emit hg))) (.upd (.ite hg (.emit hg)))) hg))

theorem Grows.receivedLight {port lane} (hg : Grown L s.ledger) : Grows L (execReceivedLight port lane s) :=
  .withLane (.next (.ite hg hg))

theorem Grows.quietExpiry {port lane} (hg : Grown L s.ledger) : Grows L (execQuietExpiry port lane s) :=
  .withLane (.next (.ite hg hg))

theorem Grows.bitLock {port lane} (hg : Grown L s.ledger) : Grows L (execBitLock port lane s) :=
  .withLane (.next (.ite hg hg))

theorem Grown.eqLane {p j l} (hg : Grown L s.ledger) : Grown L (s.eqLane p j l).ledger := .ite (.emit hg) hg

theorem Grown.orient {p j m} (hg : Grown L s.ledger) : Grown L (s.orient p j m).ledger :=
  .ite hg (.ite hg (.tryActive hg))

theorem Grows.trainingMarker {port lane m} (hg : Grown L s.ledger) : Grows L (execTrainingMarker port lane m s) := by
  dsimp only [execTrainingMarker]
  refine .withLane (.next (.ite hg (.ite (.ite hg hg) (.ite ?_ ?_))))
  · split <;> exact hg
  · split
    · exact hg
    · exact .orient hg
    · exact .eqLane hg
    · exact .ite hg hg
    · exact hg

theorem Grows.capsRecord {port lane bytes acks} (hg : Grown L s.ledger) :
    Grows L (execCapsRecord port lane bytes acks s) := by
  simp only [execCapsRecord]
  refine .withLane (.next (.ite hg ?_))
  cases capsOf bytes with
  | none => exact .ite (.tryActive (.upd (.bumpPort hg))) (.upd (.bumpPort hg))
  | some c => exact .ite (.tryActive hg) hg

theorem Grows.laneTrainTimeout {port lane} (hg : Grown L s.ledger) : Grows L (execLaneTrainTimeout port lane s) :=
  .withLane (.next (.ite (.tryActive (.bumpLane hg)) hg))

theorem Grows.excludedLaneRetry {port lane} (hg : Grown L s.ledger) : Grows L (execExcludedLaneRetry port lane s) :=
  .withLane (.next (.ite hg hg))

theorem Grown.sendNotices {p l byEye} (hg : Grown L s.ledger) : Grown L (s.sendNotices p l byEye).ledger :=
  .emit (.emit (.emit (.ite (.emit hg) hg)))

theorem Grown.dropLane {p j byEye} (hg : Grown L s.ledger) : Grown L (s.dropLane p j byEye).ledger :=
  .sendNotices (.upd (.upd (.upd (.bumpLane hg))))

theorem Grows.lossOfLock {port lane x} (hg : Grown L s.ledger) : Grows L (execLossOfLock port lane x s) :=
  .withLane (.next (.ite (.dropLane (.bumpLane hg)) hg))

theorem Grows.eyeWindowEnd {port lane eyes} (hg : Grown L s.ledger) :
    Grows L (execEyeWindowEnd port lane eyes s) := by
  dsimp only [execEyeWindowEnd]
  refine .withLane (.next (.ite hg ?_))
  split
  · exact .eqLane hg
  · exact .ite (.dropLane hg) hg
  · exact .ite hg (.ite hg hg)
  · exact hg
  · exact hg
  · exact hg
  · exact hg

theorem Grows.marginalLaneDrop {port lane} (hg : Grown L s.ledger) : Grows L (execMarginalLaneDrop port lane s) := by
  dsimp only [execMarginalLaneDrop]
  exact .withLane (.next (.ite (.upd (.bumpLane hg)) hg))

theorem Grows.notice {port m} (hg : Grown L s.ledger) : Grows L (execNotice port m s) :=
  .withPort (.next (.ite (.ite hg (.takeMaskOut hg)) hg))

theorem Grows.realign {port m} (hg : Grown L s.ledger) : Grows L (execRealign port m s) :=
  .withPort (.next (.ite (.ite (.takeMaskIn hg) (.ite (.takeMaskIn hg) hg)) hg))

theorem Grows.noticeRepeat {port} (hg : Grown L s.ledger) : Grows L (execNoticeRepeat port s) :=
  .withPort (.next (.ite (.foldl hg (fun _ _ ht => .sendNotices ht)) hg))

theorem Grows.directionFailed {port} (hg : Grown L s.ledger) : Grows L (execDirectionFailed port s) :=
  .withPort (.next (.ite (.restartPort (.setDown hg)) hg))

theorem Grown.sendAdapt {p} (hg : Grown L s.ledger) : Grown L (s.sendAdapt p).ledger :=
  .foldl (.upd (.emit hg)) (fun _ _ ht => .ite ht ht)

theorem Grows.adapt {port f early} (hg : Grown L s.ledger) : Grows L (execAdapt port f early s) := by
  dsimp only [execAdapt]
  refine .withPort (.next ?_)
  split
  · rename_i e
    have hs1 := Grown.fst e (.linkRx hg)
    exact hs1
  · rename_i e
    have hs1 := Grown.fst e (.linkRx hg)
    refine .upd (.foldl hs1 (fun _ _ ht => ?_))
    split <;> exact ht

theorem Grown.portSlot1 {p} (hg : Grown L s.ledger) : Grown L (s.portSlot1 p).ledger := by
  dsimp only [State.portSlot1]
  split
  · refine .foldl ?_ (fun _ _ ht => .ite ht ht)
    split
    · exact .takeMaskOut hg
    · exact hg
  · refine .ite ?_ ?_
    · refine .bumpPort (.quarantineQueues (.upd (.foldl ?_ (fun _ _ ht => .ite ht ht))))
      split
      · exact .takeMaskOut hg
      · exact hg
    · refine .quarantineQueues (.upd (.foldl ?_ (fun _ _ ht => .ite ht ht)))
      split
      · exact .takeMaskOut hg
      · exact hg

theorem Grown.portHingeMove {p} (hg : Grown L s.ledger) : Grown L (s.portHingeMove p).ledger :=
  .foldl hg (fun _ _ ht => .ite ht ht)

theorem Grows.sleepWindowStart {port} (hg : Grown L s.ledger) : Grows L (execSleepWindowStart port s) := by
  dsimp only [execSleepWindowStart]
  refine .withPort (.next (.ite ?_ hg))
  split
  · exact hg
  · exact .bumpPort (.emit hg)

theorem Grows.wakeBurst {port} (hg : Grown L s.ledger) : Grows L (execWakeBurst port s) :=
  .withPort (.next (.ite (.emit hg) hg))

theorem Grows.wakeMarker {port m} (hg : Grown L s.ledger) : Grows L (execWakeMarker port m s) :=
  .withPort (.next (.ite hg hg))

theorem Grows.napOrDozeMarker {port m} (hg : Grown L s.ledger) : Grows L (execNapOrDozeMarker port m s) :=
  .withPort (.next (.ite (.ite hg (.ite hg hg)) hg))

theorem Grows.wakeMiss {port} (hg : Grown L s.ledger) : Grows L (execWakeMiss port s) :=
  .withPort (.next (.ite (.foldl (.bumpPort hg) (fun _ _ ht => .ite (.dropLane (.bumpLane ht)) ht)) hg))

theorem Grows.framingError {port badHeader} (hg : Grown L s.ledger) : Grows L (execFramingError port badHeader s) :=
  .withPort (.next (.ite (.enterHunt (.ite (.bumpPort hg) hg)) hg))

/-! ### Partitions, contexts and queues -/

theorem Grown.partCtl {path p legal c} (hg : Grown L s.ledger) : Grown L (s.partCtl path p legal c).ledger :=
  .ite hg (.ite hg (.bumpPart hg))

theorem Grows.clearFault {path ctx} (hg : Grown L s.ledger) : Grows L (execClearFault path ctx s) := by
  dsimp only [execClearFault]
  refine .withCtx (.next ?_)
  split
  · exact .ite hg hg
  · exact hg

theorem Grows.eqWrite {path ctx v} (hg : Grown L s.ledger) : Grows L (execEqWrite path ctx v s) := by
  dsimp only [execEqWrite]
  refine .withCtx (.next ?_)
  split
  · exact .ite hg hg
  · exact hg

theorem ctxCtr_zero_le_queueCtr (q : Nat) : ctxCtr 0 0 ≤ queueCtr q := by unfold ctxCtr queueCtr ctrIndex; omega

/-- Enabling a queue clears the counter of its QID (R441). -/
theorem Grown.enableQueue {ctx k x q} (hg : Grown L s.ledger) : Grown L (s.enableQueue ctx k x q).ledger := by
  simp only [State.enableQueue]
  refine .ite hg ?_
  split
  · exact hg
  · exact .clearCtrs (ctxCtr_zero_le_queueCtr _) hg

theorem Grown.clearPending {qid} (hg : Grown L s.ledger) : Grown L (s.clearPending qid).ledger := .ite hg hg

theorem Grown.endQueue {ctx k} (hg : Grown L s.ledger) : Grown L (s.endQueue ctx k).ledger :=
  .ite (.clearPending hg) hg

theorem Grown.voidQueue {qid} (hg : Grown L s.ledger) : Grown L (s.voidQueue qid).ledger :=
  .foldl hg (fun _ _ ht => .voidMsg ht)

theorem Grown.sqSettle {qid} (hg : Grown L s.ledger) : Grown L (s.sqSettle qid).ledger := by
  dsimp only [State.sqSettle]
  split
  · exact .ite (.endQueue hg) hg
  · exact hg

theorem Grown.disableQueue {ctx k} (hg : Grown L s.ledger) : Grown L (s.disableQueue ctx k).ledger :=
  .ite hg (.ite (.sqSettle hg) (.ite (.endQueue (.voidQueue hg)) (.ite hg (.endQueue hg))))

theorem Grown.writeSize0 {ctx k w} (hg : Grown L s.ledger) : Grown L (s.writeSize0 ctx k w).ledger :=
  .ite hg (.ite hg (.disableQueue hg))

theorem Grows.queueEnable {path ctx k cfg} (hg : Grown L s.ledger) : Grows L (execQueueEnable path ctx k cfg s) := by
  dsimp only [execQueueEnable]
  refine .withCtx (.withUnit (.next (.ite hg (.ite hg (.ite hg ?_)))))
  split
  · exact hg
  · exact .enableQueue hg

theorem Grows.queueDisable {path ctx k} (hg : Grown L s.ledger) : Grows L (execQueueDisable path ctx k s) :=
  .withCtx (.withUnit (.next (.ite hg (.writeSize0 hg))))

theorem Grown.postEntries {p qid q v} (hg : Grown L s.ledger) : Grown L (s.postEntries p qid q v).ledger :=
  .ite (.bumpPart hg) (.ite (.serveRing hg) hg)

theorem Grown.freeEntries {p qid q v} (hg : Grown L s.ledger) : Grown L (s.freeEntries p qid q v).ledger :=
  .ite (.bumpPart hg) (.foldl (.ite (.cqTest hg) hg) (fun _ _ ht => .serveRing ht))

theorem Grown.doorbell {vf page v kinds} (hg : Grown L s.ledger) : Grown L (s.doorbell vf page v kinds).ledger := by
  dsimp only [State.doorbell]
  refine .ite hg ?_
  split
  · exact .bumpPart hg
  · exact .ite (.bumpPart hg) (.ite hg (.ite (.freeEntries hg) (.postEntries hg)))

theorem Grows.withPage {vf page r} (hr : Grows L r) : Grows L (withPage vf page r) := .withFunc (.withUnit hr)

theorem Grown.startEntryOf {qid e mine act} (hg : Grown L s.ledger) (hact : ∀ t x1 x2, Grown L t.ledger → Grown L
  (act t x1 x2).2.ledger) :
    Grown L (s.startEntryOf qid e mine act).ledger := by
  dsimp only [State.startEntryOf]
  split
  · exact hg
  · refine .ite hg (.ite ?_ ?_)
    · split
      · exact .upd (.upd (.emit (.cqReserve hg)))
      · exact .upd (.emit (.cqReserve hg))
    · refine .ite hg ?_
      split <;> exact hact _ _ _ (.upd (.emit (.cqReserve hg)))

theorem Grows.bSend {qid e} (hg : Grown L s.ledger) : Grows L (execBSend qid e s) := by
  dsimp only [execBSend]
  refine .withQueue (.next (.startEntryOf hg (fun _ _ _ ht => (.ite_snd ht ?_))))
  split
  · exact ht
  · split
    · exact .bumpPart ht
    · split <;> exact ht

theorem Grows.cSend {qid e data} (hg : Grown L s.ledger) : Grows L (execCSend qid e data s) := by
  dsimp only [execCSend]
  refine .withQueue (.next (.startEntryOf hg (fun _ _ _ ht => ?_)))
  split
  · exact .bumpPart ht
  · exact .upd (.ite ht (.emit ht))

theorem Grown.readHost {fn a len} (hg : Grown L s.ledger) : Grown L (s.readHost fn a len).ledger :=
  .foldl hg (fun _ _ ht => .emit ht)

theorem Grows.dmaToDepot {qid e data} (hg : Grown L s.ledger) : Grows L (execDmaToDepot qid e data s) := by
  dsimp only [execDmaToDepot]
  refine .withQueue (.next (.ite hg (.startEntryOf hg (fun _ _ _ ht => (.ite_snd ht ?_)))))
  split
  · exact ht
  · exact .foldl_snd (.readHost ht) (fun _ _ hr => .depotPiece hr)

theorem Grows.dmaToHost {qid e} (hg : Grown L s.ledger) : Grows L (execDmaToHost qid e s) := by
  dsimp only [execDmaToHost]
  refine .withQueue (.next (.ite hg (.startEntryOf hg (fun _ _ _ ht => (.ite_snd ht ?_)))))
  split
  · exact ht
  · exact .foldl_snd ht (fun _ _ hr => .ite_snd (.emit (.depotRead hr)) (.depotRead hr))

theorem Grows.start {qid e} (hg : Grown L s.ledger) : Grows L (execStart qid e s) := by
  dsimp only [execStart]
  refine .withQueue (.next (.ite hg (.startEntryOf hg (fun _ _ _ ht => ?_))))
  split
  · exact ht
  · exact .ite_snd (.depotRead ht) (.ite_snd (.depotRead ht) (.depotStream (.depotRead ht)))

theorem Grows.sendEntryComplete {qid idx} (hg : Grown L s.ledger) : Grows L (execSendEntryComplete qid idx s) := by
  dsimp only [execSendEntryComplete]
  refine .withQueue (.next ?_)
  split
  · exact hg
  · split
    · exact hg
    · split
      · exact hg
      · refine .sqSettle ?_
        split
        · exact .writeRecord hg
        · exact hg

theorem Grown.withdrawEntry {e} (hg : Grown L s.ledger) : Grown L (s.withdrawEntry e).ledger := by
  dsimp only [State.withdrawEntry]
  refine .foldl hg (fun _ _ ht => ?_)
  split
  · exact .withdrawC ht
  · exact ht

theorem Grows.dmaReadError {qid idx fetch e} (hg : Grown L s.ledger) :
    Grows L (execDmaReadError qid idx fetch e s) := by
  dsimp only [execDmaReadError]
  refine .withQueue (.next ?_)
  split
  · exact hg
  · exact .ite (.setEntry (.withdrawEntry hg)) (.ite (.upd (.cqReserve hg)) hg)

theorem Grows.ringHoldExpiry {k} (hg : Grown L s.ledger) : Grows L (execRingHoldExpiry k s) := by
  dsimp only [execRingHoldExpiry]
  refine .next ?_
  split
  · exact hg
  · split
    · exact .ite (.dropMsg hg) hg
    · exact hg

/-! ### The call gate -/

/-- A measurement is written to the log region (R393). -/
theorem Grown.measure {kind subject svn digest} (hg : Grown L s.ledger) :
    Grown L (s.measure kind subject svn digest).ledger := by
  unfold State.measure
  refine .ite ?_ hg
  exact .store hg

theorem Grown.extend0 {kind svn d} (hg : Grown L s.ledger) : Grown L (s.extend0 kind svn d).ledger := .measure hg

theorem Grown.extend1 {kind subject svn d} (hg : Grown L s.ledger) : Grown L (s.extend1 kind subject svn d).ledger :=
  .measure hg

theorem Grown.extend2 {p d} (hg : Grown L s.ledger) : Grown L (s.extend2 p d).ledger := .measure hg

theorem Grown.imageAt {p ctx seg off} (hg : Grown L s.ledger) : Grown L (s.imageAt p ctx seg off).1.ledger := by
  dsimp only [State.imageAt]
  split
  · exact hg
  · refine .ite_fst (.depotRead hg) ?_
    split
    · exact .depotRead hg
    · exact .depotRead (.depotRead hg)

theorem Grown.placeImage {p b} (hg : Grown L s.ledger) : Grown L (s.placeImage p b).ledger := .depotStream hg

theorem Allows.gateAdmit {p ctx seg off} (hg : Grown L s.ledger) : Allows L (s.gateAdmit p ctx seg off) := by
  dsimp only [State.gateAdmit]
  split
  · exact .error
  · refine .ite .error ?_
    split
    · exact .error
    · rename_i e
      have hs1 := Grown.fst e (.imageAt hg)
      split
      · exact .error
      · exact .ite (.ok (.extend2 (.upd (.placeImage hs1)))) .error

theorem Allows.gateWithdraw {p} (hg : Grown L s.ledger) : Allows L (s.gateWithdraw p) :=
  .ite .error (.ite .error (.ok hg))

/-- Creating a context clears its counters (R441). -/
theorem Allows.gateCtxCreate {p ctx} (hg : Grown L s.ledger) : Allows L (s.gateCtxCreate p ctx) := by
  have hb : ctxCtr 0 0 ≤ ctxCtr ctx 0 := by simp only [ctxCtr, ctrIndex]; omega
  simp only [State.gateCtxCreate]
  split
  · exact .error
  · exact .ok (.clearCtrs hb hg)

theorem Allows.gateCtxDestroy {p ctx} (hg : Grown L s.ledger) : Allows L (s.gateCtxDestroy p ctx) := by
  dsimp only [State.gateCtxDestroy]
  split
  · exact .error
  · exact .need (.ok hg)

theorem Allows.gateSegment {p ctx seg base len} (hg : Grown L s.ledger) :
    Allows L (s.gateSegment p ctx seg base len) := by
  dsimp only [State.gateSegment]
  split
  · exact .error
  · exact .need (.ok hg)

theorem Allows.gateGrant {p ctx seg service access} (hg : Grown L s.ledger) :
    Allows L (s.gateGrant p ctx seg service access) := by
  dsimp only [State.gateGrant]
  split
  · exact .error
  · exact .need (.ok hg)

theorem Allows.gateCarve {slot p first n} (hg : Grown L s.ledger) : Allows L (s.gateCarve slot p first n) :=
  .need (.ok hg)

theorem Allows.gateHenMin {slot p w e} (hg : Grown L s.ledger) : Allows L (s.gateHenMin slot p w e) := .need (.ok hg)

theorem Allows.gatePools {slot x} (hg : Grown L s.ledger) : Allows L (s.gatePools slot x) := by
  dsimp only [State.gatePools]
  split
  · exact .need (.ok hg)
  · exact .need (.ok hg)
  · exact .need (.ok (.setDie hg))

theorem Allows.gateGmin {slot code b c} (hg : Grown L s.ledger) : Allows L (s.gateGmin slot code b c) :=
  .need (.ok hg)

theorem Allows.gateSwitch {x} (hg : Grown L s.ledger) : Allows L (s.gateSwitch x) := by
  dsimp only [State.gateSwitch]
  split
  · exact .need (.ok (.setDie hg))
  · exact .need (.ok hg)

theorem Allows.gateGrants {p l} (hg : Grown L s.ledger) : Allows L (s.gateGrants p l) := by
  dsimp only [State.gateGrants]
  refine .ite .error ?_
  split
  · exact .ite (.ok (.stageGrants hg)) .error
  · exact .ok (.stageGrants hg)

theorem Grown.sendMaps {p} (hg : Grown L s.ledger) : Grown L (s.sendMaps p).ledger :=
  .foldl hg (fun _ _ ht => .foldl ht (fun _ _ hu => hu))

theorem Grown.armRequest {t key} (hg : Grown L s.ledger) : Grown L (s.armRequest t key).ledger := .ite hg hg

theorem Allows.gateArm {t flood key} (hg : Grown L s.ledger) : Allows L (s.gateArm t flood key) := by
  dsimp only [State.gateArm]
  refine .ite (.need (.ok (.armRequest hg))) (.need ?_)
  split
  · exact .error
  · exact .ok hg

theorem Grown.startReach {p reach slot} (hg : Grown L s.ledger) : Grown L (s.startReach p reach slot).ledger :=
  .ite hg hg

theorem Grown.startLaneCfg {p j preset ovr slot} (hg : Grown L s.ledger) :
    Grown L (s.startLaneCfg p j preset ovr slot).ledger :=
  .ite hg hg

theorem Grown.applyPortSet {p slot x} (hg : Grown L s.ledger) : Grown L (s.applyPortSet p slot x).ledger := by
  dsimp only [State.applyPortSet]
  split
  · exact .startReach hg
  · exact hg
  · exact .startLaneCfg hg
  · exact hg

theorem Grown.portCall {p v} (hg : Grown L s.ledger) : Grown L (s.portCall p v).ledger := .upd (.applyPortSet hg)

theorem Allows.gateNap {p w} (hg : Grown L s.ledger) : Allows L (s.gateNap p w) := .need (.ok hg)

theorem Grown.setKeys {l} (hg : Grown L s.ledger) : Grown L (s.setKeys l).ledger := .emit hg

theorem Allows.gateEnroll {key sig} (hg : Grown L s.ledger) : Allows L (s.gateEnroll key sig) :=
  .need (.ok (.extend1 (.setKeys hg)))

theorem Allows.gateRevoke {key sig} (hg : Grown L s.ledger) : Allows L (s.gateRevoke key sig) :=
  .need (.ok (.extend1 (.setKeys hg)))

theorem Allows.gateLoadService {b} (hg : Grown L s.ledger) : Allows L (s.gateLoadService b) :=
  .need (.ok (.extend1 hg))

theorem Grown.flashMule {copyB b} (hg : Grown L s.ledger) : Grown L (s.flashMule copyB b).ledger := .emit hg

/-- COMMIT_SVN fuses no lower value (R375). -/
theorem Allows.gateCommitSvn (hg : Grown L s.ledger) : Allows L s.gateCommitSvn := by
  unfold State.gateCommitSvn Machine.need
  split
  · rename_i hc
    simp only [Bool.and_eq_true, decide_eq_true_eq] at hc
    exact .fused _ hc.1 hg
  · exact .error

theorem Allows.gateAttest {slot nonce addr} (hg : Grown L s.ledger) : Allows L (s.gateAttest slot nonce addr) :=
  .ok (.emit hg)

theorem Allows.gateCert {slot addr} (hg : Grown L s.ledger) : Allows L (s.gateCert slot addr) := .ok (.emit hg)

theorem Allows.serveReq {slot x} (hg : Grown L s.ledger) : Allows L (s.serveReq slot x) := by
  dsimp only [State.serveReq]
  split
  · exact .gateAdmit hg
  · exact .gateWithdraw hg
  · exact .gateCtxCreate hg
  · exact .gateCtxDestroy hg
  · exact .gateSegment hg
  · exact .gateGrant hg
  · exact .gateCarve hg
  · exact .ok hg
  · exact .gateHenMin hg
  · exact .gatePools hg
  · exact .gateGmin hg
  · exact .gateSwitch hg
  · exact .ok hg
  · exact .need (.ok (.stageRoute hg))
  · exact .ok (.stageSpread hg)
  · exact .ok (.ite (.sendMaps (.stageRemap hg)) (.stageRemap hg))
  · exact .gateGrants hg
  · exact .ite (.ok (.stageVariant hg)) .error
  · exact .need (.ok hg)
  · exact .gateArm hg
  · exact .ok (.applyPortSet hg)
  · exact .need (.ok hg)
  · exact .need (.ok hg)
  · exact .gateNap hg
  · exact .need (.ok hg)
  · exact .ok hg
  · exact .gateEnroll hg
  · exact .gateRevoke hg
  · exact .gateLoadService hg
  · exact .gateCommitSvn hg
  · exact .ok (.flashMule hg)
  · exact .gateAttest hg
  · exact .gateCert hg
  · exact .error

theorem Allows.serve {slot rsv r} (hg : Grown L s.ledger) : Allows L (s.serve slot rsv r) :=
  .need (.need (.need (.need (.need (.serveReq hg)))))

theorem Grown.callGate {c r} (hg : Grown L s.ledger) : Grown L (s.callGate c r).ledger :=
  .ite hg (.ite hg (.ite (.bumpDev hg) hg))

theorem Grows.withSlot {c r} (hr : Grows L r) : Grows L (withSlot c r) := .withFunc hr

theorem Grown.noteLanding {slot r} (hg : Grown L s.ledger) : Grown L (s.noteLanding slot r).ledger := by
  dsimp only [State.noteLanding]
  refine .ite hg (.ite hg ?_)
  split
  · exact hg
  · exact .ite hg hg

theorem Grown.muleRefused {code status} (hg : Grown L s.ledger) : Grown L (s.muleRefused code status).ledger :=
  .ite hg hg

theorem Grown.readFor {r status} (hg : Grown L s.ledger) : Grown L (s.readFor r status).ledger := by
  dsimp only [State.readFor]
  split
  · exact .ite (.imageAt hg) hg
  · exact hg

theorem Grows.gateCallComplete (hg : Grown L s.ledger) : Grows L (execGateCallComplete s) := by
  dsimp only [execGateCallComplete]
  refine .next ?_
  split
  · exact hg
  · refine .ite hg ?_
    split
    · rename_i e
      have ht := Grown.served e (.serve hg)
      exact .noteLanding ht
    · refine .ite ?_ ?_
      · refine .muleRefused ?_
        split
        · exact .bumpDev (.bumpDev (.upd (.readFor hg)))
        · exact .bumpDev (.upd (.readFor hg))
      · split
        · exact .bumpDev (.bumpDev (.upd (.readFor hg)))
        · exact .bumpDev (.upd (.readFor hg))

theorem Depot.resized_mem (m : Depot) (n : Nat) : (m.resized n).mem = m.mem := by simp [Depot.resized]

/-- A change that lands zeroes the granules that join a carve-out (R313). -/
theorem Grown.landDrain {x} (hg : Grown L s.ledger) : Grown L (s.landDrain x).ledger := by
  simp only [State.landDrain]
  split
  · exact .foldl hg (fun t i ht => .zeroed _ _ ht)
  · exact hg
  · exact hg
  · exact .setDie hg
  · exact .count (.upd hg (Depot.resized_mem _ _))
  · exact hg
  · exact hg

theorem Grown.dropDrain {d} (hg : Grown L s.ledger) : Grown L (s.dropDrain d).ledger := by
  dsimp only [State.dropDrain]
  split
  · exact .setDie hg
  · exact hg

theorem Grows.drainLand (hg : Grown L s.ledger) : Grows L (execDrainLand s) := by
  dsimp only [execDrainLand]
  exact .next (.ite (.foldl hg (fun _ _ ht => .ite (.ite (.upd (.dropDrain (.landDrain ht)))
    (.dropDrain (.landDrain ht))) ht)) hg)

theorem Grows.drainRollback (hg : Grown L s.ledger) : Grows L (execDrainRollback s) := by
  dsimp only [execDrainRollback]
  exact .next (.ite (.foldl hg (fun _ _ ht => .ite (.upd (.upd (.bumpDev (.dropDrain ht)))) ht)) hg)

/-! ### Threads -/

theorem Grows.issue {p i ok act} (hg : Grown L s.ledger) (hact : ∀ t x1, Grown L t.ledger → Grown L (act t x1).ledger)
  :
    Grows L (s.issue p i ok act) :=
  .withPart (.next (.ite (.ite (.ite (hact _ _ hg) hg) hg) hg))

theorem Grows.issueT {p i f} (hg : Grown L s.ledger) : Grows L (s.issueT p i f) := .issue hg (fun _ _ hs => hs)

theorem Grows.scalar {p i rd f} (hg : Grown L s.ledger) : Grows L (s.scalar p i rd f) := .issueT hg

theorem Grown.oxCorrect {eng read} (hg : Grown L s.ledger) : Grown L (s.oxCorrect eng read).ledger := .count hg

theorem Grown.handOver (hg : Grown L s.ledger) : Grown L (s.handOver).ledger := .foldl hg (fun _ _ ht => .ite ht ht)

theorem Grown.releaseClaim {p r} (hg : Grown L s.ledger) : Grown L (s.releaseClaim p r).ledger := by
  dsimp only [State.releaseClaim]
  split
  · split
    · exact hg
    · split
      · exact .release hg
      · exact hg
  · exact hg

theorem Grown.squashRec {p r} (hg : Grown L s.ledger) : Grown L (s.squashRec p r).ledger := by
  dsimp only [State.squashRec]
  split
  · exact .ite (.bumpEng (.bumpEng (.releaseClaim hg))) (.bumpEng (.releaseClaim hg))
  · exact .releaseClaim hg

theorem Grown.squashAll {p} (hg : Grown L s.ledger) : Grown L (s.squashAll p).ledger :=
  .upd (.foldl hg (fun _ _ ha => .squashRec ha))

theorem Grown.stopThread {p} (hg : Grown L s.ledger) : Grown L (s.stopThread p).ledger := .ite hg (.funcCause hg)

theorem Grown.dropSends {p} (hg : Grown L s.ledger) : Grown L (s.dropSends p).ledger :=
  .upd (.foldl hg (fun _ _ ht => .count ht))

theorem Grown.threadFault {p code pc} (hg : Grown L s.ledger) : Grown L (s.threadFault p code pc).ledger :=
  .ite (.stopThread (.bumpPart (.upd (.faultAll (.dropPartS (.dropSends (.squashAll hg))))))) (.faultAll hg)

theorem Grown.deliverPost {p j} (hg : Grown L s.ledger) : Grown L (s.deliverPost p j).ledger := by
  dsimp only [State.deliverPost]
  split
  · exact .bumpPart hg
  · split
    · exact .bumpPart hg
    · split
      · exact .bumpPart hg
      · exact .ite (.cqOverflow (.bumpPart hg)) (.writeRecord hg)

theorem Grown.flushPosts {p} (hg : Grown L s.ledger) : Grown L (s.flushPosts p).ledger :=
  .foldl hg (fun _ _ ha => .deliverPost ha)

theorem Grown.bindLoad {p id addr len sx} (hg : Grown L s.ledger) :
    Grown L (s.bindLoad p id addr len sx).2.ledger := by
  dsimp only [State.bindLoad]
  split
  · exact hg
  · exact .depotRead hg

/-! ### Guand instructions -/

theorem Grows.nop {p h} (hg : Grown L s.ledger) : Grows L (execNop p h s) := .issueT hg

theorem Grows.br {p h cp cn target} (hg : Grown L s.ledger) : Grows L (execBr p h cp cn target s) := .issueT hg

theorem Grows.loop {p h rc end_ max} (hg : Grown L s.ledger) : Grows L (execLoop p h rc end_ max s) := .issueT hg

theorem Grows.lend {p h rc start} (hg : Grown L s.ledger) : Grows L (execLend p h rc start s) := .issueT hg

theorem Grows.tickwait {p h} (hg : Grown L s.ledger) : Grows L (execTickwait p h s) := .issueT hg

theorem Grows.tickwaitComplete {p} (hg : Grown L s.ledger) : Grows L (execTickwaitComplete p s) :=
  .withPart (.next (.ite hg hg))

theorem Grows.cmp {p h pd cond ra imm rb imm26} (hg : Grown L s.ledger) :
    Grows L (execCmp p h pd cond ra imm rb imm26 s) :=
  .issueT hg

theorem Grows.plog {p h pd opl pa pb} (hg : Grown L s.ledger) : Grows L (execPlog p h pd opl pa pb s) := .issueT hg

theorem Grows.rdt {p h rd sel} (hg : Grown L s.ledger) : Grows L (execRdt p h rd sel s) := .issueT hg

theorem Grows.scalarR {p i rd ra rb f} (hg : Grown L s.ledger) : Grows L (s.scalarR p i rd ra rb f) := .scalar hg

theorem Grows.add {p h rd ra rb} (hg : Grown L s.ledger) : Grows L (execAdd p h rd ra rb s) := .scalarR hg

theorem Grows.sub {p h rd ra rb} (hg : Grown L s.ledger) : Grows L (execSub p h rd ra rb s) := .scalarR hg

theorem Grows.mul {p h rd ra rb} (hg : Grown L s.ledger) : Grows L (execMul p h rd ra rb s) := .scalarR hg

theorem Grows.divide {p i rd ra rb re f} (hg : Grown L s.ledger) : Grows L (s.divide p i rd ra rb re f) := .issueT hg

theorem Grows.divs {p h rd ra rb re} (hg : Grown L s.ledger) : Grows L (execDivs p h rd ra rb re s) := .divide hg

theorem Grows.divu {p h rd ra rb re} (hg : Grown L s.ledger) : Grows L (execDivu p h rd ra rb re s) := .divide hg

theorem Grows.neg {p h rd ra} (hg : Grown L s.ledger) : Grows L (execNeg p h rd ra s) := .scalar hg

theorem Grows.abs {p h rd ra} (hg : Grown L s.ledger) : Grows L (execAbs p h rd ra s) := .scalar hg

theorem Grows.and {p h rd ra rb} (hg : Grown L s.ledger) : Grows L (execAnd p h rd ra rb s) := .scalarR hg

theorem Grows.or {p h rd ra rb} (hg : Grown L s.ledger) : Grows L (execOr p h rd ra rb s) := .scalarR hg

theorem Grows.xor {p h rd ra rb} (hg : Grown L s.ledger) : Grows L (execXor p h rd ra rb s) := .scalarR hg

theorem Grows.shl {p h rd ra rb} (hg : Grown L s.ledger) : Grows L (execShl p h rd ra rb s) := .scalarR hg

theorem Grows.shr {p h rd ra rb} (hg : Grown L s.ledger) : Grows L (execShr p h rd ra rb s) := .scalarR hg

theorem Grows.sra {p h rd ra rb} (hg : Grown L s.ledger) : Grows L (execSra p h rd ra rb s) := .scalarR hg

theorem Grows.adds {p h rd ra rb} (hg : Grown L s.ledger) : Grows L (execAdds p h rd ra rb s) := .scalarR hg

theorem Grows.subs {p h rd ra rb} (hg : Grown L s.ledger) : Grows L (execSubs p h rd ra rb s) := .scalarR hg

theorem Grows.muls {p h rd ra rb} (hg : Grown L s.ledger) : Grows L (execMuls p h rd ra rb s) := .scalarR hg

theorem Grows.adduS {p h rd ra rb} (hg : Grown L s.ledger) : Grows L (execAdduS p h rd ra rb s) := .scalarR hg

theorem Grows.subuS {p h rd ra rb} (hg : Grown L s.ledger) : Grows L (execSubuS p h rd ra rb s) := .scalarR hg

theorem Grows.addi {p h rd ra imm} (hg : Grown L s.ledger) : Grows L (execAddi p h rd ra imm s) := .scalar hg

theorem Grows.movi {p h rd imm} (hg : Grown L s.ledger) : Grows L (execMovi p h rd imm s) := .scalar hg

theorem Grows.ori {p h rd ra imm} (hg : Grown L s.ledger) : Grows L (execOri p h rd ra imm s) := .scalar hg

theorem Grows.ld {p h rd ra sz sx off} (hg : Grown L s.ledger) : Grows L (execLd p h rd ra sz sx off s) := by
  dsimp only [execLd]
  exact .issue hg (fun _ _ hs => .ite hs (.upd (.bindLoad hs)))

theorem Grows.ldDataReturn {p id} (hg : Grown L s.ledger) : Grows L (execLdDataReturn p id s) := by
  dsimp only [execLdDataReturn]
  refine .withPart (.next ?_)
  split
  · exact hg
  · split
    · refine .ite hg (.upd ?_)
      split
      · exact hg
      · exact .bindLoad hg
    · exact hg

theorem Grows.st {p h rs ra sz off} (hg : Grown L s.ledger) : Grows L (execSt p h rs ra sz off s) := by
  dsimp only [execSt]
  exact .issue hg (fun _ _ hs => hs)

theorem Grows.atomicIssue {p i ra off n rd awaited op} (hg : Grown L s.ledger) :
    Grows L (s.atomicIssue p i ra off n rd awaited op) :=
  .issue hg (fun _ _ hs => hs)

theorem Grows.aadd {p h rd ra rb off} (hg : Grown L s.ledger) : Grows L (execAadd p h rd ra rb off s) :=
  .atomicIssue hg

theorem Grows.aswp {p h rd ra rb off} (hg : Grown L s.ledger) : Grows L (execAswp p h rd ra rb off s) :=
  .atomicIssue hg

theorem Grows.acas {p h rd ra rb re off} (hg : Grown L s.ledger) : Grows L (execAcas p h rd ra rb re off s) :=
  .atomicIssue hg

theorem Grows.acas2 {p h rd ra rb re off} (hg : Grown L s.ledger) : Grows L (execAcas2 p h rd ra rb re off s) :=
  .atomicIssue hg

theorem Grows.fenceDepot {p h} (hg : Grown L s.ledger) : Grows L (execFenceDepot p h s) := .issueT hg

theorem Grows.fenceTick {p h} (hg : Grown L s.ledger) : Grows L (execFenceTick p h s) := .issueT hg

theorem Grows.recv {p h hd grant cr dl} (hg : Grown L s.ledger) : Grows L (execRecv p h hd grant cr dl s) :=
  .issueT hg

theorem Grows.send {p h port slot nf srck t rr cr fr dr slen ff lf eng} (hg : Grown L s.ledger) :
    Grows L (execSend p h port slot nf srck t rr cr fr dr slen ff lf eng s) :=
  .issueT hg

theorem Grows.expect {p h pr hmask hf heng hw hole nfr} (hg : Grown L s.ledger) :
    Grows L (execExpect p h pr hmask hf heng hw hole nfr s) :=
  .issue hg (fun _ _ hs => hs)

theorem Grows.lclr {p h eng w base rows form oper sgn} (hg : Grown L s.ledger) :
    Grows L (execLclr p h eng w base rows form oper sgn s) :=
  .issueT hg

theorem Grows.tld {p h eng t fmt src ra rows tr tc} (hg : Grown L s.ledger) :
    Grows L (execTld p h eng t fmt src ra rows tr tc s) := by
  dsimp only [execTld]
  refine .issue hg (fun _ _ hs => (.ite hs ?_))
  split <;> exact hs

theorem Grows.tacc {p h eng t w k lane} (hg : Grown L s.ledger) : Grows L (execTacc p h eng t w k lane s) :=
  .issueT hg

theorem Grows.emit {p h eng w t fmt rm clamp kr cr er n lane e0i} (hg : Grown L s.ledger) :
    Grows L (execEmit p h eng w t fmt rm clamp kr cr er n lane e0i s) :=
  .issueT hg

theorem Grows.tst {p h eng t ra rows tw tr tc} (hg : Grown L s.ledger) :
    Grows L (execTst p h eng t ra rows tw tr tc s) :=
  .issue hg (fun _ _ hs => hs)

theorem Grows.post {p h rq ra fl eng w irq} (hg : Grown L s.ledger) : Grows L (execPost p h rq ra fl eng w irq s) :=
  .issueT hg

/-! ### Port HP -/

theorem Grows.cqTimedFire {qid} (hg : Grown L s.ledger) : Grows L (execCqTimedFire qid s) :=
  .withQueue (.next (.ite (.cqTest hg) hg))

theorem Grown.drainPba {fn} (hg : Grown L s.ledger) : Grown L (s.drainPba fn).ledger :=
  .ite (.foldl hg (fun _ _ ht => .emit ht)) hg

theorem Grown.setMask {fn entry mask} (hg : Grown L s.ledger) : Grown L (s.setMask fn entry mask).ledger :=
  .drainPba hg

theorem Grows.msixUnmask {fn entry} (hg : Grown L s.ledger) : Grows L (execMsixUnmask fn entry s) :=
  .withFunc (.withUnit (.next (.ite (.setMask hg) hg)))

theorem Grown.clearFuncCause {p v} (hg : Grown L s.ledger) : Grown L (s.clearFuncCause p v).ledger :=
  .ite hg (.fire hg)

theorem Grows.funcCauseClear {path p v} (hg : Grown L s.ledger) : Grows L (execFuncCauseClear path p v s) :=
  .withPart (.next (.ite (.clearFuncCause hg) hg))

theorem Grown.clearMgmtCause {v} (hg : Grown L s.ledger) : Grown L (s.clearMgmtCause v).ledger := .ite hg (.fire hg)

theorem Grows.mgmtCauseClear {path v} (hg : Grown L s.ledger) : Grows L (execMgmtCauseClear path v s) :=
  .next (.ite (.clearMgmtCause hg) hg)

theorem Grown.flushEntry {qid} (hg : Grown L s.ledger) : Grown L (s.flushEntry qid).ledger := by
  dsimp only [State.flushEntry]
  split
  · exact hg
  · refine .ite hg ?_
    split
    · exact hg
    · exact .writeRecord (.upd (.fresh hg))

theorem Grown.flushSq {qid} (hg : Grown L s.ledger) : Grown L (s.flushSq qid).ledger := by
  dsimp only [State.flushSq]
  split
  · exact hg
  · exact .foldl hg (fun _ _ ht => .flushEntry ht)

theorem Grown.closeStreams {c} (hg : Grown L s.ledger) : Grown L (s.closeStreams c).ledger := by
  dsimp only [State.closeStreams]
  refine .upd (.foldl hg (fun _ _ ht => (.foldl ht (fun _ _ ha => ?_))))
  split
  · exact .setEntry ha
  · exact ha

theorem Grown.tearDown {c} (hg : Grown L s.ledger) : Grown L (s.tearDown c).ledger :=
  .ite (.upd (.foldl (.foldl (.closeStreams hg) (fun _ _ ht => .voidMsg ht))
    (fun _ _ ht => .foldl ht (fun _ _ hu => .disableQueue hu)))) (.foldl
    (.foldl (.closeStreams hg) (fun _ _ ht => .voidMsg ht)) (fun _ _ ht => .foldl ht
    (fun _ _ hu => .disableQueue hu)))

theorem Grown.destroyCtx {c} (hg : Grown L s.ledger) : Grown L (s.destroyCtx c).ledger := by
  dsimp only [State.destroyCtx]
  split
  · exact hg
  · exact .ite hg (.ite (.foldl hg (fun _ _ ht => .flushSq ht)) (.tearDown (.foldl hg (fun _ _ ht => .flushSq ht))))

theorem Grown.flrPart {p} (hg : Grown L s.ledger) : Grown L (s.flrPart p).ledger := by
  dsimp only [State.flrPart]
  refine .upd (.upd (.foldl (.foldl (.ite (.upd (.squashAll hg)) hg) (fun _ _ ha => .foldl
    (.foldl (.foldl ha (fun _ _ hu => .disableQueue (.flushSq hu))) (fun _ _ hu => .disableQueue hu))
    (fun _ _ hu => .disableQueue hu))) (fun _ _ ha => ?_)))
  split
  · exact ha
  · exact .ite ha ha

theorem Grows.vfFlr {vf} (hg : Grown L s.ledger) : Grows L (execVfFlr vf s) :=
  .withFunc (.withUnit (.next (.ite (.flrPart hg) hg)))

theorem Grows.pfFlr (hg : Grown L s.ledger) : Grows L (execPfFlr s) := .next (.ite hg hg)

theorem Grown.flrVfs (hg : Grown L s.ledger) : Grown L (s.flrVfs).ledger := .foldl hg (fun _ _ ht => .flrPart ht)

theorem Grows.perstNAssert (hg : Grown L s.ledger) : Grows L (execPerstNAssert s) := by
  dsimp only [execPerstNAssert]
  exact .next (.ite hg (.upd (.upd (.flrVfs hg))))

theorem Grown.hpTrain (hg : Grown L s.ledger) : Grown L (s.hpTrain).ledger := .ite hg hg

theorem Grows.perstNDeassert (hg : Grown L s.ledger) : Grows L (execPerstNDeassert s) := .next (.hpTrain hg)

theorem Grows.portHpLinkTraining (hg : Grown L s.ledger) : Grows L (execPortHpLinkTraining s) := .next (.hpTrain hg)

theorem Grows.portHpTrained (hg : Grown L s.ledger) : Grows L (execPortHpTrained s) := .next (.ite hg hg)

theorem Grows.flrComplete {fn} (hg : Grown L s.ledger) : Grows L (execFlrComplete fn s) := by
  dsimp only [execFlrComplete]
  exact .withFunc (.next (.ite hg (.ite hg (.ite hg (.upd (.foldl hg (fun _ _ ha => .foldl ha
    (fun _ _ hu => .disableQueue hu))))))))

theorem Grows.configRequest {fn r} (hg : Grown L s.ledger) : Grows L (execConfigRequest fn r s) := by
  dsimp only [execConfigRequest]
  refine .withFunc (.next (.ite (.emit hg) (.ite hg ?_)))
  split
  · exact .emit hg
  · exact .ite hg (.ite (.upd (.flrVfs hg)) hg)
  · exact .drainPba hg
  · exact hg
  · exact hg

/-! ### Begin, retire and write buffers -/

theorem Grown.beginFrameLoad {p e t fmt tr tc hd fr own} (hg : Grown L s.ledger) :
    Grown L (s.beginFrameLoad p e t fmt tr tc hd fr own).2.ledger := by
  dsimp only [State.beginFrameLoad]
  split
  · exact hg
  · refine .ite_snd hg ?_
    split
    · exact .ite_snd (.bumpDie hg) (.ite (.crossBridge hg) hg)
    · exact hg

theorem Grown.beginOp {p id op} (hg : Grown L s.ledger) : Grown L (s.beginOp p id op).2.ledger := by
  dsimp only [State.beginOp]
  split
  · exact hg
  · exact .beginFrameLoad hg
  · split
    · exact hg
    · exact .ite_snd hg (.ite_snd (.depotRead hg) (.depotRead hg))
  · exact .ite_snd hg (.ite_snd (.oxCorrect hg) (.oxCorrect hg))
  · exact .ite_snd hg (.ite_snd (.oxCorrect hg) (.oxCorrect hg))
  · exact .ite_snd (.oxCorrect hg) (.ite_snd hg (.oxCorrect hg))
  · exact hg

theorem Grown.addStreams {e l} (hg : Grown L s.ledger) : Grown L (s.addStreams e l).ledger := .ite hg hg

theorem Grows.oxOpBegin {p id} (hg : Grown L s.ledger) : Grows L (execOxOpBegin p id s) := by
  dsimp only [execOxOpBegin]
  refine .withPart (.next ?_)
  split
  · exact hg
  · split
    · exact hg
    · refine .ite hg ?_
      split
      · rename_i e
        have hs1 := Grown.snd e (.beginOp hg)
        exact hs1
      · rename_i e
        have hs1 := Grown.snd e (.beginOp hg)
        exact .ite (.bumpEng hg) (.addStreams hs1)

theorem Grows.arrivalTest {p} (hg : Grown L s.ledger) : Grows L (execArrivalTest p s) := by
  dsimp only [execArrivalTest]
  refine .withPart (.next ?_)
  split
  · exact hg
  · split <;> exact hg

theorem Grown.faultRec {p r code} (hg : Grown L s.ledger) : Grown L (s.faultRec p r code).ledger :=
  .threadFault (.upd (.releaseClaim hg))

theorem Grown.countTallyBad {e l} (hg : Grown L s.ledger) : Grown L (s.countTallyBad e l).ledger :=
  .foldl hg (fun _ _ ha => .ite (.bumpPort ha) (.bumpEng ha))

theorem Grown.retireOx {p e r} (hg : Grown L s.ledger) : Grown L (s.retireOx p e r).ledger := by
  dsimp only [State.retireOx]
  split
  · exact .upd (.upd (.count (.countTallyBad (.releaseClaim hg))))
  · exact .upd (.count (.countTallyBad (.releaseClaim hg)))

theorem Grown.holePath {p pr hole c} (hg : Grown L s.ledger) : Grown L (s.holePath p pr hole c).ledger :=
  .bumpPart (.upd (.squashAll hg))

theorem Grown.retireExpect {p r pr hf heng hw hole ok} (hg : Grown L s.ledger) :
    Grown L (s.retireExpect p r pr hf heng hw hole ok).ledger :=
  .ite hg (.ite (.faultRec hg) (.holePath (.ite hg hg)))

theorem Grows.retire {p} (hg : Grown L s.ledger) : Grows L (execRetire p s) := by
  dsimp only [execRetire]
  refine .withPart (.next ?_)
  split
  · exact hg
  · split
    · split
      · exact .ite hg (.ite hg (.faultRec hg))
      · exact hg
    · split
      · exact .faultRec hg
      · exact .ite hg hg
    · split
      · exact .faultRec hg
      · exact .ite (.ite (.bumpPart hg) hg) hg
    · exact .ite hg hg
    · split
      · exact .retireExpect hg
      · exact hg
    · exact .ite (.faultRec hg) (.ite hg hg)
    · exact .ite (.faultRec hg) (.flushPosts hg)
    · refine .ite hg (.ite (.faultRec hg) ?_)
      split
      · exact hg
      · split
        · exact .ite (.retireOx hg) hg
        · exact .retireOx hg

theorem Grows.copyBackEnd {engine tile} (hg : Grown L s.ledger) : Grows L (execCopyBackEnd engine tile s) :=
  .withUnit (.next (.ite (.ite hg (.count hg)) hg))

theorem Grown.sendBytes {depot eng t addr nf slen j} (hg : Grown L s.ledger) :
    Grown L (s.sendBytes depot eng t addr nf slen j).2.ledger :=
  .ite_snd (.depotRead hg) (.ite_snd (.addStreams (.oxCorrect hg)) (.ite (.bumpEng (.addStreams (.oxCorrect hg)))
    (.addStreams (.oxCorrect hg))))

theorem Grown.queueS {p port slot dst bytes first last tally tick chunk frame j} (hg : Grown L s.ledger) :
    Grown L (s.queueS p port slot dst bytes first last tally tick chunk frame j).ledger := by
  dsimp only [State.queueS]
  refine .ite hg ?_
  split
  · exact .noBuffer hg
  · exact .addWait hg
  · exact .upd (.storeCopies hg)

theorem Grown.sendFrames {p port slot nf depot t dst chunk frame addr slen ff lf eng tick pc f k j}
    (hg : Grown L s.ledger) :
    Grown L (s.sendFrames p port slot nf depot t dst chunk frame addr slen ff lf eng tick pc f k j).ledger := by
  induction k generalizing s j with
  | zero => exact hg
  | succ k ih =>
    simp only [State.sendFrames]
    split
    · rename_i e
      exact .threadFault (.snd e (.sendBytes hg))
    · rename_i e
      have h0 := Grown.snd e (.sendBytes hg)
      exact ih (.queueS (.ite h0 (.crossBridge h0)))

theorem Grows.sendTileRead {p id} (hg : Grown L s.ledger) : Grows L (execSendTileRead p id s) := by
  dsimp only [execSendTileRead]
  refine .withPart (.next ?_)
  split
  · exact hg
  · refine .ite hg ?_
    split
    · refine .ite hg ?_
      split
      · exact .bumpPart hg
      · exact .sendFrames hg
    · exact hg

theorem Grown.setWb {a l} (hg : Grown L s.ledger) : Grown L (s.setWb a l).ledger := by
  dsimp only [State.setWb]
  split <;> exact hg

theorem Grows.withAgent {a r} (hr : Grows L r) : Grows L (withAgent a r) := by
  cases a with
  | thread p => exact .withPart hr
  | mule k => exact .withUnit hr

theorem Grown.wbError {a e n} (hg : Grown L s.ledger) : Grown L (s.wbError a e n).ledger := by
  dsimp only [State.wbError]
  split
  · exact .foldl hg (fun _ _ ht => .threadFault ht)
  · exact hg

theorem Grown.wbDone {a} (hg : Grown L s.ledger) : Grown L (s.wbDone a).ledger := by
  dsimp only [State.wbDone]
  split
  · exact .flushPosts hg
  · exact hg

theorem Grows.storePerformed {a} (hg : Grown L s.ledger) : Grows L (execStorePerformed a s) := by
  dsimp only [execStorePerformed]
  refine .withAgent (.next ?_)
  split
  · exact hg
  · refine .ite hg ?_
    split
    · exact .wbDone (.ite (.depotStore (.setWb hg)) (.wbError (.depotStore (.setWb hg))))
    · exact .wbDone (.ite (.depotStore (.setWb hg)) (.wbError (.depotStore (.setWb hg))))
    · exact hg

theorem Grows.atomicPerformed {a} (hg : Grown L s.ledger) : Grows L (execAtomicPerformed a s) := by
  unfold execAtomicPerformed
  refine .withAgent (.next ?_)
  split
  · exact hg
  · split
    · exact hg
    · exact hg
    · extract_lets r s1 s2
      have hr : Grown L r.2.2.ledger := .depotRead (.setWb hg)
      have h1 : Grown L s1.ledger := by
        dsimp only [s1]
        split
        · exact .depotPiece hr
        · exact hr
      have h2 : Grown L s2.ledger := by
        dsimp only [s2]
        split
        · exact .upd h1
        · exact .emit h1
        · exact h1
      exact .ite hg (.ite (.wbDone (.wbError hr)) (.wbDone h2))

theorem Grows.hingeDrainEnd (hg : Grown L s.ledger) : Grows L (execHingeDrainEnd s) := .next (.ite hg hg)

/-! ### Mule's accesses to the depot -/

/-- A load by Mule gives an open value for each byte where a unit cannot be read. -/
theorem Grown.muleLoad {core a n} (hg : Grown L s.ledger) : Grown L (s.muleLoad core a n).ledger := by
  have hf : (s.depotRead a n).2.2.free = s.free := by simp [State.depotRead, State.eccCorrect]
  have hle : (s.depotRead a n).2.2.ledger.free ≤ if (s.depotRead a n).1 then s.free else s.free + n := by
    simp only [State.ledger, hf]; split <;> omega
  have hr := Grown.gave _ hle (.depotRead hg)
  exact .emit hr

theorem Grown.mulePush {core a op} (hg : Grown L s.ledger) : Grown L (s.mulePush core a op).ledger := .setWb hg

theorem Grown.muleViolation {core n} (hg : Grown L s.ledger) : Grown L (s.muleViolation core n).ledger := by
  dsimp only [State.muleViolation]
  split
  · exact .emit (.bumpDev hg)
  · exact .bumpDev hg

theorem Grown.muleAtomic {core a n op} (hg : Grown L s.ledger) : Grown L (s.muleAtomic core a n op).ledger :=
  .ite (.muleViolation hg) (.ite hg (.mulePush hg))

theorem Grown.muleAccess {core x} (hg : Grown L s.ledger) : Grown L (s.muleAccess core x).ledger := by
  dsimp only [State.muleAccess]
  split
  · exact .ite (.muleViolation hg) (.ite hg (.muleLoad hg))
  · exact .ite (.muleViolation hg) (.ite hg (.mulePush hg))
  · exact .ite (.muleViolation hg) (.ite hg (.mulePush hg))
  · exact .muleAtomic hg
  · exact .muleAtomic hg
  · exact .muleAtomic hg
  · exact .muleAtomic hg

theorem Grows.muleDepotAccess {core a} (hg : Grown L s.ledger) : Grows L (execMuleDepotAccess core a s) :=
  .withUnit (.next (.ite (.muleAccess hg) hg))

theorem Grows.scrubPassEnd (hg : Grown L s.ledger) : Grows L (execScrubPassEnd s) := by
  dsimp only [execScrubPassEnd]
  refine .next ?_
  split
  · exact hg
  · exact .ite (.bumpDev (.upd (.count (.count hg)))) hg

/-! ### Resets and power -/

theorem Grows.coldResetEnd {b} (hg : Grown L s.ledger) : Grows L (execColdResetEnd b s) :=
  .next (.ite hg (.extend0 (.extend0 (.ite hg (.bumpDev hg)))))

theorem Grown.startMule {copyB b} (hg : Grown L s.ledger) : Grown L (s.startMule copyB b).ledger := .extend0 hg

theorem Grown.copyFailed {copyB} (hg : Grown L s.ledger) : Grown L (s.copyFailed copyB).ledger := .ite hg hg

theorem Grows.bootCopyCheck {copyB image} (hg : Grown L s.ledger) : Grows L (execBootCopyCheck copyB image s) :=
  .next (.ite (.ite (.startMule hg) (.copyFailed hg)) hg)

theorem Grows.muleRestart (hg : Grown L s.ledger) : Grows L (execMuleRestart s) :=
  .next (.ite (.measure (.bumpDev hg)) hg)

theorem Grown.allStop (hg : Grown L s.ledger) : Grown L (s.allStop).ledger :=
  .foldl hg (fun _ _ ha => .restartPort ha)

theorem Grows.lockstepMismatch (hg : Grown L s.ledger) : Grows L (execLockstepMismatch s) := by
  dsimp only [execLockstepMismatch]
  exact .next (.ite hg (.upd (.allStop hg)))

theorem Grows.thermalTrip {west east stack} (hg : Grown L s.ledger) :
    Grows L (execThermalTrip west east stack s) := by
  dsimp only [execThermalTrip]
  exact .next (.ite (.emit (.upd (.allStop hg))) hg)

theorem Grows.tapInstruction {ir} (hg : Grown L s.ledger) : Grows L (execTapInstruction ir s) :=
  .next (.ite (.emit (.emit hg)) (.emit hg))

theorem Grows.tapReset (hg : Grown L s.ledger) : Grows L (execTapReset s) := .next hg

theorem Grown.admitPort {p} (hg : Grown L s.ledger) : Grown L (s.admitPort p).ledger := .lanesFrom hg

theorem Grows.portGroupAdmit {group} (hg : Grown L s.ledger) : Grows L (execPortGroupAdmit group s) :=
  .withUnit (.next (.ite (.foldl hg (fun _ _ ht => .ite (.admitPort ht) ht)) hg))

theorem Grows.gmCandidacyStart (hg : Grown L s.ledger) : Grows L (execGmCandidacyStart s) :=
  .next (.ite (.ite hg hg) hg)

theorem Grows.readyPublish (hg : Grown L s.ledger) : Grows L (execReadyPublish s) := .next (.ite (.mgmtCause hg) hg)

/-! ### Mule at work -/

theorem Grown.openReply {m} (hg : Grown L s.ledger) : Grown L (s.openReply m).ledger :=
  .gave _ (Nat.le_add_right _ _) (.fresh (.fresh hg))

theorem Grown.serveMsg {m service op act} (hg : Grown L s.ledger) (hact : ∀ t, Grown L t.ledger → Grown L
  (act t).ledger) :
    Grown L (s.serveMsg m service op act).ledger :=
  .ite hg (.ite (.ite (hact _ hg) (.ite hg hg)) (.ite (.ite hg hg) (.ite hg
    (.ite hg (.ite (.openReply hg) (.ite hg (.ite (hact _ hg) hg)))))))

theorem Grows.serveFixed {m service op n act} (hg : Grown L s.ledger) (hact : ∀ t, Grown L t.ledger → Grown L
  (act t).ledger) :
    Grows L (s.serveFixed m service op n act) :=
  .next (.serveMsg hg (fun _ ht => .ite (hact _ ht) ht))

theorem Grows.serveDepot {m op n write act} (hg : Grown L s.ledger) (hact : ∀ t, Grown L t.ledger → Grown L
  (act t).ledger) :
    Grows L (s.serveDepot m op n write act) :=
  .serveFixed hg (fun _ ht => .ite (hact _ ht) ht)

theorem Grown.placeExtents {len room n used acc} (hg : Grown L s.ledger) :
    Grown L (s.placeExtents len room n used acc).2.ledger := by
  induction n generalizing s used acc with
  | zero => exact hg
  | succ n ih =>
    simp only [State.placeExtents]
    split
    · exact hg
    · exact ih (.fresh hg)

theorem Grows.create {m} (hg : Grown L s.ledger) : Grows L (execCreate m s) := by
  dsimp only [execCreate]
  refine .serveDepot hg (fun _ ht => (.ite ht (.ite ht (.ite ht ?_))))
  split
  · rename_i e
    have hu := Grown.snd e (.placeExtents ht)
    exact hu
  · rename_i e
    have hu := Grown.snd e (.placeExtents ht)
    exact hu

theorem Grows.put {m} (hg : Grown L s.ledger) : Grows L (execPut m s) := by
  dsimp only [execPut]
  refine .next (.serveMsg hg (fun _ ht => (.ite ht (.ite ht ?_))))
  split
  · exact ht
  · refine .ite ht (.ite ht ?_)
    split
    · exact ht
    · exact .ite hg (.upd (.upd (.depotStream ht)))

theorem Grows.commit {m} (hg : Grown L s.ledger) : Grows L (execCommit m s) := by
  dsimp only [execCommit]
  refine .serveDepot hg (fun _ ht => ?_)
  split
  · exact ht
  · split
    · exact ht
    · exact .ite ht (.ite ht ht)

theorem Grows.get {m} (hg : Grown L s.ledger) : Grows L (execGet m s) := by
  dsimp only [execGet]
  refine .serveDepot hg (fun _ ht => ?_)
  split
  · exact ht
  · split
    · exact ht
    · refine .ite ht ?_
      split
      · exact ht
      · exact .ite hg (.ite (.upd (.depotRead ht)) (.upd (.depotRead ht)))

theorem Grows.drop {m} (hg : Grown L s.ledger) : Grows L (execDrop m s) := by
  dsimp only [execDrop]
  refine .serveDepot hg (fun _ ht => ?_)
  split <;> exact ht

theorem Grown.releaseBarrier {k barrier} (hg : Grown L s.ledger) : Grown L (s.releaseBarrier k barrier).ledger := by
  dsimp only [State.releaseBarrier]
  split
  · exact hg
  · exact .ite (.foldl hg (fun _ _ ht => ht)) hg

theorem Grown.withJob {m act} (hg : Grown L s.ledger) (hact : ∀ x0, Grown L (act x0).ledger) :
    Grown L (s.withJob m act).ledger := by
  dsimp only [State.withJob]
  split
  · exact hg
  · exact hact _

theorem Grows.join {m} (hg : Grown L s.ledger) : Grows L (execJoin m s) :=
  .serveFixed hg (fun _ ht => .ite ht (.ite ht (.ite ht (.foldl ht (fun _ _ hu => .releaseBarrier hu)))))

theorem Grows.leave {m} (hg : Grown L s.ledger) : Grows L (execLeave m s) :=
  .serveFixed hg (fun _ ht => .withJob ht (fun _ => .ite ht ht))

theorem Grows.arrive {m} (hg : Grown L s.ledger) : Grows L (execArrive m s) := by
  dsimp only [execArrive]
  refine .serveFixed hg (fun _ ht => (.withJob ht (fun _ => ?_)))
  split
  · exact ht
  · exact .releaseBarrier ht

theorem Grows.arriveTimeout {job} (hg : Grown L s.ledger) : Grows L (execArriveTimeout job s) := by
  dsimp only [execArriveTimeout]
  refine .next ?_
  split
  · exact hg
  · exact .ite (.foldl hg (fun _ _ ht => ht)) hg

theorem Grows.propose {m} (hg : Grown L s.ledger) : Grows L (execPropose m s) := by
  dsimp only [execPropose]
  refine .next (.serveMsg hg (fun _ ht => (.ite ht (.withJob ht (fun _ => ?_)))))
  split
  · exact ht
  · exact .ite ht ht

theorem Grows.forget {m} (hg : Grown L s.ledger) : Grows L (execForget m s) :=
  .serveFixed hg (fun _ ht => .withJob ht (fun _ => .ite ht ht))

theorem Grows.drain {m} (hg : Grown L s.ledger) : Grows L (execDrain m s) :=
  .serveFixed hg (fun _ ht => .ite ht (.ite ht (.ite ht ht)))

theorem Grows.drainPartStart {id} (hg : Grown L s.ledger) : Grows L (execDrainPartStart id s) := by
  dsimp only [execDrainPartStart]
  refine .next ?_
  split
  · exact hg
  · exact .ite hg hg

theorem Grows.partDone {m} (hg : Grown L s.ledger) : Grows L (execPartDone m s) := by
  dsimp only [execPartDone]
  refine .serveFixed hg (fun _ ht => (.ite ht ?_))
  split
  · exact ht
  · exact .ite ht ht

theorem Grows.partResend {id part} (hg : Grown L s.ledger) : Grows L (execPartResend id part s) := by
  dsimp only [execPartResend]
  refine .next ?_
  split
  · exact hg
  · split
    · exact hg
    · exact .ite (.ite hg hg) hg

theorem Grown.findSwap {key} (hg : Grown L s.ledger) : Grown L (s.findSwap key).1.ledger := by
  dsimp only [State.findSwap]
  split
  · exact hg
  · split
    · exact hg
    · split
      · exact hg
      · exact .depotRead hg

theorem Grown.stageArm {t toEpoch keys} (hg : Grown L s.ledger) : Grown L (s.stageArm t toEpoch keys).ledger := by
  unfold State.stageArm
  refine .ite hg (.ite hg ?_)
  extract_lets r u m v
  have hr : Grown L r.1.ledger := by
    refine .foldl_fst hg (fun a k ha => ?_)
    dsimp only
    exact .findSwap ha
  have hv : Grown L v.ledger := .upd hr
  exact .upd (.foldl hv (fun _ _ ha => .upd ha))

theorem Grown.floodHeld (hg : Grown L s.ledger) : Grown L s.floodHeld.ledger := by
  unfold State.floodHeld
  extract_lets take keys t id next body r bytes u m v w x
  have hv : Grown L v.ledger := .upd hg
  have hw : Grown L w.ledger := .foldl hv (fun _ _ ha => .upd ha)
  have hx : Grown L x.ledger := .foldl hw (fun _ _ ha => by split <;> exact ha)
  exact .ite hg (.stageArm hx)

theorem Grows.armReq {m} (hg : Grown L s.ledger) : Grows L (execArmReq m s) := by
  dsimp only [execArmReq]
  refine .ite (.next (.serveMsg hg (fun _ ht => ?_))) (.serveFixed hg (fun _ ht => .ite (.floodHeld ht) ht))
  split
  · exact ht
  · split <;> exact ht

theorem Grows.armReqResend (hg : Grown L s.ledger) : Grows L (execArmReqResend s) :=
  .next (.ite (.foldl hg (fun _ _ ht => .ite (.floodHeld ht) ht)) hg)

theorem Grows.heldArmFlood (hg : Grown L s.ledger) : Grows L (execHeldArmFlood s) := .next (.ite (.floodHeld hg) hg)

theorem Grows.arm {port m} (hg : Grown L s.ledger) : Grows L (execArm port m s) :=
  .withPort (.next (.serveMsg hg (fun _ ht => .ite ht (.stageArm (.foldl ht (fun _ _ ha => ha))))))

theorem Grows.stagingDeadline (hg : Grown L s.ledger) : Grows L (execStagingDeadline s) := by
  dsimp only [execStagingDeadline]
  refine .next ?_
  split
  · exact hg
  · exact .ite (.ite hg hg) hg

theorem Grown.requestVariant {p v} (hg : Grown L s.ledger) : Grown L (s.requestVariant p v).ledger := .armRequest hg

theorem Grown.requestSwap {p v} (hg : Grown L s.ledger) : Grown L (s.requestSwap p v).ledger := by
  dsimp only [State.requestSwap]
  split
  · exact .ite hg hg
  · split
    · exact .ite (.ite hg hg) (.ite (.armRequest hg) hg)
    · exact .ite (.armRequest hg) hg

theorem Grown.reviewVariant {d p} (hg : Grown L s.ledger) : Grown L (s.reviewVariant d p).ledger := by
  dsimp only [State.reviewVariant]
  split
  · exact hg
  · refine .ite hg ?_
    split
    · exact hg
    · refine .ite hg ?_
      split
      · exact .ite (.requestVariant hg) hg
      · exact .requestSwap hg

theorem Grown.reviewLane {p j} (hg : Grown L s.ledger) : Grown L (s.reviewLane p j).ledger := .ite hg hg

theorem Grown.reviewNap {d p} (hg : Grown L s.ledger) : Grown L (s.reviewNap d p).ledger := by
  dsimp only [State.reviewNap]
  split
  · exact hg
  · exact .ite hg hg

theorem Grown.reviewHeat {d} (hg : Grown L s.ledger) : Grown L (s.reviewHeat d).ledger := by
  dsimp only [State.reviewHeat]
  exact .ite (.upd hg) (.upd hg)

theorem Grows.muleHingeReview (hg : Grown L s.ledger) : Grows L (execMuleHingeReview s) := by
  dsimp only [execMuleHingeReview]
  refine .next ?_
  split
  · exact hg
  · exact .ite hg (.reviewHeat (.foldl (.foldl (.foldl hg (fun _ _ ht => .foldl ht (fun _ _ hu => .reviewLane hu)))
      (fun _ _ ht => .reviewVariant ht)) (fun _ _ ht => .reviewNap ht)))

theorem Grows.spreadWeightReview (hg : Grown L s.ledger) : Grows L (execSpreadWeightReview s) := by
  dsimp only [execSpreadWeightReview]
  refine .next ?_
  split
  · exact hg
  · exact .ite (.armRequest (.foldl hg (fun _ _ ht => ht))) hg

theorem Grows.laneExclusionRelease {port lane} (hg : Grown L s.ledger) :
    Grows L (execLaneExclusionRelease port lane s) := by
  dsimp only [execLaneExclusionRelease]
  refine .withLane (.next ?_)
  split
  · exact hg
  · exact .ite hg hg

theorem Grows.normalVariantReturn {p} (hg : Grown L s.ledger) : Grows L (execNormalVariantReturn p s) := by
  dsimp only [execNormalVariantReturn]
  refine .withPart (.next ?_)
  split
  · exact hg
  · split
    · exact hg
    · exact .ite (.requestVariant hg) hg

theorem Grows.throttleLower (hg : Grown L s.ledger) : Grows L (execThrottleLower s) := by
  dsimp only [execThrottleLower]
  exact .next (.ite (.upd hg) hg)

/-! ### The twin and the lane settings -/

theorem Grown.setSolo {p solo} (hg : Grown L s.ledger) : Grown L (s.setSolo p solo).ledger := .ite hg hg

theorem Grown.enterSolo (hg : Grown L s.ledger) : Grown L s.enterSolo.ledger := by
  unfold State.enterSolo
  extract_lets _ s₁ s₂ s₃
  have h₁ : Grown L s₁.ledger := .bumpDev (.upd hg)
  have h₂ : Grown L s₂.ledger := .foldl h₁ (fun _ _ ht => .ite (.setSolo ht) ht)
  have h₃ : Grown L s₃.ledger := .portDownQueues (.handOver h₂)
  exact .ite (.armRequest h₃) h₃

theorem Grown.heartbeatIn {b offset} (hg : Grown L s.ledger) : Grown L (s.heartbeatIn b offset).ledger :=
  .ite (.enterSolo hg) hg

theorem Grown.heartbeat {port f offset} (hg : Grown L s.ledger) : Grown L (s.heartbeat port f offset).ledger := by
  dsimp only [State.heartbeat]
  split
  · rename_i e
    have hs1 := Grown.fst e (.linkRx hg)
    exact .ite (.heartbeatIn hs1) (.bumpDev hs1)
  · rename_i e
    have hs1 := Grown.fst e (.linkRx hg)
    exact .ite (.bumpDev hs1) hs1

theorem Grows.heartbeat {port f offset} (hg : Grown L s.ledger) : Grows L (execHeartbeat port f offset s) :=
  .withPort (.next (.ite hg (.heartbeat hg)))

theorem Grown.twinPulse {offset} (hg : Grown L s.ledger) : Grown L (s.twinPulse offset).ledger := .ite hg hg

theorem Grows.twinPulseInEdge {offset} (hg : Grown L s.ledger) : Grows L (execTwinPulseInEdge offset s) :=
  .next (.ite hg (.twinPulse hg))

theorem Grown.paired (hg : Grown L s.ledger) : Grown L (s.paired).ledger := by
  dsimp only [State.paired]
  split
  · exact hg
  · exact .enterSolo hg
  · exact hg

theorem Grows.pairingDecision (hg : Grown L s.ledger) : Grows L (execPairingDecision s) :=
  .next (.ite (.ite (.paired hg) (.ite (.enterSolo hg) hg)) hg)

theorem Grows.linkOnlyEntry (hg : Grown L s.ledger) : Grows L (execLinkOnlyEntry s) := .next (.ite hg hg)

theorem Grows.soloEntry (hg : Grown L s.ledger) : Grows L (execSoloEntry s) := .next (.ite (.enterSolo hg) hg)

theorem Grown.haltThread {p} (hg : Grown L s.ledger) : Grown L (s.haltThread p).ledger :=
  .ite (.upd (.dropSends (.squashAll hg))) hg

theorem Grows.detach (hg : Grown L s.ledger) : Grows L (execDetach s) :=
  .next (.ite hg (.ite (.foldl hg (fun _ _ ha => .haltThread ha)) (.ite (.enterSolo hg) hg)))

theorem Grown.rejoin (hg : Grown L s.ledger) : Grown L (s.rejoin).ledger :=
  .handOver (.foldl hg (fun _ _ ht => .ite (.setSolo ht) ht))

theorem Grows.attach (hg : Grown L s.ledger) : Grows L (execAttach s) :=
  .next (.ite (.ite (.rejoin hg) (.bumpPort hg)) hg)

theorem Grown.takeOutLane {port l pr} (hg : Grown L s.ledger) : Grown L (s.takeOutLane port l pr).ledger := by
  dsimp only [State.takeOutLane]
  split
  · exact hg
  · exact .ite hg hg

theorem Grown.nextLane {port pr} (hg : Grown L s.ledger) : Grown L (s.nextLane port pr).ledger := by
  dsimp only [State.nextLane]
  split
  · exact hg
  · exact .ite (.takeOutLane hg) hg

theorem Grows.laneChangeStep {port} (hg : Grown L s.ledger) : Grows L (execLaneChangeStep port s) := by
  dsimp only [execLaneChangeStep]
  refine .withPort (.next ?_)
  split
  · exact hg
  · refine .ite hg (.ite hg ?_)
    split <;> exact .ite (.nextLane hg) hg

theorem Grown.oldSettings {port pr} (hg : Grown L s.ledger) : Grown L (s.oldSettings port pr).ledger := by
  dsimp only [State.oldSettings]
  split <;> exact hg

theorem Grows.laneChangeTimeout {port} (hg : Grown L s.ledger) : Grows L (execLaneChangeTimeout port s) := by
  dsimp only [execLaneChangeTimeout]
  refine .withPort (.next ?_)
  split
  · exact hg
  · refine .ite hg ?_
    split
    · refine .upd (.bumpPort ?_)
      split
      · exact .upd (.upd (.upd (.oldSettings hg)))
      · exact .upd (.oldSettings hg)
    · refine .bumpPort ?_
      split
      · exact .upd (.upd (.upd (.oldSettings hg)))
      · exact .upd (.oldSettings hg)

/-! ### Registers -/

theorem Grown.read32 {path off} (hg : Grown L s.ledger) : Grown L (s.read32 path off).2.ledger := by
  dsimp only [State.read32]
  split
  · exact .ite_snd hg hg
  · split
    · refine .ite_snd ?_ hg
      split <;> exact hg
    · exact hg

theorem Grown.snapshotAt {path off} (hg : Grown L s.ledger) : Grown L (s.snapshotAt path off).ledger := by
  dsimp only [State.snapshotAt]
  split
  · exact hg
  · exact hg
  · exact .ite hg hg

theorem Grown.readAt {path off bytes} (hg : Grown L s.ledger) : Grown L (s.readAt path off bytes).2.ledger :=
  .ite_snd (.snapshotAt hg) (.ite_snd (.read32 (.snapshotAt hg)) hg)

theorem Grown.bypass (hg : Grown L s.ledger) : Grown L (s.bypass).ledger := .bump hg

theorem Grown.writeGateCall {slot v} (hg : Grown L s.ledger) : Grown L (s.writeGateCall slot v).ledger :=
  .ite (.callGate hg) (.ite hg (.ite hg (.bumpDev hg)))

theorem Grown.writePortCfg {p v} (hg : Grown L s.ledger) : Grown L (s.writePortCfg p v).ledger :=
  .ite (.portCall hg) hg

theorem Grown.writePartCtl {path p v} (hg : Grown L s.ledger) : Grown L (s.writePartCtl path p v).ledger := by
  dsimp only [State.writePartCtl]
  split
  · exact hg
  · split
    · exact .partCtl hg
    · exact .partCtl hg
    · exact .partCtl hg
    · exact .bumpPart hg

theorem Grown.writeQueueCfg {c k v} (hg : Grown L s.ledger) : Grown L (s.writeQueueCfg c k v).ledger := by
  dsimp only [State.writeQueueCfg]
  refine .ite (.writeSize0 hg) (.ite hg ?_)
  split
  · exact hg
  · exact .enableQueue hg

theorem Grown.writeMsix {fn e w v} (hg : Grown L s.ledger) : Grown L (s.writeMsix fn e w v).ledger := by
  dsimp only [State.writeMsix]
  split
  · exact hg
  · exact hg
  · exact hg
  · exact .setMask hg

theorem Grown.writeEq {c v} (hg : Grown L s.ledger) : Grown L (s.writeEq c v).ledger := by
  dsimp only [State.writeEq]
  split
  · exact .ite hg hg
  · exact hg

theorem Grown.commit {path kind v} (hg : Grown L s.ledger) : Grown L (s.commit path kind v).ledger := by
  dsimp only [State.commit]
  split
  · exact hg
  · exact .bypass hg
  · exact .clearMgmtCause hg
  · exact hg
  · exact .writeGateCall hg
  · exact .ite hg hg
  · exact .writePortCfg hg
  · exact .portCall hg
  · exact .ite (.startRange hg) hg
  · exact .ite (.portCall hg) hg
  · exact .writePartCtl hg
  · exact .clearFuncCause hg
  · split
    · exact .ite hg hg
    · exact hg
  · exact .writeEq hg
  · exact .writeQueueCfg hg
  · exact hg
  · exact hg
  · exact hg
  · split <;> exact hg
  · exact .writeMsix hg
  · exact .doorbell hg

theorem Grown.write32 {path off v} (hg : Grown L s.ledger) : Grown L (s.write32 path off v).ledger := by
  dsimp only [State.write32]
  split
  · exact .ite hg (.commit hg)
  · split
    · exact .ite (.commit hg) hg
    · exact hg

theorem Grown.write32Only {path off v} (hg : Grown L s.ledger) : Grown L (s.write32Only path off v).ledger := by
  dsimp only [State.write32Only]
  split
  · exact .ite hg (.commit hg)
  · exact hg

theorem Grown.write64 {path off v} (hg : Grown L s.ledger) : Grown L (s.write64 path off v).ledger := by
  dsimp only [State.write64]
  split
  · exact .ite (.commit hg) (.write32Only (.commit hg))
  · exact .write32Only hg

theorem Grown.writeAt {path off bytes v} (hg : Grown L s.ledger) : Grown L (s.writeAt path off bytes v).ledger :=
  .ite hg (.ite (.write32 hg) (.ite (.write64 hg) hg))

theorem Grows.registerWrite {path offset bytes v} (hg : Grown L s.ledger) :
    Grows L (execRegisterWrite path offset bytes v s) :=
  .next (.writeAt hg)

theorem Grows.gaWrite {path offset bytes v} (hg : Grown L s.ledger) : Grows L (execGaWrite path offset bytes v s) :=
  .next (.ite (.writeAt hg) hg)

theorem Grown.portWrite {path p v f} (hg : Grown L s.ledger) : Grown L (s.portWrite path p v f).ledger :=
  .ite (.portCall hg) hg

theorem Grows.portAsym {path port v} (hg : Grown L s.ledger) : Grows L (execPortAsym path port v s) :=
  .withPort (.next (.ite (.portCall hg) hg))

theorem Grows.laneCfg {path port lane v} (hg : Grown L s.ledger) : Grows L (execLaneCfg path port lane v s) :=
  .withLane (.next (.ite (.commit hg) hg))

theorem Grown.smbus {early act} (hg : Grown L s.ledger) (hact : ∀ t, Grown L t.ledger → Grown L (act t).ledger) :
    Grown L (s.smbus early act).ledger :=
  .ite (.emit hg) (.ite (.emit hg) (hact _ hg))

theorem Grown.readOut {path off bytes} (hg : Grown L s.ledger) : Grown L (s.readOut path off bytes).ledger := by
  dsimp only [State.readOut]
  split
  · exact .smbus hg (fun _ hs => .emit (.readAt hs))
  · exact .ite (.emit (.readAt hg)) (.emit hg)

theorem Grows.lowerHalfRead {path at_} (hg : Grown L s.ledger) : Grows L (execLowerHalfRead path at_ s) :=
  .next (.readOut hg)

theorem Grows.seqSnapshotRead {path} (hg : Grown L s.ledger) : Grows L (execSeqSnapshotRead path s) := by
  dsimp only [execSeqSnapshotRead]
  refine .next ?_
  split
  · exact hg
  · exact hg
  · exact .readOut hg

theorem Grows.regRead {offset bytes} (hg : Grown L s.ledger) : Grows L (execRegRead offset bytes s) :=
  .next (.readOut hg)

theorem Grows.counterRead {index} (hg : Grown L s.ledger) : Grows L (execCounterRead index s) :=
  .next (.smbus hg (fun _ hs => .ite (.emit hs) (.emit hs)))

theorem Grows.state (hg : Grown L s.ledger) : Grows L (execState s) := .next (.smbus hg (fun _ hs => .emit hs))

theorem Grows.pldmRequest {sensor} (hg : Grown L s.ledger) : Grows L (execPldmRequest sensor s) :=
  .next (.smbus hg (fun _ hs => .emit hs))

theorem Grows.mctpControl {message} (hg : Grown L s.ledger) : Grows L (execMctpControl message s) := by
  dsimp only [execMctpControl]
  refine .next ?_
  split
  · exact .smbus hg (fun _ hs => .emit hs)
  · exact .ite hg (.smbus hg (fun _ hs => .emit hs))

theorem Grows.smbusWriteAttempt {offset} (hg : Grown L s.ledger) : Grows L (execSmbusWriteAttempt offset s) :=
  .next (.smbus hg (fun _ hs => .emit (.ite (.bypass hs) hs)))

/-! ### The tick -/

theorem Grown.sameKeyGm {m} (hg : Grown L s.ledger) : Grown L (s.sameKeyGm m).ledger := .ite (.bumpDev hg) hg

theorem Grown.noteLength {n} (hg : Grown L s.ledger) : Grown L (s.noteLength n).ledger := .ite hg (.bumpDev hg)

theorem Grown.acquire {port m tick delay} (hg : Grown L s.ledger) : Grown L (s.acquire port m tick delay).ledger :=
  .noteLength hg

theorem Grown.parentAccepted {m o} (hg : Grown L s.ledger) : Grown L (s.parentAccepted m o).ledger := .noteLength hg

theorem Grown.hearMarker {port b offset} (hg : Grown L s.ledger) : Grown L (s.hearMarker port b offset).ledger := by
  unfold State.hearMarker
  extract_lets m tick delay o r free ok s1 s2 tw s3
  have h1 : Grown L s1.ledger := .sameKeyGm (.upd hg)
  have h2 : Grown L s2.ledger := .ite h1 (.bumpPort h1)
  have h3 : Grown L s3.ledger := .ite (.upd h2) h2
  exact .ite (.ite (.acquire h3) h3) (.ite (.ite (.parentAccepted h3) (.ite h3 (.upd h3))) h3)

theorem Grown.marker {port f offset} (hg : Grown L s.ledger) : Grown L (s.marker port f offset).ledger := by
  dsimp only [State.marker]
  split
  · rename_i e
    have hs1 := Grown.fst e (.linkRx hg)
    exact hs1
  · rename_i e
    have hs1 := Grown.fst e (.linkRx hg)
    exact .ite (.hearMarker hs1) hs1

theorem Grows.marker {port f offset} (hg : Grown L s.ledger) : Grows L (execMarker port f offset s) :=
  .withPort (.next (.ite hg (.marker hg)))

theorem Grown.tickRef {offset} (hg : Grown L s.ledger) : Grown L (s.tickRef offset).ledger :=
  .ite hg (.ite (.ite hg hg) (.ite (.bumpDev hg) hg))

theorem Grows.tickRefEdge {offset} (hg : Grown L s.ledger) : Grows L (execTickRefEdge offset s) :=
  .next (.ite hg (.tickRef hg))

theorem Grows.refLiveLoss (hg : Grown L s.ledger) : Grows L (execRefLiveLoss s) := .next (.ite hg hg)

theorem Grown.elect (hg : Grown L s.ledger) : Grown L (s.elect).ledger := by
  dsimp only [State.elect]
  refine .ite hg ?_
  split
  · exact hg
  · exact .ite hg hg

theorem Grows.gmKeyExpiry {port} (hg : Grown L s.ledger) : Grows L (execGmKeyExpiry port s) := by
  dsimp only [execGmKeyExpiry]
  refine .withPort (.next ?_)
  split
  · exact .ite hg hg
  · exact hg

theorem Grows.holdoverEntry (hg : Grown L s.ledger) : Grows L (execHoldoverEntry s) := .next (.ite hg hg)

theorem Grows.lockedEntry (hg : Grown L s.ledger) : Grows L (execLockedEntry s) := .next (.ite hg hg)

theorem Grows.wideSet (hg : Grown L s.ledger) : Grows L (execWideSet s) := .next (.ite hg hg)

theorem Grown.overrun {p code} (hg : Grown L s.ledger) : Grown L (s.overrun p code).ledger :=
  .stopThread (.upd (.bumpPart (.faultAll (.dropPartS (.dropSends (.squashAll hg))))))

theorem Grown.dropAllS (hg : Grown L s.ledger) : Grown L (s.dropAllS).ledger :=
  .dropWaits (.dropWaits (.foldl hg (fun _ _ ht => .foldl (.ite ht ht) (fun _ _ hu => .bumpPort (.dropEntry hu)))))

theorem Grows.tickSlip (hg : Grown L s.ledger) : Grows L (execTickSlip s) := by
  dsimp only [execTickSlip]
  refine .next ?_
  split
  · exact hg
  · exact .ite hg (.foldl (.dropAllS (.mgmtCause (.bumpDev hg))) (fun _ _ ht => .ite (.overrun ht) ht))

theorem Grows.tickLenAdopt (hg : Grown L s.ledger) : Grows L (execTickLenAdopt s) := by
  dsimp only [execTickLenAdopt]
  refine .next ?_
  split
  · exact hg
  · exact .ite hg (.foldl hg (fun _ _ ht => .ite (.overrun ht) ht))

theorem Grown.purgeOld (hg : Grown L s.ledger) : Grown L (s.purgeOld).ledger :=
  .foldl (.dropWaits (.foldl (.dropWaits (.foldl hg (fun _ _ ht => .ite (.purgeStale ht) ht)))
    (fun _ _ hu => .bumpIng hu))) (fun _ _ hu => .bumpIng hu)

theorem Grown.countMissed (hg : Grown L s.ledger) : Grown L (s.countMissed).ledger :=
  .foldl hg (fun _ _ ht => .bumpPort ht)

theorem Grown.hingeEvidence (hg : Grown L s.ledger) : Grown L (s.hingeEvidence).ledger :=
  .elect (.upd (.countMissed hg))

theorem Grown.spreadZero (hg : Grown L s.ledger) : Grown L (s.spreadZero).ledger := by
  dsimp only [State.spreadZero]
  refine .foldl hg (fun _ _ ht => ?_)
  split
  · exact ht
  · exact .upd (.bumpPort ht)

theorem Grown.rejudgeNeighbours (hg : Grown L s.ledger) : Grown L (s.rejudgeNeighbours).ledger := by
  dsimp only [State.rejudgeNeighbours]
  refine .foldl hg (fun _ _ ht => ?_)
  split
  · exact .ite ht ht
  · exact ht

theorem Grown.cutNaps (hg : Grown L s.ledger) : Grown L (s.cutNaps).ledger :=
  .foldl hg (fun _ _ ht => .ite ht (.bumpPort ht))

theorem Grown.planThread {p} (hg : Grown L s.ledger) : Grown L (s.planThread p).ledger := by
  dsimp only [State.planThread]
  split
  · exact .ite hg hg
  · exact .upd (.squashAll hg)

theorem Grown.switchEpoch (hg : Grown L s.ledger) : Grown L (s.switchEpoch).ledger :=
  .applyPlans (.ite (.cutNaps (.rejudgeNeighbours (.spreadZero hg))) (.rejudgeNeighbours (.spreadZero hg)))

theorem Grown.followTables {changed} (hg : Grown L s.ledger) : Grown L (s.followTables changed).ledger :=
  .foldl (.foldl hg (fun _ _ ht => .planThread ht)) (fun _ _ ht => .ite ht ht)

theorem Grown.unbind {p} (hg : Grown L s.ledger) : Grown L (s.unbind p).ledger := .ite hg (.releaseAll hg)

theorem Grown.clearPlanFaults {p} (hg : Grown L s.ledger) : Grown L (s.clearPlanFaults p).ledger := by
  dsimp only [State.clearPlanFaults]
  refine .foldl hg (fun _ _ ht => ?_)
  split
  · exact .ite ht ht
  · exact ht

theorem Grown.threadCommand {p} (hg : Grown L s.ledger) : Grown L (s.threadCommand p).ledger := by
  dsimp only [State.threadCommand]
  split
  · exact hg
  · exact .ite hg hg
  · exact .upd (.haltThread hg)
  · exact .ite (.upd (.clearPlanFaults hg)) hg
  · exact .upd (.dropSends (.squashAll hg))

theorem Grown.nextTick {p} (hg : Grown L s.ledger) : Grown L (s.nextTick p).ledger := .ite hg hg

theorem Grown.hingeThreads {changed} (hg : Grown L s.ledger) : Grown L (s.hingeThreads changed).ledger :=
  .foldl (.followTables (.foldl hg (fun _ _ ht => .ite (.overrun ht) ht)))
    (fun _ _ ht => .threadCommand (.nextTick (.unbind ht)))

theorem Grown.holdOut {p j} (hg : Grown L s.ledger) : Grown L (s.holdOut p j).ledger := .ite hg (.ite hg hg)

theorem Grown.letIn {p j} (hg : Grown L s.ledger) : Grown L (s.letIn p j).ledger := .ite hg hg

theorem Grown.lanesGone {p} (hg : Grown L s.ledger) : Grown L (s.lanesGone p).ledger :=
  .ite (.ite (.restartPort (.setDown hg)) (.setDown hg)) hg

theorem Grown.landExclude {p ex} (hg : Grown L s.ledger) : Grown L (s.landExclude p ex).ledger :=
  .ite hg (.tryActive (.lanesGone (.foldl hg (fun _ _ ht => .ite (.holdOut ht) (.ite (.letIn ht) ht)))))

theorem Grown.landEnable {p en} (hg : Grown L s.ledger) : Grown L (s.landEnable p en).ledger :=
  .ite hg (.ite (.ite hg (.restartPort hg)) (.restartPort (.setDown hg)))

theorem Grown.landHold {p j} (hg : Grown L s.ledger) : Grown L (s.landHold p j).ledger := by
  dsimp only [State.landHold]
  split
  · exact hg
  · exact .ite (.tryActive (.lanesGone (.holdOut hg))) (.ite (.letIn hg) hg)

theorem Grown.landPort {p} (hg : Grown L s.ledger) : Grown L (s.landPort p).ledger := by
  dsimp only [State.landPort]
  refine .foldl ?_ (fun _ _ ht => .landHold ht)
  split
  · exact .landEnable (.landExclude (.ite hg hg))
  · exact .ite hg hg

theorem Grown.landDie {d} (hg : Grown L s.ledger) : Grown L (s.landDie d).ledger :=
  .ite (.rejudgeLevel (.setDie hg)) (.setDie hg)

theorem Grown.landCtx {c} (hg : Grown L s.ledger) : Grown L (s.landCtx c).ledger := by
  dsimp only [State.landCtx]
  split <;> exact hg

theorem Grown.landDestroy (hg : Grown L s.ledger) : Grown L (s.landDestroy).ledger :=
  .upd (.foldl hg (fun _ _ ht => .destroyCtx ht))

theorem Grown.landServices (hg : Grown L s.ledger) : Grown L (s.landServices).ledger := .ite hg hg

theorem Grown.ageDrains (hg : Grown L s.ledger) : Grown L (s.ageDrains).ledger := by
  dsimp only [State.ageDrains]
  refine .upd (.foldl hg (fun _ _ ht => ?_))
  split
  · exact .setDie ht
  · exact ht

theorem Grown.landStaged (hg : Grown L s.ledger) : Grown L (s.landStaged).ledger :=
  .ageDrains (.landServices (.landDestroy (.foldl (.landDie (.landDie (.foldl hg (fun _ _ ht => .landPort ht))))
    (fun _ _ ht => .landCtx ht))))

theorem Grown.wakeForHinge {p} (hg : Grown L s.ledger) : Grown L (s.wakeForHinge p).ledger :=
  .ite (.ite hg (.emit hg)) hg

theorem Grown.hingeRange {p} (hg : Grown L s.ledger) : Grown L (s.hingeRange p).ledger := by
  dsimp only [State.hingeRange]
  split
  · exact .ite (.sendRangeReq (.fresh hg)) hg
  · exact hg

theorem Grown.launchMarker {p} (hg : Grown L s.ledger) : Grown L (s.launchMarker p).ledger :=
  .ite (.ite (.upd (.ite hg (.portHingeMove hg))) (.ite hg (.portHingeMove hg)))
    (.emit (.emit (.wakeForHinge (.egressEndFrame (.upd (.ite hg (.portHingeMove hg)))))))

theorem Grown.hingeFrames {p} (hg : Grown L s.ledger) : Grown L (s.hingeFrames p).ledger :=
  .ite hg (.ite (.emit (.hingeRange (.sendAdapt hg))) (.hingeRange (.sendAdapt hg)))

theorem Grown.pulses (hg : Grown L s.ledger) : Grown L (s.pulses).ledger :=
  .ite (.emit (.ite (.emit hg) hg)) (.ite (.emit hg) hg)

theorem Grown.adoptEpoch (hg : Grown L s.ledger) : Grown L (s.adoptEpoch).ledger := by
  dsimp only [State.adoptEpoch]
  refine .ite hg ?_
  split
  · exact .ite (.bumpDev hg) hg
  · exact hg

theorem Grown.splitEpoch (hg : Grown L s.ledger) : Grown L (s.splitEpoch).ledger := by
  dsimp only [State.splitEpoch]
  split
  · exact hg
  · exact .ite hg (.ite hg (.ite (.upd (.fire (.bumpDev hg))) (.fire (.bumpDev hg))))

theorem Grown.countOpen {i most} (hg : Grown L s.ledger) : Grown L (s.countOpen i most).ledger := .count (.fresh hg)

theorem Grown.countWaits (hg : Grown L s.ledger) : Grown L (s.countWaits).ledger := by
  dsimp only [State.countWaits]
  refine .foldl (.foldl hg (fun _ _ ht => .ite (.ite (.countOpen ht) ht) (.upd (.ite (.countOpen ht) ht))))
    (fun _ _ ht => (.ite ?_ ?_))
  · refine .foldl ht (fun _ _ ht => ?_)
    split
    · exact .countOpen ht
    · exact ht
  · refine .countOpen (.foldl ht (fun _ _ ht => ?_))
    split
    · exact .countOpen ht
    · exact ht

theorem Grown.replay (hg : Grown L s.ledger) : Grown L (s.replay).ledger := by
  dsimp only [State.replay]
  refine .foldl hg (fun _ _ ht => ?_)
  split
  · exact .marker ht
  · exact .heartbeat ht
  · exact .twinPulse ht
  · exact .tickRef ht
  · exact ht

theorem Grown.flushEchoes (hg : Grown L s.ledger) : Grown L (s.flushEchoes).ledger := by
  dsimp only [State.flushEchoes]
  refine .foldl hg (fun _ _ ht => ?_)
  split
  · exact .sendEcho ht
  · exact ht

theorem Grown.hinge {x} (hg : Grown L s.ledger) : Grown L (s.hinge x).ledger := by
  dsimp only [State.hinge]
  exact .replay (.upd (.upd (.upd (.foldl (.pulses (.foldl (.upd (.upd
    (.upd (.upd (.handOver (.hingeThreads (.landStaged (.ite (.switchEpoch
    (.splitEpoch (.adoptEpoch (.hingeEvidence (.purgeOld (.upd (.flushEchoes (.countWaits hg))))))))
    (.splitEpoch (.adoptEpoch (.hingeEvidence (.purgeOld (.upd (.flushEchoes (.countWaits hg)))))))))))))))
    (fun _ _ ht => .launchMarker ht))) (fun _ _ ht => .hingeFrames ht)))))

theorem Grows.hinge {samples} (hg : Grown L s.ledger) : Grows L (execHinge samples s) := .next (.ite (.hinge hg) hg)

theorem Grows.slotStart (hg : Grown L s.ledger) : Grows L (execSlotStart s) := by
  dsimp only [execSlotStart]
  exact .next (.ite (.upd (.upd (.countWaits hg))) hg)

theorem Grows.hingeSlot1 (hg : Grown L s.ledger) : Grows L (execHingeSlot1 s) := by
  dsimp only [execHingeSlot1]
  exact .next (.ite (.upd (.foldl hg (fun _ _ ht => .ite (.portSlot1 ht) ht))) hg)

/-! ### Every command -/

/-- A command that starts a cold reset (R441, R497, R501, R509). -/
def startsCold (c : Instr) : Prop := c = .coldRstNLow ∨ c = .pwrgoodLow ∨ c = .refclkLoss ∨ c = .railUndervoltage

/-- Every command but those of a cold reset only makes the ledger grow. -/
theorem exec_grows {c : Instr} (hc : ¬ startsCold c) (hg : Grown L s.ledger) : Grows L (exec c s) := by
  cases c with
  | hinge => exact .hinge hg
  | slotStart => exact .slotStart hg
  | hingeSlot1 => exact .hingeSlot1 hg
  | marker => exact .marker hg
  | gmKeyExpiry => exact .gmKeyExpiry hg
  | holdoverEntry => exact .holdoverEntry hg
  | lockedEntry => exact .lockedEntry hg
  | wideSet => exact .wideSet hg
  | tickSlip => exact .tickSlip hg
  | tickLenAdopt => exact .tickLenAdopt hg
  | tickRefEdge => exact .tickRefEdge hg
  | refLiveLoss => exact .refLiveLoss hg
  | portRangeStart => exact .portRangeStart hg
  | range => exact .range hg
  | rangingComplete => exact .rangingComplete hg
  | arrivalTest => exact .arrivalTest hg
  | laneDetectPulse => exact .laneDetectPulse hg
  | quietExpiry => exact .quietExpiry hg
  | bitLock => exact .bitLock hg
  | trainingMarker => exact .trainingMarker hg
  | capsRecord => exact .capsRecord hg
  | laneTrainTimeout => exact .laneTrainTimeout hg
  | excludedLaneRetry => exact .excludedLaneRetry hg
  | eyeWindowEnd => exact .eyeWindowEnd hg
  | marginalLaneDrop => exact .marginalLaneDrop hg
  | adapt => exact .adapt hg
  | lossOfLock => exact .lossOfLock (x := ‹_›) hg
  | notice => exact .notice hg
  | realign => exact .realign hg
  | noticeRepeat => exact .noticeRepeat hg
  | directionFailed => exact .directionFailed hg
  | sleepWindowStart => exact .sleepWindowStart hg
  | wakeBurst => exact .wakeBurst hg
  | wakeMarker => exact .wakeMarker hg
  | wakeMiss => exact .wakeMiss hg
  | sData | bData | cData | cAck | bEcho | cNotready => exact .withPort (.next (.arrive hg))
  | heartbeat => exact .heartbeat hg
  | credit => exact .credit hg
  | creditSend => exact .creditSend hg
  | creditStall => exact .creditStall hg
  | cRetryTimeout => exact .cRetryTimeout hg
  | cAckSend => exact .cAckSend hg
  | notreadyRetry => exact .notreadyRetry hg
  | egressFrameStart => exact .egressFrameStart hg
  | egressFrameEnd => exact .egressFrameEnd hg
  | mcHoldExpiry => exact .mcHoldExpiry hg
  | hostFrameBuild => exact .hostFrameBuild hg
  | henAllocation => exact .henAllocation hg
  | henListRebuild => exact .withUnit (.next (.ite (.bumpDev (.upd hg (Depot.rebuild_mem _ _))) hg))
  | henLevelChange => exact .henLevelChange hg
  | echoSend => exact .echoSend hg
  | bMsgTimeout => exact .bMsgTimeout hg
  | oxOpBegin => exact .oxOpBegin hg
  | retire => exact .retire hg
  | copyBackEnd => exact .copyBackEnd hg
  | nop => exact .nop hg
  | br => exact .br hg
  | loop => exact .loop hg
  | lend => exact .lend hg
  | tickwait => exact .tickwait hg
  | tickwaitComplete => exact .tickwaitComplete hg
  | cmp => exact .cmp hg
  | plog => exact .plog hg
  | rdt => exact .rdt hg
  | add => exact .add hg
  | sub => exact .sub hg
  | mul => exact .mul hg
  | divs => exact .divs hg
  | divu => exact .divu hg
  | neg => exact .neg hg
  | abs => exact .abs hg
  | and => exact .and hg
  | or => exact .or hg
  | xor => exact .xor hg
  | shl => exact .shl hg
  | shr => exact .shr hg
  | sra => exact .sra hg
  | adds => exact .adds hg
  | subs => exact .subs hg
  | muls => exact .muls hg
  | adduS => exact .adduS hg
  | subuS => exact .subuS hg
  | addi => exact .addi hg
  | movi => exact .movi hg
  | ori => exact .ori hg
  | ld => exact .ld hg
  | ldDataReturn => exact .ldDataReturn hg
  | st => exact .st hg
  | aadd => exact .aadd hg
  | aswp => exact .aswp hg
  | acas => exact .acas hg
  | acas2 => exact .acas2 hg
  | fenceDepot => exact .fenceDepot hg
  | fenceTick => exact .fenceTick hg
  | storePerformed => exact .storePerformed hg
  | atomicPerformed => exact .atomicPerformed hg
  | hingeDrainEnd => exact .hingeDrainEnd hg
  | recv => exact .recv hg
  | send => exact .send hg
  | sendTileRead => exact .sendTileRead hg
  | expect => exact .expect hg
  | lclr => exact .lclr hg
  | tld => exact .tld hg
  | tacc => exact .tacc hg
  | emit => exact .emit hg
  | tst => exact .tst hg
  | post => exact .post hg
  | scrubPassEnd => exact .scrubPassEnd hg
  | muleDepotAccess => exact .muleDepotAccess hg
  | partCtlStart | partCtlStop | partCtlRestart => exact .withPart (.next (.partCtl hg))
  | clearFault => exact .clearFault hg
  | queueEnable => exact .queueEnable hg
  | queueDisable => exact .queueDisable hg
  | sqDoorbell | rqDoorbell | cqDoorbell | cqArm => exact .withPage (.next (.doorbell hg))
  | bSend => exact .bSend hg
  | cSend => exact .cSend hg
  | dmaToDepot => exact .dmaToDepot hg
  | dmaToHost => exact .dmaToHost hg
  | start => exact .start hg
  | sendEntryComplete => exact .sendEntryComplete hg
  | ringHoldExpiry => exact .ringHoldExpiry hg
  | cqTimedFire => exact .cqTimedFire hg
  | msixUnmask => exact .msixUnmask hg
  | funcCauseClear => exact .funcCauseClear hg
  | mgmtCauseClear => exact .mgmtCauseClear hg
  | vfFlr => exact .vfFlr hg
  | pfFlr => exact .pfFlr hg
  | perstNAssert => exact .perstNAssert hg
  | perstNDeassert => exact .perstNDeassert hg
  | configRequest => exact .configRequest hg
  | dmaReadError => exact .dmaReadError hg
  | regRead => exact .regRead hg
  | counterRead => exact .counterRead hg
  | state => exact .state hg
  | pldmRequest => exact .pldmRequest hg
  | mctpControl => exact .mctpControl hg
  | smbusWriteAttempt => exact .smbusWriteAttempt hg
  | admitPlan | withdrawPlan | ctxCreate | ctxDestroy | setSegment | serviceGrant | setCarve | setPorts
  | setHenMin | setPools | setGmin | setSwitch | setTickRole | setRoute | setSpread | setRemap | setGrants
  | setVariant | setTick | armEpochLocal | armEpochFlood | setPort | setPortDetach | setPortAttach | setNapMap
  | throttle | mulePet | enrollKey | revokeKey | loadService | commitSvn | loadMule | attest | getCert =>
    exact .withSlot (.next (.callGate hg))
  | gateCallComplete => exact .gateCallComplete hg
  | drainLand => exact .drainLand hg
  | drainRollback => exact .drainRollback hg
  | muleRestart => exact .muleRestart hg
  | lockstepMismatch => exact .lockstepMismatch hg
  | coldResetEnd => exact .coldResetEnd hg
  | thermalTrip => exact .thermalTrip hg
  | tapInstruction => exact .tapInstruction hg
  | tapReset => exact .tapReset hg
  | bootCopyCheck => exact .bootCopyCheck hg
  | portGroupAdmit => exact .portGroupAdmit hg
  | gmCandidacyStart => exact .gmCandidacyStart hg
  | readyPublish => exact .readyPublish hg
  | muleHingeReview => exact .muleHingeReview hg
  | spreadWeightReview => exact .spreadWeightReview hg
  | laneExclusionRelease => exact .laneExclusionRelease hg
  | normalVariantReturn => exact .normalVariantReturn hg
  | throttleLower => exact .throttleLower hg
  | create => exact .create hg
  | put => exact .put hg
  | commit => exact .commit hg
  | get => exact .get hg
  | drop => exact .drop hg
  | join => exact .join hg
  | leave => exact .leave hg
  | arrive => exact .arrive hg
  | arriveTimeout => exact .arriveTimeout hg
  | propose => exact .propose hg
  | forget => exact .forget hg
  | drain => exact .drain hg
  | drainPartStart => exact .drainPartStart hg
  | partDone => exact .partDone hg
  | partResend => exact .partResend hg
  | armReq => exact .armReq hg
  | armReqResend => exact .armReqResend hg
  | heldArmFlood => exact .heldArmFlood hg
  | arm => exact .arm hg
  | stagingDeadline => exact .stagingDeadline hg
  | twinPulseInEdge => exact .twinPulseInEdge hg
  | pairingDecision => exact .pairingDecision hg
  | linkOnlyEntry => exact .linkOnlyEntry hg
  | soloEntry => exact .soloEntry hg
  | detach => exact .detach hg
  | attach => exact .attach hg
  | laneChangeStep => exact .laneChangeStep hg
  | laneChangeTimeout => exact .laneChangeTimeout hg
  | portEnable | portExclude | portReach => exact .withPort (.next (.portWrite hg))
  | portAsym => exact .portAsym hg
  | laneCfg => exact .laneCfg hg
  | eqWrite => exact .eqWrite hg
  | gaWrite => exact .gaWrite hg
  | registerWrite => exact .registerWrite hg
  | lowerHalfRead => exact .lowerHalfRead hg
  | seqSnapshotRead => exact .seqSnapshotRead hg
  | framingError => exact .framingError hg
  | receivedLight => exact .receivedLight hg
  | napOrDozeMarker => exact .napOrDozeMarker hg
  | portHpLinkTraining => exact .portHpLinkTraining hg
  | portHpTrained => exact .portHpTrained hg
  | flrComplete => exact .flrComplete hg
  | coldRstNLow | pwrgoodLow | refclkLoss | railUndervoltage => exact absurd (by simp [startsCold]) hc

/-! ### The invariant (R11, R313, R467) -/

/-- A ledger whose memory is in its canonical form and whose counters are within their limits. -/
def Ledger.Sound (K : Ledger) : Prop := Memory.wf K.mem = true ∧ ∀ i, (K.ctrs.getD i 0).toNat ≤ ctrMax i

/-- A counter of a table with a range cleared reads 0 within the range and as before elsewhere. -/
theorem getD_cleared (ctrs : Tbl Word) (b n i : Nat) :
    Tbl.getD (ctrs.filter (fun e => !(b ≤ e.1 && e.1 < b + n))) i 0 =
      if b ≤ i ∧ i < b + n then 0 else ctrs.getD i 0 :=
  ctr_clearCtrs { State.reset with counters := ctrs } b n i

/-- Every move keeps a ledger sound. -/
theorem Grown.sound {K : Ledger} (hL : L.Sound) (hg : Grown L K) : K.Sound := by
  induction hg with
  | same => exact hL
  | @counted K i n _ ih =>
    obtain ⟨hm, hc⟩ := ih
    refine ⟨hm, fun j => ?_⟩
    by_cases e : j = i
    · rw [e, Tbl.getD_set_self]; exact satAdd_le_max i n _
    · rw [Tbl.getD_set_ne _ _ _ e]; exact hc j
  | cleared b n _ _ ih =>
    obtain ⟨hm, hc⟩ := ih
    refine ⟨hm, fun j => ?_⟩
    rw [getD_cleared]
    split
    · exact Nat.zero_le _
    · exact hc j
  | written a d _ ih => exact ⟨wf_memWrite ih.1 a d, ih.2⟩
  | zeroed a n _ ih => exact ⟨wf_memZero ih.1 a n, ih.2⟩
  | sent o _ ih => exact ih
  | gave f _ _ ih => exact ih
  | fused v _ _ ih => exact ih

/-- A cold reset leaves the memory and the counters empty, which is sound. -/
theorem sound_startCold (s : State) (low : Bool) : (s.startCold low).ledger.Sound :=
  ⟨rfl, fun _ => Nat.zero_le _⟩

/-- Every command keeps the ledger sound. -/
theorem sound_exec {c : Instr} {t : State} (hs : s.ledger.Sound) (he : exec c s = .next t) : t.ledger.Sound := by
  by_cases hc : startsCold c
  · obtain rfl | rfl | rfl | rfl := hc <;> (injection he with e; subst e; exact sound_startCold s _)
  · have hg := exec_grows hc (L := s.ledger) .same
    rw [he] at hg
    exact Grown.sound hs hg

/-- Settles O58: every command only grows the ledger or starts a cold reset, and both keep the ledger sound. -/
theorem stepKeepsTheInvariant : Obligations.StepKeepsTheInvariant := by
  intro s t hm hc he
  have hs : s.ledger.Sound := ⟨hm, hc⟩
  have ht : t.ledger.Sound := by
    unfold step at he
    split at he
    next =>
      injection he with e
      subst e
      exact hs
    next c rest _ =>
      have hs' : (State.ledger { s with pending := rest }).Sound := hs
      exact sound_exec hs' he
  exact ⟨ht.1, ht.2⟩

end Sys2Proof.Machine
end

section
/-! SUPPORT. Fatal stops and the TAP: what taking a port's link down leaves, the threads after a stop, and the word of
IDCODE. -/

namespace Sys2Proof.Machine

/-! ### Every port OFF, every thread stopped (R377, R511) -/

/-- Taking down the lanes of a port leaves all that does not read the lanes. -/
theorem lanesFrom_keeps {α : Type} {f : State → α} (hl : ∀ t x, f { t with lanes := x } = f t) (s : State) (p : Nat)
    (st : LaneState) : f (s.lanesFrom p st) = f s :=
  List.foldlRecOn (motive := fun t => f t = f s) _ _ rfl (fun t ht _ _ => (hl t _).trans ht)

/-- Restarting a port leaves all that reads neither ports, lanes nor lines. -/
theorem restartPort_keeps {α : Type} {f : State → α} (hl : ∀ t x, f { t with lanes := x } = f t)
    (hp : ∀ t x, f { t with ports := x } = f t) (hw : ∀ t x, f { t with wire := x } = f t) (s : State) (p : Nat)
    (st : LaneState) : f (s.restartPort p st) = f s :=
  calc f (s.restartPort p st) = f ((s.modPort p Port.unlink).lanesFrom p st) := hw _ _
    _ = f (s.modPort p Port.unlink) := lanesFrom_keeps hl _ p st
    _ = f s := hp _ _

/-- A thread after the stop of all. -/
def Thread.stop (h : Thread) : Thread :=
  if h.st = .running then { h with st := .stopped, recs := [], ckpts := [], waiting := false } else h

/-- The stop of all leaves what reads no port, lane, line or thread. -/
theorem allStop_keeps {α : Type} {f : State → α} (hl : ∀ t x, f { t with lanes := x } = f t)
    (hp : ∀ t x, f { t with ports := x } = f t) (hw : ∀ t x, f { t with wire := x } = f t)
    (ht : ∀ t x, f { t with threads := x } = f t) (s : State) : f s.allStop = f s :=
  List.foldlRecOn (motive := fun t => f t = f s) _ _ (ht s _)
    (fun t h _ _ => (restartPort_keeps hl hp hw t _ _).trans h)

theorem allStop_threads (s : State) : s.allStop.threads = s.threads.map (fun e => (e.1, e.2.stop)) :=
  List.foldlRecOn (motive := fun t => t.threads = s.threads.map (fun e => (e.1, e.2.stop))) _ _ rfl
    (fun t h _ _ =>
      (restartPort_keeps (f := State.threads) (fun _ _ => rfl) (fun _ _ => rfl) (fun _ _ => rfl) t _ _).trans h)

theorem allStop_fw (s : State) : s.allStop.fw = s.fw :=
  allStop_keeps (f := State.fw) (fun _ _ => rfl) (fun _ _ => rfl) (fun _ _ => rfl) (fun _ _ => rfl) s

theorem allStop_depot (s : State) : s.allStop.depot = s.depot :=
  allStop_keeps (f := State.depot) (fun _ _ => rfl) (fun _ _ => rfl) (fun _ _ => rfl) (fun _ _ => rfl) s

theorem Tbl.get?_map_snd {α β : Type} (g : α → β) (t : Tbl α) (k : Nat) :
    Tbl.get? (t.map (fun e => (e.1, g e.2))) k = (t.get? k).map g := by
  induction t with
  | nil => rfl
  | cons e t ih =>
    simp only [List.map_cons, Tbl.get?]
    split
    · rfl
    · exact ih

/-- No thread runs after the stop of all. -/
theorem allStop_not_running (s : State) (p : Nat) : (s.allStop.threads.getD p {}).st ≠ .running := by
  have h : s.allStop.threads.getD p {} = (s.thread p).stop := by
    simp only [State.thread, allStop_threads, Tbl.getD, Tbl.get?_map_snd]
    cases s.threads.get? p <;> rfl
  rw [h, Thread.stop]
  split
  · exact nofun
  · assumption

/-! ### IDCODE (R1, R506) -/

theorem idcodeWord_lsb : idcodeWord.getLsbD 0 = true := (BitVec.getLsbD_append (y := 1#1)).trans rfl

theorem idcodeWord_manufacturer : idcodeWord.extractLsb' 1 11 = Config.jep106 :=
  (BitVec.extractLsb'_append_eq_of_le (xlo := 1#1) (by decide)).trans BitVec.extractLsb'_append_eq_right

theorem idcodeWord_part : idcodeWord.extractLsb' 12 16 = BitVec.ofNat 16 deviceId :=
  calc idcodeWord.extractLsb' 12 16
      = (Config.idcodeVersion ++ BitVec.ofNat 16 deviceId ++ Config.jep106).extractLsb' 11 16 :=
        BitVec.extractLsb'_append_eq_of_le (xlo := 1#1) (by decide)
    _ = (Config.idcodeVersion ++ BitVec.ofNat 16 deviceId).extractLsb' 0 16 :=
        BitVec.extractLsb'_append_eq_of_le (xlo := Config.jep106) (by decide)
    _ = BitVec.ofNat 16 deviceId := BitVec.extractLsb'_append_eq_right

theorem deviceId_word : BitVec.ofNat 16 deviceId = if Config.isOptical then 0x0D49 else 0x0D48 := by
  unfold deviceId
  split <;> rfl

/-! ### The commands -/

/-- A lockstep mismatch (R377). -/
theorem lockstepMismatch_gives {s : State} (hc : s.power.coldReset = false) (hf : s.fw.fatal = false) :
    exec .lockstepMismatch s = .next { s.allStop with fw := { s.allStop.fw with fatal := true } } := by
  show execLockstepMismatch s = _
  simp only [execLockstepMismatch, hc, hf, Bool.or_self, Bool.false_eq_true, if_false]

/-- A thermal trip (R511). -/
theorem thermalTrip_gives {s : State} {west east stack : BitVec 16} (hc : s.power.coldReset = false)
    (ht : s.power.tripped = false) (hot : 115 ≤ west.toInt ∨ 115 ≤ east.toInt ∨ 95 ≤ stack.toInt) :
    exec (.thermalTrip west east stack) s =
      .next (State.emit { s.allStop with power := { s.allStop.power with tripped := true } } .thermTrip) := by
  show execThermalTrip west east stack s = _
  simp only [execThermalTrip, hc, ht, hot, Bool.not_false, Bool.and_self, Bool.true_and, Bool.or_eq_true, or_assoc,
    decide_eq_true_eq, if_true]

/-- What loading an instruction in the TAP puts out. -/
def tapOut (v : BitVec 8) : List Out := if v = Config.idcodeIr then [.tapLoaded v, .idcode idcodeWord] else [.tapLoaded v]

/-- The TAP takes an instruction, or BYPASS in its place (R506). -/
theorem tapInstruction_gives {s : State} {ir v : BitVec 8}
    (hv : v = if ir = bypassIr ∨ ir = Config.idcodeIr ∨ s.power.rstLow = true then ir else bypassIr) :
    exec (.tapInstruction ir) s = .next { s with power := { s.power with tap := v }, out := s.out ++ tapOut v } := by
  have hc : (if ir = bypassIr || ir = Config.idcodeIr || s.power.rstLow then ir else bypassIr) = v := by
    simp only [hv, Bool.or_eq_true, decide_eq_true_eq, or_assoc]
  show execTapInstruction ir s = _
  unfold execTapInstruction
  rw [hc, tapOut]
  dsimp only
  split
  · rw [State.emit, emit_out, List.append_assoc]; rfl
  · rfl

/-- Settles O43: the stop of all leaves no thread running, and IDCODE reads back field by field. -/
theorem fatalStopsAndTap : Obligations.FatalStopsAndTap := by
  refine ⟨fun s hc hf => ?_, fun s west east stack hc ht hot => ?_, fun s ir v hv => ?_, fun s => rfl⟩
  · refine ⟨_, lockstepMismatch_gives hc hf, ?_⟩
    dsimp only [State.thread]
    exact ⟨rfl, by simp [State.alive], allStop_not_running s, congrArg Fw.minSvn (allStop_fw s),
      congrArg Depot.mem (allStop_depot s)⟩
  · refine ⟨_, thermalTrip_gives hc ht hot, ?_⟩
    dsimp only [State.thread, State.emit]
    exact ⟨rfl, by simp [State.alive], allStop_not_running s, by simp, congrArg Fw.fatal (allStop_fw s)⟩
  · refine ⟨_, tapInstruction_gives hv, rfl, ⟨idcodeWord, idcodeWord_lsb, idcodeWord_manufacturer, ?_, rfl⟩,
      rfl, rfl, rfl, rfl⟩
    rw [idcodeWord_part, deviceId_word]

end Sys2Proof.Machine
end

section
/-! SUPPORT. PART_CTL and the context registers: what each command answers where its path reaches. -/

namespace Sys2Proof.Machine

/-! ### PART_CTL (R335) -/

theorem partCtl_legal {s : State} {path : Path} {p : Nat} {legal : ThreadState} {c : ThreadCmd}
    (hr : s.reachesPart path p = true) (hst : (s.thread p).st = legal) (hflr : (s.thread p).cmd ≠ some .flr) :
    s.partCtl path p legal c = s.setThread p { s.thread p with cmd := some c } := by
  simp [State.partCtl, hr, hst, hflr]

theorem partCtl_ignored {s : State} {path : Path} {p : Nat} {legal : ThreadState} {c : ThreadCmd}
    (hr : s.reachesPart path p = true) (hst : (s.thread p).st ≠ legal) :
    s.partCtl path p legal c = s.bumpPart p rkCtlIgnored := by
  simp [State.partCtl, hr, hst]

theorem exec_partCtlStart {p : Nat} (h : p < 128) (path : Path) (s : State) :
    exec (.partCtlStart path p) s = .next (s.partCtl path p .halted .start) := withPart_lt _ h
theorem exec_partCtlStop {p : Nat} (h : p < 128) (path : Path) (s : State) :
    exec (.partCtlStop path p) s = .next (s.partCtl path p .running .stop) := withPart_lt _ h
theorem exec_partCtlRestart {p : Nat} (h : p < 128) (path : Path) (s : State) :
    exec (.partCtlRestart path p) s = .next (s.partCtl path p .stopped .restart) := withPart_lt _ h

/-! ### CLEAR_FAULT and EQ (R8, R338, R491) -/

theorem clearFault_reached {s : State} {path : Path} {c : Nat} {x : Ctx} (h : c < 1024) (hx : s.ctx? c = some x)
    (hr : s.reachesCtx path c = true) :
    exec (.clearFault path c) s = .next (s.setCtx c (x.clearedFault s.time)) := by
  show execClearFault path c s = _
  simp only [execClearFault, withCtx_lt _ h, hx, hr, if_true]

theorem eqWrite_reached {s : State} {path : Path} {c : Nat} {x : Ctx} {v : BitVec 32} (h : c < 1024)
    (hx : s.ctx? c = some x) (hr : s.reachesCtx path c = true)
    (hv : v.toNat % 32 = 31 ∨ (s.cqAt c (v.toNat % 32)).isSome = true) :
    exec (.eqWrite path c v) s = .next (s.setCtx c { x with eq := v.toNat % 32 }) := by
  show execEqWrite path c v s = _
  simp only [execEqWrite, withCtx_lt _ h, hx, hr, Bool.true_and, Bool.or_eq_true, decide_eq_true_eq, hv, if_true]

theorem eqWrite_noCq {s : State} {path : Path} {c : Nat} {x : Ctx} {v : BitVec 32} (h : c < 1024)
    (hx : s.ctx? c = some x) (hv : v.toNat % 32 ≠ 31) (hq : s.cqAt c (v.toNat % 32) = none) :
    exec (.eqWrite path c v) s = .next s := by
  show execEqWrite path c v s = _
  simp [execEqWrite, withCtx_lt _ h, hx, hv, hq]

/-- Settles O29, clause by clause from what each command answers. -/
theorem partitionAndContextCommands : Obligations.PartitionAndContextCommands := by
  refine ⟨fun s path p hp hr hflr => ⟨fun h => ?_, fun h => ?_, fun h => ?_, fun h => ?_, fun h => ?_, fun h => ?_⟩,
    fun s path c x hc hx hr hf => ?_, fun s path c x hc hx hr hf => ?_,
    fun s path c x v hc hx hr hv => eqWrite_reached hc hx hr hv, fun s path c x v hc hx hv hq => eqWrite_noCq hc hx hv hq⟩
  · rw [exec_partCtlStart hp, partCtl_legal hr h hflr]
  · rw [exec_partCtlStop hp, partCtl_legal hr h hflr]
  · rw [exec_partCtlRestart hp, partCtl_legal hr h hflr]
  · rw [exec_partCtlStart hp, partCtl_ignored hr h]
  · rw [exec_partCtlStop hp, partCtl_ignored hr h]
  · rw [exec_partCtlRestart hp, partCtl_ignored hr h]
  · rw [clearFault_reached hc hx hr, Ctx.clearedFault, if_neg hf]
  · refine ⟨_, clearFault_reached hc hx hr, ?_⟩
    rw [Ctx.clearedFault, if_pos hf]
    exact ⟨ctx_setCtx_self s c x, rfl, rfl, rfl⟩

end Sys2Proof.Machine
end

section
/-! SUPPORT. A slot whose QUEUE_CFG holds a word of nonzero SIZE while its queue is enabled: disabling it leaves that SIZE,
since the word that SIZE 0 is put into is built from the slot, and the word held takes the place of the slot's own fields. -/

namespace Sys2Proof.Machine

/-- A READY device with an enabled RQ in slot 0 of context 0, whose QUEUE_CFG holds SIZE 2. -/
def rqHoldingSize2 : State :=
  { State.reset with
    power := { coldReset := false, rstLow := false, ready := true }
    qslots := [(0, { kind := 2, enabled := true, written := some 32 })] }

/-- QUEUE_DISABLE ends the queue, and SIZE is 2. -/
theorem queueDisable_rqHoldingSize2 :
    exec (.queueDisable .pf 0 0) rqHoldingSize2 =
      .next { rqHoldingSize2 with qslots := [(0, { size := 2, bufLog2 := 0, ringHold := 0 })] } := rfl

/-- Refutes O30: an RQ's slot that still holds a written word of SIZE 2 reads SIZE 2, not 0, once it is disabled. -/
theorem not_queuesComeAndGo : ¬ Obligations.QueuesComeAndGo := by
  rintro ⟨-, -, hdisable, -⟩
  obtain ⟨t, ht, -, hsize, -⟩ :=
    hdisable rqHoldingSize2 .pf 0 0 (by decide) (by decide) rfl rfl (.inl rfl)
  rw [queueDisable_rqHoldingSize2] at ht
  obtain rfl := Host.Outcome.next.inj ht
  exact absurd hsize (by decide)

end Sys2Proof.Machine
end

section
/-! SUPPORT. Register access: what a write or a read of each size does, by the register that the offset lies in. -/

namespace Sys2Proof.Machine

section
variable {s : State} {path : Path} {off : Nat} {r : Reg}

/-! ### Writes (R9, R10) -/

/-- The lower half of a 64-bit register is staged. -/
theorem write32_lower {v : Nat} (hr : s.regAt path off = some r) (hw : r.wide = true) :
    s.write32 path off v = { s with access := { s.access with
      staged := assocSet s.access.staged (path, off) (BitVec.ofNat 32 v) } } := by
  simp only [State.write32, hr, hw, if_true]

/-- The upper half commits the whole, with the half that was staged. -/
theorem write32_upper {v : Nat} {l : BitVec 32} (hr : s.regAt path off = some r) (hw : r.wide = true)
    (hn : s.regAt path (off + 4) = none) (hl : (assoc? s.access.staged (path, off)).getD 0 = l) :
    s.write32 path (off + 4) v = s.commit path r.kind (l.toNat + v * 2 ^ 32) := by
  simp only [State.write32, hn, Nat.le_add_left, if_true, Nat.add_sub_cancel, hr, hw, hl]

theorem write32_narrow {v : Nat} (hr : s.regAt path off = some r) (hw : r.wide = false) :
    s.write32 path off v = s.commit path r.kind v := by
  simp only [State.write32, hr, hw, Bool.false_eq_true, if_false]

theorem write64_wide {v : Nat} (hr : s.regAt path off = some r) (hw : r.wide = true) :
    s.write64 path off v = s.commit path r.kind v := by
  simp only [State.write64, hr, hw, if_true]

theorem writeAt_four {v : Word} (ho : s.pathOpen path = true) (ha : off % 4 = 0) :
    s.writeAt path off 4 v = s.write32 path off (v.toNat % 2 ^ 32) := by
  simp only [State.writeAt, ho, ha, Bool.not_true, Bool.false_and, Bool.false_eq_true, if_false, decide_true,
    Bool.and_self, if_true]

theorem writeAt_eight {v : Word} (ho : s.pathOpen path = true) (ha : off % 8 = 0) (ht : takes64 path = true) :
    s.writeAt path off 8 v = s.write64 path off v.toNat := by
  simp [State.writeAt, ho, ha, ht]

/-- A path that is not there writes nothing before FATAL (R369). -/
theorem writeAt_closed {bytes : Nat} {v : Word} (ho : s.pathOpen path = false) (hf : s.fw.fatal = false) :
    s.writeAt path off bytes v = s := by
  simp [State.writeAt, State.fatalCall, ho, hf]

theorem writeAt_otherSize {bytes : Nat} {v : Word} (h4 : bytes ≠ 4) (h8 : bytes ≠ 8) : s.writeAt path off bytes v = s := by
  simp [State.writeAt, h4, h8]

/-- Doorbell pages hold 32-bit registers, so that a path with a 64-bit register takes writes of 64 bits. -/
theorem takes64_of_wide (hr : s.regAt path off = some r) (hw : r.wide = true) : takes64 path = true := by
  cases path with
  | bell n =>
    simp only [State.regAt, State.bellReg] at hr
    split at hr
    · split at hr
      · cases hr; exact hw
      · exact nomatch hr
    · exact nomatch hr
  | pf => rfl
  | vf n => rfl
  | smbus => rfl

/-! ### Reads (R9, R10, R474) -/

/-- A read of anything but 0x4000 takes no snapshot. -/
theorem snapshotAt_ne (h : off ≠ 0x4000) : s.snapshotAt .pf off = s := by
  simp only [State.snapshotAt, if_neg h]

theorem snapshotAt_seq : s.snapshotAt .pf 0x4000 = { s with access := { s.access with snapshot := some s.seqNow } } := by
  simp only [State.snapshotAt, if_true]

/-- The lower half of a 64-bit register latches the upper. -/
theorem read32_lower (hr : s.regAt path off = some r) (hw : r.wide = true) :
    s.read32 path off = (r.value % 2 ^ 32, { s with access := { s.access with
      latched := assocSet s.access.latched (path, off) (BitVec.ofNat 32 (r.value / 2 ^ 32)) } }) := by
  simp only [State.read32, hr, hw, if_true]

/-- The upper half reads as it was latched. -/
theorem read32_upper {v : BitVec 32} (hr : s.regAt path off = some r) (hw : r.wide = true)
    (hn : s.regAt path (off + 4) = none) (hv : (assoc? s.access.latched (path, off)).getD 0 = v) :
    s.read32 path (off + 4) = (v.toNat, s) := by
  simp only [State.read32, hn, Nat.le_add_left, if_true, Nat.add_sub_cancel, hr, hw]
  subst hv
  cases assoc? s.access.latched (path, off) <;> rfl

theorem read64_wide (hr : s.regAt path off = some r) (hw : r.wide = true) : s.read64 path off = r.value := by
  simp only [State.read64, hr, hw, if_true]

theorem readAt_four (h : off ≠ 0x4000) (ha : off % 4 = 0) : s.readAt .pf off 4 = s.read32 .pf off := by
  simp [State.readAt, snapshotAt_ne h, ha]

theorem readAt_eight (ha : off % 8 = 0) :
    s.readAt .pf off 8 = ((s.snapshotAt .pf off).read64 .pf off, s.snapshotAt .pf off) := by
  simp [State.readAt, ha]

theorem readAt_otherSize {bytes : Nat} (h4 : bytes ≠ 4) (h8 : bytes ≠ 8) : s.readAt path off bytes = (0, s) := by
  simp [State.readAt, h4, h8]

/-- A read by a BAR path is completed with the value read. -/
theorem readOut_readable {bytes : Nat} (hp : path ≠ .smbus) (h : s.readable path = true) :
    s.readOut path off bytes =
      (s.readAt path off bytes).2.emit (.mmioRead (BitVec.ofNat 64 (s.readAt path off bytes).1)) := by
  cases path <;> simp_all [State.readOut]

theorem readOut_notReadable {bytes : Nat} (hp : path ≠ .smbus) (h : s.readable path = false) :
    s.readOut path off bytes = s.emit (.mmioRead 0) := by
  cases path <;> simp_all [State.readOut]

/-! ### The commands -/

/-- What an entry holds, or 0 where there is none. -/
theorem getD_of_held {o : Option (BitVec 32)} {l : BitVec 32} (h : o = some l ∨ (o = none ∧ l = 0)) : o.getD 0 = l := by
  obtain rfl | ⟨rfl, rfl⟩ := h <;> rfl

/-- A write to a gate-only register is counted. -/
theorem gaWrite_counts {v : Word} (ho : s.pathOpen path = true) (ha : off % 4 = 0) (hr : s.regAt path off = some r)
    (hw : r.wide = false) (hk : r.kind = .ga) : exec (.gaWrite path off 4 v) s = .next (s.bump bypassCtr) := by
  have hga : s.isGa path off = true := by simp only [State.isGa, hr, hk, decide_true]
  show Host.Outcome.next (if s.isGa path off then s.writeAt path off 4 v else s) = _
  rw [if_pos hga, writeAt_four ho ha, write32_narrow hr hw, hk]
  rfl

/-- A read of one of the BAR paths, of neither 4 nor 8 bytes, gives 0. -/
theorem readOut_otherSize {bytes : Nat} (hp : path ≠ .smbus) (h4 : bytes ≠ 4) (h8 : bytes ≠ 8) :
    s.readOut path off bytes = s.emit (.mmioRead 0) := by
  cases hr : s.readable path with
  | true => rw [readOut_readable hp hr, readAt_otherSize h4 h8]; rfl
  | false => rw [readOut_notReadable hp hr]

theorem readOut_pf {bytes : Nat} (h : s.readable .pf = true) :
    s.readOut .pf off bytes =
      (s.readAt .pf off bytes).2.emit (.mmioRead (BitVec.ofNat 64 (s.readAt .pf off bytes).1)) :=
  readOut_readable nofun h

/-- The read of 0x4000 takes the snapshot. -/
theorem seqSnapshotRead_readable (h : s.readable .pf = true) :
    exec (.seqSnapshotRead .pf) s = .next
      (State.emit { s with access := { s.access with snapshot := some s.seqNow } }
        (.mmioRead (BitVec.ofNat 64 (s.readAt .pf 0x4000 8).1))) := by
  show Host.Outcome.next (s.readOut .pf 0x4000 8) = _
  rw [readOut_pf h, readAt_eight rfl, snapshotAt_seq]

end

/-- Settles O51, clause by clause from what a write or a read of each size does. -/
theorem registerAccess : Obligations.RegisterAccess := by
  refine ⟨fun s path off v r ho ha hr hw => ?_, fun s path off v r l ho ha hr hw hn hl => ?_,
    fun s path off v r ho ha hr hw => ?_, fun s path off bytes v h => ?_,
    fun s path off v r ho ha hr hw hk => gaWrite_counts ho ha hr hw hk, fun s off r ho ha h0 hr hw => ?_,
    fun s off r v ho ha hr hw hn h0 hv => ?_, fun s off r ho ha h0 hr hw => ?_,
    fun s path off bytes hp h4 h8 => congrArg Host.Outcome.next (readOut_otherSize hp h4 h8),
    fun s h => congrArg Host.Outcome.next (readOut_notReadable nofun h),
    fun s h => ⟨_, seqSnapshotRead_readable h, rfl, ⟨_, rfl⟩, rfl, rfl, rfl⟩⟩
  · show Host.Outcome.next (s.writeAt path off 4 v) = _
    rw [writeAt_four ho ha, write32_lower hr hw]
  · show Host.Outcome.next (s.writeAt path (off + 4) 4 v) = _
    rw [writeAt_four ho (by omega), write32_upper hr hw hn (getD_of_held hl)]
  · show Host.Outcome.next (s.writeAt path off 8 v) = _
    rw [writeAt_eight ho ha (takes64_of_wide hr hw), write64_wide hr hw]
  · show Host.Outcome.next (s.writeAt path off bytes v) = _
    obtain ⟨ho, hf⟩ | ⟨h4, h8⟩ := h
    · rw [writeAt_closed ho hf]
    · rw [writeAt_otherSize h4 h8]
  · show Host.Outcome.next (s.readOut .pf off 4) = _
    rw [readOut_pf ho, readAt_four h0 ha, read32_lower hr hw]
    rfl
  · show Host.Outcome.next (s.readOut .pf (off + 4) 4) = _
    rw [readOut_pf ho, readAt_four h0 (by omega), read32_upper hr hw hn (getD_of_held hv)]
    rfl
  · show Host.Outcome.next (s.readOut .pf off 8) = _
    rw [readOut_pf ho, readAt_eight ha, snapshotAt_ne h0, read64_wide hr hw]
    rfl

end Sys2Proof.Machine
end

section
/-! SUPPORT. The changes of Rooster's state of Table 1.3: what each command answers where its condition holds. -/

namespace Sys2Proof.Machine

theorem holdoverEntry_next {s : State} (ha : s.alive = true) (hst : s.rooster.st = .locked) (hm : 2 ≤ s.rooster.missRun)
    (ho : s.otherAsGood = false) :
    exec .holdoverEntry s =
      .next { s with rooster := { s.rooster with st := .holdover, holdTicks := 0, closeRun := 0 } } := by
  show execHoldoverEntry s = _
  simp [execHoldoverEntry, ha, hst, hm, ho]

/-- LOCKED is entered from ACQUIRING after 16 close markers, and from HOLDOVER on a good marker of the parent. -/
theorem lockedEntry_next {s : State} (ha : s.alive = true)
    (h : s.rooster.st = .acquiring ∧ 16 ≤ s.rooster.closeRun ∨ s.rooster.st = .holdover ∧ s.rooster.parentGood = true) :
    exec .lockedEntry s = .next { s with rooster := { s.rooster with st := .locked, wide := false, holdTicks := 0 } } := by
  show execLockedEntry s = _
  obtain ⟨hst, hc⟩ | ⟨hst, hg⟩ := h
  · simp [execLockedEntry, ha, hst, hc]
  · simp [execLockedEntry, ha, hst, hg]

theorem wideSet_next {s : State} (ha : s.alive = true) (hst : s.rooster.st = .holdover) (hh : 4 ≤ s.rooster.holdTicks) :
    exec .wideSet s = .next { s with rooster := { s.rooster with wide := true } } := by
  show execWideSet s = _
  simp [execWideSet, ha, hst, hh]

theorem gmKeyExpiry_next {s : State} {port : Nat} {h : Heard} (hp : port < 49) (ha : s.alive = true)
    (hh : s.rooster.heard.get? port = some h) (hage : 4 ≤ h.age) :
    exec (.gmKeyExpiry port) s =
      .next { s with rooster := { s.rooster with heard := s.rooster.heard.erase port } } := by
  show execGmKeyExpiry port s = _
  simp [execGmKeyExpiry, withPort_lt _ hp, ha, hh, hage]

theorem refLiveLoss_next {s : State} (ha : s.alive = true) (hl : s.rooster.refLive = true)
    (h : s.rooster.refEn = false ∨ s.rooster.refRun = 0 ∨ (s.rooster.slot ≠ 0 ∧ s.rooster.refSeen = false)) :
    exec .refLiveLoss s = .next { s with rooster := { s.rooster with refLive := false } } := by
  show execRefLiveLoss s = _
  have hc : (!s.rooster.refEn || s.rooster.refRun = 0 || (s.rooster.slot ≠ 0 && !s.rooster.refSeen)) = true := by
    simpa [or_assoc] using h
  simp only [execRefLiveLoss, ha, hl, hc, Bool.and_self, if_true]

/-- Settles O2, row by row of Table 1.3. -/
theorem roosterStateChanges : Obligations.RoosterStateChanges :=
  ⟨fun _ => holdoverEntry_next, fun _ ha hst hc => lockedEntry_next ha (.inl ⟨hst, hc⟩),
    fun _ ha hst hg => lockedEntry_next ha (.inr ⟨hst, hg⟩), fun _ => wideSet_next,
    fun _ _ _ hp ha hh hage => ⟨_, gmKeyExpiry_next hp ha hh hage, Tbl.get?_erase_self _ _,
      fun _ hq => Tbl.get?_erase_ne _ hq, rfl, rfl, rfl⟩,
    fun _ => refLiveLoss_next⟩

end Sys2Proof.Machine
end

section
/-! SUPPORT. Flow, predicates and time (Table 10.5): what each instruction does to its thread where it issues with its guard
holding. -/

namespace Sys2Proof.Machine

variable {s : State} {p : Nat}

/-- An instruction that changes only its thread acts on the thread whose pc has moved on. -/
theorem issueT_acts {i : Instr} (f : Thread → Thread) (h : s.issues p i) :
    s.issueT p i f = .next (s.setThread p (f (s.movedOn p i))) :=
  issue_acts _ _ h

@[simp] theorem orFlags_none (t : Thread) : t.orFlags 0 = t := by simp [Thread.orFlags]

/-! ### LEND (R265) -/

/-- The thread after LEND: the count goes down by one, and the loop goes on at its start unless the count is used up. -/
def Thread.lend (t : Thread) (rc start : Nat) : Thread :=
  let t1 := t.setReg rc (t.reg rc - 1)
  if t.reg rc - 1 = 0 then t1 else { t1 with pc := start }

/-- What LEND leaves of its thread, all but the pc and the count. -/
theorem lend_keeps (t : Thread) (rc start : Nat) :
    (t.lend rc start).regs = (t.setReg rc (t.reg rc - 1)).regs ∧ (t.lend rc start).sflags = t.sflags ∧
      (t.lend rc start).preds = t.preds ∧ (t.lend rc start).recs = t.recs := by
  unfold Thread.lend
  dsimp only
  split
  · exact ⟨rfl, setReg_sflags .., setReg_preds .., setReg_recs ..⟩
  · exact ⟨rfl, setReg_sflags .., setReg_preds .., setReg_recs ..⟩

theorem lend_pc (t : Thread) (rc start : Nat) : (t.lend rc start).pc = if t.reg rc = 1 then t.pc else start := by
  have h : t.reg rc - 1 = 0 ↔ t.reg rc = 1 := BitVec.sub_eq_iff_eq_add.trans (by simp)
  unfold Thread.lend
  dsimp only
  split
  next hz => rw [if_pos (h.mp hz), setReg_pc]
  next hz => rw [if_neg (mt h.mpr hz)]

theorem lend_reg_self (t : Thread) {rc : Nat} (start : Nat) (h : rc ≠ 0) : (t.lend rc start).reg rc = t.reg rc - 1 :=
  (reg_congr (lend_keeps t rc start).1 rc).trans (reg_setReg_self t _ h)

theorem lend_reg_ne (t : Thread) {rc r : Nat} (start : Nat) (h : r ≠ rc) : (t.lend rc start).reg r = t.reg r :=
  (reg_congr (lend_keeps t rc start).1 r).trans (reg_setReg_ne t _ h)

/-! ### Compares and predicate logic (R264) -/

theorem condHolds_iff {cond : BitVec 3} (h : cond.toNat ≤ 5) (a b : Word) :
    condHolds cond.toNat a b = true ↔
      (cond = 0 ∧ a = b) ∨ (cond = 1 ∧ a ≠ b) ∨ (cond = 2 ∧ a.toInt < b.toInt) ∨ (cond = 3 ∧ a.toInt ≤ b.toInt) ∨
        (cond = 4 ∧ a.toNat < b.toNat) ∨ (cond = 5 ∧ a.toNat ≤ b.toNat) := by
  have hc : cond = 0 ∨ cond = 1 ∨ cond = 2 ∨ cond = 3 ∨ cond = 4 ∨ cond = 5 := by revert h; revert cond; decide
  obtain rfl | rfl | rfl | rfl | rfl | rfl := hc <;> simp [condHolds]

theorem plogOp_iff (opl : BitVec 2) (a b : Bool) :
    plogOp opl.toNat a b = true ↔
      (opl = 0 ∧ (a = true ∧ b = true)) ∨ (opl = 1 ∧ (a = true ∨ b = true)) ∨ (opl = 2 ∧ a ≠ b) ∨
        (opl = 3 ∧ (a = true ∧ b = false)) := by
  revert opl a b; decide

/-! ### The instructions -/

theorem br_acts {h : GHead} {cp : BitVec 3} {cn : Bool} {target : BitVec 16} (hi : s.issues p (.br p h cp cn target)) :
    exec (.br p h cp cn target) s = .next (s.setThread p
      (if (s.thread p).pred cp.toNat != cn then { s.thread p with pc := target.toNat }
       else s.movedOn p (.br p h cp cn target))) := by
  show execBr p h cp cn target s = _
  rw [execBr, issueT_acts _ hi]
  rfl

theorem loop_acts {h : GHead} {rc : BitVec 5} {end_ max : BitVec 16} (hi : s.issues p (.loop p h rc end_ max)) :
    exec (.loop p h rc end_ max) s = .next (s.setThread p
      (if s.sreg p rc = 0 then { s.thread p with pc := end_.toNat + 1 }
       else if max.toNat < (s.sreg p rc).toNat then
         ((s.movedOn p (.loop p h rc end_ max)).setReg rc.toNat (max.zeroExtend 64)).orFlags sfSAT
       else s.movedOn p (.loop p h rc end_ max))) := by
  show execLoop p h rc end_ max s = _
  rw [execLoop, issueT_acts _ hi]
  rfl

theorem lend_acts {h : GHead} {rc : BitVec 5} {start : BitVec 16} (hi : s.issues p (.lend p h rc start)) :
    exec (.lend p h rc start) s =
      .next (s.setThread p ((s.movedOn p (.lend p h rc start)).lend rc.toNat start.toNat)) := by
  show execLend p h rc start s = _
  rw [execLend, issueT_acts _ hi]
  rfl

theorem tickwait_acts {h : GHead} (hi : s.issues p (.tickwait p h)) :
    exec (.tickwait p h) s = .next (s.setThread p { s.movedOn p (.tickwait p h) with waiting := true }) := by
  show execTickwait p h s = _
  rw [execTickwait, issueT_acts _ hi]

theorem tickwaitComplete_next (hp : p < 128) (hst : (s.thread p).st = .running) (hw : (s.thread p).waiting = true)
    (hr : (s.thread p).recs = []) (hs : (s.thread p).sends = []) (hq : s.ownQueued p = false) :
    exec (.tickwaitComplete p) s = .next (s.setThread p { s.thread p with ticked := true }) := by
  show execTickwaitComplete p s = _
  simp [execTickwaitComplete, withPart_lt _ hp, hst, hw, hr, hs, hq]

theorem cmp_acts {h : GHead} {pd cond : BitVec 3} {ra rb : BitVec 5} {imm : Bool} {imm26 : BitVec 26}
    (hi : s.issues p (.cmp p h pd cond ra imm rb imm26)) :
    exec (.cmp p h pd cond ra imm rb imm26) s =
      .next (s.setThread p ((s.movedOn p (.cmp p h pd cond ra imm rb imm26)).setPred pd.toNat
        (condHolds cond.toNat (s.sreg p ra) (if imm then imm26.signExtend 64 else s.sreg p rb)))) := by
  show execCmp p h pd cond ra imm rb imm26 s = _
  rw [execCmp, issueT_acts _ hi]
  rfl

theorem plog_acts {h : GHead} {pd pa pb : BitVec 3} {opl : BitVec 2} (hi : s.issues p (.plog p h pd opl pa pb)) :
    exec (.plog p h pd opl pa pb) s =
      .next (s.setThread p ((s.movedOn p (.plog p h pd opl pa pb)).setPred pd.toNat
        (plogOp opl.toNat ((s.thread p).pred pa.toNat) ((s.thread p).pred pb.toNat)))) := by
  show execPlog p h pd opl pa pb s = _
  rw [execPlog, issueT_acts _ hi]
  rfl

/-- RDT writes no flag. -/
theorem rdt_acts {h : GHead} {rd : BitVec 5} {sel : BitVec 3} (hi : s.issues p (.rdt p h rd sel)) :
    exec (.rdt p h rd sel) s = .next (s.scalarTo p (.rdt p h rd sel) rd (s.rdt p sel.toNat) 0) := by
  show execRdt p h rd sel s = _
  rw [State.scalarTo, orFlags_none, execRdt, issueT_acts _ hi]

/-- What RDT reads, by its selector. -/
theorem rdt_reads {sel : BitVec 3} (h : sel.toNat ≤ 5) :
    (sel = 0 → s.rdt p sel.toNat = s.rooster.tickNo) ∧ (sel = 1 → s.rdt p sel.toNat = BitVec.ofNat 64 s.rooster.slot) ∧
    (sel = 2 → s.rdt p sel.toNat = BitVec.ofNat 64 p) ∧ (sel = 3 → s.rdt p sel.toNat = s.epoch.current.zeroExtend 64) ∧
    (sel = 4 → s.rdt p sel.toNat = BitVec.ofNat 64 (s.thread p).variant) ∧
    (sel = 5 → s.rdt p sel.toNat = BitVec.ofNat 64 s.rooster.slots) := by
  refine ⟨?_, ?_, ?_, ?_, ?_, ?_⟩ <;> (rintro rfl; rfl)

/-- Settles O20, instruction by instruction. -/
theorem flowAndPredicates : Obligations.FlowAndPredicates := by
  refine ⟨fun s p h hi => issueT_acts id hi, fun s p h cp cn target hi => br_acts hi,
    fun s p h rc end_ max hi => loop_acts hi, fun s p h rc start hi => ⟨_, lend_acts hi, ?_⟩,
    fun s p h hi => tickwait_acts hi, fun s p hp hst hw hr hs hq => tickwaitComplete_next hp hst hw hr hs hq,
    fun s p h pd cond ra imm rb imm26 a b hi hc ha hb => ⟨_, condHolds_iff hc a b, ?_⟩,
    fun s p h pd opl pa pb hi => ⟨_, plogOp_iff opl _ _, plog_acts hi⟩, fun s p h rd sel hi hs => ⟨s.rdt p sel.toNat, ?_⟩⟩
  · obtain ⟨-, hf, hpr, hrec⟩ := lend_keeps (s.movedOn p (.lend p h rc start)) rc.toNat start.toNat
    simp only [State.sreg, thread_setThread_self, true_and]
    exact ⟨fun h0 => lend_reg_self _ _ (fun he => h0 (BitVec.eq_of_toNat_eq he)),
      fun r hr => lend_reg_ne _ _ (mt BitVec.eq_of_toNat_eq hr), lend_pc _ _ _, hf, hpr, hrec⟩
  · rw [ha, hb, cmp_acts hi]
  · obtain ⟨h0, h1, h2, h3, h4, h5⟩ := rdt_reads (s := s) (p := p) hs
    exact ⟨h0, h1, h2, h3, h4, h5, rdt_acts hi⟩

end Sys2Proof.Machine
end

section
/-! SUPPORT. Which commands complete and which fault: each command answers a next state exactly where the objects that it
names exist, by the stop that guards it (log 6). -/

namespace Sys2Proof.Machine

/-- A command completes where `ok` holds, and faults where it does not. -/
def Answers : Bool → Res → Prop
  | true, r => ∃ t, r = .next t
  | false, r => ∃ f, r = .fault f

/-! ### The stops -/

theorem Answers.next {t : State} : Answers true (.next t) := ⟨t, rfl⟩

theorem Answers.guarded {c : Prop} [Decidable c] {b : Bool} {r : Res} {f : Fault} (h : Answers b r) :
    Answers (decide c && b) (if c then r else .fault f) := by
  by_cases hc : c
  · simpa [hc] using h
  · simpa [hc] using ⟨f, rfl⟩

theorem Answers.ite {c : Prop} [Decidable c] {t : State} {f : Fault} :
    Answers (decide c) (if c then .next t else .fault f) := by
  simpa using guarded (c := c) (f := f) (next (t := t))

theorem Answers.withPort {p : Nat} {t : State} : Answers (p < 49) (withPort p (.next t)) := .ite
theorem Answers.withLane {p j : Nat} {t : State} : Answers (p < 49 && j < laneCount p) (withLane p j (.next t)) :=
  .guarded .ite
theorem Answers.withPart {p : Nat} {t : State} : Answers (p < 128) (withPart p (.next t)) := .ite
theorem Answers.withCtx {c : Nat} {t : State} : Answers (c < 1024) (withCtx c (.next t)) := .ite
theorem Answers.withQueue {q : Nat} {t : State} : Answers (q < 4096) (withQueue q (.next t)) := .ite
theorem Answers.withFunc {n : Nat} {t : State} : Answers (n < 129) (withFunc n (.next t)) := .ite
theorem Answers.withUnit {b : Bool} {t : State} : Answers b (withUnit b (.next t)) := by
  cases b
  · exact ⟨_, rfl⟩
  · exact .next

/-- A unit of a context. -/
theorem Answers.withCtxUnit {c : Nat} {b : Bool} {t : State} :
    Answers (c < 1024 && b) (Machine.withCtx c (Machine.withUnit b (.next t))) := .guarded .withUnit
/-- A unit of a function: a doorbell page, a vector, or a VF itself. -/
theorem Answers.withFuncUnit {n : Nat} {b : Bool} {t : State} :
    Answers (n < 129 && b) (Machine.withFunc n (Machine.withUnit b (.next t))) := .guarded .withUnit

theorem Answers.withAgent {a : Agent} {t : State} : Answers (agentOk a) (withAgent a (.next t)) := by
  cases a with
  | thread p => exact .withPart
  | mule k => exact .withUnit

/-- The slots 0 to 129 are those of Mule and of the 129 functions (R382). -/
theorem Answers.withSlot {c : Caller} {t : State} : Answers (callerOk c) (withSlot c (.next t)) := by
  have h : callerOk c = decide (c.slot - 1 < 129) := decide_eq_decide.mpr (by omega)
  exact h ▸ .withFunc

theorem Answers.hostFrameBuild {src : Nat} {data : List Byte} {s : State} :
    Answers (src ≤ 4096) (execHostFrameBuild src data s) := by
  unfold execHostFrameBuild
  by_cases h : 4096 < src
  · simpa [h, Nat.not_le.mpr h] using ⟨_, rfl⟩
  · simpa [h, Nat.not_lt.mp h] using ⟨_, rfl⟩

/-- A reply and a request of ARM_REQ both complete. -/
theorem Answers.armReq {m : SvcMsg} {s : State} : Answers true (execArmReq m s) := by
  unfold execArmReq
  split
  · exact .next
  · exact .next

/-! ### The commands -/

/-- Every command is guarded by the stop of the objects that it names, and by no other. -/
theorem exec_answers (c : Instr) (s : State) : Answers c.wf (exec c s) := by
  cases c with
  | hinge | slotStart | hingeSlot1 | holdoverEntry | lockedEntry | wideSet | tickSlip | tickLenAdopt | tickRefEdge
  | refLiveLoss | cRetryTimeout | cAckSend | notreadyRetry | echoSend | bMsgTimeout | hingeDrainEnd | scrubPassEnd
  | ringHoldExpiry | mgmtCauseClear | pfFlr | perstNAssert | perstNDeassert | regRead | counterRead | state | pldmRequest
  | mctpControl | smbusWriteAttempt | gateCallComplete | drainLand | drainRollback | muleRestart | lockstepMismatch
  | coldRstNLow | pwrgoodLow | coldResetEnd | refclkLoss | railUndervoltage | thermalTrip | tapInstruction | tapReset
  | bootCopyCheck | gmCandidacyStart | readyPublish | muleHingeReview | spreadWeightReview | throttleLower | create | put
  | commit | get | drop | join | leave | arrive | arriveTimeout | propose | forget | drain | drainPartStart | partDone
  | partResend | armReqResend | heldArmFlood | stagingDeadline | twinPulseInEdge | pairingDecision | linkOnlyEntry
  | soloEntry | detach | attach | gaWrite | registerWrite | lowerHalfRead | seqSnapshotRead | portHpLinkTraining
  | portHpTrained => exact .next
  | armReq => exact .armReq
  | marker | gmKeyExpiry | portRangeStart | range | rangingComplete | adapt | notice | realign | noticeRepeat
  | directionFailed | sleepWindowStart | wakeBurst | wakeMarker | wakeMiss | sData | bData | cData | cAck | bEcho
  | cNotready | heartbeat | credit | creditSend | creditStall | egressFrameStart | egressFrameEnd | mcHoldExpiry | arm
  | laneChangeStep | laneChangeTimeout | portEnable | portExclude | portReach | portAsym | framingError
  | napOrDozeMarker => exact .withPort
  | laneDetectPulse | quietExpiry | bitLock | trainingMarker | capsRecord | laneTrainTimeout | excludedLaneRetry
  | eyeWindowEnd | marginalLaneDrop | lossOfLock | laneExclusionRelease | laneCfg | receivedLight => exact .withLane
  | arrivalTest | oxOpBegin | retire | nop | br | loop | lend | tickwait | tickwaitComplete | cmp | plog | rdt | add | sub
  | mul | divs | divu | neg | abs | and | or | xor | shl | shr | sra | adds | subs | muls | adduS | subuS | addi | movi
  | ori | ld | ldDataReturn | st | aadd | aswp | acas | acas2 | fenceDepot | fenceTick | recv | send | sendTileRead
  | expect | lclr | tld | tacc | emit | tst | post | partCtlStart | partCtlStop | partCtlRestart | funcCauseClear
  | normalVariantReturn => exact .withPart
  | hostFrameBuild => exact .hostFrameBuild
  | henAllocation | henListRebuild | henLevelChange | copyBackEnd | muleDepotAccess | portGroupAdmit => exact .withUnit
  | storePerformed | atomicPerformed => exact .withAgent
  | clearFault | eqWrite => exact .withCtx
  | queueEnable | queueDisable => exact .withCtxUnit
  | sqDoorbell | rqDoorbell | cqDoorbell | cqArm | msixUnmask | vfFlr => exact .withFuncUnit
  | bSend | cSend | dmaToDepot | dmaToHost | start | sendEntryComplete | cqTimedFire | dmaReadError => exact .withQueue
  | configRequest | flrComplete => exact .withFunc
  | admitPlan | withdrawPlan | ctxCreate | ctxDestroy | setSegment | serviceGrant | setCarve | setPorts | setHenMin
  | setPools | setGmin | setSwitch | setTickRole | setRoute | setSpread | setRemap | setGrants | setVariant | setTick
  | armEpochLocal | armEpochFlood | setPort | setPortDetach | setPortAttach | setNapMap | throttle | mulePet | enrollKey
  | revokeKey | loadService | commitSvn | loadMule | attest | getCert => exact .withSlot

/-- Settles O54: a command is well formed exactly where the stop that guards it lets it complete. -/
theorem wellFormedCommandsComplete : Obligations.WellFormedCommandsComplete := by
  refine ⟨fun c s h => ?_, fun c s h => ?_⟩
  · have hc : Answers true (exec c s) := h ▸ exec_answers c s
    exact hc
  · have hc : Answers false (exec c s) := h ▸ exec_answers c s
    exact hc

end Sys2Proof.Machine
end

section
/-! SUPPORT. Bytes laid out field after field, and what a link frame that passes every receive check leaves on its port. -/

namespace Sys2Proof.Machine

/-! ### Fields of a payload -/

theorem leBytes_length (n v : Nat) : (leBytes n v).length = n := by
  induction n generalizing v with
  | zero => rfl
  | succ n ih => exact congrArg Nat.succ (ih _)

theorem leNat_leBytes {n v : Nat} (h : v < 256 ^ n) : leNat (leBytes n v) = v := by
  induction n generalizing v with
  | zero => exact (Nat.lt_one_iff.mp h).symm
  | succ n ih =>
    have hd : v / 256 < 256 ^ n := Nat.div_lt_of_lt_mul (Nat.pow_succ' ▸ h)
    simp only [leBytes, leNat, ih hd, BitVec.toNat_ofNat]
    omega

/-- A field at the front of the bytes. -/
theorem natAt_field {n v : Nat} (b : List Byte) (h : v < 256 ^ n) : natAt (leBytes n v ++ b) 0 n = v := by
  have ht : (leBytes n v ++ b).take n = leBytes n v := List.take_left' (leBytes_length n v)
  simp only [natAt, bytesAt, List.drop_zero, ht, leBytes_length, Nat.sub_self, List.replicate_zero, List.append_nil]
  exact leNat_leBytes h

/-- A field behind others. -/
theorem natAt_append (a b : List Byte) {i n : Nat} (h : a.length ≤ i) : natAt (a ++ b) i n = natAt b (i - a.length) n := by
  simp only [natAt, bytesAt, List.drop_append, List.drop_eq_nil_of_le h, List.nil_append]

/-! ### A link frame is received (Table 4.6) -/

/-- Line errors that were corrected move counters alone. -/
theorem lineCounts_eq (s : State) (p : Nat) (f : RxFrame) : ∃ c, s.lineCounts p f = { s with counters := c } := by
  have count (t : State) (i : Nat) (h : ∃ c, t = { s with counters := c }) : ∃ c, t.bump i = { s with counters := c } := by
    obtain ⟨c, rfl⟩ := h
    exact ⟨_, rfl⟩
  exact List.foldlRecOn _ _ (List.foldlRecOn _ _ ⟨_, rfl⟩ fun t h _ _ => count t _ h) fun t h _ _ => count t _ h

/-- What a good frame leaves of a state before its payload is looked at: other counters, and the hunt of its port ended. -/
def State.received (s : State) (p : Nat) (c : Tbl Word) : State :=
  State.setPort { s with counters := c } p { s.port p with hunt := false }

@[simp] theorem received_port (s : State) (p : Nat) (c : Tbl Word) :
    (s.received p c).port p = { s.port p with hunt := false } := port_setPort_self _ _ _
theorem received_port_ne (s : State) {p q : Nat} (c : Tbl Word) (h : q ≠ p) : (s.received p c).port q = s.port q :=
  port_setPort_ne _ _ h

/-- A frame of the type looked for ends the hunt of its port, and gives its payload. -/
theorem linkRx_takes {s : State} {p typ : Nat} {f : RxFrame} (ha : s.alive = true) (hact : (s.port p).active = true)
    (hf : s.rxFail p f = none) (ht : f.hdr.typ.toNat = typ) :
    ∃ c, s.linkRx p typ f = (s.received p c, some f.body) := by
  obtain ⟨c, hc⟩ := lineCounts_eq s p f
  refine ⟨c, ?_⟩
  rw [State.linkRx, if_neg (by simp [ha, hact]), hf]
  dsimp only
  rw [if_pos ht, hc]
  rfl

end Sys2Proof.Machine
end

section
/-! SUPPORT. The hinge frames of a link: what ranging (R22 to R24) and adaptation (R100, R108) leave of the ports. -/

namespace Sys2Proof.Machine

/-! ### Ranging -/

/-- A RANGE frame names its kind and carries the stamps that it was given. -/
theorem sendRange_frame (s : State) (p index : Nat) {kind : Nat} (t2 t3 : Word) (ab ba : Nat) (hk : kind < 256) :
    ∃ b, s.sendRange p kind index t2 t3 ab ba = s.emit (.frame p (linkHeader tyRange 32) b false false) ∧
      natAt b 0 1 = kind ∧ natAt b 8 8 = t2.toNat ∧ natAt b 16 8 = t3.toNat := by
  refine ⟨_, rfl, ?_, ?_, ?_⟩ <;> simp only [List.append_assoc]
  · exact natAt_field _ hk
  · rw [natAt_append _ _ (by simp [leBytes_length]), natAt_append _ _ (by simp [leBytes_length]),
      natAt_append _ _ (by simp [leBytes_length])]
    simp only [leBytes_length, List.length_replicate]
    exact natAt_field _ t2.isLt
  · rw [natAt_append _ _ (by simp [leBytes_length]), natAt_append _ _ (by simp [leBytes_length]),
      natAt_append _ _ (by simp [leBytes_length]), natAt_append _ _ (by simp [leBytes_length])]
    simp only [leBytes_length, List.length_replicate]
    exact natAt_field _ t3.isLt

/-- A run that starts stands at its first exchange, and only the port's own run changes. -/
theorem startRange_starts {s : State} {p : Nat} (hi : s.initiates p = true) :
    (∃ r, ((s.startRange p).port p).range = some r ∧ r.initiator = true ∧ r.index = 0) ∧
      (s.startRange p).lanes = s.lanes ∧ (s.startRange p).counters = s.counters ∧
      ∀ q, q ≠ p → (s.startRange p).port q = s.port q := by
  unfold State.startRange
  rw [if_pos hi]
  split
  · exact ⟨⟨_, congrArg Port.range (port_setPort_self _ _ _), rfl, rfl⟩, rfl, rfl, fun q hq => port_setPort_ne _ _ hq⟩
  · exact ⟨⟨_, congrArg Port.range (port_setPort_self _ _ _), rfl, rfl⟩, rfl, rfl, fun q hq => port_setPort_ne _ _ hq⟩

theorem portRangeStart_next {s : State} {p : Nat} (hp : p < 49) (ha : s.alive = true) (hr : s.power.ready = true)
    (hact : (s.port p).active = true) (hn : (s.port p).range = none) :
    exec (.portRangeStart .pf p) s = .next (s.startRange p) := by
  show execPortRangeStart .pf p s = _
  simp [execPortRangeStart, withPort_lt _ hp, ha, hr, hact, hn]

/-- The responder stands at the exchange that it answers, and its answer carries the stamps that it was given. -/
theorem answerRange_answers (s : State) (p index : Nat) (stamp reply : Word) :
    ((s.answerRange p index stamp reply).port p).range = some { initiator := false, index := index } ∧
      (∃ b, Out.frame p (linkHeader tyRange 32) b false false ∈ (s.answerRange p index stamp reply).out ∧
        natAt b 0 1 = 2 ∧ natAt b 8 8 = stamp.toNat ∧ natAt b 16 8 = reply.toNat) ∧
      (s.answerRange p index stamp reply).lanes = s.lanes := by
  obtain ⟨b, hb, hfields⟩ := sendRange_frame
    (s.modPort p fun q => { q with range := some { initiator := false, index := index } }) p index (kind := 2) stamp reply
    0 0 (by decide)
  rw [State.answerRange, hb]
  exact ⟨congrArg Port.range (port_setPort_self _ _ _), ⟨b, List.mem_append_right _ (List.mem_singleton_self _), hfields⟩,
    rfl⟩

/-- The first request of a run is answered with the stamps that it was given. -/
theorem range_firstRequest {s : State} {p : Nat} {f : RxFrame} {stamp reply : Word} (hp : p < 49) (ha : s.alive = true)
    (hact : (s.port p).active = true) (hf : s.rxFail p f = none) (ht : f.hdr.typ.toNat = tyRange)
    (hk : natAt f.body 0 1 = 1) (hx : natAt f.body 1 1 = 0) (hn : (s.port p).range = none) :
    ∃ c, exec (.range p f stamp reply) s = .next ((s.received p c).answerRange p 0 stamp reply) := by
  obtain ⟨c, hc⟩ := linkRx_takes ha hact hf ht
  refine ⟨c, ?_⟩
  show execRange p f stamp reply s = _
  simp only [execRange, withPort_lt _ hp, hc, received_port, hk, hx, hn, if_true, Option.isNone_none, decide_true,
    Bool.and_self]

/-- PORT_DELAY after a run has ended (R24, R26, R438). -/
def Port.withDelays (q : Port) (out inn : Nat) : Port :=
  { q with
    delayOut := out, delayIn := inn, ranged := true, rangedWidth := q.widthIn, range := none
    delayOver := 51200 < out || 51200 < inn
    delayPlan := q.delayPlan || (q.planD ≠ 0 && q.planD < inn) }

theorem setDelays_ports (s : State) (p out inn : Nat) :
    (s.setDelays p out inn).ports = (s.setPort p ((s.port p).withDelays out inn)).ports := by
  unfold State.setDelays
  dsimp only
  split
  · exact (count_ports _ _ _).trans rfl
  · rfl

theorem rangingComplete_next {s : State} {p : Nat} {r : RangeRun} (hp : p < 49) (hr : (s.port p).range = some r)
    (hi : r.initiator = true) (hx : r.index = 64) :
    exec (.rangingComplete p) s = .next
      ((s.sendRange p 3 63 0 0 (trimmedDelay r.out2) (trimmedDelay r.in2)).setDelays p (trimmedDelay r.out2)
        (trimmedDelay r.in2)) := by
  show execRangingComplete p s = _
  simp [execRangingComplete, withPort_lt _ hp, hr, hi, hx]

/-- The end of a run writes both delays on its port, and on no other. -/
theorem rangingComplete_ports {s : State} {p : Nat} {r : RangeRun} (hp : p < 49) (hr : (s.port p).range = some r)
    (hi : r.initiator = true) (hx : r.index = 64) :
    Gives (.rangingComplete p) s (fun t =>
      t.ports = (s.setPort p ((s.port p).withDelays (trimmedDelay r.out2) (trimmedDelay r.in2))).ports) :=
  ⟨_, rangingComplete_next hp hr hi hx, setDelays_ports _ _ _ _⟩

/-! ### Adaptation -/

/-- Taking lane by lane what a frame says of the lanes of a port changes lanes alone. -/
theorem foldl_lanes_eq {α : Type} {f : State → α → State} (hf : ∀ t x, ∃ l, f t x = { t with lanes := l }) (s : State)
    (xs : List α) : ∃ l, xs.foldl f s = { s with lanes := l } := by
  refine List.foldlRecOn (motive := fun t => ∃ l, t = { s with lanes := l }) xs f ⟨s.lanes, rfl⟩ fun t ht x _ => ?_
  obtain ⟨l, rfl⟩ := ht
  exact hf _ x

/-- The lane set that the partner wants waits for the end of the hinge slot. -/
theorem adapt_newSet {s : State} {p : Nat} {f : RxFrame} {prop : BitVec 16} (hp : p < 49) (ha : s.alive = true)
    (hact : (s.port p).active = true) (hf : s.rxFail p f = none) (ht : f.hdr.typ.toNat = tyAdapt)
    (hh : s.heldMask p = 0) (hprop : BitVec.ofNat 16 (natAt f.body 28 2) = prop) (h0 : prop ≠ 0)
    (hm : prop ≠ (s.port p).maskOut) :
    ∃ c l, exec (.adapt p f true) s = .next (State.setPort { s.received p c with lanes := l } p
      { s.port p with
        hunt := false, healthyOut := prop ||| BitVec.ofNat 16 (natAt f.body 30 2), nextOut := some prop }) := by
  obtain ⟨c, hc⟩ := linkRx_takes ha hact hf ht
  show ∃ c l, execAdapt p f true s = _
  simp only [execAdapt, withPort_lt _ hp, hc, hh, hprop, if_true]
  generalize hu : List.foldl _ _ (List.range 16) = u
  have hlanes : ∃ l, u = { s.received p c with lanes := l } := by
    rw [← hu]
    refine foldl_lanes_eq (fun t j => ?_) _ _
    split
    · exact ⟨t.lanes, rfl⟩
    · exact ⟨_, rfl⟩
  obtain ⟨l, rfl⟩ := hlanes
  have hport : State.port { s.received p c with lanes := l } p = { s.port p with hunt := false } := received_port s p c
  refine ⟨c, l, ?_⟩
  have hw : (if prop &&& (0 : BitVec 16) = 0 then prop else
      laneSet p ((prop ||| BitVec.ofNat 16 (natAt f.body 30 2)) &&& ~~~(0 : BitVec 16))) = prop := if_pos (by simp)
  have hall (x : BitVec 16) : x &&& ~~~(0 : BitVec 16) = x := BitVec.and_allOnes
  rw [hw, modPort_eq, hport, if_neg (by simpa using ⟨h0, hm⟩), hall]

/-- Settles O7, frame by frame. -/
theorem hingeFramesAreTaken : Obligations.HingeFramesAreTaken := by
  refine ⟨fun s p hp ha hr hact hn hi => ⟨_, portRangeStart_next hp ha hr hact hn, startRange_starts hi⟩,
    fun s p f stamp reply hp ha hact hf ht hk hx hn => ?_, fun s p r hp hr hi hx => ?_,
    fun s p f hp ha hact hf ht hh h0 hm => ?_⟩
  · obtain ⟨c, hnext⟩ := range_firstRequest (stamp := stamp) (reply := reply) hp ha hact hf ht hk hx hn
    exact ⟨_, hnext, answerRange_answers _ _ _ _ _⟩
  · obtain ⟨t, hnext, hports⟩ := rangingComplete_ports hp hr hi hx
    refine ⟨t, hnext, ?_⟩
    have hself : t.port p = (s.port p).withDelays (trimmedDelay r.out2) (trimmedDelay r.in2) := by
      rw [State.port, hports]; exact port_setPort_self _ _ _
    dsimp only
    rw [hself]
    refine ⟨rfl, rfl, rfl, rfl, by simp [Port.withDelays], fun q hq => ?_⟩
    rw [State.port, hports]; exact port_setPort_ne _ _ hq
  · obtain ⟨c, l, hnext⟩ := adapt_newSet hp ha hact hf ht hh rfl h0 hm
    refine ⟨_, hnext, ?_⟩
    simp only [port_setPort_self, true_and]
    exact ⟨fun q hq => (port_setPort_ne _ _ hq).trans (received_port_ne s c hq), rfl, rfl⟩

end Sys2Proof.Machine
end

section
/-! SUPPORT. Work that goes: what discarding frames and squashing operations leaves of the tick, queues and threads. -/

namespace Sys2Proof.Machine

/-- Work has gone on the way from `s` to `t`: no queue of class S frames and no list of waiting frames has gained one, no
thread has started to run, and Rooster, the epoch tables and the depot are as they were. -/
structure Sheds (s t : State) : Prop where
  rooster : t.rooster = s.rooster
  epoch : t.epoch = s.epoch
  depot : t.depot = s.depot
  queued : ∀ p, (t.port p).qS ⊆ (s.port p).qS
  waits : ∀ d, (t.die d).waits ⊆ (s.die d).waits
  running : ∀ p, (t.thread p).st = .running → (s.thread p).st = .running

namespace Sheds

variable {s t u : State} {α : Type}

theorem refl (s : State) : Sheds s s :=
  ⟨rfl, rfl, rfl, fun _ => List.Subset.refl _, fun _ => List.Subset.refl _, fun _ => id⟩

theorem trans (h : Sheds s t) (k : Sheds t u) : Sheds s u :=
  ⟨k.rooster.trans h.rooster, k.epoch.trans h.epoch, k.depot.trans h.depot,
    fun p => List.Subset.trans (k.queued p) (h.queued p), fun d => List.Subset.trans (k.waits d) (h.waits d), fun p hp => h.running p (k.running p hp)⟩

theorem ite {c : Prop} [Decidable c] {v : State} (ht : Sheds s t) (hv : Sheds s v) : Sheds s (if c then t else v) := by
  split <;> assumption

theorem foldl {f : State → α → State} {xs : List α} (h : Sheds s t) (step : ∀ u x, Sheds s u → Sheds s (f u x)) :
    Sheds s (xs.foldl f t) :=
  List.foldlRecOn (motive := Sheds s) xs f h fun u hu x _ => step u x hu

/-- What every element brings about as it is met holds of all at the end, where no more shedding undoes it. -/
theorem foldl_forall {f : State → α → State} {P : α → State → Prop} (keep : ∀ x t u, Sheds t u → P x t → P x u)
    (step : ∀ t x, Sheds t (f t x)) (hP : ∀ t x, Sheds s t → P x (f t x)) (xs : List α) :
    ∀ x ∈ xs, P x (xs.foldl f s) := by
  have key : ∀ (t : State), Sheds s t → ∀ x ∈ xs, P x (xs.foldl f t) := by
    induction xs with
    | nil => exact fun _ _ _ hx => absurd hx List.not_mem_nil
    | cons y ys ih =>
      intro t ht x hx
      rw [List.foldl_cons]
      obtain rfl | hx := List.mem_cons.mp hx
      · exact keep _ _ _ (foldl (refl _) fun u z hu => hu.trans (step u z)) (hP t x ht)
      · exact ih _ (ht.trans (step t y)) x hx
  exact key s (refl s)

/-! ### Updates -/

/-- An update of none of these. -/
theorem other (h : Sheds s t) (hr : u.rooster = t.rooster := by simp) (he : u.epoch = t.epoch := by simp)
    (hd : u.depot = t.depot := by simp) (hp : u.ports = t.ports := by simp) (hw : u.west = t.west := by simp)
    (hea : u.east = t.east := by simp) (ht : u.threads = t.threads := by simp) : Sheds s u := by
  refine h.trans ⟨hr, he, hd, fun p => ?_, fun d => ?_, fun p => ?_⟩
  · simp only [State.port, hp, List.Subset.refl]
  · simp only [State.die, hw, hea, List.Subset.refl]
  · simp only [State.thread, ht, imp_self]

theorem setPort {p : Nat} {v : Port} (h : Sheds s t) (hv : v.qS ⊆ (t.port p).qS := by exact List.Subset.refl _) :
    Sheds s (t.setPort p v) := by
  refine h.trans ⟨rfl, rfl, rfl, fun q => ?_, fun _ => List.Subset.refl _, fun _ => id⟩
  by_cases hq : q = p
  · rw [hq, port_setPort_self]; exact hv
  · rw [port_setPort_ne _ _ hq]; exact List.Subset.refl _

theorem setDie {d : Nat} {v : Die} (h : Sheds s t) (hv : v.waits ⊆ (t.die d).waits := by exact List.Subset.refl _) :
    Sheds s (t.setDie d v) := by
  refine h.trans ⟨by simp, by simp, by simp, fun q => ?_, fun e => ?_, fun q => ?_⟩
  · simp [State.port]
  · by_cases he : (e = 0) = (d = 0)
    · have hdie (x : State) : x.die e = x.die d := by simp only [State.die, he]
      rw [hdie, hdie, die_setDie_self]; exact hv
    · rw [die_setDie_other _ _ he]; exact List.Subset.refl _
  · simp [State.thread]

theorem setThread {p : Nat} {v : Thread} (h : Sheds s t) (hv : v.st = .running → (t.thread p).st = .running := by exact id) :
    Sheds s (t.setThread p v) := by
  refine h.trans ⟨rfl, rfl, rfl, fun _ => List.Subset.refl _, fun _ => List.Subset.refl _, fun q => ?_⟩
  by_cases hq : q = p
  · rw [hq, thread_setThread_self]; exact hv
  · rw [thread_setThread_ne _ _ hq]; exact id

/-! ### Operations that every chapter shares -/

theorem count {i n : Nat} (h : Sheds s t) : Sheds s (t.count i n) := h.other
theorem bumpDie {d k : Nat} (h : Sheds s t) : Sheds s (t.bumpDie d k) := by rw [bumpDie_eq]; exact h.count
theorem bumpEng {e k : Nat} (h : Sheds s t) : Sheds s (t.bumpEng e k) := by rw [bumpEng_eq]; exact h.count
theorem bumpPort {p k : Nat} (h : Sheds s t) : Sheds s (t.bumpPort p k) := by rw [bumpPort_eq]; exact h.count
theorem bumpPart {p k : Nat} (h : Sheds s t) : Sheds s (t.bumpPart p k) := by rw [bumpPart_eq]; exact h.count
theorem bumpDev {k : Nat} (h : Sheds s t) : Sheds s (t.bumpDev k) := by rw [bumpDev_eq]; exact h.count
theorem mgmtCause {bit : Nat} (h : Sheds s t) : Sheds s (t.mgmtCause bit) := h.other
theorem funcCause {p bit : Nat} (h : Sheds s t) : Sheds s (t.funcCause p bit) := h.other
theorem faultAll {p code : Nat} (h : Sheds s t) : Sheds s (t.faultAll p code) := h.other

/-! ### Stored and waiting frames (R180) -/

theorem henFree {d : Nat} {b : Buffer} (h : Sheds s t) : Sheds s (t.henFree d b) := by
  unfold State.henFree
  cases b with
  | none => exact h
  | pool k o =>
    refine h.setDie ?_
    unfold Die.setPool
    split <;> exact List.Subset.refl _
  | reserve w => exact h.setDie

theorem uncharge {c : Charge} {units : Nat} (h : Sheds s t) : Sheds s (t.uncharge c units) := by
  cases c with
  | acct i k => exact ite (setPort h.other) h.other
  | sIn p => exact setPort h
  | own p => exact h

theorem release {n : Nat} (h : Sheds s t) : Sheds s (t.release n) := by
  unfold State.release
  split
  · exact h.bumpDie.mgmtCause
  · exact ite (setDie (uncharge (henFree h.other))) h.other

theorem releaseEntry {e : QEntry} (h : Sheds s t) : Sheds s (t.releaseEntry e) := by
  unfold State.releaseEntry
  split
  · exact h.release
  · exact h

theorem dropEntry {port : Nat} {e : QEntry} (h : Sheds s t) : Sheds s (t.dropEntry port e) :=
  (ite h.setPort h).releaseEntry

theorem dropEntries {port : Nat} {l : List QEntry} (h : Sheds s t) :
    Sheds s (l.foldl (fun u e => (u.dropEntry port e).bumpPort port pkLateTx) t) :=
  foldl h fun _ _ hu => hu.dropEntry.bumpPort

theorem dropPartS {p : Nat} (h : Sheds s t) : Sheds s (t.dropPartS p) :=
  foldl h fun _ _ hu => ite hu (hu.setPort List.filter_sublist.subset).dropEntries

theorem dropWaits {d : Nat} {p : HenWait → Bool} (h : Sheds s t) : Sheds s (t.dropWaits d p) :=
  foldl (h.setDie List.filter_sublist.subset) fun _ _ hu => ite hu hu.uncharge

/-! ### Threads (R43, R237) -/

theorem releaseClaim {p : Nat} {r : Rec} (h : Sheds s t) : Sheds s (t.releaseClaim p r) := by
  unfold State.releaseClaim
  repeat' split
  · exact h
  · exact h.release
  · exact h.setThread
  · exact h

theorem squashRec {p : Nat} {r : Rec} (h : Sheds s t) : Sheds s (t.squashRec p r) := by
  unfold State.squashRec
  dsimp only
  split
  · exact ite h.releaseClaim.bumpEng.bumpEng h.releaseClaim.bumpEng
  · exact h.releaseClaim

theorem squashAll {p : Nat} (h : Sheds s t) : Sheds s (t.squashAll p) :=
  (foldl h fun _ _ hu => hu.squashRec).setThread

theorem dropSends {p : Nat} (h : Sheds s t) : Sheds s (t.dropSends p) := (foldl h fun _ _ hu => hu.count).setThread

theorem recordFault {p code pc slot : Nat} {tick : Word} (h : Sheds s t) : Sheds s (t.recordFault p code pc slot tick) := by
  unfold State.recordFault
  rw [modThread_eq]
  split
  · exact h.setThread
  · exact h.setThread

theorem stopThread {p : Nat} (h : Sheds s t) : Sheds s (t.stopThread p) := 
  ite h (h.setThread fun hv => by cases hv).funcCause

theorem overrun {p code : Nat} (h : Sheds s t) : Sheds s (t.overrun p code) :=
  h.squashAll.dropSends.dropPartS.faultAll.bumpPart.recordFault.stopThread

end Sheds

/-! ### What is gone -/

theorem stopThread_st (s : State) (p : Nat) : ((s.stopThread p).thread p).st = .stopped := by
  unfold State.stopThread
  split
  · assumption
  · rw [State.thread, funcCause_threads]
    exact congrArg Thread.st (thread_setThread_self _ _ _)

theorem overrun_st (s : State) (p code : Nat) : ((s.overrun p code).thread p).st = .stopped := stopThread_st _ p

/-- No frame that `p` picks waits on the die any more. -/
theorem dropWaits_none (s : State) (d : Nat) (p : HenWait → Bool) : ∀ w ∈ ((s.dropWaits d p).die d).waits, p w = false := by
  have h : Sheds (s.setDie d { s.die d with waits := (s.die d).waits.filter (fun w => !p w) }) (s.dropWaits d p) :=
    Sheds.foldl (.refl _) fun _ _ hu => .ite hu hu.uncharge
  intro w hw
  have hm := h.waits d hw
  rw [die_setDie_self] at hm
  simpa using (List.mem_filter.mp hm).2

/-- The port's queue of class S frames empties, each of them counted in LATE_TX. -/
def State.dropPortS (s : State) (p : Nat) : State :=
  (s.port p).qS.foldl (fun u e => (u.dropEntry p e).bumpPort p pkLateTx)
    (if (s.port p).qS.isEmpty then s else s.setPort p { s.port p with qS := [] })

theorem dropPortS_sheds (s : State) (p : Nat) : Sheds s (s.dropPortS p) :=
  (Sheds.ite (.refl s) ((Sheds.refl s).setPort (List.nil_subset _))).dropEntries

theorem dropPortS_empty (s : State) (p : Nat) : ((s.dropPortS p).port p).qS = [] := by
  refine List.subset_nil.mp (List.Subset.trans ((Sheds.dropEntries (.refl _)).queued p) ?_)
  split
  next h => rw [List.isEmpty_iff.mp h]; exact List.Subset.refl _
  next => rw [port_setPort_self]; exact List.Subset.refl _

theorem dropAllS_eq (s : State) :
    s.dropAllS = (((List.range 49).foldl State.dropPortS s).dropWaits 0 (fun w => w.hdr.cls = .s)).dropWaits 1
      (fun w => w.hdr.cls = .s) := rfl

theorem dropAllS_sheds (s : State) : Sheds s s.dropAllS :=
  (Sheds.foldl (.refl s) fun _ _ hu => hu.trans (dropPortS_sheds _ _)).dropWaits.dropWaits

/-- No class S frame is queued at an egress. -/
theorem dropAllS_queues (s : State) : ∀ p, p < 49 → (s.dropAllS.port p).qS = [] := by
  intro p hp
  have h : (((List.range 49).foldl State.dropPortS s).port p).qS = [] :=
    Sheds.foldl_forall (P := fun p t => (t.port p).qS = [])
      (fun p t u h ht => List.subset_nil.mp (ht ▸ h.queued p)) (fun t x => dropPortS_sheds t x)
      (fun t x _ => dropPortS_empty t x) _ p (List.mem_range.mpr hp)
  exact List.subset_nil.mp (h ▸ (Sheds.dropWaits (Sheds.dropWaits (.refl _))).queued p)

/-- No class S frame waits for a Hen buffer. -/
theorem dropAllS_waits (s : State) : ∀ d, d < 2 → ∀ w ∈ (s.dropAllS.die d).waits, w.hdr.cls ≠ .s := by
  intro d hd w hw
  rw [dropAllS_eq] at hw
  obtain rfl | rfl : d = 0 ∨ d = 1 := by omega
  · simpa using dropWaits_none _ 0 _ w ((Sheds.dropWaits (.refl _)).waits 0 hw)
  · simpa using dropWaits_none _ 1 _ w hw

end Sys2Proof.Machine
end

section
/-! SUPPORT. Markers, slips, tick lengths and TICK_REF edges: what each leaves of Rooster and of the work in progress. -/

namespace Sys2Proof.Machine

/-! ### A marker of the parent (R20, R30, R33) -/

/-- Noting a tick length moves a counter and, of Rooster, the length to adopt. -/
theorem noteLength_eq (s : State) (n : Nat) : ∃ c l k,
    s.noteLength n = { s with counters := c, rooster := { s.rooster with lenAdopt := l, lenHinge := k } } := by
  unfold State.noteLength
  split
  · exact ⟨_, _, _, rfl⟩
  · exact ⟨_, _, _, rfl⟩

/-- An accepted marker of the parent gives its offset, and keeps the state, the tick and the keys heard. -/
theorem parentAccepted_takes (s : State) (m : Heard) (o : Int) :
    (s.parentAccepted m o).rooster.offset = o ∧ (s.parentAccepted m o).rooster.missRun = 0 ∧
      (s.parentAccepted m o).rooster.heard = s.rooster.heard ∧ (s.parentAccepted m o).rooster.tickNo = s.rooster.tickNo ∧
      (s.parentAccepted m o).rooster.st = s.rooster.st ∧ (s.parentAccepted m o).threads = s.threads ∧
      (s.parentAccepted m o).depot = s.depot := by
  unfold State.parentAccepted
  dsimp only
  generalize hu : State.track _ o = u
  obtain ⟨c, l, k, hn⟩ := noteLength_eq u m.tickSlots
  rw [hn, ← hu]
  exact ⟨rfl, rfl, rfl, rfl, rfl, rfl, rfl⟩

/-- The state once the marker's key has been noted. -/
def State.noted (s : State) (port : Nat) (m : Heard) (o : Int) (tw : Twin) : State :=
  { s with
    rooster := { s.rooster with
      heard := s.rooster.heard.set port m, judged := s.rooster.judged.set port (.accepted o) }
    twin := tw }

/-- A marker of the parent that names the present tick, within the window, is accepted where Rooster is LOCKED. -/
theorem hearMarker_accepted {s : State} {port : Nat} {b : List Byte} {offset : Int} (hst : s.rooster.st = .locked)
    (hpar : s.rooster.parent = some port) (htick : BitVec.ofNat 64 (natAt b 0 8) = s.rooster.tickNo)
    (hwin : inWindow (offset - s.delayUsed port) = true) :
    ∃ tw, s.hearMarker port b offset =
      (s.noted port (heardOf b) (offset - s.delayUsed port) tw).parentAccepted (heardOf b) (offset - s.delayUsed port) := by
  have hkey (t : State) (m : Heard) (h : t.rooster.st = .locked) : t.sameKeyGm m = t := by simp [State.sameKeyGm, h]
  unfold State.hearMarker
  extract_lets m tick delay o r free ok s1 s2 tw s3
  have hok : ok = true := by simp [ok, tick, o, delay, r, htick, hwin]
  have h1 : s1 = s.noted port m o s.twin := by
    simp only [s1, hok, if_true]
    exact hkey _ _ hst
  have h2 : s2 = s1 := if_pos hok
  have h3 : ∃ tw, s3 = s.noted port m o tw := by
    simp only [s3, h2, h1]
    split
    · exact ⟨_, rfl⟩
    · exact ⟨_, rfl⟩
  obtain ⟨tw, h3⟩ := h3
  refine ⟨tw, ?_⟩
  rw [if_neg (by simp [r, hst]), if_pos hpar, if_pos hok, h3]

theorem marker_next {s : State} {port : Nat} {f : RxFrame} {offset : Int} (hp : port < 49) (ha : s.ahead offset = false) :
    exec (.marker port f offset) s = .next (s.marker port f offset) := by
  show execMarker port f offset s = _
  simp [execMarker, withPort_lt _ hp, ha]

/-- A marker that counts is heard. -/
theorem marker_heard {s : State} {port : Nat} {f : RxFrame} {offset : Int} (ha : s.alive = true)
    (hf : s.rxFail port f = none) (ht : f.hdr.typ.toNat = tyMarker) (hc : (s.port port).marksCount = true) :
    ∃ c, s.marker port f offset =
      (s.received port c).hearMarker port f.body offset := by
  have hact : (s.port port).active = true := by
    simp only [Port.marksCount, Bool.and_eq_true] at hc
    obtain ⟨⟨⟨hact, -⟩, -⟩, -⟩ := hc
    exact hact
  obtain ⟨c, hrx⟩ := linkRx_takes ha hact hf ht
  refine ⟨c, ?_⟩
  rw [State.marker, hrx]
  dsimp only
  rw [received_port]
  exact if_pos hc

/-! ### An edge of TICK_REF (R502) -/

theorem tickRefEdge_next {s : State} {offset : Int} (ha : s.ahead offset = false) :
    exec (.tickRefEdge offset) s = .next (s.tickRef offset) := by
  show execTickRefEdge offset s = _
  simp [execTickRefEdge, ha]

theorem tickRef_seen {s : State} {offset : Int} (ha : s.alive = true) (hw : inWindow offset = true) :
    (s.tickRef offset).rooster.refSeen = true ∧ (s.tickRef offset).rooster.refEdgeTime = some s.time ∧
      (s.tickRef offset).rooster.tickNo = s.rooster.tickNo ∧ (s.tickRef offset).ports = s.ports := by
  simp only [State.tickRef, ha, Bool.not_true, Bool.false_eq_true, if_false]
  repeat' split
  all_goals simp [State.track, hw]

/-! ### Slips (R35) -/

/-- Rooster steps to the tick and the phase of the parent, and is ACQUIRING. -/
def State.slipped (s : State) (m : Word) (o : Int) : State :=
  { s with rooster := { s.rooster with
      tickNo := m + 1, phase := s.rooster.phase + o, slipTo := none, discRun := 0, missRun := 0, closeRun := 0
      st := .acquiring } }

/-- Every RUNNING thread is stopped at the hinge. -/
def State.overrunRunning (s : State) (code : Nat) : State :=
  (List.range 128).foldl (fun t p => if (t.thread p).st = .running then t.overrun p code else t) s

theorem overrunRunning_sheds (s : State) (code : Nat) : Sheds s (s.overrunRunning code) :=
  Sheds.foldl (.refl s) fun _ _ hu => .ite hu.overrun hu

theorem overrunRunning_none (s : State) (code : Nat) : ∀ p, p < 128 → ((s.overrunRunning code).thread p).st ≠ .running := by
  intro p hp
  refine Sheds.foldl_forall (P := fun p t => (t.thread p).st ≠ .running) (fun p _ _ h => mt (h.running p))
    (fun t p => .ite (Sheds.refl t).overrun (.refl t)) (fun t p _ => ?_) _ p (List.mem_range.mpr hp)
  split
  · rw [overrun_st]; exact nofun
  · assumption

theorem tickSlip_next {s : State} {m : Word} {o : Int} (ha : s.alive = true) (h0 : s.rooster.slot = 0)
    (hs : s.rooster.slipTo = some (m, o)) (hh : s.rooster.slipHinge < s.rooster.hinges) :
    exec .tickSlip s =
      .next (((((s.slipped m o).bumpDev dkTickSlip).mgmtCause 3).dropAllS).overrunRunning 6) := by
  show execTickSlip s = _
  rw [execTickSlip, hs]
  dsimp only
  rw [if_neg (by simp [ha, h0, hh])]
  rfl

/-! ### Tick lengths (R44) -/

/-- The length of the parent is taken up. -/
def State.lengthTaken (s : State) (n : Nat) : State :=
  { s with
    rooster := { s.rooster with slots := n, lenAdopt := none }
    epoch := { s.epoch with cur := { s.epoch.cur with slots := n } } }

/-- Every partition whose plan was admitted for another length is stopped at the hinge. -/
def State.overrunOther (s : State) (n : Nat) : State :=
  (List.range 128).foldl (fun t p => if t.otherLength p n then t.overrun p 5 else t) s

theorem otherLength_sheds {s t : State} (h : Sheds s t) (p n : Nat) : t.otherLength p n = s.otherLength p n := by
  simp only [State.otherLength, State.planOf, h.epoch]

theorem overrunOther_sheds (s : State) (n : Nat) : Sheds s (s.overrunOther n) :=
  Sheds.foldl (.refl s) fun _ _ hu => .ite hu.overrun hu

theorem overrunOther_none (s : State) (n : Nat) :
    ∀ p, p < 128 → s.otherLength p n = true → ((s.overrunOther n).thread p).st ≠ .running := by
  intro p hp
  refine Sheds.foldl_forall (P := fun p t => s.otherLength p n = true → (t.thread p).st ≠ .running)
    (fun p _ _ h ht ho => mt (h.running p) (ht ho)) (fun t p => .ite (Sheds.refl t).overrun (.refl t))
    (fun t p ht ho => ?_) _ p (List.mem_range.mpr hp)
  rw [if_pos ((otherLength_sheds ht p n).trans ho), overrun_st]
  exact nofun

theorem tickLenAdopt_next {s : State} {n : Nat} (ha : s.alive = true) (h0 : s.rooster.slot = 0)
    (hl : s.rooster.lenAdopt = some n) (hh : s.rooster.lenHinge < s.rooster.hinges) :
    exec .tickLenAdopt s = .next ((s.lengthTaken n).overrunOther n) := by
  show execTickLenAdopt s = _
  rw [execTickLenAdopt, hl]
  dsimp only
  rw [if_neg (by simp [ha, h0, hh])]
  rfl

/-- Settles O3: a marker and an edge are followed through Rooster, and a slip or a new length only sheds work. -/
theorem markersSlipsAndReference : Obligations.MarkersSlipsAndReference := by
  refine ⟨fun s port f offset hp ha hah hf ht hc hst hpar htick hwin => ⟨_, marker_next hp hah, ?_⟩,
    fun s offset ha hah hw => ⟨_, tickRefEdge_next hah, tickRef_seen ha hw⟩,
    fun s m o ha h0 hs hh => ⟨_, tickSlip_next ha h0 hs hh, ?_⟩,
    fun s n ha h0 hl hh => ⟨_, tickLenAdopt_next ha h0 hl hh, ?_⟩⟩
  · obtain ⟨c, hheard⟩ := marker_heard ha hf ht hc
    have hdelay : (s.received port c).delayUsed port = s.delayUsed port := by simp only [State.delayUsed, received_port]
    obtain ⟨tw, hacc⟩ := hearMarker_accepted (s := s.received port c) (b := f.body) hst hpar htick (hdelay ▸ hwin)
    rw [hheard, hacc, hdelay]
    obtain ⟨ho, hm, hk, hn, hs, hth, hd⟩ := parentAccepted_takes ((s.received port c).noted port (heardOf f.body)
      (offset - s.delayUsed port) tw) (heardOf f.body) (offset - s.delayUsed port)
    exact ⟨ho, hm, (congrArg (Tbl.get? · port) hk).trans (Tbl.get?_set_self _ _ _), hn, hs.trans hst, hth, hd⟩
  · have hdrop : Sheds (s.slipped m o) (((s.slipped m o).bumpDev dkTickSlip).mgmtCause 3).dropAllS :=
      (Sheds.refl _).bumpDev.mgmtCause.trans (dropAllS_sheds _)
    have hstop := overrunRunning_sheds (((s.slipped m o).bumpDev dkTickSlip).mgmtCause 3).dropAllS 6
    obtain ⟨hr, -, hd, -, -, -⟩ := hdrop.trans hstop
    dsimp only
    rw [hr, hd]
    exact ⟨rfl, rfl, rfl, overrunRunning_none _ 6,
      fun p hp => List.subset_nil.mp (dropAllS_queues _ p hp ▸ hstop.queued p),
      fun d hd w hw => dropAllS_waits _ d hd w (hstop.waits d hw), rfl⟩
  · obtain ⟨hr, he, hd, -, -, -⟩ := overrunOther_sheds (s.lengthTaken n) n
    rw [hr, he, hd]
    exact ⟨rfl, rfl, rfl, fun p hp ho => overrunOther_none (s.lengthTaken n) n p hp ho, rfl⟩

end Sys2Proof.Machine
end

section
/-! SUPPORT. A MAX lane whose value is the form's sentinel takes the next finite contribution, smaller or not, since the
value alone tells an empty lane from one that has received the sentinel's pattern (R54, log 150). No signed word that is
in range stands below the sentinel, but an unsigned I64 window reads it as 2^63, above half of the words of a U64 source,
and a tile word of 2^63 is a finite contribution like any other. -/

namespace Sys2Proof.Machine

/-- The sentinel of MAX, -2^63, as an unsigned I64 lane reads it. -/
theorem emptyVal_max_i64_unsigned : emptyVal .i64 .max false = 2 ^ 63 := by decide

section
variable {fm : Form} {sgn : Bool} {l c d : LaneVal}

theorem combineLane_max_v_of_empty (hl : l.v = emptyVal fm .max sgn) :
    (combineLane fm .max sgn l c true).v = c.v := by
  simp [combineLane, hl]

theorem combineLane_max_v_of_lt (hlt : l.v < c.v) : (combineLane fm .max sgn l c true).v = c.v := by
  simp [combineLane, hlt]

/-- A smaller word that comes after one with the sentinel's pattern displaces it. -/
theorem max_sentinel_then_smaller (hl : l.v = emptyVal fm .max sgn) (hc : c.v = emptyVal fm .max sgn) :
    (combineLane fm .max sgn (combineLane fm .max sgn l c true) d true).v = d.v :=
  combineLane_max_v_of_empty ((combineLane_max_v_of_empty hl).trans hc)

/-- A smaller word that comes before a larger one gives way to it, as MAX should have it. -/
theorem max_smaller_then_larger (hl : l.v = emptyVal fm .max sgn) (hlt : d.v < c.v) :
    (combineLane fm .max sgn (combineLane fm .max sgn l d true) c true).v = c.v :=
  combineLane_max_v_of_lt (Int.lt_of_le_of_lt (Int.le_of_eq (combineLane_max_v_of_empty hl)) hlt)

end

/-- A lane of an unsigned I64 MAX window as LCLR leaves it. -/
def emptyU64Max : LaneVal := { v := emptyVal .i64 .max false }

/-- A tile of the two U64 words 2^63 and 5. -/
def u64Tile : Tile := { kind := .u64w, count := 2, bytes := leBytes 8 (2 ^ 63) ++ leBytes 8 5 }

theorem u64Tile_contribution_zero : u64Tile.contribution .i64 0 = ({ v := 2 ^ 63 }, true) := by decide
theorem u64Tile_contribution_one : u64Tile.contribution .i64 1 = ({ v := 5 }, true) := by decide

/-- Refutes O57: in an unsigned I64 window the MAX of the U64 words 2^63 and 5 is 5 when 2^63 comes first and 2^63 when it
comes last. -/
theorem not_tallyOrderMakesNoDifference : ¬ Obligations.TallyOrderMakesNoDifference := by
  rintro ⟨hlane, -⟩
  have hsame := hlane .i64 .max false emptyU64Max [u64Tile.contribution .i64 0, u64Tile.contribution .i64 1]
    [u64Tile.contribution .i64 1, u64Tile.contribution .i64 0] (.swap _ _ _) (by decide)
  have hmax := congrArg LaneVal.v hsame
  simp only [u64Tile_contribution_zero, u64Tile_contribution_one, List.foldl_cons, List.foldl_nil] at hmax
  rw [max_sentinel_then_smaller rfl emptyVal_max_i64_unsigned.symm, max_smaller_then_larger rfl (by decide)] at hmax
  exact absurd hmax (by decide)

end Sys2Proof.Machine
end

section
/-! SUPPORT. Lanes, ports and counters: what one part of the state shows after an update of another, and folds over the lanes
of a port. -/

namespace Sys2Proof.Machine

theorem Gives.of_next {c : Instr} {s t : State} {P : State → Prop} (h : exec c s = .next t) (hP : P t) : Gives c s P :=
  ⟨t, h, hP⟩

/-! ### A part read after an update of another -/

theorem port_congr {s t : State} (h : t.ports = s.ports) (q : Nat) : t.port q = s.port q := by simp only [State.port, h]
theorem lane_congr {s t : State} (h : t.lanes = s.lanes) (q i : Nat) : t.lane q i = s.lane q i := by
  simp only [State.lane, h]
theorem ctr_congr {s t : State} (h : t.counters = s.counters) (i : Nat) : t.ctr i = s.ctr i := by simp only [State.ctr, h]

@[simp] theorem port_count (s : State) (i n q : Nat) : (s.count i n).port q = s.port q := port_congr (count_ports s i n) q
@[simp] theorem lane_count (s : State) (i n q k : Nat) : (s.count i n).lane q k = s.lane q k :=
  lane_congr (count_lanes s i n) q k
@[simp] theorem port_setLane (s : State) (p j q : Nat) (v : Lane) : (s.setLane p j v).port q = s.port q := rfl
@[simp] theorem lane_setPort (s : State) (p q i : Nat) (v : Port) : (s.setPort p v).lane q i = s.lane q i := rfl
@[simp] theorem port_emit (s : State) (o : Out) (q : Nat) : (s.emit o).port q = s.port q := rfl
@[simp] theorem ctr_setPort (s : State) (p i : Nat) (v : Port) : (s.setPort p v).ctr i = s.ctr i := rfl
@[simp] theorem ctr_setLane (s : State) (p j i : Nat) (v : Lane) : (s.setLane p j v).ctr i = s.ctr i := rfl

/-- `bump` in the spelling that `simp` leaves. -/
@[simp] theorem ctr_count_one (s : State) (i : Nat) : (s.count i 1).ctr i = satAdd i (s.ctr i) 1 := ctr_bump_self s i

/-! ### Keys -/

/-- The lanes of one port have different keys. -/
theorem laneKey_ne {p i j : Nat} (h : i ≠ j) : laneKey p i ≠ laneKey p j := by simp only [laneKey]; omega

theorem laneCtr_ne {p j k k' : Nat} (hk : k < 2 ^ 16) (hk' : k' < 2 ^ 16) (h : k ≠ k') (p' j' : Nat) :
    laneCtr p j k ≠ laneCtr p' j' k' := by
  simp only [laneCtr, ctrIndex]; omega

/-- A counter of a port lies below those of all lanes. -/
theorem portCtr_ne_laneCtr {p k : Nat} (hp : p < 49) (hk : k < 2 ^ 16) (q j k' : Nat) : portCtr p k ≠ laneCtr q j k' := by
  simp only [portCtr, laneCtr, ctrIndex]; omega

theorem portCtr_ne {p k k' : Nat} (h : k ≠ k') : portCtr p k ≠ portCtr p k' := by
  simp only [portCtr, ctrIndex]; omega

/-! ### Folds -/

/-- What each element brings about, and no later one undoes, holds of all at the end. -/
theorem foldl_establishes {σ α : Type} {f : σ → α → σ} {P : α → σ → Prop} (hit : ∀ t x, P x (f t x))
    (keep : ∀ t x y, P x t → P x (f t y)) (xs : List α) (s : σ) : ∀ x ∈ xs, P x (xs.foldl f s) := by
  induction xs generalizing s with
  | nil => exact nofun
  | cons y ys ih =>
    intro x hx
    obtain rfl | hx := List.mem_cons.mp hx
    · exact List.foldlRecOn (motive := P x) ys f (hit s x) fun t ht y _ => keep t x y ht
    · exact ih _ x hx

end Sys2Proof.Machine
end

section
/-! SUPPORT. Frames that a port gives up (R166, R168, R180): its settings, its link and all lanes stay as they are. -/

namespace Sys2Proof.Machine

/-- A port without the frames that it holds and queues. -/
def Port.link (q : Port) : Port := { q with riseAt := none, sInHeld := 0, sOutHeld := 0, qS := [], qB := [], qC := [] }

/-- Frames may have been given up on the way from `s` to `t`: lanes and links are as they were. -/
structure KeepsLinks (s t : State) : Prop where
  lanes : t.lanes = s.lanes
  link : ∀ q, (t.port q).link = (s.port q).link

namespace KeepsLinks

variable {s t u : State} {α : Type}

theorem refl (s : State) : KeepsLinks s s := ⟨rfl, fun _ => rfl⟩

theorem trans (h : KeepsLinks s t) (k : KeepsLinks t u) : KeepsLinks s u :=
  ⟨k.lanes.trans h.lanes, fun q => (k.link q).trans (h.link q)⟩

theorem ite {c : Prop} [Decidable c] (ht : KeepsLinks s t) (hu : KeepsLinks s u) : KeepsLinks s (if c then t else u) := by
  split <;> assumption

theorem foldl {f : State → α → State} {xs : List α} (h : KeepsLinks s t)
    (step : ∀ u x, KeepsLinks s u → KeepsLinks s (f u x)) : KeepsLinks s (xs.foldl f t) :=
  List.foldlRecOn (motive := KeepsLinks s) xs f h fun u hu x _ => step u x hu

/-- An update of neither ports nor lanes. -/
theorem other (h : KeepsLinks s t) (hl : u.lanes = t.lanes := by simp) (hp : u.ports = t.ports := by simp) :
    KeepsLinks s u :=
  h.trans ⟨hl, fun q => congrArg Port.link (port_congr hp q)⟩

theorem setPort {p : Nat} {v : Port} (h : KeepsLinks s t) (hv : v.link = (t.port p).link := by rfl) :
    KeepsLinks s (t.setPort p v) := by
  refine h.trans ⟨rfl, fun q => ?_⟩
  by_cases hq : q = p
  · rw [hq, port_setPort_self, hv]
  · rw [port_setPort_ne _ _ hq]

theorem setDie {d : Nat} {v : Die} (h : KeepsLinks s t) : KeepsLinks s (t.setDie d v) := h.other

theorem bumpPort {p k : Nat} (h : KeepsLinks s t) : KeepsLinks s (t.bumpPort p k) := by rw [bumpPort_eq]; exact h.other

theorem henFree {d : Nat} {b : Buffer} (h : KeepsLinks s t) : KeepsLinks s (t.henFree d b) := by
  unfold State.henFree
  cases b with
  | none => exact h
  | pool k o => exact h.setDie
  | reserve w => exact h.setDie

theorem uncharge {c : Charge} {units : Nat} (h : KeepsLinks s t) : KeepsLinks s (t.uncharge c units) := by
  cases c with
  | acct i k => exact ite (setPort h.other) h.other
  | sIn p => exact h.setPort
  | own p => exact h

theorem release {n : Nat} (h : KeepsLinks s t) : KeepsLinks s (t.release n) := by
  unfold State.release
  split
  · rw [bumpDie_eq]; exact h.other
  · exact ite (setDie (uncharge (henFree h.other))) h.other

theorem releaseEntry {e : QEntry} (h : KeepsLinks s t) : KeepsLinks s (t.releaseEntry e) := by
  unfold State.releaseEntry
  split
  · exact h.release
  · exact h

theorem dropEntry {p : Nat} {e : QEntry} (h : KeepsLinks s t) : KeepsLinks s (t.dropEntry p e) :=
  (ite h.setPort h).releaseEntry

end KeepsLinks

/-- A direction that sends nothing has no frame to lose. -/
theorem idle_keepsLinks {s : State} {p : Nat} (h : (s.port p).busy = none) :
    KeepsLinks (s.setPort p { s.port p with busy := none }) s := by
  refine ⟨rfl, fun q => ?_⟩
  by_cases hq : q = p
  · rw [hq, port_setPort_self, ← h]
  · rw [port_setPort_ne _ _ hq]

theorem egressEndFrame_idle {s : State} {p : Nat} (h : (s.port p).busy = none) : s.egressEndFrame p = s := by
  simp only [State.egressEndFrame, h]

/-- A frame under way on a direction breaks off. -/
theorem egressEndFrame_keepsLinks (s : State) (p : Nat) :
    KeepsLinks (s.setPort p { s.port p with busy := none }) (s.egressEndFrame p) := by
  cases hb : (s.port p).busy with
  | none => rw [egressEndFrame_idle hb]; exact idle_keepsLinks hb
  | some e => simp only [State.egressEndFrame, hb]; exact (KeepsLinks.refl _).dropEntry

theorem portDownQueues_keepsLinks (s : State) (p : Nat) :
    KeepsLinks (s.setPort p { s.port p with busy := none }) (s.portDownQueues p) := by
  refine KeepsLinks.foldl (KeepsLinks.setPort ?_) fun u e hu => hu.dropEntry.bumpPort
  split
  next => exact (KeepsLinks.refl _).dropEntry
  next hb => exact idle_keepsLinks hb

theorem quarantineQueues_keepsLinks (s : State) (p : Nat) : KeepsLinks s (s.quarantineQueues p) :=
  .ite (.refl s) (.foldl (KeepsLinks.refl s).setPort fun _ _ hu => hu.dropEntry.bumpPort)

/-! ### DOWN and restart (R107, R166, Table 19.1) -/

/-- A port that goes DOWN is DOWN, and lanes stay as they are. -/
theorem setDown_takes (s : State) (p : Nat) : ((s.setDown p).port p).down = true ∧ (s.setDown p).lanes = s.lanes := by
  unfold State.setDown
  split
  next h => exact ⟨h, rfl⟩
  next =>
    have h := (portDownQueues_keepsLinks (s.modPort p fun q => { q with down := true }) p).other
      (mgmtCause_lanes _ 2) (mgmtCause_ports _ 2)
    refine ⟨(congrArg Port.down (h.link p)).trans ?_, h.lanes⟩
    rw [port_setPort_self, modPort_eq, port_setPort_self]
    rfl

theorem restartPort_port (s : State) (p : Nat) (st : LaneState) : (s.restartPort p st).port p = (s.port p).unlink :=
  (lanesFrom_keeps (f := fun t => t.port p) (fun _ _ => rfl) _ p st).trans (port_setPort_self _ _ _)

/-- Every lane of the port starts anew, or is held out. -/
theorem lanesFrom_lane (s : State) (p : Nat) (st : LaneState) {j : Nat} (hj : j < laneCount p) :
    ((s.lanesFrom p st).lane p j).st = st ∨ ((s.lanesFrom p st).lane p j).st = .off := by
  refine foldl_establishes (P := fun j t => (t.lane p j).st = st ∨ (t.lane p j).st = .off) (fun t j => ?_)
    (fun t i j h => ?_) _ s j (List.mem_range.mpr hj)
  · dsimp only
    rw [modLane_eq, lane_setLane_self]
    split
    · exact .inr rfl
    · exact .inl rfl
  · dsimp only
    by_cases hi : i = j
    · rw [hi, modLane_eq, lane_setLane_self]
      split
      · exact .inr rfl
      · exact .inl rfl
    · rwa [modLane_eq, lane_setLane_ne _ _ (laneKey_ne hi)]

theorem restartPort_lane (s : State) (p : Nat) (st : LaneState) {j : Nat} (hj : j < laneCount p) :
    ((s.restartPort p st).lane p j).st = st ∨ ((s.restartPort p st).lane p j).st = .off := lanesFrom_lane _ p st hj

/-- A port that goes DOWN and restarts is not ACTIVE. -/
theorem downRestart_port (s : State) (p : Nat) (st : LaneState) :
    (((s.setDown p).restartPort p st).port p).down = true ∧
      (((s.setDown p).restartPort p st).port p).active = false := by
  rw [restartPort_port]
  exact ⟨(setDown_takes s p).1, rfl⟩

end Sys2Proof.Machine
end

section
/-! SUPPORT. Lanes that come up: entering TRAIN, a ranging run, the lane set settling, and the test for ACTIVE (Table 3.6,
R22, R92, R96). -/

namespace Sys2Proof.Machine

variable {s : State} {p j : Nat}

/-! ### TRAIN -/

theorem laneTrain_eq (s : State) (p j : Nat) :
    s.laneTrain p j =
      s.setLane p j { (s.lane p j).begin .train with cm1 := (s.startTaps p j).1, cp1 := (s.startTaps p j).2 } := rfl

/-! ### Ranging -/

/-- Starting a run changes of the ports only the run of its own; nothing that has been sent is taken back. -/
theorem startRange_keeps (s : State) (p : Nat) :
    (∃ r, (s.startRange p).port p = { s.port p with range := r }) ∧
      (∀ q, q ≠ p → (s.startRange p).port q = s.port q) ∧ (s.startRange p).lanes = s.lanes ∧ s.out ⊆ (s.startRange p).out := by
  unfold State.startRange
  split
  · split
    · exact ⟨⟨_, port_setPort_self _ _ _⟩, fun q hq => port_setPort_ne _ _ hq, rfl, List.subset_append_left _ _⟩
    · exact ⟨⟨_, port_setPort_self _ _ _⟩, fun q hq => port_setPort_ne _ _ hq, rfl, List.Subset.refl _⟩
  · exact ⟨⟨(s.port p).range, rfl⟩, fun _ _ => rfl, rfl, List.Subset.refl _⟩

/-! ### Lane sets -/

/-- Lanes settle without any effect but on lanes. -/
theorem settleLanes_eq (s : State) (p : Nat) (old : BitVec 16) : ∃ l, s.settleLanes p old = { s with lanes := l } := by
  refine foldl_lanes_eq (fun t j => ?_) s _
  dsimp only
  repeat' split
  · exact ⟨t.lanes, rfl⟩
  · exact ⟨_, rfl⟩
  · exact ⟨_, rfl⟩
  · exact ⟨_, rfl⟩
  · exact ⟨_, rfl⟩
  · exact ⟨t.lanes, rfl⟩

/-- A lane that has not completed CAPS is no part of a lane set. -/
theorem settleLanes_lane (old : BitVec 16) (h : (s.lane p j).capsDone = false) :
    (s.settleLanes p old).lane p j = s.lane p j := by
  refine List.foldlRecOn (motive := fun (t : State) => t.lane p j = s.lane p j) _ _ rfl fun t ht i _ => ?_
  dsimp only
  by_cases hi : j = i
  · rw [← hi, ht, h]
    exact ht
  · rw [← ht]
    repeat' split
    · rfl
    · exact lane_setLane_ne _ _ (laneKey_ne hi)
    · exact lane_setLane_ne _ _ (laneKey_ne hi)
    · exact lane_setLane_ne _ _ (laneKey_ne hi)
    · exact lane_setLane_ne _ _ (laneKey_ne hi)
    · rfl

theorem enterActive_lane (c : Caps) (inn out : BitVec 16) (h : (s.lane p j).capsDone = false) :
    (s.enterActive p c inn out).lane p j = s.lane p j := by
  have hs (t : State) (ht : t.lanes = s.lanes) : (t.settleLanes p 0).lane p j = s.lane p j := by
    have hl := lane_congr ht p j
    rw [settleLanes_lane 0 (hl ▸ h), hl]
  unfold State.enterActive
  extract_lets q loc dup q1 s0 s1 s2 pw s3
  have h1 : s1.lane p j = s.lane p j := hs _ (quarantineQueues_keepsLinks _ p).lanes
  have h2 : s2.lane p j = s1.lane p j := by
    simp only [s2]
    split
    · rw [bumpPort_eq, lane_count]
    · rfl
  have h3 : s3.lane p j = s2.lane p j := by
    simp only [s3]
    split
    · rw [bumpDev_eq, lane_count]
      rfl
    · rfl
  obtain ⟨-, -, hlanes, -⟩ := startRange_keeps s3 p
  rw [lane_congr hlanes, h3, h2, h1]

/-- Whether the port can enter ACTIVE or not, a lane that has not completed CAPS stays as it is. -/
theorem tryActive_lane (h : (s.lane p j).capsDone = false) : (s.tryActive p).lane p j = s.lane p j := by
  have hd : (s.setDown p).lane p j = s.lane p j := lane_congr (setDown_takes s p).2 p j
  unfold State.tryActive
  dsimp only
  repeat' split
  · rfl
  · exact hd
  · rfl
  · rfl
  · exact enterActive_lane _ _ _ h
  · rfl

end Sys2Proof.Machine
end

section
/-! SUPPORT. The steps of lane bring-up (R90, R91, Table 3.6): what each leaves of its lane. -/

namespace Sys2Proof.Machine

variable {s : State} {p j : Nat}

/-! ### DETECT -/

/-- An attempt of DETECT sends a pulse, but on OPT ports, where the light is looked at. -/
def State.pulse (s : State) (p j : Nat) : State := if (s.port p).reach = 3 then s else s.emit (.detectPulse p j)

theorem pulse_out (s : State) (p j : Nat) :
    (s.pulse p j).out = if (s.port p).reach = 3 then s.out else s.out ++ [.detectPulse p j] := apply_ite State.out ..

theorem pulse_eq (s : State) (p j : Nat) : ∃ o w, s.pulse p j = { s with out := o, wire := w } := by
  unfold State.pulse
  split
  · exact ⟨_, _, rfl⟩
  · exact ⟨_, _, rfl⟩

/-- The lane after an attempt of DETECT that found nothing. -/
def Lane.undetected (l : Lane) : Lane :=
  { l with detectFails := l.detectFails + 1, absent := l.absent || 100 ≤ l.detectFails + 1 }

theorem laneDetectPulse_next (hp : p < 49) (hj : j < laneCount p) (ha : s.alive = true) (hst : (s.lane p j).st = .detect)
    (found : Bool) :
    exec (.laneDetectPulse p j found) s =
      .next ((s.pulse p j).setLane p j (if found then (s.lane p j).detected else (s.lane p j).undetected)) := by
  show execLaneDetectPulse p j found s = _
  rw [execLaneDetectPulse, withLane_lt _ hp hj]
  dsimp only
  rw [if_pos (by simp [ha, hst])]
  cases found
  · rfl
  · rfl

theorem receivedLight_next (hp : p < 49) (hj : j < laneCount p) (ha : s.alive = true) (hst : (s.lane p j).st = .detect)
    (hr : (s.port p).reach = 3) :
    exec (.receivedLight p j) s = .next (s.setLane p j (s.lane p j).detected) := by
  show execReceivedLight p j s = _
  simp [execReceivedLight, withLane_lt _ hp hj, ha, hst, hr]

/-! ### QUIET to LOCK -/

theorem quietExpiry_next (hp : p < 49) (hj : j < laneCount p) (ha : s.alive = true) (hst : (s.lane p j).st = .quiet)
    (hk : (s.lane p j).parked = false) : exec (.quietExpiry p j) s = .next (s.laneTrain p j) := by
  show execQuietExpiry p j s = _
  simp only [execQuietExpiry, withLane_lt _ hp hj, ha, hst, hk, decide_true, Bool.not_false, Bool.and_self, if_true]

theorem bitLock_next (hp : p < 49) (hj : j < laneCount p) (ha : s.alive = true) (hst : (s.lane p j).st = .train) :
    exec (.bitLock p j) s = .next (s.setLane p j { s.lane p j with st := .lock, marks := 0 }) := by
  show execBitLock p j s = _
  simp [execBitLock, withLane_lt _ hp hj, ha, hst]

theorem excludedLaneRetry_next (hp : p < 49) (hj : j < laneCount p) (ha : s.alive = true)
    (hx : (s.lane p j).excluded = true) (hk : (s.lane p j).parked = true) (hst : (s.lane p j).st = .quiet) :
    exec (.excludedLaneRetry p j) s = .next (s.setLane p j { s.lane p j with parked := false }) := by
  show execExcludedLaneRetry p j s = _
  simp [execExcludedLaneRetry, withLane_lt _ hp hj, ha, hx, hk, hst]

/-! ### The training timeout (R91) -/

/-- The lane after it has failed to train. -/
def Lane.timedOut (l : Lane) : Lane :=
  { l.begin .quiet with
    fails := l.fails + 1, excluded := l.excluded || 3 ≤ l.fails + 1, parked := 3 ≤ l.fails + 1, capsDone := false }

theorem laneTrainTimeout_next (hp : p < 49) (hj : j < laneCount p) (ha : s.alive = true)
    (ht : (s.lane p j).st.trains = true) :
    exec (.laneTrainTimeout p j) s =
      .next (((s.setLane p j (s.lane p j).timedOut).bumpLane p j lkTrainFail).tryActive p) := by
  show execLaneTrainTimeout p j s = _
  simp only [execLaneTrainTimeout, withLane_lt _ hp hj, ha, ht, Bool.and_self, if_true]
  rfl

/-- A lane that has failed to train is no part of what its failure lets the port do. -/
theorem timedOut_lane (s : State) (p j : Nat) :
    (((s.setLane p j (s.lane p j).timedOut).bumpLane p j lkTrainFail).tryActive p).lane p j = (s.lane p j).timedOut := by
  have hl : ((s.setLane p j (s.lane p j).timedOut).bumpLane p j lkTrainFail).lane p j = (s.lane p j).timedOut := by
    rw [bumpLane_eq, lane_count, lane_setLane_self]
  rw [tryActive_lane (by rw [hl]; rfl), hl]

/-- Settles O4, step by step of Table 3.6. -/
theorem laneBringUpSteps : Obligations.LaneBringUpSteps := by
  refine ⟨fun s p j hp hj ha hst => .of_next (laneDetectPulse_next hp hj ha hst true) ?_,
    fun s p j hp hj ha hst => .of_next (laneDetectPulse_next hp hj ha hst false) ?_,
    fun s p j found hp hj ha hst => .of_next (laneDetectPulse_next hp hj ha hst found) ?_,
    fun s p j hp hj ha hst hr => receivedLight_next hp hj ha hst hr,
    fun s p j hp hj ha hst hk => .of_next (quietExpiry_next hp hj ha hst hk) ?_,
    fun s p j hp hj ha hst => bitLock_next hp hj ha hst,
    fun s p j hp hj ha hx hk hst => excludedLaneRetry_next hp hj ha hx hk hst,
    fun s p j hp hj ha ht => .of_next (laneTrainTimeout_next hp hj ha ht) ?_⟩
  · obtain ⟨o, w, h⟩ := pulse_eq s p j
    rw [h, lane_setLane_self]
    exact ⟨rfl, rfl, rfl, rfl, fun q i hi => lane_setLane_ne _ _ hi⟩
  · obtain ⟨o, w, h⟩ := pulse_eq s p j
    rw [h, lane_setLane_self]
    exact ⟨hst, rfl, by simp [Lane.undetected], rfl, fun q i hi => lane_setLane_ne _ _ hi⟩
  · obtain ⟨o, w, h⟩ := pulse_eq s p j
    exact ⟨pulse_out s p j, by rw [h]; rfl, by rw [h]; rfl⟩
  · rw [laneTrain_eq, lane_setLane_self]
    exact ⟨rfl, rfl, rfl, fun q i hi => lane_setLane_ne _ _ hi⟩
  · rw [timedOut_lane]
    exact ⟨rfl, rfl, rfl, by simp [Lane.timedOut]⟩

end Sys2Proof.Machine
end

section
/-! SUPPORT. A lane dropped from the lane set (R99, R103, R104): it retrains, leaves the healthy set, is counted and
notified. -/

namespace Sys2Proof.Machine

/-- Notices change nothing but that a sleeping direction is woken for them, and they go out. -/
theorem sendNotices_keeps (s : State) (p l : Nat) (b : Bool) :
    (∃ w r k, (s.sendNotices p l b).port p = { s.port p with pwrOut := w, resume := r, waking := k }) ∧
      (∀ q, q ≠ p → (s.sendNotices p l b).port q = s.port q) ∧ (s.sendNotices p l b).lanes = s.lanes ∧
      (s.sendNotices p l b).counters = s.counters ∧ Out.line p (.notice l b) ∈ (s.sendNotices p l b).out := by
  have hsent (u : State) (o : Out) : o ∈ (((u.emit o).emit o).emit o).out :=
    List.mem_append_right _ (List.mem_singleton_self o)
  unfold State.sendNotices
  dsimp only
  split
  · exact ⟨⟨_, _, _, port_setPort_self _ _ _⟩, fun q hq => port_setPort_ne _ _ hq, rfl, rfl, hsent _ _⟩
  · exact ⟨⟨_, _, _, rfl⟩, fun _ _ => rfl, rfl, rfl, hsent _ _⟩

/-- A lane that has been dropped and not yet notified. -/
def State.droppedLane (s : State) (p j : Nat) : State :=
  (((s.bumpLane p j lkDrop).laneTrain p j).modLane p j fun x =>
    { x with drops := x.drops ++ [s.rooster.tickNo] }).modPort p fun q => { q with
      healthyIn := q.healthyIn &&& ~~~laneBit (s.lane p j).logical
      noticed := if q.noticed.contains (s.lane p j).logical then q.noticed else q.noticed ++ [(s.lane p j).logical]
      proposing := false }

theorem dropLane_eq (s : State) (p j : Nat) (b : Bool) :
    s.dropLane p j b = (s.droppedLane p j).sendNotices p (s.lane p j).logical b := rfl

section
variable (s : State) (p j : Nat) (b : Bool)

theorem dropLane_lane_self : ((s.dropLane p j b).lane p j).st = .train := by
  obtain ⟨-, -, hlanes, -, -⟩ := sendNotices_keeps (s.droppedLane p j) p (s.lane p j).logical b
  rw [dropLane_eq, lane_congr hlanes, State.droppedLane, modPort_eq, lane_setPort, modLane_eq, lane_setLane_self,
    laneTrain_eq, lane_setLane_self]
  rfl

theorem dropLane_lane_ne {q i : Nat} (h : laneKey q i ≠ laneKey p j) : (s.dropLane p j b).lane q i = s.lane q i := by
  obtain ⟨-, -, hlanes, -, -⟩ := sendNotices_keeps (s.droppedLane p j) p (s.lane p j).logical b
  rw [dropLane_eq, lane_congr hlanes, State.droppedLane, modPort_eq, lane_setPort, modLane_eq, lane_setLane_ne _ _ h,
    laneTrain_eq, lane_setLane_ne _ _ h, bumpLane_eq, lane_count]

theorem dropLane_port_ne {q : Nat} (h : q ≠ p) : (s.dropLane p j b).port q = s.port q := by
  obtain ⟨-, hport, -, -, -⟩ := sendNotices_keeps (s.droppedLane p j) p (s.lane p j).logical b
  rw [dropLane_eq, hport q h, State.droppedLane, modPort_eq, port_setPort_ne _ _ h, modLane_eq, port_setLane,
    laneTrain_eq, port_setLane, bumpLane_eq, port_count]

/-- The lane leaves the healthy set and awaits a REALIGN; the incoming direction sleeps or not as before. -/
theorem dropLane_port :
    ((s.dropLane p j b).port p).healthyIn = (s.port p).healthyIn &&& ~~~laneBit (s.lane p j).logical ∧
      (s.lane p j).logical ∈ ((s.dropLane p j b).port p).noticed ∧
      ((s.dropLane p j b).port p).pwrIn = (s.port p).pwrIn := by
  obtain ⟨⟨w, r, k, hport⟩, -, -, -, -⟩ := sendNotices_keeps (s.droppedLane p j) p (s.lane p j).logical b
  rw [dropLane_eq, hport, State.droppedLane, modPort_eq, port_setPort_self, modLane_eq, port_setLane, laneTrain_eq,
    port_setLane, bumpLane_eq, port_count]
  refine ⟨rfl, ?_, rfl⟩
  dsimp only
  split
  next h => exact List.contains_iff_mem.mp h
  next => exact List.mem_append_right _ (List.mem_singleton_self _)

theorem dropLane_ctr (i : Nat) : (s.dropLane p j b).ctr i = (s.count (laneCtr p j lkDrop) 1).ctr i := by
  obtain ⟨-, -, -, hctr, -⟩ := sendNotices_keeps (s.droppedLane p j) p (s.lane p j).logical b
  rw [dropLane_eq, ctr_congr hctr]
  rfl

theorem dropLane_notifies : Out.line p (.notice (s.lane p j).logical b) ∈ (s.dropLane p j b).out := by
  obtain ⟨-, -, -, -, hout⟩ := sendNotices_keeps (s.droppedLane p j) p (s.lane p j).logical b
  exact hout

end

end Sys2Proof.Machine
end

section
/-! SUPPORT. Training is read (R89, R93, R94, R98): what a marker, a CAPS record or a window of measurement leaves of its
lane. -/

namespace Sys2Proof.Machine

variable {s : State} {p j : Nat} {m : LaneMarker}

/-! ### Markers -/

/-- A run of accepted markers in LOCK ends with the eighth that comes one block after the last. -/
theorem trainingMarker_lock (hp : p < 49) (hj : j < laneCount p) (ha : s.alive = true) (hok : markerOk m = true)
    (hn : m.info.extractLsb' 0 3 ≠ 7) (hst : (s.lane p j).st = .lock) {n : Nat}
    (hrun : n = if m.gap = 1516 then (s.lane p j).marks + 1 else 1) :
    exec (.trainingMarker p j m) s = .next (s.setLane p j
      (if 8 ≤ n then { s.lane p j with st := .orient, marks := 0 } else { s.lane p j with marks := n })) := by
  show execTrainingMarker p j m s = _
  simp only [execTrainingMarker, withLane_lt _ hp hj, ha, hok, hn, Bool.not_true, Bool.false_eq_true, if_false, ← hrun]
  rw [hst]

theorem trainingMarker_orient (hp : p < 49) (hj : j < laneCount p) (ha : s.alive = true) (hok : markerOk m = true)
    (hn : m.info.extractLsb' 0 3 ≠ 7) (hst : (s.lane p j).st = .orient) :
    exec (.trainingMarker p j m) s = .next (s.orient p j m) := by
  show execTrainingMarker p j m s = _
  simp only [execTrainingMarker, withLane_lt _ hp hj, ha, hok, hn, hst, Bool.not_true, Bool.false_eq_true, if_false]

/-- A marker that is not accepted breaks the run. -/
theorem trainingMarker_bad (hp : p < 49) (hj : j < laneCount p) (ha : s.alive = true) (hok : markerOk m = false)
    (hn : m.info.extractLsb' 0 3 ≠ 7) (hst : (s.lane p j).st = .lock ∨ (s.lane p j).st = .orient) :
    exec (.trainingMarker p j m) s = .next (s.setLane p j { s.lane p j with marks := 0 }) := by
  show execTrainingMarker p j m s = _
  simp only [execTrainingMarker, withLane_lt _ hp hj, ha, hok, hn, Bool.not_true, Bool.not_false, Bool.false_eq_true,
    if_false, if_true]
  obtain hst | hst := hst
  · rw [hst]
  · rw [hst]

/-- A lane that has read its eighth equal marker. -/
def Lane.marked (l : Lane) (m : LaneMarker) : Lane :=
  { l with marks := 8, logical := m.lane.toNat, inverted := m.inverted }

/-- The eighth equal marker in ORIENT leads to EQ, or to QUIET where the lane is miswired. -/
theorem orient_eighth (hl : (s.lane p j).logical = m.lane.toNat) (hi : (s.lane p j).inverted = m.inverted)
    (h7 : (s.lane p j).marks = 7) :
    ∃ u : State, s.orient p j m =
      if m.lane.toNat = j ∨ m.lane.toNat + 1 + j = laneCount p then
        u.setLane p j { (s.lane p j).marked m with
          st := .eq, marks := 0, miswired := false, eyeGood := 0, ackSeen := false }
      else (u.setLane p j { ((s.lane p j).marked m).begin .quiet with
        excluded := true, miswired := true, parked := true, capsDone := false }).tryActive p := by
  have hmarked : (if (decide ((s.lane p j).marks ≠ 0) && decide ((s.lane p j).logical = m.lane.toNat) &&
      decide ((s.lane p j).inverted = m.inverted)) = true then (s.lane p j).marks + 1 else 1) = 8 := by simp [hl, hi, h7]
  unfold State.orient
  dsimp only
  rw [hmarked]
  simp only [Nat.lt_irrefl, if_false, Bool.or_eq_true, decide_eq_true_eq]
  exact ⟨_, rfl⟩

theorem orient_eighth_lane (hl : (s.lane p j).logical = m.lane.toNat) (hi : (s.lane p j).inverted = m.inverted)
    (h7 : (s.lane p j).marks = 7) :
    if m.lane.toNat = j ∨ m.lane.toNat + 1 + j = laneCount p then
      ((s.orient p j m).lane p j).st = .eq ∧ ((s.orient p j m).lane p j).logical = m.lane.toNat
    else ((s.orient p j m).lane p j).st = .quiet ∧ ((s.orient p j m).lane p j).excluded = true ∧
      ((s.orient p j m).lane p j).miswired = true := by
  obtain ⟨u, hu⟩ := orient_eighth hl hi h7
  rw [hu]
  split
  · rw [lane_setLane_self]
    exact ⟨rfl, rfl⟩
  · rw [tryActive_lane (by rw [lane_setLane_self]), lane_setLane_self]
    exact ⟨rfl, rfl, rfl⟩

/-! ### CAPS records -/

theorem capsRecord_valid {b : List Byte} {c : Caps} (hp : p < 49) (hj : j < laneCount p) (ha : s.alive = true)
    (hst : (s.lane p j).st = .caps) (hc : capsOf b = some c) (hn : (s.lane p j).capsAcks + 1 < 8) :
    exec (.capsRecord p j b true) s = .next ((s.setPort p
      { s.port p with caps := some c, lastLoc := some c.loc }).setLane p j { s.lane p j with
        capsAcks := (s.lane p j).capsAcks + 1, capsOk := true }) := by
  show execCapsRecord p j b true s = _
  simp [execCapsRecord, withLane_lt _ hp hj, ha, hst, hc, Nat.not_le.mpr hn]

theorem capsRecord_invalid {b : List Byte} (hp : p < 49) (hj : j < laneCount p) (ha : s.alive = true)
    (hst : (s.lane p j).st = .caps) (hc : capsOf b = none) (hn : (s.lane p j).capsAcks + 1 < 8) :
    exec (.capsRecord p j b true) s = .next ((s.count (portCtr p pkCapsBad) 1).setLane p j
      { s.lane p j with capsAcks := (s.lane p j).capsAcks + 1 }) := by
  show execCapsRecord p j b true s = _
  simp [execCapsRecord, withLane_lt _ hp hj, ha, hst, hc, Nat.not_le.mpr hn]

/-! ### Windows of measurement -/

/-- The adaptation loop asks for taps, and changes neither the EYE nor the state of its lane. -/
theorem adapt_keeps (l : Lane) (fixed : Bool) : (l.adapt fixed).eye = l.eye ∧ (l.adapt fixed).st = l.st := by
  unfold Lane.adapt
  repeat' split
  all_goals exact ⟨rfl, rfl⟩

theorem eyeWindowEnd_open {eyes : List EyeOpening} (hp : p < 49) (hj : j < laneCount p) (ha : s.alive = true)
    (hst : (s.lane p j).st = .active) (he : 32 ≤ eyeFigure eyes) :
    exec (.eyeWindowEnd p j eyes) s =
      .next (s.setLane p j ({ s.lane p j with eye := eyeFigure eyes }.adapt (coPackaged p))) := by
  show execEyeWindowEnd p j eyes s = _
  simp only [execEyeWindowEnd, withLane_lt _ hp hj, ha, hst, Nat.not_lt.mpr he, decide_false, Bool.not_true,
    Bool.false_and, Bool.false_eq_true, if_false]

theorem eyeWindowEnd_closed {eyes : List EyeOpening} (hp : p < 49) (hj : j < laneCount p) (ha : s.alive = true)
    (hact : (s.port p).active = true) (hst : (s.lane p j).st = .active) (he : eyeFigure eyes < 32) :
    exec (.eyeWindowEnd p j eyes) s =
      .next ((s.setLane p j { s.lane p j with eye := eyeFigure eyes }).dropLane p j true) := by
  show execEyeWindowEnd p j eyes s = _
  simp only [execEyeWindowEnd, withLane_lt _ hp hj, ha, hact, hst, he, decide_true, Bool.not_true, Bool.and_self,
    Bool.false_eq_true, if_false, if_true]

/-- Settles O5: markers, records and windows, each by the state of the lane that reads it. -/
theorem laneTrainingIsRead : Obligations.LaneTrainingIsRead := by
  refine ⟨fun s p j m hp hj ha hok hn hst hg => trainingMarker_lock hp hj ha hok hn hst (if_pos hg).symm,
    fun s p j m hp hj ha hok hn hst hg => trainingMarker_lock hp hj ha hok hn hst (if_neg hg).symm,
    fun s p j m hp hj ha hok hn hst hl hi h7 =>
      .of_next (trainingMarker_orient hp hj ha hok hn hst) (orient_eighth_lane hl hi h7),
    fun s p j m hp hj ha hok hn hst => trainingMarker_bad hp hj ha hok hn hst,
    fun s p j b c hp hj ha hst hc hn => .of_next (capsRecord_valid hp hj ha hst hc hn) ?_,
    fun s p j b hp hj ha hst hc hn => .of_next (capsRecord_invalid hp hj ha hst hc hn) ?_,
    fun s p j eyes hp hj ha hst he => .of_next (eyeWindowEnd_open hp hj ha hst he) ?_,
    fun s p j eyes hp hj ha hact hst he => .of_next (eyeWindowEnd_closed hp hj ha hact hst he) ?_⟩
  · rw [port_setLane, port_setPort_self, lane_setLane_self]
    exact ⟨rfl, rfl, rfl, fun q i hi => lane_setLane_ne _ _ hi⟩
  · exact ⟨by rw [port_setLane, port_count], by rw [ctr_setLane, ctr_count_one]⟩
  · obtain ⟨heye, hstate⟩ := adapt_keeps { s.lane p j with eye := eyeFigure eyes } (coPackaged p)
    rw [lane_setLane_self]
    exact ⟨heye, hstate.trans hst, rfl, fun q i hi => lane_setLane_ne _ _ hi⟩
  · have hlog : ((s.setLane p j { s.lane p j with eye := eyeFigure eyes }).lane p j).logical = (s.lane p j).logical := by
      rw [lane_setLane_self]
    obtain ⟨hin, -, -⟩ := dropLane_port (s.setLane p j { s.lane p j with eye := eyeFigure eyes }) p j true
    exact ⟨dropLane_lane_self _ _ _ _, hlog ▸ hin, hlog ▸ dropLane_notifies _ _ _ _,
      fun q i hi => (dropLane_lane_ne _ _ _ _ hi).trans (lane_setLane_ne _ _ hi)⟩

end Sys2Proof.Machine
end

section
/-! SUPPORT. Lanes lost or left out (R99, R103 to R107): loss of lock, notices and realignment, and a port that has no lane
left. -/

namespace Sys2Proof.Machine

variable {s : State} {p j : Nat} {m : LaneMarker}

/-! ### Drops -/

theorem lossOfLock_next {c : LolCause} (hp : p < 49) (hj : j < laneCount p) (ha : s.alive = true)
    (hact : (s.port p).active = true) (hst : (s.lane p j).st = .active) :
    exec (.lossOfLock p j c) s = .next ((s.count (laneCtr p j lkLol) 1).dropLane p j false) := by
  show execLossOfLock p j c s = _
  simp [execLossOfLock, withLane_lt _ hp hj, ha, hact, hst]

theorem marginalLaneDrop_next (hp : p < 49) (hj : j < laneCount p) (ha : s.alive = true)
    (hact : (s.port p).active = true) (hst : (s.lane p j).st = .active) (hm : 16 ≤ (s.lane p j).marginal)
    (hh : (s.port p).healthyIn.getLsbD (s.lane p j).logical = true) :
    exec (.marginalLaneDrop p j) s = .next (((s.setLane p j
      { s.lane p j with drops := (s.lane p j).drops ++ [s.rooster.tickNo] }).count (laneCtr p j lkDrop) 1).setPort p
        { s.port p with healthyIn := (s.port p).healthyIn &&& ~~~laneBit (s.lane p j).logical }) := by
  show execMarginalLaneDrop p j s = _
  simp [execMarginalLaneDrop, withLane_lt _ hp hj, ha, hact, hst, hm, hh]

/-! ### The outgoing set (R105) -/

/-- The outgoing set `m` begins behind a REALIGN marker. -/
def State.realigned (s : State) (p : Nat) (m : BitVec 16) : State :=
  (s.setPort p { s.port p with maskOut := m, widthOut := maskWidth m }).emit (.line p .realign)

/-- Where no lane is left the port restarts, else the new set begins where the frame under way broke off. -/
theorem takeMaskOut_eq (s : State) (p : Nat) (m : BitVec 16) :
    s.takeMaskOut p m false =
      if m = 0 then ((s.egressEndFrame p).setDown p).restartPort p .quiet
      else if m = ((s.egressEndFrame p).port p).maskOut then (s.egressEndFrame p).realigned p m
      else ((s.egressEndFrame p).realigned p m).startRange p := rfl

/-- The set that begins, and what it leaves of the port and of all lanes. -/
theorem takeMaskOut_takes {m : BitVec 16} (hm : m ≠ 0) :
    ((s.takeMaskOut p m false).port p).healthyOut = (s.port p).healthyOut ∧
      ((s.takeMaskOut p m false).port p).maskOut = m ∧ Out.line p .realign ∈ (s.takeMaskOut p m false).out ∧
      (s.takeMaskOut p m false).lanes = s.lanes ∧ ((s.takeMaskOut p m false).port p).busy = none ∧
      ((s.port p).busy = none → ∀ q, q ≠ p → (s.takeMaskOut p m false).port q = s.port q) := by
  obtain ⟨hlanes, hlink⟩ := egressEndFrame_keepsLinks s p
  have hself : ((s.egressEndFrame p).port p).healthyOut = (s.port p).healthyOut ∧
      ((s.egressEndFrame p).port p).busy = none := by
    have h := hlink p
    rw [port_setPort_self] at h
    have hh := congrArg Port.healthyOut h
    have hb := congrArg Port.busy h
    exact ⟨hh, hb⟩
  have hother (hb : (s.port p).busy = none) (q : Nat) (hq : q ≠ p) :
      ((s.egressEndFrame p).realigned p m).port q = s.port q := by
    rw [egressEndFrame_idle hb]
    exact port_setPort_ne _ _ hq
  have hport : ((s.egressEndFrame p).realigned p m).port p =
      { (s.egressEndFrame p).port p with maskOut := m, widthOut := maskWidth m } := port_setPort_self _ _ _
  have hout : Out.line p .realign ∈ ((s.egressEndFrame p).realigned p m).out :=
    List.mem_append_right _ (List.mem_singleton_self _)
  rw [takeMaskOut_eq, if_neg hm]
  split
  · rw [hport]
    exact ⟨hself.1, rfl, hout, hlanes, hself.2, hother⟩
  · obtain ⟨⟨r, hr⟩, hne, hl, hsub⟩ := startRange_keeps ((s.egressEndFrame p).realigned p m) p
    rw [hr, hport]
    exact ⟨hself.1, rfl, hsub hout, hl.trans hlanes, hself.2, fun hb q hq => (hne q hq).trans (hother hb q hq)⟩

/-- The lanes that a NOTICE leaves healthy in the outgoing direction. -/
def Port.afterNotice (q : Port) (m : LaneMarker) : BitVec 16 := q.healthyOut &&& ~~~laneBit (m.info.extractLsb' 8 4).toNat

theorem notice_next (hp : p < 49) (ha : s.alive = true) (hact : (s.port p).active = true) (hm : markerSub m = some 2)
    (h0 : s.rooster.slot ≠ 0) :
    exec (.notice p m) s = .next ((s.setPort p { s.port p with
      healthyOut := (s.port p).afterNotice m, hunt := false, nextOut := none, outLate := none }).takeMaskOut p
        (laneSet p ((s.port p).afterNotice m)) false) := by
  show execNotice p m s = _
  simp only [execNotice, withPort_lt _ hp, ha, hact, hm, h0, decide_true, decide_false, Bool.and_self, Bool.false_and,
    Bool.false_eq_true, if_false, if_true]
  rfl

/-! ### The incoming set (R89) -/

/-- Where no lane is left the port restarts, else lanes settle and the link is ranged again. -/
theorem takeMaskIn_eq (s : State) (p : Nat) (m : BitVec 16) :
    s.takeMaskIn p m false =
      let u := (s.setPort p { s.port p with
        maskIn := m, widthIn := maskWidth m, hunt := false, proposing := false, noticed := [] }).settleLanes p
          (s.port p).maskIn
      if m = 0 then (u.setDown p).restartPort p .quiet else u.startRange p := rfl

theorem takeMaskIn_takes {m : BitVec 16} (hm : m ≠ 0) :
    ((s.takeMaskIn p m false).port p).maskIn = m ∧ ((s.takeMaskIn p m false).port p).widthIn = maskWidth m ∧
      ((s.takeMaskIn p m false).port p).noticed = [] ∧ ∀ q, q ≠ p → (s.takeMaskIn p m false).port q = s.port q := by
  rw [takeMaskIn_eq]
  dsimp only
  rw [if_neg hm]
  obtain ⟨l, hl⟩ := settleLanes_eq (s.setPort p { s.port p with
    maskIn := m, widthIn := maskWidth m, hunt := false, proposing := false, noticed := [] }) p (s.port p).maskIn
  rw [hl]
  generalize hu : ({ s.setPort p _ with lanes := l } : State) = u
  have hport : u.port p = { s.port p with
      maskIn := m, widthIn := maskWidth m, hunt := false, proposing := false, noticed := [] } := by
    rw [← hu]
    exact port_setPort_self _ _ _
  obtain ⟨⟨r, hr⟩, hne, -, -⟩ := startRange_keeps u p
  rw [hr, hport]
  refine ⟨rfl, rfl, rfl, fun q hq => ?_⟩
  rw [hne q hq, ← hu]
  exact port_setPort_ne _ _ hq

theorem realign_next (hp : p < 49) (ha : s.alive = true) (hact : (s.port p).active = true) (hm : markerSub m = some 1)
    (hn : (s.port p).noticed ≠ []) :
    exec (.realign p m) s = .next (s.takeMaskIn p (laneSet p (s.port p).healthyIn) false) := by
  show execRealign p m s = _
  simp [execRealign, withPort_lt _ hp, ha, hact, hm, hn]

/-! ### Notices without an answer (R107) -/

theorem noticeRepeat_next {l : Nat} (hp : p < 49) (ha : s.alive = true) (hact : (s.port p).active = true)
    (hn : (s.port p).noticed = [l]) : ∃ b, exec (.noticeRepeat p) s = .next (s.sendNotices p l b) := by
  show ∃ b, execNoticeRepeat p s = _
  simp only [execNoticeRepeat, withPort_lt _ hp, ha, hact, hn, Bool.and_self, if_true, List.foldl_cons, List.foldl_nil]
  exact ⟨_, rfl⟩

theorem directionFailed_next (hp : p < 49) (ha : s.alive = true) (hact : (s.port p).active = true)
    (hn : (s.port p).noticed ≠ []) : exec (.directionFailed p) s = .next ((s.setDown p).restartPort p .quiet) := by
  show execDirectionFailed p s = _
  simp [execDirectionFailed, withPort_lt _ hp, ha, hact, hn]

/-- Settles O6: lanes are dropped and noticed one by one, and a direction without lanes takes its port down. -/
theorem laneLossAndNotice : Obligations.LaneLossAndNotice := by
  refine ⟨fun s p j c hp hj ha hact hst => .of_next (lossOfLock_next hp hj ha hact hst) ?_,
    fun s p j hp hj ha hact hst hm hh => .of_next (marginalLaneDrop_next hp hj ha hact hst hm hh) ?_,
    fun s p m hp ha hact hm h0 hset => .of_next (notice_next hp ha hact hm h0) ?_,
    fun s p m hp ha hact hm hn hset => .of_next (realign_next hp ha hact hm hn) (takeMaskIn_takes hset),
    fun s p m hp ha hact => ⟨fun ⟨hm, hn, hset⟩ => .of_next (realign_next hp ha hact hm hn) ?_,
      fun ⟨hm, h0, hset⟩ => .of_next (notice_next hp ha hact hm h0) ?_⟩,
    fun s p l hp ha hact hn => ?_,
    fun s p hp ha hact hn => .of_next (directionFailed_next hp ha hact hn) ?_⟩
  · obtain ⟨hin, hnoticed, -⟩ := dropLane_port (s.count (laneCtr p j lkLol) 1) p j false
    have hnotice := dropLane_notifies (s.count (laneCtr p j lkLol) 1) p j false
    rw [lane_count] at hin hnoticed hnotice
    rw [port_count] at hin
    have hne : laneCtr p j lkLol ≠ laneCtr p j lkDrop := laneCtr_ne (by decide) (by decide) (by decide) _ _
    refine ⟨dropLane_lane_self _ _ _ _, hin, hnoticed, ?_, ?_, hnotice,
      fun q i hi => (dropLane_lane_ne _ _ _ _ hi).trans (lane_count ..),
      fun q hq => (dropLane_port_ne _ _ _ _ hq).trans (port_count ..)⟩
    · rw [dropLane_ctr, ctr_count_ne _ _ hne, ctr_count_one]
    · rw [dropLane_ctr, ctr_count_one, ctr_count_ne _ _ hne.symm]
  · rw [port_setPort_self, ctr_setPort, ctr_count_one, ctr_setLane]
    refine ⟨rfl, rfl, fun q i hi => ?_, fun q hq => ?_⟩
    · rw [lane_setPort, lane_count, lane_setLane_ne _ _ hi]
    · rw [port_setPort_ne _ _ hq, port_count, port_setLane]
  · obtain ⟨hh, hmask, hout, hlanes, hbusy, hne⟩ := takeMaskOut_takes (s := s.setPort p { s.port p with
      healthyOut := (s.port p).afterNotice m, hunt := false, nextOut := none, outLate := none }) (p := p) hset
    rw [port_setPort_self] at hh hne
    exact ⟨hh, hmask, hout, hlanes, hbusy, fun hb q hq => (hne hb q hq).trans (port_setPort_ne _ _ hq)⟩
  · rw [takeMaskIn_eq]
    dsimp only
    rw [if_pos hset]
    exact downRestart_port _ p .quiet
  · rw [takeMaskOut_eq, if_pos (c := laneSet p ((s.port p).afterNotice m) = 0) hset]
    exact downRestart_port _ p .quiet
  · obtain ⟨b, hnext⟩ := noticeRepeat_next hp ha hact hn
    obtain ⟨⟨w, r, k, hport⟩, hne, hlanes, -, hout⟩ := sendNotices_keeps s p l b
    refine .of_next hnext ⟨⟨b, hout⟩, hlanes, ?_, hne⟩
    rw [hport]
    exact hn
  · obtain ⟨hdown, hactive⟩ := downRestart_port s p .quiet
    refine ⟨hdown, hactive, ?_, ?_, fun j hj => restartPort_lane _ p .quiet hj⟩
    · rw [restartPort_port]
      rfl
    · rw [restartPort_port]
      rfl

end Sys2Proof.Machine
end

section
/-! SUPPORT. Power states of the directions (R109 to R112): each marker and each timer changes its own direction. -/

namespace Sys2Proof.Machine

variable {s : State} {p : Nat} {m : LaneMarker}

/-! ### Sleep and wake -/

theorem sleepWindowStart_next {w : Nat × Nat} (hp : p < 49) (ha : s.alive = true) (hact : (s.port p).active = true)
    (hd : (s.port p).down = false) (hpw : (s.port p).pwrOut = .awake) (hb : (s.port p).busy = none)
    (hw : (s.port p).napMap.find? (fun x => x.1 = s.rooster.slot) = some w) :
    exec (.sleepWindowStart p) s = .next (((s.setPort p { s.port p with
        pwrOut := if 64 ≤ w.2 then .doze else .nap, resume := some (w.1 + w.2), waking := false }).emit
      (.line p (if 64 ≤ w.2 then .doze else .nap))).bumpPort p (if 64 ≤ w.2 then pkDozeEnter else pkNapEnter)) := by
  show execSleepWindowStart p s = _
  simp only [execSleepWindowStart, withPort_lt _ hp, ha, hact, hd, hpw, hb, hw, Bool.not_false, decide_true,
    Option.isNone_none, Bool.and_self, if_true]

theorem wakeBurst_next (hp : p < 49) (ha : s.alive = true) (hact : (s.port p).active = true)
    (hpw : (s.port p).pwrOut = .nap ∨ (s.port p).pwrOut = .doze) (hk : (s.port p).waking = false) :
    exec (.wakeBurst p) s = .next ((s.setPort p { s.port p with waking := true }).emit (.line p .wake)) := by
  show execWakeBurst p s = _
  obtain hpw | hpw := hpw
  · simp [execWakeBurst, withPort_lt _ hp, ha, hact, hpw, hk]
  · simp [execWakeBurst, withPort_lt _ hp, ha, hact, hpw, hk]

theorem wakeMarker_next (hp : p < 49) (ha : s.alive = true) (hact : (s.port p).active = true)
    (hpw : (s.port p).pwrIn = .nap ∨ (s.port p).pwrIn = .doze) (hm : markerSub m = some 5) :
    exec (.wakeMarker p m) s = .next (s.setPort p { s.port p with pwrIn := .awake, hunt := false }) := by
  show execWakeMarker p m s = _
  obtain hpw | hpw := hpw
  · simp [execWakeMarker, withPort_lt _ hp, ha, hact, hpw, hm]
  · simp [execWakeMarker, withPort_lt _ hp, ha, hact, hpw, hm]

theorem napOrDozeMarker_next (hp : p < 49) (ha : s.alive = true) (hact : (s.port p).active = true)
    (hpw : (s.port p).pwrIn = .awake) (hm : markerSub m = some 3 ∨ markerSub m = some 4) :
    exec (.napOrDozeMarker p m) s =
      .next (s.setPort p { s.port p with pwrIn := if markerSub m = some 3 then .nap else .doze }) := by
  show execNapOrDozeMarker p m s = _
  obtain hm | hm := hm
  · simp [execNapOrDozeMarker, withPort_lt _ hp, ha, hact, hpw, hm]
  · simp [execNapOrDozeMarker, withPort_lt _ hp, ha, hact, hpw, hm]

/-! ### A wake that fails (R112) -/

/-- An ACTIVE lane loses its lock. -/
def State.loseLane (s : State) (p j : Nat) : State :=
  if (s.lane p j).st = .active then (s.bumpLane p j lkLol).dropLane p j false else s

theorem loseLane_lane_self (s : State) (p j : Nat) : ((s.loseLane p j).lane p j).st ≠ .active := by
  unfold State.loseLane
  split
  · rw [dropLane_lane_self]
    exact nofun
  · assumption

theorem loseLane_lane_ne (s : State) (p : Nat) {j i : Nat} (h : i ≠ j) : (s.loseLane p j).lane p i = s.lane p i := by
  unfold State.loseLane
  split
  · rw [bumpLane_eq, dropLane_lane_ne _ _ _ _ (laneKey_ne h), lane_count]
  · rfl

/-- Lanes of port `p` may have been lost on the way from `s` to `t`: the other ports, the power state of the incoming
direction and the counters of all ports are as they were. -/
structure LosesLanes (p : Nat) (s t : State) : Prop where
  port : ∀ q, q ≠ p → t.port q = s.port q
  pwrIn : (t.port p).pwrIn = (s.port p).pwrIn
  ctr : ∀ q k, q < 49 → k < 2 ^ 16 → t.ctr (portCtr q k) = s.ctr (portCtr q k)

theorem LosesLanes.refl (p : Nat) (s : State) : LosesLanes p s s := ⟨fun _ _ => rfl, rfl, fun _ _ _ _ => rfl⟩

theorem LosesLanes.trans {t u : State} (h : LosesLanes p s t) (k : LosesLanes p t u) : LosesLanes p s u :=
  ⟨fun q hq => (k.port q hq).trans (h.port q hq), k.pwrIn.trans h.pwrIn,
    fun q i hq hi => (k.ctr q i hq hi).trans (h.ctr q i hq hi)⟩

theorem loseLane_loses (s : State) (p j : Nat) : LosesLanes p s (s.loseLane p j) := by
  unfold State.loseLane
  split
  · rw [bumpLane_eq]
    obtain ⟨-, -, hpw⟩ := dropLane_port (s.count (laneCtr p j lkLol) 1) p j false
    rw [port_count] at hpw
    refine ⟨fun q hq => (dropLane_port_ne _ _ _ _ hq).trans (port_count ..), hpw, fun q k hq hk => ?_⟩
    have hne := portCtr_ne_laneCtr hq hk p j
    rw [dropLane_ctr, ctr_count_ne _ _ (hne _), ctr_count_ne _ _ (hne _)]
  · exact .refl p s

/-- Every lane of the incoming direction loses its lock. -/
def State.loseLanes (s : State) (p : Nat) : State := (List.range (laneCount p)).foldl (fun t j => t.loseLane p j) s

theorem loseLanes_lane (s : State) (p : Nat) : ∀ j, j < laneCount p → ((s.loseLanes p).lane p j).st ≠ .active := by
  intro j hj
  refine foldl_establishes (P := fun j t => (t.lane p j).st ≠ .active) (fun t j => loseLane_lane_self t p j)
    (fun t j i h => ?_) _ s j (List.mem_range.mpr hj)
  by_cases hi : j = i
  · rw [hi]
    exact loseLane_lane_self t p i
  · rw [loseLane_lane_ne t p hi]
    exact h

theorem loseLanes_loses (s : State) (p : Nat) : LosesLanes p s (s.loseLanes p) :=
  List.foldlRecOn (motive := LosesLanes p s) _ _ (.refl p s) fun t ht j _ => ht.trans (loseLane_loses t p j)

theorem wakeMiss_next (hp : p < 49) (ha : s.alive = true) (hact : (s.port p).active = true)
    (hpw : (s.port p).pwrIn = .nap ∨ (s.port p).pwrIn = .doze) :
    exec (.wakeMiss p) s =
      .next (((s.setPort p { s.port p with pwrIn := .awake }).count (portCtr p pkWakeMiss) 1).loseLanes p) := by
  have hc : (s.alive && (s.port p).active && ((s.port p).pwrIn = .nap || (s.port p).pwrIn = .doze)) = true := by
    simpa [ha, hact] using hpw
  show execWakeMiss p s = _
  rw [execWakeMiss, withPort_lt _ hp]
  dsimp only
  rw [if_pos hc]
  rfl

/-- Settles O8, direction by direction. -/
theorem sleepAndWake : Obligations.SleepAndWake := by
  refine ⟨fun s p w hp ha hact hd hpw hb hw => .of_next (sleepWindowStart_next hp ha hact hd hpw hb hw) ?_,
    fun s p hp ha hact hpw hk => wakeBurst_next hp ha hact hpw hk,
    fun s p m hp ha hact hpw hm => wakeMarker_next hp ha hact hpw hm,
    fun s p m hp ha hact hpw hm => napOrDozeMarker_next hp ha hact hpw hm,
    fun s p hp ha hact hpw => .of_next (wakeMiss_next hp ha hact hpw) ?_⟩
  · rw [bumpPort_eq, port_count, port_emit, port_setPort_self, count_out, count_lanes]
    refine ⟨rfl, List.mem_append_right _ (List.mem_singleton_self _), rfl, rfl, fun q hq => ?_⟩
    rw [port_count, port_emit, port_setPort_ne _ _ hq]
  · obtain ⟨hport, hpw', hctr⟩ := loseLanes_loses
      ((s.setPort p { s.port p with pwrIn := .awake }).count (portCtr p pkWakeMiss) 1) p
    refine ⟨?_, ?_, loseLanes_lane _ p, fun q hq => ?_⟩
    · rw [hpw', port_count, port_setPort_self]
    · rw [hctr p pkWakeMiss hp (by decide), ctr_count_one, ctr_setPort]
    · rw [hport q hq, port_count, port_setPort_ne _ _ hq]

end Sys2Proof.Machine
end

section
/-! SUPPORT. Frames that fail a receive check (Table 4.6, R79, R82, R106, R121, R122): what their discard counts, and
what it leaves. -/

namespace Sys2Proof.Machine

variable {s : State} {p j : Nat} {f : RxFrame}

/-! ### Hunt (R122) -/

/-- Entering hunt is counted, and changes its port alone. -/
theorem enterHunt_takes (h : (s.port p).hunt = false) :
    ((s.enterHunt p).port p).hunt = true ∧
      (s.enterHunt p).ctr (portCtr p pkHuntCount) = satAdd (portCtr p pkHuntCount) (s.ctr (portCtr p pkHuntCount)) 1 ∧
      (∀ i, i ≠ portCtr p pkHuntCount → (s.enterHunt p).ctr i = s.ctr i) ∧
      (∀ q, q ≠ p → (s.enterHunt p).port q = s.port q) ∧ (s.enterHunt p).descs = s.descs ∧
      (s.enterHunt p).accts = s.accts ∧ (s.enterHunt p).out = s.out := by
  have heq : s.enterHunt p = (s.setPort p { s.port p with hunt := true }).count (portCtr p pkHuntCount) 1 := by
    simp [State.enterHunt, h]
  rw [heq, port_count, port_setPort_self, ctr_count_one, ctr_setPort, count_descs, count_accts, count_out]
  exact ⟨rfl, rfl, fun i hi => ctr_count_ne _ _ hi, fun q hq => (port_count ..).trans (port_setPort_ne _ _ hq), rfl, rfl,
    rfl⟩

theorem framingError_next (hp : p < 49) (ha : s.alive = true) (hact : (s.port p).active = true)
    (hh : (s.port p).hunt = false) (bad : Bool) :
    exec (.framingError p bad) s = .next ((if bad then s.count (portCtr p pkHdrCrcErr) 1 else s).enterHunt p) := by
  show execFramingError p bad s = _
  simp [execFramingError, withPort_lt _ hp, ha, hact, hh]

/-! ### The first check that a frame fails (R121) -/

theorem rxFail_lost (h : s.lostToLane p f = true) : s.rxFail p f = some .lost := if_pos h

theorem rxFail_crc (hl : s.lostToLane p f = false) (hfec : f.fecLanes = []) (hh : f.hcrc = hcrc16 f.hdr.bytes)
    (hleg : headerLegal f.hdr = true) (hst : f.status.getLsbD 0 = false) (hc : f.crc ≠ frameCrc f.hdr f.body) :
    s.rxFail p f = some .crc := by
  simp only [State.rxFail, hl, hfec, hh, hleg, hst, List.isEmpty_nil, Bool.not_true, Bool.false_eq_true, ne_eq,
    not_true_eq_false, if_false]
  exact if_pos hc

/-- A link frame that fails a check is discarded. -/
theorem linkRx_fails {typ : Nat} {r : RxFail} (ha : s.alive = true) (hact : (s.port p).active = true)
    (hf : s.rxFail p f = some r) : s.linkRx p typ f = ((s.lineCounts p f).rxDiscard p f r, none) := by
  simp [State.linkRx, ha, hact, hf]

theorem linkFrame_fails {c : Instr} {r : RxFail} (hp : p < 49) (ha : s.alive = true) (hact : (s.port p).active = true)
    (hf : s.rxFail p f = some r) (hc : c = .credit p f ∨ ∃ early, c = .adapt p f early) :
    exec c s = .next ((s.lineCounts p f).rxDiscard p f r) := by
  obtain rfl | ⟨early, rfl⟩ := hc
  · show execCredit p f s = _
    rw [execCredit, withPort_lt _ hp, linkRx_fails ha hact hf]
  · show execAdapt p f early s = _
    rw [execAdapt, withPort_lt _ hp, linkRx_fails ha hact hf]

/-! ### What the lanes did is counted on the lanes (R79, R82) -/

theorem lineCounts_portCtr (s : State) (p : Nat) (f : RxFrame) {q k : Nat} (hq : q < 49) (hk : k < 2 ^ 16) :
    (s.lineCounts p f).ctr (portCtr q k) = s.ctr (portCtr q k) := by
  have step (t : State) (j k' : Nat) (h : t.ctr (portCtr q k) = s.ctr (portCtr q k)) :
      (t.bumpLane p j k').ctr (portCtr q k) = s.ctr (portCtr q k) :=
    (ctr_count_ne t 1 (portCtr_ne_laneCtr hq hk p j k')).trans h
  exact List.foldlRecOn (motive := fun t => t.ctr (portCtr q k) = s.ctr (portCtr q k)) _ _
    (List.foldlRecOn (motive := fun t => t.ctr (portCtr q k) = s.ctr (portCtr q k)) _ _ rfl fun t h j _ => step t j _ h)
    fun t h j _ => step t j _ h

/-- A discard that is one count of a port leaves ports, descriptors, accounts and what was sent. -/
theorem lineCounts_bumpPort (s : State) (p : Nat) (f : RxFrame) {k : Nat} (hp : p < 49) (hk : k < 2 ^ 16) :
    ((s.lineCounts p f).bumpPort p k).ctr (portCtr p k) = satAdd (portCtr p k) (s.ctr (portCtr p k)) 1 ∧
      ((s.lineCounts p f).bumpPort p k).ports = s.ports ∧ ((s.lineCounts p f).bumpPort p k).descs = s.descs ∧
      ((s.lineCounts p f).bumpPort p k).accts = s.accts ∧ ((s.lineCounts p f).bumpPort p k).out = s.out := by
  obtain ⟨c, hc⟩ := lineCounts_eq s p f
  rw [bumpPort_eq, ctr_count_one, lineCounts_portCtr s p f hp hk, count_ports, count_descs, count_accts, count_out, hc]
  exact ⟨rfl, rfl, rfl, rfl, rfl⟩

/-! ### What a discard leaves -/

/-- From `s` to `t` accounts and what was sent are the same, and of the lanes' counters only that of code words which
cannot be corrected has moved. -/
structure KeepsLineCounts (s t : State) : Prop where
  accts : t.accts = s.accts
  out : t.out = s.out
  ctr : ∀ q i k, k < 2 ^ 16 → k ≠ lkFecUncorr → t.ctr (laneCtr q i k) = s.ctr (laneCtr q i k)

namespace KeepsLineCounts

variable {t : State}

theorem refl (s : State) : KeepsLineCounts s s := ⟨rfl, rfl, fun _ _ _ _ _ => rfl⟩

theorem setPort {v : Port} (h : KeepsLineCounts s t) : KeepsLineCounts s (t.setPort p v) := ⟨h.accts, h.out, h.ctr⟩

theorem bumpPort {k : Nat} (h : KeepsLineCounts s t) (hp : p < 49) (hk : k < 2 ^ 16 := by decide) :
    KeepsLineCounts s (t.bumpPort p k) := by
  rw [bumpPort_eq]
  exact ⟨(count_accts ..).trans h.accts, (count_out ..).trans h.out, fun q i k' hk' hne =>
    (ctr_count_ne _ _ (portCtr_ne_laneCtr hp hk q i k').symm).trans (h.ctr q i k' hk' hne)⟩

theorem bumpFecUncorr (h : KeepsLineCounts s t) : KeepsLineCounts s (t.bumpLane p j lkFecUncorr) := by
  rw [bumpLane_eq]
  exact ⟨(count_accts ..).trans h.accts, (count_out ..).trans h.out, fun q i k hk hne =>
    (ctr_count_ne _ _ (laneCtr_ne hk (by decide) hne _ _)).trans (h.ctr q i k hk hne)⟩

theorem enterHunt (h : KeepsLineCounts s t) (hp : p < 49) : KeepsLineCounts s (t.enterHunt p) := by
  unfold State.enterHunt
  split
  · exact h
  · exact h.setPort.bumpPort hp

theorem rxDiscard (hp : p < 49) (r : RxFail) : KeepsLineCounts s (s.rxDiscard p f r) := by
  have h := KeepsLineCounts.refl s
  cases r with
  | lost => exact h.bumpPort hp
  | fec =>
    have hfec : KeepsLineCounts s (f.fecLanes.foldl (fun t j => t.bumpLane p j lkFecUncorr) s) :=
      List.foldlRecOn (motive := KeepsLineCounts s) _ _ h fun _ ht _ _ => ht.bumpFecUncorr
    unfold State.rxDiscard
    dsimp only
    split
    · exact hfec.enterHunt hp
    · exact hfec
  | hcrc =>
    unfold State.rxDiscard
    dsimp only
    split
    · exact h
    · exact (h.bumpPort hp).enterHunt hp
  | len =>
    unfold State.rxDiscard
    dsimp only
    split
    · exact h
    · exact h.bumpPort hp
  | stomp =>
    unfold State.rxDiscard
    dsimp only
    split
    · exact h.setPort.bumpPort hp
    · exact h.bumpPort hp
  | crc => exact h.bumpPort hp
  | epoch => exact h.setPort.bumpPort hp
  | ttl => exact h.setPort.bumpPort hp

end KeepsLineCounts

/-- Whatever becomes of a CREDIT frame, the counts of its lanes stand. -/
theorem credit_keeps (hp : p < 49) (ha : s.alive = true) (hact : (s.port p).active = true) :
    Gives (.credit p f) s (KeepsLineCounts (s.lineCounts p f)) := by
  have hlive : ¬ (!s.alive || !(s.port p).active) = true := by simp [ha, hact]
  cases hf : s.rxFail p f with
  | some r => exact .of_next (linkFrame_fails hp ha hact hf (.inl rfl)) (.rxDiscard hp r)
  | none =>
    refine .of_next (withPort_lt _ hp) ?_
    rw [State.linkRx, if_neg hlive, hf]
    dsimp only
    by_cases ht : f.hdr.typ.toNat = tyCredit
    · rw [if_pos ht]
      exact (KeepsLineCounts.refl _).setPort.setPort
    · rw [if_neg ht]
      exact (KeepsLineCounts.refl _).setPort

/-- Settles O11, check by check. -/
theorem badFramesAreDiscarded : Obligations.BadFramesAreDiscarded := by
  refine ⟨fun s p bad hp ha hact hh => .of_next (framingError_next hp ha hact hh bad) ?_,
    fun s p f c hp ha hact hl hfec hhc hleg _ hst hcrc hc => .of_next
      (linkFrame_fails hp ha hact (rxFail_crc hl hfec hhc hleg hst hcrc) hc) (lineCounts_bumpPort s p f hp (by decide)),
    fun s p f c hp ha hact hl hc => .of_next (linkFrame_fails hp ha hact (rxFail_lost hl) hc)
      (lineCounts_bumpPort s p f hp (by decide)),
    fun s p j f hp ha hact _ hfix hstuff => ?_⟩
  · have hne : portCtr p pkHdrCrcErr ≠ portCtr p pkHuntCount := portCtr_ne (by decide)
    cases bad with
    | false =>
      obtain ⟨hhunt, hctr, hctr', hkeep⟩ := enterHunt_takes hh
      exact ⟨hhunt, hctr, hctr' _ hne, hkeep⟩
    | true =>
      have hu : ((s.count (portCtr p pkHdrCrcErr) 1).port p).hunt = false := (congrArg Port.hunt (port_count ..)).trans hh
      obtain ⟨hhunt, hctr, hctr', hport, hdescs, haccts, hout⟩ := enterHunt_takes hu
      rw [if_pos rfl, if_pos rfl]
      refine ⟨hhunt, ?_, ?_, fun q hq => (hport q hq).trans (port_count ..), hdescs.trans (count_descs ..),
        haccts.trans (count_accts ..), hout.trans (count_out ..)⟩
      · rw [hctr, ctr_count_ne _ _ hne.symm]
      · rw [hctr' _ hne, ctr_count_one]
  · obtain ⟨t, hnext, haccts, hout, hctr⟩ := credit_keeps (f := f) hp ha hact
    have hline : s.lineCounts p f = (s.count (laneCtr p j lkFecCorr) 1).count (laneCtr p j lkStuffErr) 1 := by
      simp only [State.lineCounts, hfix, hstuff, List.foldl_cons, List.foldl_nil, bumpLane_eq]
    have hne : laneCtr p j lkFecCorr ≠ laneCtr p j lkStuffErr := laneCtr_ne (by decide) (by decide) (by decide) _ _
    rw [hline] at haccts hout hctr
    refine .of_next hnext ⟨?_, ?_, ?_, ?_⟩
    · rw [hctr p j lkFecCorr (by decide) (by decide), ctr_count_ne _ _ hne, ctr_count_one]
    · rw [hctr p j lkStuffErr (by decide) (by decide), ctr_count_one, ctr_count_ne _ _ hne.symm]
    · rw [haccts, count_accts, count_accts]
    · rw [hout, count_out, count_out]

end Sys2Proof.Machine
end

section
/-! SUPPORT. Port and lane settings (R77, R397, R461, R462, R486): writes that act as SET_PORT calls, and the steps of the
lane procedure. -/

namespace Sys2Proof.Machine

variable {s : State} {p : Nat}

/-! ### Writes of PORT_CFG and PORT_ASYM -/

/-- PORT_CFG staged for the next hinge, in GATE_LOG as a SET_PORT call. -/
def State.cfgWritten (s : State) (p : Nat) (en : Bool) (ex : BitVec 16) : State :=
  { s.modPort p (fun q => { q with cfgStaged := some (en, ex) }) with
    gate := { s.gate with staged := s.gate.staged ++ [0x30] } }

/-- A SET_PORT call stages ENABLE and EXCLUDE, and starts the lane procedure where REACH changes. -/
theorem portCall_cfg (s : State) (p reach : Nat) (en : Bool) (ex : BitVec 16) :
    s.portCall p (.cfg en reach ex) =
      if (s.port p).reach = reach then s.cfgWritten p en ex
      else (s.cfgWritten p en ex).setPort p { s.port p with
        cfgStaged := some (en, ex), reach := reach
        lanProc := some { todo := s.lanesUp p, newReach := reach, oldReach := (s.port p).reach } } := by
  have hport : (s.modPort p fun q => { q with cfgStaged := some (en, ex) }).port p =
      { s.port p with cfgStaged := some (en, ex) } := port_setPort_self _ _ _
  have hup : (s.modPort p fun q => { q with cfgStaged := some (en, ex) }).lanesUp p = s.lanesUp p := by
    simp only [State.lanesUp, hport]
  simp only [State.portCall, State.applyPortSet, State.startReach, hport, hup]
  split
  · rfl
  · rfl

theorem portWrite_open {v : BitVec 32} {f : Nat → Bool × BitVec 16 → PortSet} (ho : s.pathOpen .pf = true)
    (hc : s.portCfgOpen p v.toNat = true) :
    s.portWrite .pf p v f =
      s.portCall p (f (s.port p).reach ((s.port p).cfgStaged.getD ((s.port p).enable, (s.port p).exclude))) := by
  simp [State.portWrite, ho, hc]

theorem portEnable_next {v : BitVec 32} (hp : p < 49) (ho : s.pathOpen .pf = true) (hc : s.portCfgOpen p v.toNat = true) :
    exec (.portEnable .pf p v) s = .next (s.cfgWritten p (v.getLsbD 0)
      ((s.port p).cfgStaged.getD ((s.port p).enable, (s.port p).exclude)).2) := by
  show execPortEnable .pf p v s = _
  rw [execPortEnable, withPort_lt _ hp, portWrite_open ho hc, portCall_cfg, if_pos rfl]

theorem portExclude_next {v : BitVec 32} (hp : p < 49) (ho : s.pathOpen .pf = true) (hc : s.portCfgOpen p v.toNat = true) :
    exec (.portExclude .pf p v) s = .next (s.cfgWritten p
      ((s.port p).cfgStaged.getD ((s.port p).enable, (s.port p).exclude)).1 (v.extractLsb' 8 16)) := by
  show execPortExclude .pf p v s = _
  rw [execPortExclude, withPort_lt _ hp, portWrite_open ho hc, portCall_cfg, if_pos rfl]

/-- A write of REACH starts the lane procedure where it changes REACH. -/
theorem portReach_next {v : BitVec 32} (hp : p < 49) (ho : s.pathOpen .pf = true) (hc : s.portCfgOpen p v.toNat = true) :
    ∃ en ex, exec (.portReach .pf p v) s = .next (s.portCall p (.cfg en (v.toNat / 2 % 4) ex)) := by
  show ∃ en ex, execPortReach .pf p v s = _
  rw [execPortReach, withPort_lt _ hp, portWrite_open ho hc]
  exact ⟨_, _, rfl⟩

theorem portAsym_next {v : BitVec 32} (hp : p < 49) (ho : s.pathOpen .pf = true) :
    exec (.portAsym .pf p v) s = .next { s.modPort p (fun q => { q with asymStaged := some (v.setWidth 16) }) with
      gate := { s.gate with staged := s.gate.staged ++ [0x30] } } := by
  show execPortAsym .pf p v s = _
  simp only [execPortAsym, withPort_lt _ hp, ho, decide_true, Bool.and_self, if_true]
  rfl

/-! ### Writes of LANE_CFG -/

theorem laneCfg_next {j : Nat} {v : BitVec 32} (hp : p < 49) (hj : j < laneCount p) (ho : s.pathOpen .pf = true)
    (hn : (s.port p).lanProc = none) (hc : coPackaged p = false) :
    exec (.laneCfg .pf p j v) s = .next (s.portCall p (.lane j (v.toNat % 8) (v.getLsbD 3))) := by
  show execLaneCfg .pf p j v s = _
  simp only [execLaneCfg, withLane_lt _ hp hj, ho, decide_true, Bool.and_self, if_true, State.commit, hn, hc,
    Option.isNone_none, Bool.not_false]
  rfl

/-- A changed preset or override starts the lane procedure for its lane. -/
theorem startLaneCfg_takes (s : State) {p : Nat} (j preset : Nat) (ovr : Bool) (slot : Option Nat)
    (hc : coPackaged p = false) :
    ((s.startLaneCfg p j preset ovr slot).lane p j).preset = preset ∧
      ((s.startLaneCfg p j preset ovr slot).lane p j).presetOvr = ovr ∧
      ((preset ≠ (s.lane p j).preset ∨ ovr ≠ (s.lane p j).presetOvr) →
        ∃ pr, ((s.startLaneCfg p j preset ovr slot).port p).lanProc = some pr ∧
          pr.oldLane = some ((s.lane p j).preset, (s.lane p j).presetOvr)) ∧
      (∀ q, q ≠ p → (s.startLaneCfg p j preset ovr slot).port q = s.port q) ∧
      (s.startLaneCfg p j preset ovr slot).threads = s.threads := by
  unfold State.startLaneCfg
  simp only [hc, Bool.false_or, Bool.and_eq_true, decide_eq_true_eq, beq_iff_eq]
  split
  next h =>
    obtain ⟨rfl, rfl⟩ := h
    exact ⟨rfl, rfl, fun hne => absurd hne (by simp), fun _ _ => rfl, rfl⟩
  next =>
    rw [lane_setPort, lane_setLane_self, port_setPort_self]
    exact ⟨rfl, rfl, fun _ => ⟨_, rfl, rfl⟩, fun q hq => port_setPort_ne _ _ hq, rfl⟩

/-! ### The lane procedure (R461, R462) -/

/-- At a hinge a procedure between two lanes takes its next lane, or ends. -/
theorem laneChangeStep_next {pr : LaneProc} (hp : p < 49) (hpr : (s.port p).lanProc = some pr) (ha : s.alive = true)
    (h0 : s.rooster.slot = 0) (hact : (s.port p).active = true) (hcur : pr.current = none) (hw : pr.waited < 64) :
    exec (.laneChangeStep p) s = .next (s.nextLane p pr) := by
  show execLaneChangeStep p s = _
  simp [execLaneChangeStep, withPort_lt _ hp, hpr, ha, h0, hact, hcur, hw]

theorem nextLane_end {pr : LaneProc} (h : pr.todo = []) : s.nextLane p pr = s.endLanes p := by
  simp only [State.nextLane, h]

/-- A lane that can be spared leaves both healthy sets; one that carries goes on until the sets change. -/
theorem nextLane_takes {pr : LaneProc} {l j : Nat} {rest : List Nat} (htodo : pr.todo = l :: rest)
    (hs : s.laneSpare p l = true) (hphys : s.physOf p l = some j) (hst : (s.lane p j).st ≠ .standby) :
    ∃ next, s.nextLane p pr = s.setPort p { s.port p with
      healthyIn := (s.port p).healthyIn &&& ~~~laneBit l, healthyOut := (s.port p).healthyOut &&& ~~~laneBit l
      nextOut := next, lanProc := some { pr with todo := rest, current := some j, waited := 0 } } := by
  simp only [State.nextLane, htodo, hs, if_true, State.takeOutLane, hphys, hst, if_false]
  exact ⟨_, rfl⟩

/-- A procedure that has been stopped as lane `j` failed: the lanes already changed are to follow with the old
settings. -/
def LaneProc.back (pr : LaneProc) (j : Nat) : LaneProc :=
  { todo := pr.done, current := some j, newReach := pr.oldReach, oldReach := pr.oldReach, undoing := true }

/-- Putting the old settings back changes, but for one lane, the port's REACH alone. -/
theorem oldSettings_eq (s : State) (p : Nat) (pr : LaneProc) :
    ∃ l, s.oldSettings p pr = { s.setPort p { s.port p with reach := pr.oldReach } with lanes := l } := by
  unfold State.oldSettings
  dsimp only
  split
  · exact ⟨_, rfl⟩
  · exact ⟨s.lanes, rfl⟩

/-- A procedure that stops with lane `j` failing: old settings are back, and the lane retrains. -/
def State.stopLanes (s : State) (p j : Nat) (pr : LaneProc) : State :=
  ((((s.oldSettings p pr).modPort p fun q => { q with lanProc := some (pr.back j) }).modLane p j
    fun l => { l with fails := 0 }).laneTrain p j).bumpPort p pkLaneChangeFail

theorem stopLanes_takes (s : State) (p j : Nat) (pr : LaneProc) :
    (s.stopLanes p j pr).port p = { s.port p with reach := pr.oldReach, lanProc := some (pr.back j) } ∧
      (s.stopLanes p j pr).ctr (portCtr p pkLaneChangeFail) =
        satAdd (portCtr p pkLaneChangeFail) (s.ctr (portCtr p pkLaneChangeFail)) 1 := by
  obtain ⟨l, hold⟩ := oldSettings_eq s p pr
  have hport : (s.oldSettings p pr).port p = { s.port p with reach := pr.oldReach } := by
    rw [hold]
    exact port_setPort_self _ _ _
  rw [State.stopLanes, bumpPort_eq, port_count, laneTrain_eq, port_setLane, modLane_eq, port_setLane, modPort_eq,
    port_setPort_self, hport, ctr_count_one, ctr_setLane, ctr_setLane, ctr_setPort, hold]
  exact ⟨rfl, rfl⟩

/-- The caller of a procedure that failed reads its drain timeout. -/
def State.tellTimeout (s : State) : Option Nat → State
  | some k => s.setGateSlot k { s.gateSlot k with status := gsDrainTimeout, detail := 0x30 }
  | none => s

theorem laneChangeTimeout_next {pr : LaneProc} {j : Nat} (hp : p < 49) (hpr : (s.port p).lanProc = some pr)
    (ha : s.alive = true) (hu : pr.undoing = false) (hcur : pr.current = some j) (hf : s.laneFailed p j = true) :
    exec (.laneChangeTimeout p) s = .next ((s.stopLanes p j pr).tellTimeout pr.slot) := by
  show execLaneChangeTimeout p s = _
  simp only [execLaneChangeTimeout, withPort_lt _ hp, hpr, ha, hu, hcur, hf, Bool.not_true, Bool.false_or,
    Bool.true_or, Bool.false_eq_true, if_false]
  rfl

theorem tellTimeout_keeps (s : State) (slot : Option Nat) :
    (s.tellTimeout slot).ports = s.ports ∧ (s.tellTimeout slot).counters = s.counters ∧
      ∀ k, slot = some k → ((s.tellTimeout slot).gateSlot k).status = 11 ∧
        ((s.tellTimeout slot).gateSlot k).detail = 0x30 := by
  cases slot with
  | none => exact ⟨rfl, rfl, nofun⟩
  | some k =>
    refine ⟨rfl, rfl, fun k' hk => ?_⟩
    obtain rfl := Option.some.inj hk
    rw [State.tellTimeout, gateSlot_setGateSlot_self]
    exact ⟨rfl, rfl⟩

/-- Settles O50: each write is the SET_PORT call that it acts as, and each step of the procedure is followed. -/
theorem portSettingsChange : Obligations.PortSettingsChange := by
  refine ⟨fun s p v hp ho hc => ⟨portEnable_next hp ho hc, portExclude_next hp ho hc, ?_⟩,
    fun s p v hp ho => portAsym_next hp ho,
    fun s p j v hp hj ho hn hcp => .of_next (laneCfg_next hp hj ho hn hcp) ?_,
    fun s p pr hp hpr ha h0 hact hcur hw htodo => ?_,
    fun s p l j rest pr hp hpr ha h0 hact hcur hw htodo hs hphys hst => ?_,
    fun s p j pr hp hpr ha hu hcur hf => ?_⟩
  · obtain ⟨en, ex, hnext⟩ := portReach_next hp ho hc
    have hself : (s.cfgWritten p en ex).port p = { s.port p with cfgStaged := some (en, ex) } := port_setPort_self _ _ _
    have hother (q : Nat) (hq : q ≠ p) : (s.cfgWritten p en ex).port q = s.port q := port_setPort_ne _ _ hq
    refine .of_next hnext ?_
    rw [portCall_cfg]
    split
    next h =>
      rw [hself]
      exact ⟨h, rfl, rfl, fun hne => absurd h.symm hne, hother, rfl⟩
    next =>
      rw [port_setPort_self]
      exact ⟨rfl, rfl, rfl, fun _ => ⟨_, rfl, rfl, rfl, rfl⟩,
        fun q hq => (port_setPort_ne _ _ hq).trans (hother q hq), rfl⟩
  · exact startLaneCfg_takes s j _ _ none hcp
  · rw [laneChangeStep_next hp hpr ha h0 hact hcur hw, nextLane_end htodo]
    rfl
  · obtain ⟨next, hnext⟩ := nextLane_takes htodo hs hphys hst
    refine .of_next (laneChangeStep_next hp hpr ha h0 hact hcur hw) ?_
    rw [hnext, port_setPort_self]
    exact ⟨rfl, rfl, rfl, fun q hq => port_setPort_ne _ _ hq, rfl⟩
  · obtain ⟨hport, hctr⟩ := stopLanes_takes s p j pr
    obtain ⟨hports, hctrs, hslot⟩ := tellTimeout_keeps (s.stopLanes p j pr) pr.slot
    refine .of_next (laneChangeTimeout_next hp hpr ha hu hcur hf) ?_
    rw [port_congr hports, hport, ctr_congr hctrs, hctr]
    exact ⟨⟨_, rfl, rfl, rfl, rfl⟩, rfl, rfl, hslot⟩

end Sys2Proof.Machine
end

section
/-! SUPPORT. Credits (R129-R131, R157): what a CREDIT frame carries in, what building one raises, and what a stall counts. -/

namespace Sys2Proof.Machine

variable {s : State} {p : Nat}

/-! ### Limits in (Table 4.7) -/

/-- A good frame of the type looked for leaves the counts of its lanes, and its port out of hunt. -/
theorem linkRx_good {typ : Nat} {f : RxFrame} (ha : s.alive = true) (hact : (s.port p).active = true)
    (hf : s.rxFail p f = none) (ht : f.hdr.typ.toNat = typ) :
    s.linkRx p typ f = (s.received p (s.lineCounts p f).counters, some f.body) := by
  obtain ⟨c, hc⟩ := lineCounts_eq s p f
  simp only [State.linkRx, ha, hact, hf, ht, hc]
  rfl

/-- A port whose partner allows `b` and `c` units of class B and C in all. -/
def Port.limited (q : Port) (b c : BitVec 32) : Port :=
  { q with credB := { q.credB with txLimit := b }, credC := { q.credC with txLimit := c } }

theorem credit_next {f : RxFrame} (hp : p < 49) (ha : s.alive = true) (hact : (s.port p).active = true)
    (hf : s.rxFail p f = none) (ht : f.hdr.typ.toNat = tyCredit) :
    exec (.credit p f) s =
      .next ((s.received p (s.lineCounts p f).counters).modPort p fun q =>
        q.limited (BitVec.ofNat 32 (natAt f.body 0 4)) (BitVec.ofNat 32 (natAt f.body 4 4))) := by
  show execCredit p f s = _
  rw [execCredit, withPort_lt _ hp, linkRx_good ha hact hf ht]
  rfl

/-! ### Limits raised (R130, R157) -/

/-- A port that has a CREDIT frame to send. -/
def Port.owesCredit (q : Port) : Port := { q with creditFirst := true, creditSlots := 0, riseAt := none, creditDue := true }

theorem creditSend_next (hp : p < 49) (ha : s.alive = true) (hact : (s.port p).active = true)
    (hw : s.creditWanted p = true) :
    exec (.creditSend p) s = .next (((s.raiseLimit p false).raiseLimit p true).modPort p Port.owesCredit) := by
  show execCreditSend p s = _
  simp only [execCreditSend, withPort_lt _ hp, ha, hact, hw, Bool.and_self, if_true]
  rfl

/-- An account with its LIMIT moved on. -/
def Acct.raised (a : Acct) (n : Nat) : Acct := { a with limit := a.limit + BitVec.ofNat 32 n }

theorem raiseLimit_acct (s : State) (p : Nat) (c : Bool) :
    (s.raiseLimit p c).acct p c = (s.acct p c).raised (s.limitRise p c) ∧
      (s.raiseLimit p c).acct p (!c) = s.acct p (!c) := by
  have hkey : acctKey p (!c) ≠ acctKey p c := by cases c <;> simp [acctKey, b2n]
  exact ⟨acct_setAcct_self .., acct_setAcct_ne _ _ hkey⟩

/-- Class C is raised by what is left for it once class B has been. -/
theorem raiseLimits_acct (s : State) (p : Nat) :
    ((s.raiseLimit p false).raiseLimit p true).acct p false = (s.acct p false).raised (s.limitRise p false) ∧
      ((s.raiseLimit p false).raiseLimit p true).acct p true =
        (s.acct p true).raised ((s.raiseLimit p false).limitRise p true) := by
  obtain ⟨hb, hc⟩ := raiseLimit_acct s p false
  obtain ⟨hc', hb'⟩ := raiseLimit_acct (s.raiseLimit p false) p true
  exact ⟨hb'.trans hb, hc'.trans (congrArg (Acct.raised · _) hc)⟩

/-! ### Stalls (R131) -/

/-- The credit of a class on a direction. -/
def Port.credOf (q : Port) (classC : Bool) : Credit := if classC then q.credC else q.credB

/-- A direction on which frames of a class have waited too long for credit. -/
def Port.stall (q : Port) (classC : Bool) : Port :=
  if classC then { q with credC := { q.credC with stalled := true } }
  else { q with credB := { q.credB with stalled := true } }

theorem creditStall_next {c : Bool} (hp : p < 49) (hw : 64 ≤ ((s.port p).credOf c).wait)
    (hs : ((s.port p).credOf c).stalled = false) :
    exec (.creditStall p c) s = .next ((s.setPort p ((s.port p).stall c)).bumpPort p pkCreditStall) := by
  show execCreditStall p c s = _
  rw [execCreditStall, withPort_lt _ hp]
  cases c <;> simp_all [Port.credOf, Port.stall]

theorem creditStall_takes (s : State) (p : Nat) (c : Bool) :
    let t := (s.setPort p ((s.port p).stall c)).bumpPort p pkCreditStall
    t.port p = (s.port p).stall c ∧
      t.ctr (portCtr p pkCreditStall) = satAdd (portCtr p pkCreditStall) (s.ctr (portCtr p pkCreditStall)) 1 ∧
      (∀ q, q ≠ p → t.port q = s.port q) ∧ t.out = s.out := by
  dsimp only
  rw [bumpPort_eq, port_count, port_setPort_self, ctr_count_one, ctr_setPort, count_out]
  exact ⟨rfl, rfl, fun q hq => (port_count ..).trans (port_setPort_ne _ _ hq), rfl⟩

/-- Settles O12: limits in, limits out class by class, and the stall of either class. -/
theorem creditsMoveAsTheRulesSay : Obligations.CreditsMoveAsTheRulesSay := by
  refine ⟨fun s p f hp ha hact hf ht => .of_next (credit_next hp ha hact hf ht) ?_,
    fun s p hp ha hact hw => .of_next (creditSend_next hp ha hact hw) ?_,
    fun s p hp hw hs => .of_next (creditStall_next (c := true) hp hw hs) ?_,
    fun s p hp hw hs => .of_next (creditStall_next (c := false) hp hw hs) ?_⟩
  · rw [modPort_eq, port_setPort_self, received_port]
    exact ⟨rfl, rfl, rfl, fun q hq => (port_setPort_ne _ _ hq).trans (received_port_ne _ _ hq), rfl, rfl, rfl⟩
  · obtain ⟨hb, hc⟩ := raiseLimits_acct s p
    rw [modPort_eq, port_setPort_self]
    exact ⟨congrArg Acct.limit hb, congrArg Acct.limit hc, (congrArg Acct.rx hb :), (congrArg Acct.rx hc :), rfl, rfl, rfl,
      fun q hq => port_setPort_ne _ _ hq, rfl⟩
  · obtain ⟨hport, hctr, hother, hout⟩ := creditStall_takes s p true
    rw [hport]
    exact ⟨rfl, hctr, rfl, hother, hout⟩
  · obtain ⟨hport, hctr, hother, hout⟩ := creditStall_takes s p false
    rw [hport]
    exact ⟨rfl, hctr, rfl, hother, hout⟩

end Sys2Proof.Machine
end

section
/-! SUPPORT. Frames that this Dolmo builds go into the switch (R143, R148, R163-R168): no stream, no queue and nothing of
the depot changes with them. -/

namespace Sys2Proof.Machine

/-- The endpoints' streams and queues, and the depot, are the same in `s` and `t`. -/
structure KeepsEndpoints (s t : State) : Prop where
  txs : t.txs = s.txs
  rxs : t.rxs = s.rxs
  queues : t.queues = s.queues
  depot : t.depot = s.depot

namespace KeepsEndpoints

variable {s t u : State} {α : Type}

theorem refl (s : State) : KeepsEndpoints s s := ⟨rfl, rfl, rfl, rfl⟩

theorem ite {c : Prop} [Decidable c] (ht : KeepsEndpoints s t) (hu : KeepsEndpoints s u) :
    KeepsEndpoints s (if c then t else u) := by
  split <;> assumption

theorem foldl {f : State → α → State} {xs : List α} (h : KeepsEndpoints s t)
    (step : ∀ u x, KeepsEndpoints s u → KeepsEndpoints s (f u x)) : KeepsEndpoints s (xs.foldl f t) :=
  List.foldlRecOn (motive := KeepsEndpoints s) xs f h fun u hu x _ => step u x hu

/-- An update of none of these. -/
theorem other (h : KeepsEndpoints s t) (ht : u.txs = t.txs := by simp) (hr : u.rxs = t.rxs := by simp)
    (hq : u.queues = t.queues := by simp) (hd : u.depot = t.depot := by simp) : KeepsEndpoints s u :=
  ⟨ht.trans h.txs, hr.trans h.rxs, hq.trans h.queues, hd.trans h.depot⟩

theorem setPort {p : Nat} {v : Port} (h : KeepsEndpoints s t) : KeepsEndpoints s (t.setPort p v) := h.other
theorem setAcct {i : Nat} {c : Bool} {v : Acct} (h : KeepsEndpoints s t) : KeepsEndpoints s (t.setAcct i c v) := h.other
theorem setDie {d : Nat} {v : Die} (h : KeepsEndpoints s t) : KeepsEndpoints s (t.setDie d v) := h.other
theorem mgmtCause {bit : Nat} (h : KeepsEndpoints s t) : KeepsEndpoints s (t.mgmtCause bit) := h.other
theorem emit {o : Out} (h : KeepsEndpoints s t) : KeepsEndpoints s (t.emit o) := h.other
theorem count {i n : Nat} (h : KeepsEndpoints s t) : KeepsEndpoints s (t.count i n) := h.other
theorem bumpDev {k : Nat} (h : KeepsEndpoints s t) : KeepsEndpoints s (t.bumpDev k) := by rw [bumpDev_eq]; exact h.count
theorem bumpDie {d k : Nat} (h : KeepsEndpoints s t) : KeepsEndpoints s (t.bumpDie d k) := by rw [bumpDie_eq]; exact h.count
theorem bumpPort {p k : Nat} (h : KeepsEndpoints s t) : KeepsEndpoints s (t.bumpPort p k) := by
  rw [bumpPort_eq]; exact h.count
theorem bumpIng {i k : Nat} (h : KeepsEndpoints s t) : KeepsEndpoints s (t.bumpIng i k) := ite h.bumpPort h

/-! ### Buffers, descriptors and charges (R153, R172, R179, R180) -/

theorem henTake {d : Nat} {b : Buffer} {fb : Bool} (h : KeepsEndpoints s t) : KeepsEndpoints s (t.henTake d b fb) := by
  cases b with
  | none => exact h
  | pool k o => exact ite h.setDie.bumpDie h.setDie
  | reserve w => exact h.setDie.bumpDie

theorem henFree {d : Nat} {b : Buffer} (h : KeepsEndpoints s t) : KeepsEndpoints s (t.henFree d b) := by
  cases b with
  | none => exact h
  | pool k o => exact h.setDie
  | reserve w => exact h.setDie

theorem charge {c : Charge} {n : Nat} (h : KeepsEndpoints s t) : KeepsEndpoints s (t.charge c n) := by
  cases c with
  | acct i k => exact h.setAcct
  | sIn p => exact h.setPort
  | own p => exact h

theorem uncharge {c : Charge} {n : Nat} (h : KeepsEndpoints s t) : KeepsEndpoints s (t.uncharge c n) := by
  cases c with
  | acct i k => exact ite h.setAcct.setPort h.setAcct
  | sIn p => exact h.setPort
  | own p => exact h

theorem noBuffer {d : Nat} (h : KeepsEndpoints s t) : KeepsEndpoints s (t.noBuffer d) := bumpDie (ite h.setDie h)

theorem henStore {d : Nat} {b : Buffer} {fb : Bool} {hdr : Header} {payload : List Byte} {crowd : Bool} {refs : Nat}
    {c : Charge} (h : KeepsEndpoints s t) : KeepsEndpoints s (t.henStore d b fb hdr payload crowd refs c).2 := by
  dsimp only [State.henStore]
  split
  · exact h.noBuffer
  · exact other (t := (t.henTake d b fb).charge c (frameUnits hdr.len.toNat)) h.henTake.charge

theorem release {n : Nat} (h : KeepsEndpoints s t) : KeepsEndpoints s (t.release n) := by
  dsimp only [State.release]
  split
  · exact h.bumpDie.mgmtCause
  · exact ite (setDie (uncharge (henFree h.other))) h.other

/-! ### Egress queues and starts (R148, R160, R164) -/

theorem releaseEntry {e : QEntry} (h : KeepsEndpoints s t) : KeepsEndpoints s (t.releaseEntry e) := by
  dsimp only [State.releaseEntry]
  split
  · exact h.release
  · exact h

theorem startEntry {p : Nat} {e : QEntry} {stomped : Bool} (h : KeepsEndpoints s t) :
    KeepsEndpoints s (t.startEntry p e stomped) := by
  unfold State.startEntry
  extract_lets q crowd marked hd hdr units q1 cb cc q2 d s0 s1 s2
  have h0 : KeepsEndpoints s s0 := ite h.setDie.setDie h
  have h1 : KeepsEndpoints s s1 := h0.setPort.emit
  have h2 : KeepsEndpoints s s2 := ite h1.bumpPort h1
  exact ite h2.bumpPort h2

theorem startNow {p : Nat} {e : QEntry} {stomped : Bool} (h : KeepsEndpoints s t) :
    KeepsEndpoints s (t.startNow p e stomped) := startEntry (ite h.setPort h)

theorem enqueue {p : Nat} {e : QEntry} (h : KeepsEndpoints s t) : KeepsEndpoints s (t.enqueue p e) := by
  have hdrop {k : Nat} : KeepsEndpoints s ((t.releaseEntry e).bumpPort p k) := h.releaseEntry.bumpPort
  dsimp only [State.enqueue]
  refine ite hdrop (ite hdrop ?_)
  split
  · exact ite hdrop (ite hdrop h.setPort)
  · exact ite hdrop h.setPort
  · exact ite hdrop h.setPort

theorem place {i hold p : Nat} {e : QEntry} (h : KeepsEndpoints s t) : KeepsEndpoints s (t.place i hold e p) :=
  ite h.startNow (ite h.releaseEntry.bumpPort h.enqueue)

theorem placeCopy {i hold p : Nat} {bad : Bool} {e : QEntry} (h : KeepsEndpoints s t) :
    KeepsEndpoints s (t.placeCopy i hold bad e p) :=
  ite (ite h.bumpDie.startNow h.bumpDie.releaseEntry) h.place

/-! ### A frame of this Dolmo's own (R143, R150, R159) -/

theorem storeCopies {i : Nat} {hdr : Header} {payload : List Byte} {crowd : Bool} {d : Dest} {b : Buffer} {fb bad : Bool}
    {own : Option (Nat × Nat)} (h : KeepsEndpoints s t) :
    KeepsEndpoints s (t.storeCopies i hdr payload crowd d b fb bad own).2 := by
  have hs := h.henStore (d := homeDie i) (b := b) (fb := fb) (hdr := hdr) (payload := payload) (crowd := crowd)
    (refs := d.refs) (c := chargeOf i hdr own.isSome)
  dsimp only [State.storeCopies]
  split
  next heq => rwa [heq] at hs
  next heq =>
    rw [heq] at hs
    exact foldl (ite (other hs) hs) fun _ _ hu => ite hu.enqueue hu.placeCopy

theorem addWait {w : HenWait} (h : KeepsEndpoints s t) : KeepsEndpoints s (t.addWait w) := ite h.setDie h.setDie.charge

theorem route {i : Nat} {hdr : Header} (h : KeepsEndpoints s t) : KeepsEndpoints s (t.route i hdr).1 :=
  route_fst h (fun _ => h.bumpIng) h.bumpDev

theorem sendLocal {i : Nat} {hdr : Header} {payload : List Byte} (h : KeepsEndpoints s t) :
    KeepsEndpoints s (t.sendLocal i hdr payload) := by
  have hr := h.route (i := i) (hdr := hdr)
  dsimp only [State.sendLocal]
  split
  next heq => rwa [heq] at hr
  next heq =>
    rw [heq] at hr
    refine ite hr.addWait (ite hr.addWait ?_)
    split
    · exact hr.noBuffer
    · exact hr.addWait
    · exact hr.storeCopies

end KeepsEndpoints

end Sys2Proof.Machine
end

section
/-! SUPPORT. The timers of class C (R136-R139): what each leaves of its stream where it runs out. -/

namespace Sys2Proof.Machine

variable {s : State} {k : StreamKey} {t : TxStream} {at_ : Nat} {u : Unacked} {l : List Unacked}

/-! ### C_RETRY_TIMEOUT (R137, R138) -/

/-- A stream all of whose frames are to be sent again, with twice the interval, 32 ticks at most. -/
def TxStream.backedOff (t : TxStream) (now tickNs : Nat) : TxStream :=
  { t with
    unacked := t.unacked.map (fun x => { x with due := true }), interval := min 32 (2 * t.interval)
    timer := some (now + min 32 (2 * t.interval) * tickNs) }

theorem cRetryTimeout_resends (hk : assoc? s.txs k = some t) (htimer : t.timer = some at_) (hu : t.unacked = u :: l)
    (hnow : at_ ≤ s.time) (hsends : u.sends < 8) :
    exec (.cRetryTimeout k) s =
      .next ((s.setTx k (t.backedOff s.time s.tickNs)).bumpC (muleEnd k) (s.portTo k) k.ctx .retry) := by
  show execCRetryTimeout k s = _
  simp only [execCRetryTimeout, hk, htimer, hu, if_neg (Nat.not_lt.mpr hnow), if_neg (Nat.not_le.mpr hsends)]
  rw [TxStream.backedOff, hu]

theorem cRetryTimeout_fails (hk : assoc? s.txs k = some t) (htimer : t.timer = some at_) (hu : t.unacked = u :: l)
    (hnow : at_ ≤ s.time) (hsends : 8 ≤ u.sends) : exec (.cRetryTimeout k) s = .next (s.failStream k 16) := by
  show execCRetryTimeout k s = _
  simp only [execCRetryTimeout, hk, htimer, hu, if_neg (Nat.not_lt.mpr hnow), if_pos hsends]

theorem bumpC_eq (s : State) (mule : Bool) (p c : Nat) (k : CKind) :
    ∃ ctrs, s.bumpC mule p c k = { s with counters := ctrs } := by
  unfold State.bumpC
  repeat' split
  · exact ⟨_, rfl⟩
  · exact ⟨s.counters, rfl⟩
  · exact ⟨_, rfl⟩

/-! ### C_ACK_SEND (R136) -/

theorem cAckSend_next {r : RxStream} (hk : assoc? s.rxs k = some r) (hack : r.ackAt.isSome = true) :
    exec (.cAckSend k) s = .next (s.sendAck k r) := by
  show execCAckSend k s = _
  simp only [execCAckSend, hk, hack, if_true]

theorem sendAck_keeps (s : State) (k : StreamKey) (r : RxStream) :
    KeepsEndpoints (s.setRx k { r with ackAt := none, ackNow := false }) (s.sendAck k r) := (KeepsEndpoints.refl _).sendLocal

/-! ### NOTREADY_RETRY (R139) -/

theorem notreadyRetry_resumes (hk : assoc? s.txs k = some t) (hretry : t.retryAt = some at_) (hnow : at_ ≤ s.time)
    (hspent : t.waited + (s.time - t.waitFrom) ≤ 2000000000) :
    exec (.notreadyRetry k) s = .next (s.setTx k { t with
      retryAt := none, waited := t.waited + (s.time - t.waitFrom)
      unacked := t.unacked.map (fun x => { x with due := true }), timer := some (s.time + t.interval * s.tickNs) }) := by
  show execNotreadyRetry k s = _
  simp only [execNotreadyRetry, hk, hretry, if_neg (Nat.not_lt.mpr hspent), if_neg (Nat.not_lt.mpr hnow)]

theorem notreadyRetry_fails (hk : assoc? s.txs k = some t) (hretry : t.retryAt = some at_)
    (hspent : 2000000000 < t.waited + (s.time - t.waitFrom)) :
    exec (.notreadyRetry k) s = .next (s.failStream k 16) := by
  show execNotreadyRetry k s = _
  simp only [execNotreadyRetry, hk, hretry, if_pos hspent]

/-- Settles O13, timer by timer. -/
theorem classCTimersRun : Obligations.ClassCTimersRun := by
  refine ⟨fun s k t at_ u l hk htimer hu hnow hsends => .of_next (cRetryTimeout_resends hk htimer hu hnow hsends) ?_,
    fun s k t at_ u l hk htimer hu hnow hsends => cRetryTimeout_fails hk htimer hu hnow hsends,
    fun s k r hk hack => .of_next (cAckSend_next hk hack) ?_,
    fun s k t at_ hk hretry hnow hspent => notreadyRetry_resumes hk hretry hnow hspent,
    fun s k t at_ hk hretry hspent => notreadyRetry_fails hk hretry hspent⟩
  · obtain ⟨ctrs, hcount⟩ := bumpC_eq (s.setTx k (t.backedOff s.time s.tickNs)) (muleEnd k) (s.portTo k) k.ctx .retry
    rw [hcount]
    exact ⟨assoc?_set_self _ _ _, fun j hj => assoc?_set_ne _ _ hj, rfl, rfl, rfl⟩
  · obtain ⟨htxs, hrxs, hqueues, hdepot⟩ := sendAck_keeps s k r
    rw [htxs, hrxs, hqueues, hdepot]
    exact ⟨assoc?_set_self _ _ _, fun j hj => assoc?_set_ne _ _ hj, rfl, rfl, rfl⟩

end Sys2Proof.Machine
end

section
/-! SUPPORT. An egress queue that holds an entry of an ingress point which the part has not: the turns of R160 go round the
51 ingress points, so that the entry is never chosen, and a clause that leaves its ingress point open does not hold. -/

namespace Sys2Proof.Machine

/-- A class C entry that lies on the East die and claims ingress point 51, one past Mule's. -/
def strayEntry : QEntry :=
  { desc := some 245760, hdr := { blankHeader tyCData with len := 1 }, payload := [5], ingress := 51 }

/-- Port 3 of the West die is ACTIVE and has credit in slot 1; the stray entry waits there, its frame stored. -/
def strayWaits : State :=
  { State.reset with
    power := { coldReset := false, rstLow := false, ready := true }
    rooster := { slot := 1 }
    ports := [(3, { active := true, widthOut := 8, pwrOut := .awake, qC := [strayEntry], credC := { txLimit := 64 } })]
    descs := [(245760, ⟨strayEntry.hdr, [5], false, 1, .none, .acct 3 true, 1, false⟩)] }

theorem strayWaits_stays : ((strayWaits.egressStart 3 true).port 3).qC = [strayEntry] := rfl

/-- Refutes O14: in the clause about a codeword lost on the bridge the ingress point of the entry is open, and an entry that
claims ingress point 51 never has its turn. -/
theorem not_egressSendsAndReleases : ¬ Obligations.EgressSendsAndReleases := by
  rintro ⟨-, -, -, hbridge, -⟩
  obtain ⟨t, ht, -, -, hleft, -⟩ :=
    hbridge strayWaits 3 245760 strayEntry _ (by decide) rfl rfl (by decide) rfl rfl rfl rfl rfl rfl rfl
      rfl rfl rfl
  obtain rfl : strayWaits.egressStart 3 true = t := Host.Outcome.next.inj ht
  rw [strayWaits_stays] at hleft
  exact absurd hleft (List.cons_ne_nil _ _)

end Sys2Proof.Machine
end

section
/-! SUPPORT. The next frame of a B_SEND (R126, R195, R210, R346): its header, the queue it leaves and the bytes it asks for. -/

namespace Sys2Proof.Machine

/-- An address is put together again from its location and its port code. -/
@[simp] theorem mkAddr_addrLoc_addrPort (a : BitVec 32) : mkAddr (addrLoc a) (addrPort a) = a := by
  have hloc : addrLoc a = a.extractLsb' 0 24 := BitVec.setWidth_eq_extractLsb' (by decide)
  rw [mkAddr, hloc, addrPort, BitVec.extractLsb'_append_extractLsb'_eq_extractLsb' (by decide)]
  exact BitVec.extractLsb'_eq_self

/-- The header names the message, and where it comes from and goes to. -/
theorem bHeader_fields (s : State) (srcPort : Nat) (dst : BitVec 32) (part ctx dq n : Nat) (msg : BitVec 32) (moff : Nat)
    (last : Bool) :
    let h := s.bHeader srcPort dst part ctx dq n msg moff last
    h.typ = 2 ∧ h.dst = dst ∧ h.msg = msg ∧ h.ttl = 8 ∧ h.srcLoc = s.power.loc ∧
      h.epoch = s.epoch.current.getLsbD 0 :=
  ⟨rfl, mkAddr_addrLoc_addrPort dst, rfl, rfl, rfl, rfl⟩

/-- Payload bytes of the next frame of a B_SEND. -/
def Started.nextLen (e : Started) : Nat := min 4096 (e.len - e.built)

/-- The next frame of a B_SEND is its last. -/
def Started.nextLast (e : Started) : Bool := e.len ≤ e.built + e.nextLen

/-- A B_SEND whose next frame has been built. -/
def Started.advanced (e : Started) : Started :=
  { e with built := e.built + e.nextLen, moved := e.built + e.nextLen
           status := if e.nextLast then some 0 else none }

theorem Started.advanced_eq (e : Started) :
    e.advanced = { e with
      built := e.built + e.nextLen, moved := e.built + e.nextLen
      status := if e.len ≤ e.built + e.nextLen then some 0 else none } := by
  by_cases h : e.len ≤ e.built + e.nextLen <;> simp [Started.advanced, Started.nextLast, h]

/-- The queue has paid for the next frame of a B_SEND, and its bytes are read from the host. -/
def State.bFramePaid (s : State) (qid : Nat) (q : Queue) (e : Started) : State :=
  (s.setQueue qid { q with
    bucket := q.bucket - e.nextLen
    started := q.started.map (fun y => if y.idx = e.idx then e.advanced else y) }).emit
    (.pcieRead (s.fnOf (s.ctxPart q.ctx)) (e.host + BitVec.ofNat 64 e.built) e.nextLen)

/-- The header of the next frame of a B_SEND to the address `dst`. -/
def State.bNext (s : State) (q : Queue) (e : Started) (dst : BitVec 32) : Header :=
  s.bHeader 0x40 dst (s.ctxPart q.ctx) q.ctx e.dq e.nextLen e.msg (e.built / 4096) e.nextLast

/-- Where the queue can pay and the account of port HP lets it, the next frame of a B_SEND goes into the switch. -/
theorem buildB_builds {s : State} {qid : Nat} {q : Queue} {e : Started} {dst : BitVec 32} (data : List Byte)
    (hdst : s.rankAddr (s.ctxPart q.ctx) e.rank = some dst) (hpace : e.nextLen ≤ q.bucket)
    (hmay : s.mayBuild ingHP (s.bNext q e dst) = true) :
    s.buildB qid q e data = (s.bFramePaid qid q e).launch ingHP (s.bNext q e dst) (padTo e.nextLen data) := by
  have hgo : (decide (e.nextLen ≤ q.bucket) && s.mayBuild ingHP (s.bNext q e dst)) = true := by
    rw [hmay, decide_eq_true hpace, Bool.and_self]
  simp only [State.buildB, hdst]
  exact if_pos hgo

theorem hostFrameBuild_next {s : State} {qid : Nat} {q : Queue} {e : Started} (data : List Byte) (hqid : qid < 4096)
    (ha : s.alive = true) (hr : s.power.ready = true) (hdue : s.dueStream qid = none) (hq : s.queue? qid = some q)
    (he : q.started.find? (fun x => x.opc = 1 && x.status.isNone) = some e) :
    exec (.hostFrameBuild qid data) s = .next (s.buildB qid q e data) := by
  have hsrc : ¬ 4096 < qid := by omega
  have hmule : qid ≠ muleQid := by unfold muleQid; omega
  show execHostFrameBuild qid data s = _
  simp only [execHostFrameBuild, hsrc, hmule, ha, hr, hdue, hq, he, Bool.not_true, Bool.or_self, Bool.false_eq_true, if_false]

/-- Settles O15: the frame that a queue's B_SEND builds, and what the queue pays for it. -/
theorem sendQueuesBuildFrames : Obligations.SendQueuesBuildFrames := by
  intro s qid q e dst data hqid ha hr hdue hq he hdst hpace hmay
  obtain ⟨htyp, haddr, hmsg, httl, hloc, hepoch⟩ := bHeader_fields s 0x40 dst (s.ctxPart q.ctx) q.ctx e.dq e.nextLen e.msg
    (e.built / 4096) e.nextLast
  refine ⟨s.bFramePaid qid q e, s.bNext q e dst, ?_, rfl, ?_, htyp, haddr, hmsg, httl, hloc, hepoch, rfl, rfl, rfl⟩
  · rw [hostFrameBuild_next data hqid ha hr hdue hq he, buildB_builds data hdst hpace hmay]
    rfl
  · refine (queue_setQueue_self ..).trans ?_
    rw [Started.advanced_eq]
    rfl

end Sys2Proof.Machine
end

section
/-! SUPPORT. A frame is stored (R153, R172, R179), bound to its handle (R272), and queued for an egress (R148): what each
step leaves where it goes its plain way. -/

namespace Sys2Proof.Machine

variable {s : State}

/-! ### Part of a port after an update of another part -/

theorem port_setPort_keeps {α : Type} (g : Port → α) {p : Nat} {v : Port} (h : g v = g (s.port p)) (q : Nat) :
    g ((s.setPort p v).port q) = g (s.port q) := by
  by_cases hq : q = p
  · rw [hq, port_setPort_self, h]
  · rw [port_setPort_ne _ _ hq]

/-! ### Hen's buffers and descriptors (R172, R179) -/

theorem setDie_eq (s : State) (d : Nat) (v : Die) : ∃ w e, s.setDie d v = { s with west := w, east := e } := by
  unfold State.setDie
  split
  · exact ⟨v, s.east, rfl⟩
  · exact ⟨s.west, v, rfl⟩

/-- Taking a buffer moves the dies and the counters of Hen alone. -/
theorem henTake_eq (s : State) (d : Nat) (b : Buffer) (fb : Bool) :
    ∃ w e c, s.henTake d b fb = { s with west := w, east := e, counters := c } := by
  have counted (v : Die) (k : Nat) :
      ∃ w e c, (s.setDie d v).bumpDie d k = { s with west := w, east := e, counters := c } := by
    obtain ⟨w, e, h⟩ := setDie_eq s d v
    rw [h]
    exact ⟨w, e, _, rfl⟩
  cases b with
  | none => exact ⟨_, _, _, rfl⟩
  | pool k o =>
    cases fb with
    | true => exact counted _ _
    | false =>
      obtain ⟨w, e, h⟩ := setDie_eq s d ((s.die d).setPool k
        { (s.die d).pool k with used := o :: ((s.die d).pool k).used, allocAt := some s.time })
      exact ⟨w, e, s.counters, h⟩
  | reserve o => exact counted _ _

/-- Frame `f` is charged and held by descriptor `n`; of the rest only dies and counters are other ones. -/
def State.holding (s : State) (n : Nat) (f : Stored) (w e : Die) (c : Tbl Word) : State :=
  { s.charge f.charge f.units with west := w, east := e, counters := c, descs := s.descs.set n f }

/-- A frame as it is stored on its way in. -/
def Stored.arrived (h : Header) (payload : List Byte) (crowd : Bool) (refs : Nat) (b : Buffer) (c : Charge) : Stored :=
  { hdr := h, payload := payload, crowd := crowd, refs := refs, buf := b, charge := c, units := frameUnits h.len.toNat }

theorem henStore_holds {d n : Nat} (b : Buffer) (fb : Bool) (h : Header) (payload : List Byte) (crowd : Bool) (refs : Nat)
    (ch : Charge) (hn : s.nextDesc d = some n) :
    ∃ w e c, s.henStore d b fb h payload crowd refs ch =
      (some n, s.holding n (.arrived h payload crowd refs b ch) w e c) := by
  obtain ⟨w, e, c, ht⟩ := henTake_eq s d b fb
  refine ⟨w, e, c, ?_⟩
  simp only [State.henStore, hn, ht]
  cases ch <;> rfl

@[simp] theorem holding_desc (s : State) (n : Nat) (f : Stored) (w e : Die) (c : Tbl Word) :
    (s.holding n f w e c).descs.get? n = some f := Tbl.get?_set_self ..

theorem charge_sIn_port (s : State) (p n : Nat) :
    (s.charge (.sIn p) n).port p = { s.port p with sInHeld := (s.port p).sInHeld + n } := port_setPort_self ..

/-- A charge is no work of an egress. -/
theorem charge_busy (s : State) (c : Charge) (n q : Nat) : ((s.charge c n).port q).busy = (s.port q).busy := by
  cases c with
  | acct i k => rfl
  | sIn p => exact port_setPort_keeps Port.busy (v := { s.port p with sInHeld := (s.port p).sInHeld + n }) rfl q
  | own p => rfl

/-! ### Copies to an egress (R148, R164) -/

/-- Nothing starts on an egress that sends already. -/
theorem cutsThrough_busy {q : Nat} (hb : (s.port q).busy.isSome = true) (ing : Nat) (e : QEntry) :
    s.cutsThrough ing q e = false := by
  have hcan : (s.port q).canSend = false := by
    rw [Port.canSend, Option.isNone_eq_false_iff.mpr hb, Bool.and_false, Bool.false_and]
  simp only [State.cutsThrough, State.startsNow, hcan, Bool.false_and, Bool.and_false]

/-- A unicast copy waits for an egress that sends already. -/
theorem placeCopy_busy {q : Nat} {e : QEntry} (hb : (s.port q).busy.isSome = true) (hmc : e.mc = false) (ing hold : Nat) :
    s.placeCopy ing hold false e q = s.enqueue q e := by
  have hplace : s.place ing hold e q = s.enqueue q e := by
    simp only [State.place, cutsThrough_busy hb, hmc, Bool.false_and, Bool.or_self, Bool.false_eq_true, if_false]
  exact hplace

/-- A class B or C frame waits at the end of the queue of its class, where the egress is up and may take it. -/
theorem enqueue_bc {q : Nat} {e : QEntry} (hcls : e.hdr.cls = .b ∨ e.hdr.cls = .c) (hdown : (s.port q).down = false)
    (hquar : (s.port q).quarantined = false) (hmay : s.mayUse e.hdr q = true) :
    s.enqueue q e = s.setPort q ((s.port q).withEntry e) := by
  obtain hcls | hcls := hcls <;> simp [State.enqueue, Port.withEntry, hmay, hquar, hcls, hdown]

/-- An egress with a class S entry more, which counts in S_OUT. -/
def Port.tookS (q : Port) (e : QEntry) : Port := { q with qS := q.qS ++ [e], sOutHeld := q.sOutHeld + e.units }

/-- A class S frame waits at the end of its queue where S_OUT has room for it. -/
theorem enqueue_s {q : Nat} {e : QEntry} (hcls : e.hdr.cls = .s) (hdown : (s.port q).down = false)
    (hover : (s.port q).delayOver = false) (hquar : (s.port q).quarantined = false) (hmay : s.mayUse e.hdr q = true)
    (hroom : (s.port q).sOutHeld + e.units ≤ (s.port q).sOut) :
    s.enqueue q e = s.setPort q ((s.port q).tookS e) := by
  simp [State.enqueue, Port.tookS, hmay, hquar, hcls, hdown, hover, Nat.not_lt.mpr hroom]

/-- The entry of a frame stored as descriptor `n` for one egress. -/
def QEntry.oneCopy (h : Header) (payload : List Byte) (crowd : Bool) (n ing now : Nat) (own : Option (Nat × Nat)) : QEntry :=
  { desc := some n, hdr := h, payload := payload, ingress := ing, crowd := crowd, at_ := now, own := own }

/-- A frame for one egress that is one of this Dolmo's SENDs, or finds the egress busy, is stored and queued. -/
theorem storeCopies_queued {ing n q : Nat} (h : Header) (payload : List Byte) (crowd : Bool) (b : Buffer) (fb : Bool)
    {own : Option (Nat × Nat)} (hn : s.nextDesc (homeDie ing) = some n)
    (hq : own.isSome = true ∨ (s.port q).busy.isSome = true) :
    ∃ w e c, s.storeCopies ing h payload crowd { ports := [q] } b fb false own =
      (some n, (s.holding n (.arrived h payload crowd 1 b (chargeOf ing h own.isSome)) w e c).enqueue q
        (.oneCopy h payload crowd n ing s.time own)) := by
  obtain ⟨w, e, c, hs⟩ := henStore_holds b fb h payload crowd 1 (chargeOf ing h own.isSome) hn
  refine ⟨w, e, c, ?_⟩
  have hrefs : Dest.refs { ports := [q] } = 1 := rfl
  simp only [State.storeCopies, hrefs, hs, List.foldl_cons, List.foldl_nil, Bool.false_eq_true, if_false]
  by_cases hown : own.isSome = true
  · rw [if_pos hown]
    rfl
  · have hbusy : ((s.holding n (.arrived h payload crowd 1 b (chargeOf ing h own.isSome)) w e c).port q).busy.isSome =
        true := (congrArg Option.isSome (charge_busy s (chargeOf ing h own.isSome) _ q)).trans (hq.resolve_left hown)
    rw [if_neg hown]
    exact congrArg (Prod.mk (some n))
      (placeCopy_busy (e := .oneCopy h payload crowd n ing s.time own) hbusy rfl ing _)

/-! ### Frames that Hen lets in at once (R150, R172) -/

theorem admitFrame_got {ing : Nat} {h : Header} {b : Buffer} {fb : Bool} (payload : List Byte) (crowd : Bool) (d : Dest)
    (hbehind : (s.die (homeDie ing)).behind ing h = false)
    (hgot : s.henChoose (homeDie ing) h false false = .got b fb) :
    s.admitFrame ing h payload crowd d false false = s.finishStore ing h payload crowd d b fb false none := by
  have hreserve : s.reserveOnly ing false = false := rfl
  simp only [State.admitFrame, hbehind, hreserve, hgot, Bool.false_eq_true, if_false]

/-- Handle `k` holds the frame of descriptor `n` under FRAME `fr`. -/
def Thread.bound (t : Thread) (k : Nat) (v : Handle) (fr n : Nat) : Thread :=
  { t with handles := t.handles.set k { v with frames := v.frames.set fr n } }

/-- A frame whose claim stands is held in its handle. -/
theorem bindFrame_bound {p k n : Nat} {v : Handle} {h : Header} (hv : (s.thread p).handles.get? k = some v)
    (hdead : v.dead.contains h.frame = false) :
    s.bindFrame (some (p, k)) h n = s.setThread p ((s.thread p).bound k v h.frame n) := by
  simp only [State.bindFrame, hv, hdead, Bool.false_eq_true, if_false]
  rfl

end Sys2Proof.Machine
end

section
/-! SUPPORT. Frames that pass every check on a port (Table 4.6): the way of a bound class S frame (R190, R272), and of class
B and C frames to another port and to their own (R148, R153, R157, R193). -/

namespace Sys2Proof.Machine

variable {s : State} {p n : Nat} {f : RxFrame}

/-! ### What passes the checks -/

/-- The port is out of hunt. -/
def State.hunted (s : State) (p : Nat) : State := s.setPort p { s.port p with hunt := false }

theorem hunted_port_keeps {α : Type} (g : Port → α) (h : ∀ v, g { v with hunt := false } = g v) (q : Nat) :
    g ((s.hunted p).port q) = g (s.port q) := port_setPort_keeps g (h _) q

theorem setPort_hunted_port {α : Type} (g : Port → α) (h : ∀ v, g { v with hunt := false } = g v) {q : Nat} {v : Port} :
    g (((s.setPort q v).hunted p).port q) = g v :=
  (hunted_port_keeps g h q).trans (congrArg g (port_setPort_self ..))

theorem setPort_hunted_keeps {α : Type} (g : Port → α) (h : ∀ v, g { v with hunt := false } = g v) {r : Nat} {v : Port}
    (hv : g v = g (s.port r)) (q : Nat) : g (((s.setPort r v).hunted p).port q) = g (s.port q) :=
  (hunted_port_keeps g h q).trans (port_setPort_keeps g hv q)

/-- Other counters, and nothing else. -/
def State.withCtrs (s : State) (c : Tbl Word) : State := { s with counters := c }

/-- Other accounts, and nothing else. -/
def State.withAccts (s : State) (a : Tbl Acct) : State := { s with accts := a }

/-- Counting RX moves accounts alone. -/
theorem countRx_eq (s : State) (p : Nat) (h : Header) : ∃ a, s.countRx p h = s.withAccts a := by
  unfold State.countRx
  split
  · exact ⟨_, rfl⟩
  · exact ⟨_, rfl⟩

/-- Class S has no RX. -/
theorem countRx_s {h : Header} (hcls : h.cls = .s) : s.countRx p h = s := by simp [State.countRx, hcls]

/-- `n` units have been received of a class. -/
def State.rxCounted (s : State) (p : Nat) (classC : Bool) (n : Nat) : State :=
  s.setAcct p classC { s.acct p classC with rx := (s.acct p classC).rx + BitVec.ofNat 32 n }

theorem rxCounted_charge_acct (s : State) (p : Nat) (classC : Bool) (n : Nat) :
    ((s.rxCounted p classC n).charge (.acct p classC) n).acct p classC =
      { s.acct p classC with rx := (s.acct p classC).rx + BitVec.ofNat 32 n, h := (s.acct p classC).h + n } := by
  simp [State.charge, State.rxCounted]

theorem countRx_bc {h : Header} (classC : Bool) (hcls : h.cls = if classC then .c else .b) (hrx : s.rxAllows p h = true) :
    s.countRx p h = s.rxCounted p classC (frameUnits h.len.toNat) := by
  cases classC <;> simp [State.countRx, hcls, hrx, State.rxCounted]

/-- A frame that nothing turns away counts what its lanes did and its units, goes the way of its class, and ends hunt. -/
theorem arrive_takes {typ : Nat} (ht : s.takes p f) (htyp : f.hdr.typ.toNat = typ) :
    ∃ c, (∀ k, p < 49 → k < 2 ^ 16 → (s.withCtrs c).ctr (portCtr p k) = s.ctr (portCtr p k)) ∧
      s.arrive p typ f =
        (if f.hdr.cls = .s then ((s.withCtrs c).countRx p f.hdr).arriveS p f
          else ((s.withCtrs c).countRx p f.hdr).arriveBC p f).hunted p := by
  obtain ⟨halive, hact, hfail, hallows, hready, hturned, -⟩ := ht
  obtain ⟨c, hc⟩ := lineCounts_eq s p f
  refine ⟨c, fun k hp hk => (congrArg (State.ctr · (portCtr p k)) hc.symm).trans (lineCounts_portCtr s p f hp hk), ?_⟩
  obtain ⟨a, ha⟩ := countRx_eq (s.withCtrs c) p f.hdr
  have hc' : s.lineCounts p f = s.withCtrs c := hc
  have hfail' : (s.withCtrs c).rxFail p f = none := hfail
  have hallows' : (s.withCtrs c).rxAllows p f.hdr = true := hallows
  have hready' : ((s.withCtrs c).withAccts a).power.ready = true := hready
  have hturned' : ((s.withCtrs c).withAccts a).turnedAway p f.hdr = none := hturned
  simp only [State.arrive, halive, hact, Bool.not_true, Bool.or_self, Bool.false_eq_true, if_false, hc', State.judge, hfail',
    htyp, ne_eq, not_true_eq_false, hallows', ha, hready', Bool.false_and, hturned']
  rfl

/-! ### Class S (R155, R190, R272) -/

/-- A class S frame in time, for a handle that has not got it, asks Hen for its buffer within S_IN. -/
theorem arriveS_bound {part k : Nat} {v : Handle} (htwin : s.twin.st ≠ .detached)
    (htime : (f.hdr.tick - s.rooster.tickNo.setWidth 32).msb = false) (hover : (s.port p).delayOver = false)
    (hhandle : s.handleFor p f.hdr = some (part, k, v)) (hdl : s.rooster.slot ≤ v.dl) (hchunk : f.hdr.chunk = v.chunk)
    (hnew : v.frames.get? f.hdr.frame = none)
    (hroom : (s.port p).sInHeld + frameUnits f.hdr.len.toNat ≤ (s.port p).sIn) :
    s.arriveS p f =
      s.admitFrame p f.hdr f.body (f.status.getLsbD 1) { handle := some (part, k) } f.bridgeBad false := by
  simp [State.arriveS, State.admitS, Port.roomS, htwin, htime, hover, hhandle, Nat.not_lt.mpr hdl, hchunk, hnew, hroom]

/-- A frame for a handle alone is stored and held there. -/
theorem finishStore_bound {part k : Nat} {v : Handle} (h : Header) (payload : List Byte) (crowd : Bool) (b : Buffer)
    (fb : Bool) (hn : s.nextDesc (homeDie p) = some n) (hv : (s.thread part).handles.get? k = some v)
    (hdead : v.dead.contains h.frame = false) :
    ∃ w e c, s.finishStore p h payload crowd { handle := some (part, k) } b fb false none =
      (s.holding n (.arrived h payload crowd 1 b (chargeOf p h false)) w e c).setThread part
        ((s.thread part).bound k v h.frame n) := by
  obtain ⟨w, e, c, hs⟩ := henStore_holds b fb h payload crowd 1 (chargeOf p h false) hn
  refine ⟨w, e, c, ?_⟩
  have hcopies : s.storeCopies p h payload crowd { handle := some (part, k) } b fb false none =
      (some n, s.holding n (.arrived h payload crowd 1 b (chargeOf p h false)) w e c) := by
    have hrefs : Dest.refs { handle := some (part, k) } = 1 := rfl
    simp only [State.storeCopies, hrefs, Option.isSome_none, hs, Bool.false_eq_true, if_false, List.foldl_nil]
  have hthread : (s.holding n (.arrived h payload crowd 1 b (chargeOf p h false)) w e c).thread part = s.thread part := by
    unfold State.holding State.thread
    cases chargeOf p h false <;> rfl
  simp only [State.finishStore, hcopies, Bool.false_eq_true, if_false]
  rw [bindFrame_bound (hthread.symm ▸ hv) hdead, hthread]

/-- Such a frame takes its buffer and descriptor, its charge to S_IN and its place in the handle. -/
theorem arriveS_held {part k : Nat} {v : Handle} {b : Buffer} {fb : Bool} (hcls : f.hdr.cls = .s)
    (hbad : f.bridgeBad = false) (htwin : s.twin.st ≠ .detached)
    (htime : (f.hdr.tick - s.rooster.tickNo.setWidth 32).msb = false) (hover : (s.port p).delayOver = false)
    (hhandle : s.handleFor p f.hdr = some (part, k, v)) (hv : (s.thread part).handles.get? k = some v)
    (hdl : s.rooster.slot ≤ v.dl) (hchunk : f.hdr.chunk = v.chunk) (hnew : v.frames.get? f.hdr.frame = none)
    (hdead : v.dead.contains f.hdr.frame = false)
    (hroom : (s.port p).sInHeld + frameUnits f.hdr.len.toNat ≤ (s.port p).sIn)
    (hbehind : (s.die (homeDie p)).behind p f.hdr = false)
    (hgot : s.henChoose (homeDie p) f.hdr false false = .got b fb) (hn : s.nextDesc (homeDie p) = some n) :
    ∃ w e c, s.arriveS p f =
      (s.holding n (.arrived f.hdr f.body (f.status.getLsbD 1) 1 b (.sIn p)) w e c).setThread part
        ((s.thread part).bound k v f.hdr.frame n) := by
  have hcharge : chargeOf p f.hdr false = .sIn p := by simp [chargeOf, hcls]
  rw [arriveS_bound htwin htime hover hhandle hdl hchunk hnew hroom, hbad, admitFrame_got _ _ _ hbehind hgot, ← hcharge]
  exact finishStore_bound f.hdr f.body _ b fb hn hv hdead

/-- Settles O9: the frame's way through the checks to its handle, with its charge to S_IN. -/
theorem boundFramesAreHeld : Obligations.BoundFramesAreHeld := by
  intro s port part k n v b fb f hp htakes htyp htwin htime hover hhandle hv hdl hchunk hnew hdead hroom hbehind hgot hn
  have hcls : f.hdr.cls = .s := by simp [Header.cls, htyp, tySData]
  obtain ⟨c, -, harrive⟩ := arrive_takes htakes htyp
  obtain ⟨-, -, -, -, -, -, hbad⟩ := htakes
  obtain ⟨w, e, c', hheld⟩ := arriveS_held (s := s.withCtrs c) hcls hbad htwin htime hover hhandle hv hdl hchunk hnew hdead
    hroom hbehind hgot hn
  rw [if_pos hcls, countRx_s hcls, hheld] at harrive
  have hnext : exec (.sData port f) s = .next (s.arrive port tySData f) := withPort_lt _ hp
  refine .of_next (hnext.trans (congrArg _ harrive)) ⟨?_, holding_desc (w := w) (e := e) (c := c') .., ?_,
    fun q hq => thread_setThread_ne (s.withCtrs c) _ hq, fun q hq => ?_, rfl, rfl, rfl, rfl⟩
  · exact (congrArg (fun h : Thread => h.handles.get? k)
      (thread_setThread_self (s.withCtrs c) part ((s.thread part).bound k v f.hdr.frame n))).trans (Tbl.get?_set_self ..)
  · exact (hunted_port_keeps Port.sInHeld (fun _ => rfl) port).trans
      (congrArg Port.sInHeld (charge_sIn_port (s.withCtrs c) port (frameUnits f.hdr.len.toNat)))
  · exact (port_setPort_ne _ _ hq).trans (port_setPort_ne (s.withCtrs c) _ hq)

/-! ### Class B and C to a port of this Dolmo (R148, R193) -/

/-- A frame for another port of this Dolmo goes there. -/
theorem route_port {h : Header} (hloc : h.dstLoc = s.power.loc) (hdst : h.dstPort.toNat < 49) (hne : h.dstPort.toNat ≠ p) :
    s.route p h = (s, some { ports := [h.dstPort.toNat] }) := by
  have hhost : h.dstPort ≠ 0x40 := fun he => absurd (he ▸ hdst) (by decide)
  have hmule : h.dstPort ≠ 0x41 := fun he => absurd (he ▸ hdst) (by decide)
  simp only [State.route, hloc, localDest, if_neg hhost, if_neg hmule, if_neg hne, if_true]

/-- A frame for the port it came in on goes nowhere. -/
theorem route_back {h : Header} (hp : p < 49) (hloc : h.dstLoc = s.power.loc) (hdst : h.dstPort.toNat = p) :
    s.route p h = (s.bumpPort p pkNoRoute, none) := by
  have hhost : h.dstPort ≠ 0x40 := fun he => absurd (he ▸ hdst ▸ hp : (0x40 : BitVec 8).toNat < 49) (by decide)
  have hmule : h.dstPort ≠ 0x41 := fun he => absurd (he ▸ hdst ▸ hp : (0x41 : BitVec 8).toNat < 49) (by decide)
  simp only [State.route, hloc, localDest, if_neg hhost, if_neg hmule, if_pos hdst, if_true, State.bumpIng, if_pos hp]

theorem arriveBC_back (hp : p < 49) (hloc : f.hdr.dstLoc = s.power.loc) (hdst : f.hdr.dstPort.toNat = p) :
    s.arriveBC p f = s.bumpPort p pkNoRoute := by
  rw [State.arriveBC, route_back hp hloc hdst]

/-- A class B or C frame for an egress that sends already is stored, charged to its ingress and class, and queued. -/
theorem arriveBC_queued {b : Buffer} {fb : Bool} {classC : Bool} (hcls : f.hdr.cls = if classC then .c else .b)
    (hbad : f.bridgeBad = false) (hloc : f.hdr.dstLoc = s.power.loc) (hdst : f.hdr.dstPort.toNat < 49)
    (hne : f.hdr.dstPort.toNat ≠ p) (hq : s.queuesAt f.hdr.dstPort.toNat f.hdr)
    (hbehind : (s.die (homeDie p)).behind p f.hdr = false)
    (hgot : s.henChoose (homeDie p) f.hdr false false = .got b fb) (hn : s.nextDesc (homeDie p) = some n) :
    ∃ w e c, s.arriveBC p f =
      (s.holding n (.arrived f.hdr f.body (f.status.getLsbD 1) 1 b (.acct p classC)) w e c).setPort f.hdr.dstPort.toNat
        ((s.port f.hdr.dstPort.toNat).withEntry (s.rxEntry p n f)) := by
  obtain ⟨hbusy, hdown, hquar, hmay⟩ := hq
  have hbc : f.hdr.cls = .b ∨ f.hdr.cls = .c := by cases classC <;> simp [hcls]
  have hcharge : chargeOf p f.hdr false = .acct p classC := by cases classC <;> simp [chargeOf, hcls]
  obtain ⟨w, e, c, hs⟩ :=
    storeCopies_queued f.hdr f.body (f.status.getLsbD 1) b fb (own := none) hn (.inr hbusy)
  refine ⟨w, e, c, ?_⟩
  rw [Option.isSome_none, hcharge] at hs
  simp only [State.arriveBC, route_port hloc hdst hne, hbad, admitFrame_got _ _ _ hbehind hgot, State.finishStore, hs,
    State.bindFrame, Bool.false_eq_true, if_false]
  exact enqueue_bc (e := s.rxEntry p n f) hbc hdown hquar hmay

/-- An entry of class B or C goes to the end of the queue of its class alone. -/
theorem withEntry_bc (q : Port) {e : QEntry} {classC : Bool} (hcls : e.hdr.cls = if classC then .c else .b) :
    q.withEntry e = if classC then { q with qC := q.qC ++ [e] } else { q with qB := q.qB ++ [e] } := by
  cases classC <;> simp only [Port.withEntry, hcls] <;> rfl

/-- What is left of such a frame is what R148, R153, R157 and R179 say. -/
theorem arrive_stored {typ : Nat} {b : Buffer} {fb : Bool} (classC : Bool) (htakes : s.takes p f)
    (htyp : f.hdr.typ.toNat = typ) (hcls : f.hdr.cls = if classC then .c else .b) (hloc : f.hdr.dstLoc = s.power.loc)
    (hdst : f.hdr.dstPort.toNat < 49) (hne : f.hdr.dstPort.toNat ≠ p) (hq : s.queuesAt f.hdr.dstPort.toNat f.hdr)
    (hbehind : (s.die (homeDie p)).behind p f.hdr = false)
    (hgot : s.henChoose (homeDie p) f.hdr false false = .got b fb) (hn : s.nextDesc (homeDie p) = some n) :
    s.stored p n b classC f (s.arrive p typ f) := by
  obtain ⟨c, -, harrive⟩ := arrive_takes htakes htyp
  obtain ⟨-, -, -, hrx, -, -, hbad⟩ := htakes
  have hnots : f.hdr.cls ≠ .s := by cases classC <;> simp [hcls]
  have hrx' : (s.withCtrs c).rxAllows p f.hdr = true := hrx
  rw [if_neg hnots, countRx_bc classC hcls hrx'] at harrive
  obtain ⟨w, e, c', hqueued⟩ := arriveBC_queued
    (s := (s.withCtrs c).rxCounted p classC (frameUnits f.hdr.len.toNat))
    hcls hbad hloc hdst hne hq hbehind hgot hn
  rw [harrive, hqueued]
  refine ⟨?_, holding_desc (w := w) (e := e) (c := c') .., ?_, ?_, rfl, rfl, rfl⟩
  · rw [withEntry_bc _ hcls]
    cases classC with
    | false =>
      simp only [Bool.false_eq_true, if_false]
      exact ⟨setPort_hunted_port Port.qB fun _ => rfl, fun q =>
        ⟨setPort_hunted_keeps Port.qS (fun _ => rfl) (by rfl) q, setPort_hunted_keeps Port.qC (fun _ => rfl) (by rfl) q⟩⟩
    | true =>
      simp only [if_true]
      exact ⟨setPort_hunted_port Port.qC fun _ => rfl, fun q =>
        ⟨setPort_hunted_keeps Port.qS (fun _ => rfl) (by rfl) q, setPort_hunted_keeps Port.qB (fun _ => rfl) (by rfl) q⟩⟩
  · exact congrArg Acct.h (rxCounted_charge_acct (s.withCtrs c) p classC (frameUnits f.hdr.len.toNat))
  · exact congrArg Acct.rx (rxCounted_charge_acct (s.withCtrs c) p classC (frameUnits f.hdr.len.toNat))

/-- A frame for the port it came in on counts in NO_ROUTE there. -/
theorem arrive_notRouted {typ : Nat} (hp : p < 49) (htakes : s.takes p f) (htyp : f.hdr.typ.toNat = typ)
    (hcls : f.hdr.cls ≠ .s) (hloc : f.hdr.dstLoc = s.power.loc) (hdst : f.hdr.dstPort.toNat = p) :
    s.notRouted p (s.arrive p typ f) := by
  obtain ⟨c, hctr, harrive⟩ := arrive_takes htakes htyp
  obtain ⟨a, ha⟩ := countRx_eq (s.withCtrs c) p f.hdr
  rw [harrive, if_neg hcls, ha, arriveBC_back (s := (s.withCtrs c).withAccts a) hp hloc hdst]
  refine ⟨?_, rfl, fun q => ⟨hunted_port_keeps Port.qS (fun _ => rfl) q, hunted_port_keeps Port.qB (fun _ => rfl) q,
    hunted_port_keeps Port.qC (fun _ => rfl) q⟩, rfl, rfl, rfl⟩
  exact (ctr_count_one ((s.withCtrs c).withAccts a) _).trans (congrArg (satAdd _ · 1) (hctr pkNoRoute hp (by decide)))

/-- The frame types of classes B and C (Table 4.2). -/
def bcTypes (classC : Bool) : List Nat := if classC then [tyCData, tyCAck, tyCNotready] else [tyBData, tyBEcho]

theorem cls_bc {h : Header} {typ : Nat} (classC : Bool) (htyp : h.typ.toNat = typ) (hin : typ ∈ bcTypes classC) :
    h.cls = if classC then .c else .b := by
  subst htyp
  cases classC with
  | false =>
    obtain ht | ht : h.typ.toNat = tyBData ∨ h.typ.toNat = tyBEcho := by simpa [bcTypes] using hin
    all_goals simp only [Header.cls, ht]; rfl
  | true =>
    obtain ht | ht | ht : h.typ.toNat = tyCData ∨ h.typ.toNat = tyCAck ∨ h.typ.toNat = tyCNotready := by
      simpa [bcTypes] using hin
    all_goals simp only [Header.cls, ht]; rfl

/-- Settles O10: each type of classes B and C on its way to another port, and back to its own. -/
theorem framesAreStoredAndQueued : Obligations.FramesAreStoredAndQueued := by
  refine ⟨fun s port n b fb f hp htakes hloc hdst hne hq hbehind hgot hn => ?_, fun s port f hp htakes hloc hdst => ?_⟩
  · have hstored {typ : Nat} (classC : Bool) (hin : typ ∈ bcTypes classC) (htyp : f.hdr.typ.toNat = typ) :
        s.stored port n b classC f (s.arrive port typ f) :=
      arrive_stored classC htakes htyp (cls_bc classC htyp hin) hloc hdst hne hq hbehind hgot hn
    exact ⟨fun htyp => .of_next (withPort_lt _ hp) (hstored false (by decide) htyp),
      fun htyp => .of_next (withPort_lt _ hp) (hstored false (by decide) htyp),
      fun htyp => .of_next (withPort_lt _ hp) (hstored true (by decide) htyp),
      fun htyp => .of_next (withPort_lt _ hp) (hstored true (by decide) htyp),
      fun htyp => .of_next (withPort_lt _ hp) (hstored true (by decide) htyp)⟩
  · have hback {typ : Nat} (classC : Bool) (hin : typ ∈ bcTypes classC) (htyp : f.hdr.typ.toNat = typ) :
        s.notRouted port (s.arrive port typ f) :=
      arrive_notRouted hp htakes htyp (by rw [cls_bc classC htyp hin]; cases classC <;> decide) hloc hdst
    exact ⟨fun htyp => .of_next (withPort_lt _ hp) (hback false (by decide) htyp),
      fun htyp => .of_next (withPort_lt _ hp) (hback false (by decide) htyp),
      fun htyp => .of_next (withPort_lt _ hp) (hback true (by decide) htyp),
      fun htyp => .of_next (withPort_lt _ hp) (hback true (by decide) htyp),
      fun htyp => .of_next (withPort_lt _ hp) (hback true (by decide) htyp)⟩

end Sys2Proof.Machine
end

section
/-! SUPPORT. Hen's turns and judgements (R150, R176 to R178, R183, R184): the request that is served, the list that is rebuilt,
and the level that follows the fill. -/

namespace Sys2Proof.Machine

variable {s : State} {d : Nat}

/-! ### Waiting requests (R150, R176) -/

theorem henAllocation_serves {pool : Nat} {w : HenWait} (hd : d < 2) (hpool : pool < 3)
    (hw : (s.die d).waits.find? (fun x => x.pool = pool && s.waitReady d x) = some w) :
    exec (.henAllocation d pool) s = .next (State.serveWait { s with
      time := if ((s.die d).pool pool).allocAt = some s.time ∨ w.at_ = s.time then s.time + 1 else s.time } d w) := by
  show execHenAllocation d pool s = _
  simp only [execHenAllocation, hd, hpool, decide_true, Bool.and_self, withUnit_true, hw, Bool.or_eq_true, decide_eq_true_eq]

/-! ### A depot list rebuilt (R177, R178) -/

theorem setPool_pool (m : Depot) (k : Nat) (p : DepotPool) : (m.setPool k p).pool k = p := by
  unfold Depot.setPool Depot.pool
  split <;> rfl

/-- The link that a buffer has where none is listed: the next buffer of the pool, if there is one. -/
def Depot.plainLink (m : Depot) (k i : Nat) : Word :=
  if i + 1 < depotCount k (m.pool k).mib then BitVec.ofNat 64 (m.bufAddr k (i + 1)) else linkEnd

theorem link_eq (m : Depot) (k i : Nat) : m.link k i = ((m.pool k).links.get? i).getD (m.plainLink k i) := by
  unfold Depot.link
  cases (m.pool k).links.get? i <;> rfl

section
variable (m : Depot) (k : Nat)

/-- No link is listed but those of the buffers of the list. -/
theorem linksOf_get?_of_notMem {i : Nat} (l : List Nat) (hi : i ∉ l) : (m.linksOf k l).get? i = none := by
  induction l with
  | nil => rfl
  | cons a t ih =>
    cases t with
    | nil =>
      have hne : i ≠ a := fun h => hi (h ▸ List.mem_singleton_self a)
      simp only [Depot.linksOf]
      split
      · rfl
      · simp only [Tbl.get?, if_neg hne]
    | cons b t =>
      have hne : i ≠ a := fun h => hi (h ▸ List.mem_cons_self)
      have hrest := ih fun h => hi (List.mem_cons_of_mem a h)
      simp only [Depot.linksOf]
      split
      · exact hrest
      · simp only [Tbl.get?, if_neg hne, hrest]

/-- The links of the later buffers of a list do not depend on the first. -/
theorem linksOf_cons_get? {i a b : Nat} {t : List Nat} (h : i ≠ a) :
    (m.linksOf k (a :: b :: t)).get? i = (m.linksOf k (b :: t)).get? i := by
  simp only [Depot.linksOf]
  split
  · rfl
  · simp only [Tbl.get?, if_neg h]

/-- The link of the first buffer of an ascending list names the second. -/
theorem linksOf_head {a b : Nat} {t : List Nat} (hasc : (a :: b :: t).Pairwise (· < ·))
    (hb : b < depotCount k (m.pool k).mib) :
    ((m.linksOf k (a :: b :: t)).get? a).getD (m.plainLink k a) = BitVec.ofNat 64 (m.bufAddr k b) := by
  simp only [Depot.linksOf]
  split
  next hnext =>
    have hnone : a ∉ b :: t := fun h => Nat.lt_irrefl a ((List.pairwise_cons.mp hasc).1 a h)
    rw [linksOf_get?_of_notMem m k _ hnone, Option.getD_none, Depot.plainLink, if_pos (hnext ▸ hb), ← hnext]
  next => simp only [Tbl.get?, if_true, Option.getD_some]

/-- The link of a buffer of an ascending list names the next. -/
theorem linksOf_next {i j : Nat} (l : List Nat) (hasc : l.Pairwise (· < ·))
    (hlt : ∀ x ∈ l, x < depotCount k (m.pool k).mib)
    (hi : i ∈ l) (hj : j ∈ l) (hij : i < j) (hnone : ∀ x ∈ l, i < x → ¬ x < j) :
    ((m.linksOf k l).get? i).getD (m.plainLink k i) = BitVec.ofNat 64 (m.bufAddr k j) := by
  induction l with
  | nil => exact absurd hi List.not_mem_nil
  | cons a t ih =>
    cases t with
    | nil =>
      rw [List.mem_singleton] at hi hj
      exact absurd hij (by omega)
    | cons b t =>
      obtain ⟨hab, htail⟩ := List.pairwise_cons.mp hasc
      have hj' : j ∈ b :: t := (List.mem_cons.mp hj).resolve_left fun h => by
        obtain hi | hi := List.mem_cons.mp hi
        · omega
        · exact absurd (hab i hi) (by omega)
      obtain rfl | hi := List.mem_cons.mp hi
      · have hbj : j = b := by
          obtain h | h := List.mem_cons.mp hj'
          · exact h
          · exact absurd ((List.pairwise_cons.mp htail).1 j h) (hnone b (by simp) (hab b List.mem_cons_self))
        rw [hbj]
        exact linksOf_head m k hasc (hlt b (by simp))
      · rw [linksOf_cons_get? m k (Nat.ne_of_gt (hab i hi))]
        exact ih htail (fun x hx => hlt x (List.mem_cons_of_mem a hx)) hi hj' fun x hx => hnone x (List.mem_cons_of_mem a hx)

/-- The link of the last buffer of an ascending list ends it. -/
theorem linksOf_last {i : Nat} (l : List Nat) (hasc : l.Pairwise (· < ·)) (hi : i ∈ l) (hlast : ∀ x ∈ l, ¬ i < x) :
    ((m.linksOf k l).get? i).getD (m.plainLink k i) = linkEnd := by
  induction l with
  | nil => exact absurd hi List.not_mem_nil
  | cons a t ih =>
    cases t with
    | nil =>
      obtain rfl := List.mem_singleton.mp hi
      simp only [Depot.linksOf]
      split
      next hend => rw [Tbl.get?, Option.getD_none, Depot.plainLink, if_neg (by omega)]
      next => simp only [Tbl.get?, if_true, Option.getD_some]
    | cons b t =>
      obtain ⟨hab, htail⟩ := List.pairwise_cons.mp hasc
      obtain rfl | hi := List.mem_cons.mp hi
      · exact absurd (hab b List.mem_cons_self) (hlast b (by simp))
      · rw [linksOf_cons_get? m k (Nat.ne_of_gt (hab i hi))]
        exact ih htail hi fun x hx => hlast x (List.mem_cons_of_mem a hx)

end

/-- The free buffers of a depot pool, in ascending order. -/
def State.freeBuffers (s : State) (k : Nat) : List Nat :=
  (List.range (depotCount k (s.depot.pool k).mib)).filter (fun i => ((s.depot.pool k).used.get? i).isNone)

theorem mem_freeBuffers {k i : Nat} : i ∈ s.freeBuffers k ↔ s.freeBuffer k i := by
  simp [State.freeBuffers, State.freeBuffer]

theorem freeBuffers_ascend (s : State) (k : Nat) : (s.freeBuffers k).Pairwise (· < ·) :=
  List.pairwise_lt_range.filter _

/-- The head register of a list of buffers. -/
def Depot.headOf (m : Depot) (k : Nat) (l : List Nat) : Word :=
  match l with
  | [] => linkEnd
  | i :: _ => BitVec.ofNat 64 (m.bufAddr k i)

/-- A rebuilt pool: head and links go through its free buffers. -/
def State.rebuiltPool (s : State) (k : Nat) : DepotPool :=
  { s.depot.pool k with
    head := s.depot.headOf k (s.freeBuffers k), links := s.depot.linksOf k (s.freeBuffers k), bad := false }

theorem rebuild_eq (s : State) (k : Nat) : s.depot.rebuild k = s.depot.setPool k (s.rebuiltPool k) := rfl

theorem rebuild_pool (s : State) (k : Nat) : (s.depot.rebuild k).pool k = s.rebuiltPool k := setPool_pool ..

/-- A rebuilt list takes no buffer to another address. -/
theorem rebuild_bufAddr (s : State) (k i : Nat) : (s.depot.rebuild k).bufAddr k i = s.depot.bufAddr k i := by
  rw [rebuild_eq]
  unfold Depot.bufAddr Depot.poolBase Depot.setPool
  split <;> rfl

theorem rebuild_link (s : State) (k i : Nat) :
    (s.depot.rebuild k).link k i =
      ((s.depot.linksOf k (s.freeBuffers k)).get? i).getD (s.depot.plainLink k i) := by
  have hplain : (s.depot.rebuild k).plainLink k i = s.depot.plainLink k i := by
    simp only [Depot.plainLink, rebuild_pool, rebuild_bufAddr]
    rfl
  rw [link_eq, rebuild_pool, hplain]
  rfl

/-- The head of a rebuilt list is the lowest free buffer. -/
theorem headOf_lowest {k i : Nat} (hi : s.freeBuffer k i) (hlow : ∀ j, j < i → ¬ s.freeBuffer k j) :
    s.depot.headOf k (s.freeBuffers k) = BitVec.ofNat 64 (s.depot.bufAddr k i) := by
  have hasc := freeBuffers_ascend s k
  have hmem := mem_freeBuffers.mpr hi
  cases hl : s.freeBuffers k with
  | nil => exact absurd hmem (hl ▸ List.not_mem_nil)
  | cons a t =>
    have ha : s.freeBuffer k a := mem_freeBuffers.mp (hl ▸ List.mem_cons_self)
    rw [hl] at hmem hasc
    obtain rfl | hmem := List.mem_cons.mp hmem
    · rfl
    · exact absurd ha (hlow a ((List.pairwise_cons.mp hasc).1 i hmem))

theorem headOf_none {k : Nat} (hnone : ∀ i, ¬ s.freeBuffer k i) : s.depot.headOf k (s.freeBuffers k) = linkEnd := by
  rw [List.eq_nil_iff_forall_not_mem.mpr fun i hi => hnone i (mem_freeBuffers.mp hi)]
  rfl

theorem henListRebuild_next {pool : Nat} (hpool : pool = 3 ∨ pool = 4) (hbad : (s.depot.pool pool).bad = true)
    (h0 : s.rooster.slot = 0) :
    exec (.henListRebuild pool) s = .next (State.bumpDev { s with depot := s.depot.rebuild pool } dkHenRebuild) := by
  have hunit : (decide (pool = 3) || decide (pool = 4)) = true := by simpa using hpool
  show execHenListRebuild pool s = _
  simp only [execHenListRebuild, hunit, withUnit_true, hbad, h0, decide_true, Bool.and_self, if_true]

/-! ### Levels (R183, R184) -/

/-- No higher threshold is reached. -/
def Die.noRise (v : Die) : Prop := ∀ l, v.level < l → l ≤ 3 → v.fillGe (v.thr l) = false

theorem levelRise_noRise (h : (s.die d).noRise) : s.levelRise d = s := by
  have hstep (l : Nat) (hl : l ≤ 3) : ((s.die d).level < l && (s.die d).fillGe ((s.die d).thr l)) = false := by
    by_cases hlt : (s.die d).level < l
    · rw [h l hlt hl, Bool.and_false]
    · rw [decide_eq_false hlt, Bool.false_and]
  simp only [State.levelRise, List.foldl_cons, List.foldl_nil, hstep 1 (by decide), hstep 2 (by decide), hstep 3 (by decide),
    Bool.false_eq_true, if_false]

theorem die_count (s : State) (i n d : Nat) : (s.count i n).die d = s.die d := by
  simp only [State.die, count_west, count_east]

/-- The fill in amber and no further: AMBER is entered. -/
theorem levelRise_amber (h0 : (s.die d).level = 0) (ha : (s.die d).fillGe (s.die d).thrA = true)
    (hr : (s.die d).fillGe (s.die d).thrR = false) (hb : (s.die d).fillGe (s.die d).thrB = false) :
    s.levelRise d = s.enterLevel d 1 := by
  have hdie : (s.enterLevel d 1).die d = { s.die d with level := 1 } := by
    rw [State.enterLevel, bumpDie_eq, die_count, die_setDie_self]
  have h1 : ((s.die d).level < 1 && (s.die d).fillGe ((s.die d).thr 1)) = true := by
    rw [h0]
    exact ha
  have hno (l : Nat) (h : (s.die d).fillGe ((s.die d).thr l) = false) :
      (((s.enterLevel d 1).die d).level < l &&
        ((s.enterLevel d 1).die d).fillGe (((s.enterLevel d 1).die d).thr l)) = false := by
    rw [hdie, Bool.and_eq_false_iff]
    exact .inr h
  simp only [State.levelRise, List.foldl_cons, List.foldl_nil, h1, if_true, hno 2 hr, hno 3 hb, Bool.false_eq_true, if_false]

/-- The level as judged in this cycle, and in force from the next one on. -/
def Die.judged (v : Die) (now l : Nat) : Die := { v with level := l, levelAt := now, levelWas := v.levelIn now }

theorem judged_levelIn (v : Die) (now l : Nat) : (v.judged now l).levelIn now = v.levelIn now := if_pos rfl

theorem levelHeld_eq (s : State) (d : Nat) : s.levelHeld d = s.setDie d ((s.die d).judged s.time (s.die d).level) := rfl

theorem setDie_setDie (s : State) (d : Nat) (v w : Die) : (s.setDie d v).setDie d w = s.setDie d w := by
  unfold State.setDie
  split <;> rfl

/-- From GREEN to AMBER. -/
theorem judgeLevel_amber (h0 : (s.die d).level = 0) (ha : (s.die d).fillGe (s.die d).thrA = true)
    (hr : (s.die d).fillGe (s.die d).thrR = false) (hb : (s.die d).fillGe (s.die d).thrB = false) :
    s.judgeLevel d = (s.setDie d ((s.die d).judged s.time 1)).bumpDie d ikHenAmberEnter := by
  have hdie : (s.levelHeld d).die d = (s.die d).judged s.time 0 := by rw [levelHeld_eq, die_setDie_self, h0]
  have hrise : (s.levelHeld d).levelRise d = (s.setDie d ((s.die d).judged s.time 1)).bumpDie d ikHenAmberEnter := by
    rw [levelRise_amber (by rw [hdie]; rfl) (by rw [hdie]; exact ha) (by rw [hdie]; exact hr) (by rw [hdie]; exact hb),
      State.enterLevel, hdie, levelHeld_eq, setDie_setDie]
    rfl
  have hlevel : (((s.setDie d ((s.die d).judged s.time 1)).bumpDie d ikHenAmberEnter).die d).level ≠ (s.die d).level := by
    rw [bumpDie_eq, die_count, die_setDie_self, h0]
    exact Nat.one_ne_zero
  rw [State.judgeLevel, hrise]
  exact if_neg hlevel

/-- One level down. -/
theorem judgeLevel_falls (h0 : (s.die d).level ≠ 0) (hno : (s.die d).noRise)
    (hle : (s.die d).fillLe ((s.die d).thr (s.die d).level - 8) = true) :
    s.judgeLevel d = s.setDie d ((s.die d).judged s.time ((s.die d).level - 1)) := by
  have hdie : (s.levelHeld d).die d = (s.die d).judged s.time (s.die d).level := by rw [levelHeld_eq, die_setDie_self]
  have hrise : (s.levelHeld d).levelRise d = s.levelHeld d := levelRise_noRise (by rw [hdie]; exact hno)
  have hfall : (((s.levelHeld d).die d).level ≠ 0 && ((s.levelHeld d).die d).fillLe
      (((s.levelHeld d).die d).thr ((s.levelHeld d).die d).level - 8)) = true := by
    rw [hdie, Bool.and_eq_true]
    exact ⟨decide_eq_true h0, hle⟩
  rw [State.judgeLevel, hrise, State.levelFall]
  simp only [hfall, if_true]
  rw [hdie, levelHeld_eq, setDie_setDie]
  exact if_pos rfl

/-- Settles O16: a turn in this cycle or the next, a list rebuilt, and the level up to AMBER or one down. -/
theorem henActs : Obligations.HenActs := by
  refine ⟨fun s d pool w hd hpool hw hat halloc => ?_, fun s d pool w hd hpool hw hbusy => ?_,
    fun s pool hpool hbad h0 => .of_next (henListRebuild_next hpool hbad h0) ?_,
    fun s d hd h0 ha hr hb => ?_, fun s d hd h0 hno _ hle => ?_⟩
  · rw [henAllocation_serves hd hpool hw, if_neg (not_or.mpr ⟨halloc, hat⟩)]
  · rw [henAllocation_serves hd hpool hw, if_pos hbusy.symm]
  · rw [bumpDev_eq, count_depot, ctr_count_one, count_out, rebuild_pool]
    refine ⟨rfl, fun i hi hlow => headOf_lowest hi hlow, headOf_none, fun i j hi hj hij hgap => ?_, fun i hi hlast => ?_,
      rfl, Depot.setPool_mem .., rfl, rfl⟩
    · rw [rebuild_link]
      exact linksOf_next _ _ _ (freeBuffers_ascend s pool) (fun x hx => (mem_freeBuffers.mp hx).1) (mem_freeBuffers.mpr hi)
        (mem_freeBuffers.mpr hj) hij fun x hx hix hxj => hgap x hix hxj (mem_freeBuffers.mp hx)
    · rw [rebuild_link]
      exact linksOf_last _ _ _ (freeBuffers_ascend s pool) (mem_freeBuffers.mpr hi)
        fun x hx hix => hlast x hix (mem_freeBuffers.mp hx)
  · have hnext : exec (.henLevelChange d) s = .next (s.judgeLevel d) := if_pos (decide_eq_true hd)
    rw [judgeLevel_amber h0 ha hr hb] at hnext
    refine .of_next hnext ?_
    rw [bumpDie_eq, die_count, die_setDie_self, ctr_count_one, count_ports, count_descs, count_out]
    exact ⟨rfl, judged_levelIn .., congrArg (satAdd _ · 1) (ctr_congr (setDie_counters ..) _), setDie_ports ..,
      setDie_descs .., setDie_out ..⟩
  · have hnext : exec (.henLevelChange d) s = .next (s.judgeLevel d) := if_pos (decide_eq_true hd)
    rw [judgeLevel_falls h0 hno hle] at hnext
    refine .of_next hnext ?_
    rw [die_setDie_self]
    exact ⟨rfl, judged_levelIn .., setDie_counters .., setDie_ports .., setDie_descs .., setDie_out ..⟩

end Sys2Proof.Machine
end

section
/-! SUPPORT. Ox: LCLR at its begin and retire (R226, R227, R235, R236), copy-backs (R220), and a SEND of one packed tile
(R145, R151, R232, R276, R277). -/

namespace Sys2Proof.Machine

variable {s : State} {p : Nat}

/-! ### LCLR (R226, R227, R235, R236) -/

/-- What an LCLR puts into rename storage. -/
def Renamed.cleared (w : Nat) (v : Window) : Renamed := { window := some (w, v), clear := true }

theorem oxOpBegin_lclr {r : Rec} {e w base rows : Nat} {fm : Form} {o : Oper} {sgn : Bool} (hp : p < 128)
    (hrecs : (s.thread p).recs = [r]) (hbegun : r.begun = false) (hheld : r.held = false)
    (hop : r.op = .lclr e w base rows fm o sgn) (hshadows : s.shadowsUsed p e ≤ 8) (hspares : s.sparesUsed p e ≤ 64) :
    exec (.oxOpBegin p r.id) s = .next (s.setThread p { s.thread p with recs := [{ r with
      begun := true, done := true
      res := .cleared w { opened := true, base := base, rows := rows, form := fm, oper := o, sgn := sgn } }] }) := by
  have hfind : (s.thread p).recs.find? (fun x => x.id = r.id && !x.begun) = some r := by simp [hrecs, hbegun]
  have hfirst : (s.thread p).recs.any (fun x => x.id < r.id && !x.begun && opEngine x.op = some e) = false := by
    simp [hrecs]
  have heng : opEngine (.lclr e w base rows fm o sgn) = some e := rfl
  have hroom : ¬ (8 < s.shadowsUsed p e ∨ 64 < s.sparesUsed p e) := by omega
  show execOxOpBegin p r.id s = _
  simp only [execOxOpBegin, withPart_lt _ hp, hfind, hop, heng, hfirst, Bool.false_eq_true, if_false, State.beginOp,
    List.length_nil, Nat.add_zero, Bool.or_eq_true, decide_eq_true_eq, if_neg hroom]
  simp only [modThread_eq, hrecs, List.map_cons, List.map_nil, if_true, hop, hheld]
  rfl

/-- The rows of a window become current, each with its own value. -/
theorem storeRows_get?_self (e : Engine) (v : Window) {rows : List Nat} {i : Nat} (hi : i ∈ rows) :
    (e.storeRows v rows).ledger.get? (v.base + i) = some (v.row i) := by
  refine foldl_establishes (P := fun i (t : Tbl LedgerRow) => t.get? (v.base + i) = some (v.row i))
    (fun t x => Tbl.get?_set_self ..) (fun t x y hx => ?_) rows e.ledger i hi
  rw [Tbl.get?_set]
  split
  next h => rw [Nat.add_left_cancel h]
  next => exact hx

/-- Other rows of the ledger stay. -/
theorem storeRows_get?_other (e : Engine) (v : Window) {rows : List Nat} {k : Nat} (hk : ∀ i ∈ rows, k ≠ v.base + i) :
    (e.storeRows v rows).ledger.get? k = e.ledger.get? k :=
  List.foldlRecOn (motive := fun t : Tbl LedgerRow => t.get? k = e.ledger.get? k) rows _ rfl fun t ht i hi =>
    (Tbl.get?_set_ne t _ (hk i hi)).trans ht

theorem commit_cleared_window (e : Engine) (w : Nat) (v : Window) :
    (e.commit (.cleared w v)).window w = { v.toWinAttr with flags := 0 } := Tbl.getD_set_self ..

theorem commit_cleared_window_ne (e : Engine) {w k : Nat} (v : Window) (h : k ≠ w) :
    (e.commit (.cleared w v)).window k = e.window k := Tbl.getD_set_ne _ _ _ h

theorem commit_cleared_ledger (e : Engine) (w : Nat) (v : Window) :
    (e.commit (.cleared w v)).ledger = (e.storeRows v (List.range v.rows)).ledger := rfl

theorem popRec_recs (s : State) (p : Nat) : ((s.popRec p).thread p).recs = (s.thread p).recs.tail := by
  rw [State.popRec, modThread_eq, thread_setThread_self]

theorem retireOx_lclr {r : Rec} {e w base rows : Nat} {fm : Form} {o : Oper} {sgn : Bool} {v : Window}
    (hop : r.op = .lclr e w base rows fm o sgn) (hres : r.res = .cleared w v) :
    s.retireOx p e r =
      ((s.popRec p).setEngine e ((s.engine e).commit (.cleared w v))).setThread p ((s.popRec p).thread p) := by
  have hclaim (t : State) : t.releaseClaim p r = t := by simp only [State.releaseClaim, hop]
  simp only [State.retireOx, hclaim, hop, hres]
  rfl

theorem retire_lclr {r : Rec} {l : List Rec} {e w base rows : Nat} {fm : Form} {o : Oper} {sgn : Bool} {v : Window}
    (hp : p < 128) (hrecs : (s.thread p).recs = r :: l) (hop : r.op = .lclr e w base rows fm o sgn)
    (hbegun : r.begun = true) (hres : r.res = .cleared w v) :
    exec (.retire p) s = .next (((s.popRec p).setEngine e ((s.engine e).commit (.cleared w v))).setThread p
      ((s.popRec p).thread p)) := by
  show execRetire p s = _
  simp only [execRetire, withPart_lt _ hp, hrecs, List.head?_cons, hop, hbegun, hres]
  exact congrArg Host.Outcome.next (retireOx_lclr hop hres)

/-! ### Copy-backs (R220) -/

theorem copyBackEnd_first {e k : Nat} (he : e < 32) (hk : k < 64)
    (h : (s.engine e).copyBacks.find? (fun x => x % 32 = k % 32) = some k) :
    ∃ v n, v.copyBacks = (s.engine e).copyBacks.erase k ∧ v.tiles = (s.engine e).tiles ∧
      v.windows = (s.engine e).windows ∧ v.ledger = (s.engine e).ledger ∧
      exec (.copyBackEnd e k) s = .next ((s.setEngine e v).count (engCtr e ekEccCorr) n) := by
  show ∃ v n, _ ∧ _ ∧ _ ∧ _ ∧ execCopyBackEnd e k s = _
  simp only [execCopyBackEnd, he, hk, decide_true, Bool.and_self, withUnit_true, if_pos h]
  split
  · exact ⟨{ s.engine e with copyBacks := (s.engine e).copyBacks.erase k }, 0, rfl, rfl, rfl, rfl, rfl⟩
  · exact ⟨Engine.settle { s.engine e with copyBacks := (s.engine e).copyBacks.erase k } k, _, rfl, rfl, rfl, rfl, rfl⟩

theorem copyBackEnd_later {e k : Nat} (he : e < 32) (hk : k < 64)
    (h : (s.engine e).copyBacks.find? (fun x => x % 32 = k % 32) ≠ some k) : exec (.copyBackEnd e k) s = .next s := by
  show execCopyBackEnd e k s = _
  simp only [execCopyBackEnd, he, hk, decide_true, Bool.and_self, withUnit_true, if_neg h]

/-! ### A SEND of one packed tile (R145, R151, R232, R276, R277) -/

theorem bytesAt_length (b : List Byte) (i n : Nat) : (bytesAt b i n).length = n := by
  simp only [bytesAt, List.length_append, List.length_take, List.length_drop, List.length_replicate]
  omega

/-- Other engines, and nothing else. -/
def State.withEngines (s : State) (g : Tbl Engine) : State := { s with engines := g }

/-- Other dies, and nothing else. -/
def State.withDies (s : State) (w e : Die) : State := { s with west := w, east := e }

/-- The payload of a SEND of a packed tile: its elements (R232). -/
def Tile.packedLen (x : Tile) : Nat := x.count * fmtSize x.src
def Tile.packedBytes (x : Tile) : List Byte := bytesAt x.bytes 0 x.packedLen

theorem packedBytes_length (x : Tile) : x.packedBytes.length = x.packedLen := bytesAt_length ..

/-- A SEND reads bank `b` of the engine. -/
def Engine.streaming (e : Engine) (b : Nat) : Engine := { e with streams := e.streams ++ [(b, 40)] }

/-- The reading of a packed tile without errors gives its bytes; its engine has a stream more. -/
theorem sendBytes_packed {eng t slen : Nat} {addr : Option Nat} (hbad : (s.engine eng).eccBad = [])
    (hone : (s.engine eng).eccOne = []) (hkind : ((s.engine eng).tile t).kind = .packed) :
    ∃ g, s.sendBytes false eng t addr 1 slen 0 =
        (.ok (((s.engine eng).tile t).packedBytes, false), s.withEngines g) ∧
      ((s.withEngines g).engine eng).tiles = (s.engine eng).tiles ∧
      ∀ f, f ≠ eng → (s.withEngines g).engine f = s.engine f := by
  have hok (l : List OxPlace) : s.oxBad eng l = false := by rw [State.oxBad, hbad, List.any_nil]
  have hclean (l : List OxPlace) : s.oxCorrect eng l = s.setEngine eng (s.engine eng) := by
    simp only [State.oxCorrect, hone, List.filter_nil, List.length_nil]
    rw [← hone]
    rfl
  have hlen : tileLen ((s.engine eng).tile t) slen = ((s.engine eng).tile t).packedLen := by
    simp only [tileLen, hkind, Tile.packedLen]
  refine ⟨((s.engines.set eng (s.engine eng)).set eng ((s.engine eng).streaming (t % 32))), ?_, ?_, fun f hf => ?_⟩
  · have hstream : (s.setEngine eng (s.engine eng)).addStreams eng [(t % 32, 40)] =
        (s.setEngine eng (s.engine eng)).setEngine eng ((s.engine eng).streaming (t % 32)) := by
      rw [State.addStreams, engine_setEngine_self]
      rfl
    simp only [State.sendBytes, Nat.add_zero, hok, hclean, hkind, hlen, hstream, Bool.false_eq_true, if_false]
    rfl
  · have hself := engine_setEngine_self (s.setEngine eng (s.engine eng)) eng ((s.engine eng).streaming (t % 32))
    exact (congrArg Engine.tiles hself :)
  · exact (engine_setEngine_ne (s.setEngine eng (s.engine eng)) _ hf).trans (engine_setEngine_ne s _ hf)

/-- Hen chooses by the clock and its own die. -/
theorem henChoose_withDies {w e : Die} {d : Nat} (hdie : (s.withDies w e).die d = s.die d) (h : Header) (r again : Bool) :
    (s.withDies w e).henChoose d h r again = s.henChoose d h r again := by
  unfold State.henChoose State.tryReserve
  rw [hdie]
  rfl

/-- What crosses the bridge to a die leaves that die as it is. -/
theorem crossBridge_keeps {n : Nat} (s : State) {port k : Nat} (hd : engineDie k ≠ homeDie port) :
    ∃ w e, s.crossBridge (engineDie k) n = s.withDies w e ∧ (s.withDies w e).die (homeDie port) = s.die (homeDie port) := by
  have hengine : engineDie k = 0 ∨ engineDie k = 1 := by unfold engineDie; split <;> simp
  have hhome : homeDie port = 0 ∨ homeDie port = 1 := by unfold homeDie; split <;> simp
  have hother : (homeDie port = 0) ≠ (engineDie k = 0) := by
    intro h
    have hiff := h.to_iff
    omega
  obtain ⟨w, e, h⟩ := setDie_eq s (engineDie k)
    { s.die (engineDie k) with bridge := (s.die (engineDie k)).bridge + n }
  refine ⟨w, e, h, ?_⟩
  have hkeep := die_setDie_other s { s.die (engineDie k) with bridge := (s.die (engineDie k)).bridge + n } hother
  rw [h] at hkeep
  exact hkeep

/-- The header of a SEND's frame has the LEN asked for. -/
theorem sHeader_len {port slot n frame : Nat} {dst chunk : BitVec 32} {first last tally : Bool} {tick : Word} {h : Header}
    (hh : h = s.sHeader p port slot dst n first last tally tick chunk frame) (hn : n ≤ 4096) : h.len.toNat = n := by
  rw [hh]
  exact (BitVec.toNat_ofNat n 13).trans (Nat.mod_eq_of_lt (by omega))

/-- A frame of a SEND may have to cross the bridge to the die of its port. -/
theorem bridged_keeps (s : State) (k port n : Nat) :
    ∃ w e, (if engineDie k = homeDie port then s else s.crossBridge (engineDie k) n) = s.withDies w e ∧
      (s.withDies w e).die (homeDie port) = s.die (homeDie port) := by
  split
  · exact ⟨s.west, s.east, rfl, rfl⟩
  next hd => exact crossBridge_keeps s hd

/-- The first frame of a SEND, with its buffer and within S_OUT, is stored and queued for its slot. -/
theorem queueS_queued {port slot n frame : Nat} {dst chunk : BitVec 32} {bytes : List Byte} {first last tally : Bool}
    {tick : Word} {h : Header} {b : Buffer} {fb : Bool} (hpos : 0 < bytes.length)
    (hh : h = s.sHeader p port slot dst bytes.length first (last || decide (bytes.length < 4096)) tally tick chunk frame)
    (hgot : s.henChoose (homeDie port) h false false = .got b fb) (hn : s.nextDesc (homeDie port) = some n)
    (hmay : s.mayUse h port = true) (hquar : (s.port port).quarantined = false) (hdown : (s.port port).down = false)
    (hover : (s.port port).delayOver = false)
    (hroom : (s.port port).sOutHeld + frameUnits h.len.toNat ≤ (s.port port).sOut) :
    ∃ w e c, s.queueS p port slot dst bytes first last tally tick chunk frame 0 =
      (s.holding n (.arrived h bytes false 1 b (.own port)) w e c).setPort port
        ((s.port port).tookS (.oneCopy h bytes false n port s.time (some (p, slot)))) := by
  have hcls : h.cls = .s := by rw [hh]; rfl
  have hcharge : chargeOf port h true = .own port := by simp [chargeOf, hcls]
  -- Frame 0 of a SEND comes to Hen at the present time, no cycles after it.
  have hgot' : State.henChoose { s with time := s.time + 40 * 0 } (homeDie port) h false false = .got b fb := hgot
  obtain ⟨w, e, c, hs⟩ := storeCopies_queued (s := { s with time := s.time + 40 * 0 }) (q := port) h bytes false b fb
    (own := some (p, slot)) hn (.inl rfl)
  refine ⟨w, e, c, ?_⟩
  rw [Option.isSome_some, hcharge] at hs
  have hq := enqueue_s (s := s.holding n (.arrived h bytes false 1 b (.own port)) w e c)
    (e := .oneCopy h bytes false n port s.time (some (p, slot))) hcls hdown hover hquar hmay hroom
  simp only [State.queueS, if_neg (Nat.ne_of_gt hpos), ← hh, hgot', hs]
  exact congrArg (fun t : State => { t with time := s.time }) hq

/-- A SEND of one packed tile builds one frame, with the tile's bytes. -/
theorem sendFrames_packed {port slot t frame slen eng pc f : Nat} {chunk dst : BitVec 32} {addr : Option Nat}
    {ff lf : Bool} {tick : Word} {x : Tile} (hbad : (s.engine eng).eccBad = []) (hone : (s.engine eng).eccOne = [])
    (hx : (s.engine eng).tile t = x) (hkind : x.kind = .packed) :
    ∃ g w e, s.sendFrames p port slot 1 false t dst chunk frame addr slen ff lf eng tick pc f 1 0 =
        ((s.withEngines g).withDies w e).queueS p port slot dst x.packedBytes ff lf false tick chunk frame 0 ∧
      ((s.withEngines g).withDies w e).die (homeDie port) = s.die (homeDie port) ∧
      ((s.withEngines g).engine eng).tiles = (s.engine eng).tiles ∧
      ∀ k, k ≠ eng → (s.withEngines g).engine k = s.engine k := by
  subst hx
  obtain ⟨g, hbytes, htiles, hengines⟩ := sendBytes_packed (slen := slen) (addr := addr) hbad hone hkind
  obtain ⟨w, e, hbridge, hdie⟩ := bridged_keeps (s.withEngines g) eng port
    ((s.engine eng).tile t).packedBytes.length
  refine ⟨g, w, e, ?_, hdie, htiles, hengines⟩
  simp only [State.sendFrames, hbytes, Bool.false_or, decide_eq_true_eq, hbridge, Nat.zero_div, Nat.add_zero, Nat.zero_add,
    decide_true, Bool.and_true]

/-- The job of a retired SEND is taken up. -/
def State.sendTaken (s : State) (p : Nat) (l : List SendJob) : State := s.setThread p { s.thread p with sends := l }

theorem sendTileRead_next {port slot nf t rank frame slen eng : Nat} {chunk dst : BitVec 32} {addr : Option Nat}
    {ff lf : Bool} {j : SendJob} {l : List SendJob} (hp : p < 128) (hsends : (s.thread p).sends = j :: l)
    (hop : j.op = .send port slot nf false t rank chunk frame addr slen ff lf eng) (hrank : s.rankAddr p rank = some dst) :
    exec (.sendTileRead p j.id) s = .next ((s.sendTaken p l).sendFrames p port slot nf false t dst chunk frame addr slen ff lf
      eng j.tick j.pc ((s.sendTaken p l).framesPerSlot p port) nf 0) := by
  have htail : s.setThread p { s.thread p with sends := l } = s.sendTaken p l := rfl
  have hrank' : (s.sendTaken p l).rankAddr p rank = some dst := hrank
  show execSendTileRead p j.id s = _
  simp only [execSendTileRead, withPart_lt _ hp, hsends, List.head?_cons, List.tail_cons, hop, htail, hrank', Bool.false_and,
    Bool.false_eq_true, if_false, ne_eq, not_true_eq_false]

/-- The frame of a packed tile is stored on its port's die and queued for its slot. -/
theorem sendTileRead_queued {port slot t rank frame slen eng n : Nat} {chunk dst : BitVec 32} {addr : Option Nat}
    {ff lf fb : Bool} {j : SendJob} {l : List SendJob} {x : Tile} {b : Buffer} {h : Header} (hp : p < 128)
    (hsends : (s.thread p).sends = j :: l)
    (hop : j.op = .send port slot 1 false t rank chunk frame addr slen ff lf eng) (hrank : s.rankAddr p rank = some dst)
    (hbad : (s.engine eng).eccBad = []) (hone : (s.engine eng).eccOne = []) (hx : (s.engine eng).tile t = x)
    (hkind : x.kind = .packed) (hpos : 0 < x.packedLen) (hle : x.packedLen ≤ 4096)
    (hh : h = s.sHeader p port slot dst x.packedLen ff (lf || decide (x.packedLen < 4096)) false
      j.tick chunk frame)
    (hgot : s.henChoose (homeDie port) h false false = .got b fb) (hn : s.nextDesc (homeDie port) = some n)
    (hmay : s.mayUse h port = true) (hquar : (s.port port).quarantined = false) (hdown : (s.port port).down = false)
    (hover : (s.port port).delayOver = false)
    (hroom : (s.port port).sOutHeld + frameUnits x.packedLen ≤ (s.port port).sOut) :
    ∃ g w e c, exec (.sendTileRead p j.id) s =
        .next ((((s.sendTaken p l).withEngines g).holding n
          (.arrived h x.packedBytes false 1 b (.own port)) w e c).setPort port
            ((s.port port).tookS
              (.oneCopy h x.packedBytes false n port s.time (some (p, slot))))) ∧
      (((s.sendTaken p l).withEngines g).engine eng).tiles = (s.engine eng).tiles ∧
      ∀ k, k ≠ eng → ((s.sendTaken p l).withEngines g).engine k = s.engine k := by
  obtain ⟨g, w, e, hframe, hdie, htiles, hengines⟩ := sendFrames_packed (s := s.sendTaken p l) (p := p) (port := port)
    (slot := slot) (frame := frame) (slen := slen) (pc := j.pc) (f := (s.sendTaken p l).framesPerSlot p port) (chunk := chunk)
    (dst := dst) (addr := addr) (ff := ff) (lf := lf) (tick := j.tick) hbad hone hx hkind
  obtain ⟨w', e', c, hqueued⟩ := queueS_queued (s := ((s.sendTaken p l).withEngines g).withDies w e)
    (bytes := x.packedBytes) (by rw [packedBytes_length]; exact hpos) (by rw [packedBytes_length]; exact hh)
    ((henChoose_withDies hdie h false false).trans hgot) hn hmay hquar hdown hover (by rw [sHeader_len hh hle]; exact hroom)
  have hnext := sendTileRead_next hp hsends hop hrank
  rw [hframe, hqueued] at hnext
  exact ⟨g, w', e', c, hnext, htiles, hengines⟩

theorem engine_count (s : State) (i n e : Nat) : (s.count i n).engine e = s.engine e := by
  simp only [State.engine, count_engines]

/-- Settles O28: LCLR at its begin and retire, copy-backs in their order, and a packed tile sent. -/
theorem oxOperationsAct : Obligations.OxOperationsAct := by
  refine ⟨fun s p id r e w base rows fm o sgn hp hrecs hid hbegun hheld hop hshadows hspares => ?_,
    fun s p r l e w base rows fm o sgn v hp hrecs hop hbegun hres => .of_next (retire_lclr hp hrecs hop hbegun hres) ?_,
    fun s e k he hk h => ?_, fun s e k he hk h => copyBackEnd_later he hk h, ?_⟩
  · subst hid
    exact .of_next (oxOpBegin_lclr hp hrecs hbegun hheld hop hshadows hspares) rfl
  · have hengine := engine_setEngine_self (s.popRec p) e ((s.engine e).commit (.cleared w v))
    have hledger := (congrArg Engine.ledger hengine).trans (commit_cleared_ledger ..)
    refine ⟨?_, ?_, fun i hi => ?_, fun k hk => ?_, fun k hk => ?_, fun k => ?_, fun f hf => ?_, rfl, rfl⟩
    · exact (congrArg Thread.recs (thread_setThread_self ..)).trans ((popRec_recs ..).trans (congrArg List.tail hrecs))
    · exact (congrArg (Engine.window · w) hengine).trans (commit_cleared_window ..)
    · exact (congrArg (Tbl.get? · (v.base + i)) hledger).trans (storeRows_get?_self _ v (List.mem_range.mpr hi))
    · exact (congrArg (Tbl.get? · k) hledger).trans
        (storeRows_get?_other _ v fun i hi => by have := List.mem_range.mp hi; omega)
    · exact (congrArg (Engine.window · k) hengine).trans (commit_cleared_window_ne _ v hk)
    · exact (congrArg (Engine.tile · k) hengine :)
    · exact engine_setEngine_ne (s.popRec p) _ hf
  · obtain ⟨v, n, hcopy, htiles, hwindows, hledger, hnext⟩ := copyBackEnd_first he hk h
    refine .of_next hnext ?_
    rw [engine_count, engine_setEngine_self, count_threads, count_depot]
    exact ⟨hcopy, htiles, hwindows, hledger, fun f hf => (engine_count ..).trans (engine_setEngine_ne _ _ hf), rfl, rfl⟩
  · intro s p id port slot t rank frame slen eng n chunk dst addr ff lf fb j l x b h hp hport hsends hid hop hrank hbad
      hone hx hkind hpos hle hh hgot hn hmay hquar hdown hover hroom
    subst hid
    obtain ⟨g, w, e, c, hnext, htiles, hengines⟩ := sendTileRead_queued hp hsends hop hrank hbad hone hx hkind hpos hle hh
      hgot hn hmay hquar hdown hover hroom
    have hport := port_setPort_self ((s.sendTaken p l).withEngines g) port
      ((s.port port).tookS (.oneCopy h x.packedBytes false n port s.time (some (p, slot))))
    have hunits := congrArg frameUnits (sHeader_len hh hle)
    refine .of_next hnext ⟨(congrArg Port.qS hport :),
      (holding_desc (w := w) (e := e) (c := c) ..).trans (by rw [Stored.arrived, hunits]; rfl),
      (congrArg Port.sOutHeld hport).trans (congrArg ((s.port port).sOutHeld + ·) hunits),
      (congrArg Thread.sends (thread_setThread_self s p _) :), fun q hq => thread_setThread_ne s _ hq,
      fun q hq => port_setPort_ne s _ hq, htiles, hengines, rfl, rfl⟩

end Sys2Proof.Machine
end

section
/-! SUPPORT. What every update of the switch keeps, a frame of this Dolmo's own keeps as it is routed, stored and placed
(R143, R148, R163-R168): one walk for any predicate on the state. -/

namespace Sys2Proof.Machine

/-- `P` is kept by each update by which frames go through the switch. -/
structure SwitchStable (P : State → Prop) : Prop where
  setPort : ∀ {t p v}, P t → P (t.setPort p v)
  setAcct : ∀ {t i c v}, P t → P (t.setAcct i c v)
  setDie : ∀ {t d v}, P t → P (t.setDie d v)
  setDescs : ∀ {t : State} {l}, P t → P { t with descs := l }
  emit : ∀ {t o}, P t → P (t.emit o)
  mgmtCause : ∀ {t bit}, P t → P (t.mgmtCause bit)
  bumpPort : ∀ {t p k}, P t → P (t.bumpPort p k)
  bumpDie : ∀ {t d k}, P t → P (t.bumpDie d k)
  twinDrop : ∀ {t}, P t → P (t.bumpDev dkTwinDrop)

namespace SwitchStable

variable {P : State → Prop} {t u : State}

theorem ite {c : Prop} [Decidable c] (ht : P t) (hu : P u) : P (if c then t else u) := by split <;> assumption

variable (w : SwitchStable P)
include w

/-! ### Buffers, descriptors and charges (R153, R172, R179, R180) -/

theorem henTake {d : Nat} {b : Buffer} {fb : Bool} (h : P t) : P (t.henTake d b fb) := by
  cases b with
  | none => exact h
  | pool k o => exact ite (w.bumpDie (w.setDie h)) (w.setDie h)
  | reserve o => exact w.bumpDie (w.setDie h)

theorem henFree {d : Nat} {b : Buffer} (h : P t) : P (t.henFree d b) := by
  cases b with
  | none => exact h
  | pool k o => exact w.setDie h
  | reserve o => exact w.setDie h

theorem charge {c : Charge} {n : Nat} (h : P t) : P (t.charge c n) := by
  cases c with
  | acct i k => exact w.setAcct h
  | sIn p => exact w.setPort h
  | own p => exact h

theorem uncharge {c : Charge} {n : Nat} (h : P t) : P (t.uncharge c n) := by
  cases c with
  | acct i k => exact ite (w.setPort (w.setAcct h)) (w.setAcct h)
  | sIn p => exact w.setPort h
  | own p => exact h

theorem noBuffer {d : Nat} (h : P t) : P (t.noBuffer d) := w.bumpDie (ite (w.setDie h) h)

theorem henStore {d : Nat} {b : Buffer} {fb : Bool} {hdr : Header} {payload : List Byte} {crowd : Bool} {refs : Nat}
    {c : Charge} (h : P t) : P (t.henStore d b fb hdr payload crowd refs c).2 := by
  dsimp only [State.henStore]
  split
  · exact w.noBuffer h
  · exact w.setDescs (w.charge (w.henTake h))

theorem release {n : Nat} (h : P t) : P (t.release n) := by
  dsimp only [State.release]
  split
  · exact w.mgmtCause (w.bumpDie h)
  · exact ite (w.setDie (w.uncharge (w.henFree (w.setDescs h)))) (w.setDescs h)

theorem releaseEntry {e : QEntry} (h : P t) : P (t.releaseEntry e) := by
  dsimp only [State.releaseEntry]
  split
  · exact w.release h
  · exact h

/-! ### Egress queues and starts (R148, R160, R164) -/

theorem startEntry {p : Nat} {e : QEntry} {stomped : Bool} (h : P t) : P (t.startEntry p e stomped) := by
  unfold State.startEntry
  extract_lets q crowd marked hd hdr units q1 cb cc q2 d s0 s1 s2
  have h1 : P s1 := w.emit (w.setPort (ite (w.setDie (w.setDie h)) h))
  have h2 : P s2 := ite (w.bumpPort h1) h1
  exact ite (w.bumpPort h2) h2

theorem startNow {p : Nat} {e : QEntry} {stomped : Bool} (h : P t) : P (t.startNow p e stomped) :=
  w.startEntry (ite (w.setPort h) h)

theorem enqueue {p : Nat} {e : QEntry} (h : P t) : P (t.enqueue p e) := by
  have hdrop {k : Nat} : P ((t.releaseEntry e).bumpPort p k) := w.bumpPort (w.releaseEntry h)
  dsimp only [State.enqueue]
  refine ite hdrop (ite hdrop ?_)
  split
  · exact ite hdrop (ite hdrop (w.setPort h))
  · exact ite hdrop (w.setPort h)
  · exact ite hdrop (w.setPort h)

theorem place {i hold p : Nat} {e : QEntry} (h : P t) : P (t.place i hold e p) :=
  ite (w.startNow h) (ite (w.bumpPort (w.releaseEntry h)) (w.enqueue h))

theorem placeCopy {i hold p : Nat} {bad : Bool} {e : QEntry} (h : P t) : P (t.placeCopy i hold bad e p) :=
  ite (ite (w.startNow (w.bumpDie h)) (w.releaseEntry (w.bumpDie h))) (w.place h)

/-! ### A frame of this Dolmo's own (R143, R150, R159) -/

theorem storeCopies {i : Nat} {hdr : Header} {payload : List Byte} {crowd : Bool} {d : Dest} {b : Buffer} {fb bad : Bool}
    {own : Option (Nat × Nat)} (h : P t) : P (t.storeCopies i hdr payload crowd d b fb bad own).2 := by
  have hs := w.henStore (d := homeDie i) (b := b) (fb := fb) (hdr := hdr) (payload := payload) (crowd := crowd)
    (refs := d.refs) (c := chargeOf i hdr own.isSome) h
  dsimp only [State.storeCopies]
  split
  next heq => rwa [heq] at hs
  next heq =>
    rw [heq] at hs
    exact List.foldlRecOn (motive := P) _ _ (ite (w.setDescs hs) hs) fun _ hu _ _ => ite (w.enqueue hu) (w.placeCopy hu)

theorem addWait {x : HenWait} (h : P t) : P (t.addWait x) := ite (w.setDie h) (w.charge (w.setDie h))

theorem route {i : Nat} {hdr : Header} (h : P t) : P (t.route i hdr).1 :=
  route_fst h (fun _ => ite (w.bumpPort h) h) (w.twinDrop h)

theorem sendLocal {i : Nat} {hdr : Header} {payload : List Byte} (h : P t) : P (t.sendLocal i hdr payload) := by
  have hr := w.route (i := i) (hdr := hdr) h
  dsimp only [State.sendLocal]
  split
  next heq => rwa [heq] at hr
  next heq =>
    rw [heq] at hr
    refine ite (w.addWait hr) (ite (w.addWait hr) ?_)
    split
    · exact w.noBuffer hr
    · exact w.addWait hr
    · exact w.storeCopies hr

end SwitchStable

/-! ### The rest of the machine -/

/-- The state without what a frame may change on its way through the switch. -/
def State.beyondSwitch (s : State) : State :=
  { s with
    out := [], wire := [], counters := [], power := {}, ports := [], accts := [], west := {}, east := {}, descs := []
    funcs := [] }

@[simp] theorem beyondSwitch_setDie (s : State) (d : Nat) (v : Die) : (s.setDie d v).beyondSwitch = s.beyondSwitch := by
  unfold State.setDie; split <;> rfl

@[simp] theorem beyondSwitch_count (s : State) (i n : Nat) : (s.count i n).beyondSwitch = s.beyondSwitch := by
  unfold State.count; split <;> rfl

@[simp] theorem beyondSwitch_fire (s : State) (fn entry : Nat) : (s.fire fn entry).beyondSwitch = s.beyondSwitch := by
  unfold State.fire; dsimp only; split <;> rfl

@[simp] theorem beyondSwitch_mgmtCause (s : State) (bit : Nat) : (s.mgmtCause bit).beyondSwitch = s.beyondSwitch := by
  unfold State.mgmtCause
  dsimp only
  split
  · rfl
  · exact beyondSwitch_fire ..

theorem devCtr_ne {k k' : Nat} (h : k ≠ k') : devCtr k ≠ devCtr k' := by
  simp only [devCtr, ctrIndex]; omega

/-- A device counter lies below those of all dies. -/
theorem devCtr_ne_dieCtr {k : Nat} (hk : k < 2 ^ 16) (d k' : Nat) : devCtr k ≠ dieCtr d k' := by
  simp only [devCtr, dieCtr, ctrIndex]; omega

/-- A device counter lies below those of all ports. -/
theorem devCtr_ne_portCtr {k : Nat} (hk : k < 2 ^ 16) (p k' : Nat) : devCtr k ≠ portCtr p k' := by
  simp only [devCtr, portCtr, ctrIndex]; omega

/-- From `s` to `t` frames may have gone through the switch: nothing beyond it has changed, and of the device counters only
TWIN_DROP. -/
structure KeepsBeyondSwitch (s t : State) : Prop where
  beyond : t.beyondSwitch = s.beyondSwitch
  ctr : ∀ k, k < 2 ^ 16 → k ≠ dkTwinDrop → t.ctr (devCtr k) = s.ctr (devCtr k)

namespace KeepsBeyondSwitch

variable {s t u : State}

theorem refl (s : State) : KeepsBeyondSwitch s s := ⟨rfl, fun _ _ _ => rfl⟩

/-- An update of the switch that counts nothing. -/
theorem other (h : KeepsBeyondSwitch s t) (hb : u.beyondSwitch = t.beyondSwitch) (hc : u.counters = t.counters) :
    KeepsBeyondSwitch s u :=
  ⟨hb.trans h.beyond, fun k hk hne => (ctr_congr hc _).trans (h.ctr k hk hne)⟩

/-- A count that is none of a device counter but TWIN_DROP. -/
theorem count {i n : Nat} (h : KeepsBeyondSwitch s t) (hi : ∀ k, k < 2 ^ 16 → k ≠ dkTwinDrop → devCtr k ≠ i) :
    KeepsBeyondSwitch s (t.count i n) :=
  ⟨(beyondSwitch_count ..).trans h.beyond, fun k hk hne => (ctr_count_ne t n (hi k hk hne)).trans (h.ctr k hk hne)⟩

theorem switchStable (s : State) : SwitchStable (KeepsBeyondSwitch s) where
  setPort h := h.other rfl rfl
  setAcct h := h.other rfl rfl
  setDie h := h.other (beyondSwitch_setDie ..) (setDie_counters ..)
  setDescs h := h.other rfl rfl
  emit h := h.other rfl rfl
  mgmtCause h := h.other (beyondSwitch_mgmtCause ..) (mgmtCause_counters ..)
  bumpPort h := by rw [bumpPort_eq]; exact h.count fun _ hk _ => devCtr_ne_portCtr hk _ _
  bumpDie h := by rw [bumpDie_eq]; exact h.count fun _ hk _ => devCtr_ne_dieCtr hk _ _
  twinDrop h := by rw [bumpDev_eq]; exact h.count fun _ _ hne => devCtr_ne hne

/-- A frame of this Dolmo's own changes nothing beyond the switch. -/
theorem sendLocal (s : State) (i : Nat) (hdr : Header) (payload : List Byte) :
    KeepsBeyondSwitch s (s.sendLocal i hdr payload) :=
  (switchStable s).sendLocal (refl s)

end KeepsBeyondSwitch

end Sys2Proof.Machine
end

section
/-! SUPPORT. Echoes that leave (R206, R207), and class B messages that stay incomplete (R212, R352). -/

namespace Sys2Proof.Machine

variable {s t : State}

/-! ### Echoes (R206, R207) -/

/-- An echo counts in ECHO_TX, and its frame goes into the switch. -/
theorem sendEcho_keeps (s : State) (mule : Bool) (dst : BitVec 32) (part ctx : Nat) (msg : BitVec 32)
    (marked total kind : Nat) :
    KeepsBeyondSwitch (s.count (devCtr dkEchoTx) 1) (s.sendEcho mule dst part ctx msg marked total kind) :=
  .sendLocal ..

/-- A LOSS echo resets the pair's counts at most. -/
theorem lossEcho_keeps (s : State) (k : MsgKey) (part : Nat) (mule : Bool) :
    ∃ l, KeepsBeyondSwitch ({ s with echoes := l }.count (devCtr dkEchoTx) 1) (s.lossEcho k part mule) := by
  dsimp only [State.lossEcho]
  split
  · exact ⟨_, sendEcho_keeps ..⟩
  · exact ⟨s.echoes, sendEcho_keeps ..⟩

/-- The echo of a pair is due no longer. -/
def State.echoTaken (s : State) (k : BitVec 32 × Nat) (e : Echo) : State :=
  { s with echoes := assocSet s.echoes k { e with due := none } }

theorem echoSend_keeps {src : BitVec 32} {ctx : Nat} {e : Echo} {d : BitVec 32 × Nat × Nat × Nat}
    (he : assoc? s.echoes (src, ctx) = some e) (hdue : e.due = some d) :
    Gives (.echoSend src ctx) s (KeepsBeyondSwitch ((s.echoTaken (src, ctx) e).count (devCtr dkEchoTx) 1)) := by
  refine .of_next (t := (s.echoTaken (src, ctx) e).sendEcho (1024 ≤ ctx) src e.part (ctx % 1024) d.1 d.2.1 d.2.2.1 1) ?_
    (sendEcho_keeps ..)
  show execEchoSend src ctx s = _
  simp only [execEchoSend, he, hdue]
  rfl

/-! ### Messages that are dropped (R212, R352) -/

/-- From `s` to `t` buffers of a message may have been given back: no message, thread, partition, counter or byte of the
depot has changed. -/
structure GivesBack (s t : State) : Prop where
  msgs : t.msgs = s.msgs
  deadMsgs : t.deadMsgs = s.deadMsgs
  threads : t.threads = s.threads
  parts : t.parts = s.parts
  counters : t.counters = s.counters
  mem : t.depot.mem = s.depot.mem

namespace GivesBack

theorem refl (s : State) : GivesBack s s := ⟨rfl, rfl, rfl, rfl, rfl, rfl⟩

theorem writeRecord {qid : Nat} {rcd : List Byte} {reserved eligible event : Bool} (h : GivesBack s t) :
    GivesBack s (t.writeRecord qid rcd reserved eligible event) :=
  ⟨(writeRecord_msgs ..).trans h.msgs, (writeRecord_deadMsgs ..).trans h.deadMsgs,
    (writeRecord_threads ..).trans h.threads, (writeRecord_parts ..).trans h.parts,
    (writeRecord_counters ..).trans h.counters, (congrArg Depot.mem (writeRecord_depot ..)).trans h.mem⟩

theorem recvRecord {qid status marks index bytes ring : Nat} {src msg : BitVec 32} (h : GivesBack s t) :
    GivesBack s (t.recvRecord qid status marks src msg index bytes ring) := by
  dsimp only [State.recvRecord]
  split
  · exact h
  · split
    · exact h
    · exact h.writeRecord

theorem depotFree {k i : Nat} (h : GivesBack s t) : GivesBack s (t.depotFree k i) :=
  ⟨h.msgs, h.deadMsgs, h.threads, h.parts, h.counters, (Depot.setPool_mem ..).trans h.mem⟩

end GivesBack

/-- A message that is voided leaves the open ones for the dead ones, and its buffers are given back. -/
theorem voidMsg_takes (s : State) (m : OpenMsg) :
    ∃ u, GivesBack (s.dropMsgEntry m.key) u ∧ s.voidMsg m = { u with deadMsgs := u.deadMsgs ++ [m.key] } :=
  ⟨_, List.foldlRecOn (motive := GivesBack _) _ _
    (List.foldlRecOn (motive := GivesBack _) _ _ (.refl _) fun _ hu _ _ => hu.recvRecord) fun _ hu _ _ => hu.depotFree, rfl⟩

/-- A dropped message is voided, and its counter and a LOSS echo follow. -/
theorem dropMsg_keeps (s : State) (m : OpenMsg) (i : Nat) :
    ∃ u l, GivesBack (s.dropMsgEntry m.key) u ∧ KeepsBeyondSwitch
      (({ u with deadMsgs := u.deadMsgs ++ [m.key], echoes := l }.count i 1).count (devCtr dkEchoTx) 1) (s.dropMsg m i) := by
  obtain ⟨u, hback, hvoid⟩ := voidMsg_takes s m
  obtain ⟨l, hkeeps⟩ := lossEcho_keeps ((s.voidMsg m).bump i) m.key m.part (m.qid = muleQid)
  rw [hvoid] at hkeeps
  refine ⟨u, l, hback, ?_⟩
  rw [State.dropMsg, hvoid]
  exact hkeeps

theorem bMsgTimeout_drops {k : MsgKey} {m : OpenMsg} (hm : s.msgs.find? (fun x => x.key = k) = some m)
    (hopen : m.complete = false) (hlate : m.lastAt + 4 * s.tickNs ≤ s.time) :
    exec (.bMsgTimeout k) s = .next (s.dropMsg m (devCtr dkBMsgLost)) := by
  show execBMsgTimeout k s = _
  simp only [execBMsgTimeout, hm, hopen, Bool.false_or, decide_eq_true_eq, if_neg (Nat.not_lt.mpr hlate)]

/-- Settles O17: the echo's frame changes nothing beyond the switch, and the message's buffers are given back before. -/
theorem echoesAndMessageTimeouts : Obligations.EchoesAndMessageTimeouts := by
  refine ⟨fun s src ctx e d he hdue => ?_, fun s k m hm hopen hlate => .of_next (bMsgTimeout_drops hm hopen hlate) ?_⟩
  · obtain ⟨t, hnext, hbeyond, hctr⟩ := echoSend_keeps he hdue
    rw [beyondSwitch_count] at hbeyond
    have hechoes : t.echoes = assocSet s.echoes (src, ctx) { e with due := none } := (congrArg State.echoes hbeyond :)
    refine .of_next hnext ⟨?_, ?_, fun k hk => ?_, (congrArg State.queues hbeyond :), (congrArg State.threads hbeyond :),
      (congrArg State.depot hbeyond :)⟩
    · rw [hechoes, assoc?_set_self]
    · rw [hctr dkEchoTx (by decide) (by decide), ctr_count_one]
      rfl
    · rw [hechoes, assoc?_set_ne _ _ hk]
  · have hkey : m.key = k := by simpa using List.find?_some hm
    subst hkey
    obtain ⟨u, l, ⟨hmsgs, hdead, hthreads, hparts, hcounters, hmem⟩, hbeyond, hctr⟩ :=
      dropMsg_keeps s m (devCtr dkBMsgLost)
    rw [beyondSwitch_count, beyondSwitch_count] at hbeyond
    refine ⟨(congrArg State.msgs hbeyond).trans hmsgs,
      (congrArg State.deadMsgs hbeyond).trans (congrArg (· ++ [m.key]) hdead), ?_,
      (congrArg State.threads hbeyond).trans hthreads, (congrArg (fun t => t.depot.mem) hbeyond).trans hmem,
      (congrArg State.parts hbeyond).trans hparts⟩
    rw [hctr dkBMsgLost (by decide) (by decide), ctr_count_ne _ _ (devCtr_ne (by decide)), ctr_count_one]
    exact congrArg (satAdd _ · 1) (ctr_congr hcounters _)

end Sys2Proof.Machine
end

section
/-! SUPPORT. The scalar instructions of Table 10.6 at issue (R249, R262, R266): the value and the flags of each. -/

namespace Sys2Proof.Machine

variable {s : State} {p : Nat}

/-! ### Results and flags (R249) -/

/-- A result in 64 bits that an exact value wraps to, with OVF where the two differ. -/
theorem wrapOvf_of {v : Int} {w : Word} (h : BitVec.ofInt 64 v = w) :
    wrapOvf v = (w, if w.toInt = v then 0 else sfOVF) := by
  subst h; rfl

theorem addOp_eq (a b : Word) :
    addOp a b = (a + b, if (a + b).toInt = a.toInt + b.toInt then 0 else sfOVF) :=
  wrapOvf_of (by rw [BitVec.ofInt_add, BitVec.ofInt_toInt, BitVec.ofInt_toInt])

theorem subOp_eq (a b : Word) :
    subOp a b = (a - b, if (a - b).toInt = a.toInt - b.toInt then 0 else sfOVF) :=
  wrapOvf_of (by rw [Int.sub_eq_add_neg, BitVec.ofInt_add, BitVec.ofInt_neg, BitVec.ofInt_toInt, BitVec.ofInt_toInt,
    BitVec.sub_eq_add_neg])

theorem mulOp_eq (a b : Word) :
    mulOp a b = (a * b, if (a * b).toInt = a.toInt * b.toInt then 0 else sfOVF) :=
  wrapOvf_of (by rw [BitVec.ofInt_mul, BitVec.ofInt_toInt, BitVec.ofInt_toInt])

/-- A negation is exact but of the most negative value. -/
theorem toInt_neg_eq_iff (a : Word) : (-a).toInt = -a.toInt ↔ a ≠ wordMin := by
  have hmin : wordMin = BitVec.intMin 64 := rfl
  rw [hmin]
  by_cases h : a = BitVec.intMin 64
  · subst h; decide
  · exact iff_of_true (BitVec.toInt_neg_of_ne_intMin h) h

theorem negOp_eq (a : Word) : negOp a = (-a, if a = wordMin then sfOVF else 0) := by
  rw [negOp, wrapOvf_of (w := -a) (by rw [BitVec.ofInt_neg, BitVec.ofInt_toInt])]
  simp only [toInt_neg_eq_iff, ne_eq, ite_not]

theorem absOp_eq (a : Word) :
    absOp a = (if a.toInt < 0 then -a else a, if a = wordMin then sfOVF else 0) := by
  unfold absOp
  split
  next h => exact (congrArg wrapOvf (Int.ofNat_natAbs_of_nonpos (Int.le_of_lt h))).trans (negOp_eq a)
  next h =>
    have hne : a ≠ wordMin := by rintro rfl; exact h (by decide)
    rw [Int.natAbs_of_nonneg (Int.not_lt.mp h), wrapOvf_of (BitVec.ofInt_toInt), if_pos rfl, if_neg hne]

/-! ### Shifts take the whole register as the amount (R249) -/

theorem shlOp_eq (a b : Word) : shlOp a b = a <<< b.toNat := by
  unfold shlOp
  split
  next h => exact (BitVec.shiftLeft_eq_zero h).symm
  next => rfl

theorem shrOp_eq (a b : Word) : shrOp a b = a >>> b.toNat := by
  unfold shrOp
  split
  next h => exact (BitVec.ushiftRight_eq_zero h).symm
  next => rfl

theorem sraOp_eq (a b : Word) : sraOp a b = a.sshiftRight b.toNat := by
  unfold sraOp
  obtain h | h := Nat.le_total b.toNat 64
  · rw [Nat.min_eq_right h]
  · ext i hi
    rw [Nat.min_eq_left h, BitVec.getElem_sshiftRight, BitVec.getElem_sshiftRight, dif_neg (by omega), dif_neg (by omega)]

/-! ### The instructions (Table 10.6) -/

/-- A scalar instruction that issues, by the value and the flags that it computes. -/
theorem scalar_gives {i : Instr} {rd : BitVec 5} {f : Thread → Word × BitVec 3} {v : Word} {fl : BitVec 3}
    (h : s.issues p i) (hf : f (s.movedOn p i) = (v, fl)) : s.scalar p i rd f = .next (s.scalarTo p i rd v fl) := by
  rw [scalar_acts rd f h, hf]
  rfl

/-- One of three registers, by the values that it reads. -/
theorem scalarR_gives {i : Instr} {rd ra rb : BitVec 5} {f : Word → Word → Word × BitVec 3} {v : Word} {fl : BitVec 3}
    (h : s.issues p i) (hf : f (s.sreg p ra) (s.sreg p rb) = (v, fl)) :
    s.scalarR p i rd ra rb f = .next (s.scalarTo p i rd v fl) :=
  scalar_gives h hf

/-- Settles O18, instruction by instruction. -/
theorem scalarResults : Obligations.ScalarResults := by
  intro s p h rd ra rb imm
  have himm : (imm.signExtend 64).toInt = imm.toInt := BitVec.toInt_signExtend_of_le (by decide)
  refine ⟨fun hi => ?_, fun hi => ?_, fun hi => ?_, fun hi => ?_, fun hi => ?_, fun hi => ?_, fun hi => ?_, fun hi => ?_,
    fun hi => ?_, fun hi => ?_, fun hi => ?_, fun hi => ?_, fun hi => ?_, fun hi => ?_⟩
  · show execAdd p h rd ra rb s = _
    exact scalarR_gives hi (addOp_eq _ _)
  · show execSub p h rd ra rb s = _
    exact scalarR_gives hi (subOp_eq _ _)
  · show execMul p h rd ra rb s = _
    exact scalarR_gives hi (mulOp_eq _ _)
  · show execNeg p h rd ra s = _
    exact scalar_gives hi (negOp_eq _)
  · show execAbs p h rd ra s = _
    exact scalar_gives hi (absOp_eq _)
  · show execAnd p h rd ra rb s = _
    exact scalarR_gives hi rfl
  · show execOr p h rd ra rb s = _
    exact scalarR_gives hi rfl
  · show execXor p h rd ra rb s = _
    exact scalarR_gives hi rfl
  · show execShl p h rd ra rb s = _
    exact scalarR_gives hi (congrArg (·, 0) (shlOp_eq _ _))
  · show execShr p h rd ra rb s = _
    exact scalarR_gives hi (congrArg (·, 0) (shrOp_eq _ _))
  · show execSra p h rd ra rb s = _
    exact scalarR_gives hi (congrArg (·, 0) (sraOp_eq _ _))
  · show execAddi p h rd ra imm s = _
    rw [← himm]
    exact scalar_gives hi (addOp_eq _ _)
  · show execMovi p h rd imm s = _
    exact scalar_gives hi rfl
  · show execOri p h rd ra imm s = _
    exact scalar_gives hi rfl

end Sys2Proof.Machine
end

section
/-! SUPPORT. Guand instructions at issue (R243, R244, R260): each is one call of the shared rule, for the thread that it names,
and what can issue is decoded from that thread's own code. -/

namespace Sys2Proof.Machine

variable {s : State} {p : Nat} {i : Instr}

/-- An answer comes by the rule of issue for instruction `i` of thread `p`. -/
def ByIssue (s : State) (p : Nat) (i : Instr) (r : Res) : Prop := ∃ ok act, r = s.issue p i ok act

theorem ByIssue.issue {ok : Thread → Bool} {act : State → Thread → State} : ByIssue s p i (s.issue p i ok act) :=
  ⟨ok, act, rfl⟩
theorem ByIssue.issueT {f : Thread → Thread} : ByIssue s p i (s.issueT p i f) := .issue
theorem ByIssue.scalar {rd : BitVec 5} {f : Thread → Word × BitVec 3} : ByIssue s p i (s.scalar p i rd f) := .issueT
theorem ByIssue.scalarR {rd ra rb : BitVec 5} {f : Word → Word → Word × BitVec 3} :
    ByIssue s p i (s.scalarR p i rd ra rb f) := .scalar
theorem ByIssue.divide {rd ra rb re : BitVec 5} {f : Word → Word → Word × Word × BitVec 3} :
    ByIssue s p i (s.divide p i rd ra rb re f) := .issueT
theorem ByIssue.atomic {ra : BitVec 5} {off : Int} {n rd : Nat} {awaited : List Nat} {op : Thread → StoreOp} :
    ByIssue s p i (s.atomicIssue p i ra off n rd awaited op) := .issue

/-- Every Guand instruction acts by the rule of issue, for the thread that it names. -/
theorem exec_byIssue (h : guandOf i = some p) (s : State) : ByIssue s p i (exec i s) := by
  cases i with
  | nop | br | loop | lend | tickwait | cmp | plog | rdt | fenceDepot | fenceTick | recv | send | lclr | tacc | emit
  | post => cases h; dsimp only [exec]; exact .issueT
  | neg | abs | addi | movi | ori => cases h; dsimp only [exec]; exact .scalar
  | add | sub | mul | and | or | xor | shl | shr | sra | adds | subs | muls | adduS
  | subuS => cases h; dsimp only [exec]; exact .scalarR
  | divs | divu => cases h; dsimp only [exec]; exact .divide
  | aadd | aswp | acas | acas2 => cases h; dsimp only [exec]; exact .atomic
  | expect | tld | tst => cases h; dsimp only [exec]; exact .issue
  | ld => cases h; dsimp only [exec, execLd]; exact .issue
  | st => cases h; dsimp only [exec, execSt]; exact .issue
  | _ => cases h

/-- What the words spell is an instruction of the thread whose words they are. -/
theorem guandOf_of_fields {w x : Word} (h : guandFields p w x = some i) : guandOf i = some p := by
  unfold guandFields at h
  dsimp only at h
  repeat' split at h
  all_goals cases h <;> rfl

theorem guandOf_of_decode {w x : Word} (h : guandDecode p w x = some i) : guandOf i = some p := by
  unfold guandDecode at h
  split at h
  next j hj =>
    split at h <;> cases h
    exact guandOf_of_fields hj
  next => cases h

/-- What thread `p` can issue is an instruction of its own. -/
theorem guandOf_of_canIssue (h : s.canIssue p i = true) : guandOf i = some p := by
  unfold State.canIssue at h
  dsimp only at h
  split at h
  next => cases h
  next pl _ =>
    simp only [Bool.and_eq_true, decide_eq_true_eq] at h
    obtain ⟨⟨⟨⟨-, hdecode⟩, -⟩, -⟩, -⟩ := h
    exact guandOf_of_decode hdecode

/-- Settles O21: whatever the instruction, it goes by the rule of issue. -/
theorem guardsAndIssue : Obligations.GuardsAndIssue := by
  refine ⟨fun s p i hp hc hg => ?_, fun s p i w x hp hd hc => ?_⟩
  · obtain ⟨ok, act, h⟩ := exec_byIssue (guandOf_of_canIssue hc) s
    rw [h, issue_unguarded ok act hp hc hg]
  · obtain ⟨ok, act, h⟩ := exec_byIssue (guandOf_of_decode hd) s
    rw [h, issue_not ok act hp hc]

end Sys2Proof.Machine
end

section
/-! SUPPORT. Link, combine and queue instructions at issue (Tables 10.9-10.14): the handle or the record that each leaves, with
the register values that it read. -/

namespace Sys2Proof.Machine

variable {s : State} {p : Nat} {h : GHead}

/-! ### Records -/

/-- An instruction that only takes a record, by the operation that it computes. -/
theorem issueT_records {i : Instr} {op : Thread → Op} {o : Op} {awaited : List Nat} (hi : s.issues p i)
    (ho : op (s.movedOn p i) = o) :
    s.issueT p i (fun t => t.push (guandLen i) (op t) awaited) = .next (s.recorded p i o awaited) := by
  rw [issueT_acts _ hi, ho]
  rfl

/-- A record names the index that its instruction issued from. -/
theorem movedOn_pushed (s : State) (p : Nat) (i : Instr) (op : Op) :
    ((s.movedOn p i).push (guandLen i) op []).recs =
      (s.thread p).recs ++ [{ id := (s.thread p).nextId, pc := (s.thread p).pc, op := op }] := by
  simp only [Thread.push, State.movedOn, Nat.add_sub_cancel]

/-- E0 of an EMIT, in 32 bits (R284). -/
theorem emit_e0 (a : Word) (b : BitVec 22) :
    32 * (a.setWidth 32 + b.setWidth 32) = BitVec.ofNat 32 (32 * (a.toNat + b.toNat)) := by
  have h32 : (32 : BitVec 32).toNat = 32 := rfl
  apply BitVec.eq_of_toNat_eq
  simp only [BitVec.toNat_mul, BitVec.toNat_add, BitVec.toNat_setWidth, BitVec.toNat_ofNat, h32]
  omega

/-! ### EXPECT (R245) -/

/-- The scalar state of a thread, saved for record `nextId`. -/
def Thread.saved (t : Thread) : Ckpt := { id := t.nextId, regs := t.regs, preds := t.preds, flags := t.sflags }

/-- EXPECT saves the scalar state beside its record. -/
theorem expect_acts {pr : BitVec 3} {hmask : BitVec 16} {hf : Bool} {heng : BitVec 5} {hw : BitVec 3} {hole : BitVec 16}
    {nfr : BitVec 14} (hi : s.issues p (.expect p h pr hmask hf heng hw hole nfr)) (hc : (s.thread p).ckpts.length < 4) :
    exec (.expect p h pr hmask hf heng hw hole nfr) s =
      .next (s.setThread p { (s.movedOn p (.expect p h pr hmask hf heng hw hole nfr)).push 2
        (.expect pr.toNat hmask.toNat nfr.toNat hf heng.toNat hw.toNat hole.toNat ((s.thread p).latestDl hmask.toNat)
          none) [] with
        ckpts := (s.thread p).ckpts ++ [(s.thread p).saved] }) := by
  show execExpect p h pr hmask hf heng hw hole nfr s = _
  rw [execExpect, issue_acts _ _ hi, if_pos (decide_eq_true hc)]
  rfl

/-! ### TLD of a frame (R281) -/

/-- A frame TLD claims its FRAME of its handle. -/
theorem tldFrame_acts {eng : BitVec 5} {t : BitVec 6} {fmt ra : BitVec 5} {rows : BitVec 8} {tr tc : BitVec 4} {hd fr : Nat}
    {x : Handle} (hi : s.issues p (.tld p h eng t fmt false ra rows tr tc)) (hhd : hd = (s.sreg p ra).toNat / 2 ^ 16 % 16)
    (hfr : fr = (s.sreg p ra).toNat % 2 ^ 14) (hx : (s.thread p).handles.get? hd = some x)
    (hclaim : x.claims.contains fr = false) :
    exec (.tld p h eng t fmt false ra rows tr tc) s =
      .next (s.setThread p { (s.movedOn p (.tld p h eng t fmt false ra rows tr tc)).push 1
        (.tldFrame eng.toNat t.toNat fmt.toNat tr.toNat tc.toNat hd fr true) [] with
        handles := (s.thread p).handles.set hd { x with claims := fr :: x.claims } }) := by
  have hhd' : bitsOf ((s.thread p).reg ra.toNat).toNat 19 16 = hd := hhd.symm
  have hfr' : bitsOf ((s.thread p).reg ra.toNat).toNat 13 0 = fr := by rw [bitsOf, Nat.pow_zero, Nat.div_one]; exact hfr.symm
  have hx' : (s.movedOn p (.tld p h eng t fmt false ra rows tr tc)).handles.get? hd = some x := hx
  show execTld p h eng t fmt false ra rows tr tc s = _
  simp only [execTld, issue_acts _ _ hi, Bool.false_and, Bool.not_false, if_true, Bool.false_eq_true, if_false, movedOn_reg,
    hhd', hfr', hx', hclaim]
  rfl

/-- Settles O24, instruction by instruction. -/
theorem linkAndCombineIssue : Obligations.LinkAndCombineIssue := by
  refine ⟨fun s p h hd grant cr dl v g hi hv hg => ?_,
    fun s p h port slot nf srck t rr cr fr dr slen ff lf eng hi => ?_,
    fun s p h pr hmask hf heng hw hole nfr hi hc => .of_next (expect_acts hi hc) ?_,
    fun s p h eng w base rows form oper sgn fm o hi hfm ho => ?_,
    fun s p h eng t fmt ra rows tr tc hi hf => ?_,
    fun s p h eng t fmt ra rows tr tc hd fr x hi hhd hfr hx hc => .of_next (tldFrame_acts hi hhd hfr hx hc) ?_,
    fun s p h eng t w k lane hi => ?_, fun s p h eng w t fmt rm clamp kr cr er n lane e0i hi => ?_,
    fun s p h eng t ra rows tw tr tc hi hf => ?_, fun s p h rq ra fl eng w irq hi => ?_⟩
  · show execRecv p h hd grant cr dl s = _
    rw [execRecv, issueT_acts _ hi, hv, Option.bind_some, hg]
    rfl
  · show execSend p h port slot nf srck t rr cr fr dr slen ff lf eng s = _
    refine issueT_records hi ?_
    simp only [Bool.and_eq_true, decide_eq_true_eq]
    rfl
  · rw [thread_setThread_self]
    exact ⟨rfl, rfl, movedOn_pushed .., rfl⟩
  · show execLclr p h eng w base rows form oper sgn s = _
    refine issueT_records hi ?_
    rw [hfm, ho]
    rfl
  · show execTld p h eng t fmt true ra rows tr tc s = _
    rw [execTld, issue_acts _ _ hi, hf]
    rfl
  · rw [thread_setThread_self]
    exact ⟨rfl, Tbl.get?_set_self .., movedOn_pushed .., rfl⟩
  · show execTacc p h eng t w k lane s = _
    exact issueT_records hi rfl
  · show execEmit p h eng w t fmt rm clamp kr cr er n lane e0i s = _
    refine issueT_records hi ?_
    rw [emit_e0]
    rfl
  · show execTst p h eng t ra rows tw tr tc s = _
    rw [execTst, issue_acts _ _ hi, hf]
    rfl
  · show execPost p h rq ra fl eng w irq s = _
    refine issueT_records hi ?_
    simp only [bitsOf, Nat.pow_zero, Nat.div_one]
    rfl

end Sys2Proof.Machine
end

section
/-! SUPPORT. Served gate calls (Tables 15.3 and 15.5): what each check lets through, and what it leaves of the state. -/

namespace Sys2Proof.Machine

variable {s : State}

/-! ### Checks -/

theorem need_of {b : Bool} {status : Nat} {r : Verdict} (h : b = true) : need b status r = r := if_pos h

theorem need_not {b : Bool} {status : Nat} {r : Verdict} (h : b = false) : need b status r = .error (status, 0) := by
  subst h; rfl

theorem tickLegal_iff {n : Nat} : tickLegal n = true ↔ 64 ≤ n ∧ n ≤ 16384 ∧ n % 64 = 0 := by
  simp only [tickLegal, Bool.and_eq_true, decide_eq_true_eq, and_assoc]

/-! ### Epoch tables: the shadow is written, the tables in force stay (R452) -/

theorem stageRoute_next (s : State) (i : Nat) (e : BitVec 128) :
    (s.stageRoute i e).nextRoute = s.nextRoute.set i e ∧ (s.stageRoute i e).epoch.cur = s.epoch.cur := by
  cases h : s.epoch.dirty.route <;>
    simp only [State.stageRoute, State.openRoute, State.modShadow, State.nextRoute, h, if_true, if_false,
      Bool.false_eq_true, and_self]

theorem stageSpread_next (s : State) (i : Nat) (w : List Nat) :
    (s.stageSpread i w).nextSpread = s.nextSpread.set i w ∧ (s.stageSpread i w).epoch.cur = s.epoch.cur := by
  cases h : s.epoch.dirty.spread <;>
    simp only [State.stageSpread, State.openSpread, State.modShadow, State.nextSpread, h, if_true, if_false,
      Bool.false_eq_true, and_self]

theorem stageGrants_next (s : State) (p : Nat) (l : List Grant) :
    (s.stageGrants p l).nextGrants = s.nextGrants.set p l ∧ (s.stageGrants p l).epoch.cur = s.epoch.cur := by
  cases h : s.epoch.dirty.grants <;>
    simp only [State.stageGrants, State.openGrants, State.modShadow, State.nextGrants, h, if_true, if_false,
      Bool.false_eq_true, and_self]

theorem stageVariant_next (s : State) (p : Nat) (v : BitVec 7) :
    (s.stageVariant p v).nextVariants = s.nextVariants.set p v ∧ (s.stageVariant p v).epoch.cur = s.epoch.cur := by
  cases h : s.epoch.dirty.variant <;>
    simp only [State.stageVariant, State.openVariant, State.modShadow, State.nextVariants, h, if_true, if_false,
      Bool.false_eq_true, and_self]

theorem gateGrants_stages {p : Nat} {l : List Grant} (hl : s.grantsLegal p l s.nextGrants = true) (hp : s.nextPlan p = none) :
    s.gateGrants p l = .ok (s.stageGrants p l) := by
  rw [State.gateGrants, hl, hp]
  rfl

/-! ### Arming (R453) -/

/-- The epoch tables armed for a tick, with what the twin has heard and staged for them gone. -/
def State.armedFor (s : State) (t : Word) : State :=
  { s with
    epoch := { s.epoch with armed := some t }
    twin := { s.twin with unheardSinceArm := false, detachNamed := none, attachNamed := none } }

theorem gateArm_arms {t : Word} (k : BitVec 25) (ht : s.rooster.tickNo.toNat + 8 ≤ t.toNat) (hbad : s.shadowBad = none) :
    s.gateArm t false k = .ok (s.armedFor t) := by
  rw [State.gateArm, if_neg Bool.false_ne_true, need_of (decide_eq_true ht), hbad]
  rfl

theorem gateArm_late {t : Word} (k : BitVec 25) (ht : t.toNat < s.rooster.tickNo.toNat + 8) :
    s.gateArm t false k = .error (14, 0) := by
  rw [State.gateArm, if_neg Bool.false_ne_true, need_not (decide_eq_false (Nat.not_le.mpr ht))]
  rfl

/-! ### Contexts (R336, R337, R340) -/

theorem mem_of_lowestFree_none {used : List Nat} {i n : Nat} (h : lowestFree used i n = none) :
    ∀ j, i ≤ j → j < i + n → j ∈ used := by
  induction n generalizing i with
  | zero => omega
  | succ n ih =>
    unfold lowestFree at h
    split at h
    next hi =>
      intro j hj hn
      by_cases hji : j = i
      · exact hji ▸ hi
      · exact ih h j (by omega) (by omega)
    next => cases h

/-- Fewer used numbers than candidates leave one free. -/
theorem exists_lowestFree {used : List Nat} {n : Nat} (i : Nat) (h : used.length < n) :
    ∃ k, lowestFree used i n = some k := by
  cases hk : lowestFree used i n with
  | some k => exact ⟨k, rfl⟩
  | none =>
    have hsub : List.range' i n ⊆ used := fun j hj => by
      obtain ⟨hi, hn⟩ := List.mem_range'_1.mp hj
      exact mem_of_lowestFree_none hk j hi hn
    have hle := (List.nodup_range' 1 Nat.one_pos).length_le_of_subset hsub
    rw [List.length_range'] at hle
    omega

/-- A new context has the lowest free doorbell slot of its partition, and its counters start at 0. -/
theorem gateCtxCreate_creates {p c : Nat} (hc : s.ctx? c = none)
    (hroom : (s.ctxs.filter (fun e => e.2.part = p)).length < 32) :
    ∃ w, w < 32 ∧ s.gateCtxCreate p c = .ok ((s.setCtx c { part := p, wslot := w }).clearCtrs (ctxCtr c 0) 10) := by
  obtain ⟨w, hw⟩ := exists_lowestFree 0 (n := 32)
    (used := (s.ctxs.filter (fun e => e.2.part = p)).map (fun e => e.2.wslot)) (by rwa [List.length_map])
  obtain ⟨-, hlt, -⟩ := lowestFree_spec hw
  refine ⟨w, by omega, ?_⟩
  rw [State.gateCtxCreate, hc]
  simp only [Option.isSome_none, Bool.false_eq_true, if_false, hw]

theorem gateCtxCreate_taken {p c : Nat} {x : Ctx} (hc : s.ctx? c = some x) : s.gateCtxCreate p c = .error (10, 0) := by
  rw [State.gateCtxCreate, hc]
  rfl

theorem gateCtxDestroy_marks {p c : Nat} {x : Ctx} (hc : s.ctxOf p c = some x) (hh : s.isHome p c = false) :
    s.gateCtxDestroy p c = .ok (s.setCtx c { x with destroying := true }) := by
  rw [State.gateCtxDestroy, hc]
  exact need_of (by rw [hh]; rfl)

/-! ### Keys (R381, R390) -/

theorem extend1_keys (s : State) (kind subject svn : Nat) (d : BitVec 384) :
    (s.extend1 kind subject svn d).fw.keys = s.fw.keys := by
  unfold State.extend1 State.measure
  dsimp only
  split <;> rfl

/-- With a key enrolled, an enrolled key signs for a new one. -/
theorem gateEnroll_eq {k g : List Byte} (hne : s.fw.keys ≠ []) :
    s.gateEnroll k g = need (s.fw.keys.any (fun x => Config.ecdsaVerify x k g) && s.fw.keys.length < 8) gsBadKey
      (.ok ((s.setKeys (s.fw.keys ++ [k])).extend1 5 0 0 (Config.sha384 k))) := by
  simp only [State.gateEnroll, List.isEmpty_iff, hne, if_false]

/-- Settles O40, call by call. -/
theorem servedCallsTakeEffect : Obligations.ServedCallsTakeEffect := by
  intro s slot
  refine ⟨fun n => ⟨fun hn => ⟨s.stageSlots n, need_of (tickLegal_iff.mpr hn), rfl, rfl, rfl, rfl⟩,
      fun hn => need_not (by rwa [← Bool.not_eq_true, tickLegal_iff])⟩,
    fun i e he => ⟨_, need_of he, stageRoute_next s i e⟩, fun i e he => need_not he,
    fun i w => ⟨_, rfl, stageSpread_next s i w⟩, fun p v hv => ⟨_, if_pos hv, stageVariant_next s p v⟩,
    fun p l hl hp => ⟨_, gateGrants_stages hl hp, stageGrants_next s p l⟩, fun p m => ⟨_, rfl, rfl, rfl⟩,
    fun t k ht hbad => ⟨_, gateArm_arms k ht hbad, rfl⟩, fun t k ht => gateArm_late k ht, fun p c hc hroom => ?_,
    fun p c x hc => gateCtxCreate_taken hc, fun p c x hc hh => gateCtxDestroy_marks hc hh, fun g r => rfl,
    fun l hl => need_of (decide_eq_true hl), rfl, fun hle h64 => ?_, fun hlt => ?_, fun k g hlen hne => ?_,
    fun k g hlen => ?_, fun k g hk => ?_⟩
  · obtain ⟨w, hw, hcall⟩ := gateCtxCreate_creates hc hroom
    refine ⟨_, w, hcall, ctx_setCtx_self .., hw, fun d x hd hx => ?_, ?_⟩
    · exact (ctx_setCtx_ne s _ hd).trans hx
    · rw [ctr_clearCtrs, if_pos (by omega)]
  · exact need_of (by rw [decide_eq_true hle, decide_eq_true h64]; rfl)
  · exact need_not (by rw [decide_eq_false (Nat.not_le.mpr hlt)]; rfl)
  · have hcall : s.serveReq slot (.enrollKey k g) = _ := gateEnroll_eq hne
    rw [hcall]
    split
    next h => exact ⟨_, need_of (by rw [h, decide_eq_true hlen]; rfl), extend1_keys ..⟩
    next h => exact need_not (by rw [eq_false_of_ne_true h]; rfl)
  · exact need_not (by rw [hlen]; exact Bool.and_false _)
  · exact need_not (by simp only [List.contains_eq_mem, hk, decide_false, Bool.false_and])

end Sys2Proof.Machine
end

section
/-! SUPPORT. A retired SEND that names a port which the part has not: the LATE_TX count of its discarded frame falls on a
counter of a partition, so that a fault of that thread counts twice in PLAN_FAULT. -/

namespace Sys2Proof.Machine

/-- A store whose pointer faulted, the oldest record of its thread. -/
def faultedStore : Rec := { id := 1, pc := 7, op := .store none [] }

/-- A retired SEND of one depot frame to port 8192. -/
def straySend : SendJob := { id := 0, pc := 0, op := .send 8192 0 1 true 0 0 0 0 (some 0) 64 true true 0, tick := 0 }

/-- Thread 0 runs; its faulted store is the only record, and the frame of its stray SEND, whose rank has an address, is
unread. -/
def strandedSend : State :=
  { State.reset with
    epoch := { cur := { remap := [(0, 5)] } }
    threads := [(0, { st := .running, recs := [faultedStore], sends := [straySend] })] }

/-- The fault counts once as such, and once as a frame sent late: `portCtr 8192 pkLateTx` is `partCtr 0 rkPlanFault`. -/
theorem strandedSend_counts : (strandedSend.faultRec 0 faultedStore 4).ctr (partCtr 0 rkPlanFault) = 2 := by
  decide +kernel

/-- Refutes O25: in the clause about a faulted store the thread's retired SENDs are open, and one that names port 8192 counts
its discarded frame in PLAN_FAULT too. No SEND that issues names such a port, but the clause does not ask for that. -/
theorem not_recordsComplete : ¬ Obligations.RecordsComplete := by
  rintro ⟨-, -, -, hfault, -⟩
  obtain ⟨t, ht, -, -, -, -, -, -, -, -, hctr, -⟩ :=
    hfault strandedSend 0 faultedStore [] [] (by decide) rfl rfl rfl rfl
  obtain rfl : strandedSend.faultRec 0 faultedStore 4 = t := Host.Outcome.next.inj ht
  rw [strandedSend_counts] at hctr
  exact absurd hctr (by decide)

end Sys2Proof.Machine
end

section
/-! SUPPORT. Guand words (R259, Tables 10.1-10.14): every field of a word is where its table puts it, so that the fields of
an instruction's own words are the instruction; and what is decoded has exactly the words read. -/

namespace Sys2Proof.Machine

open BitVec (extractLsb'_append_eq_of_le extractLsb'_append_eq_of_add_le extractLsb'_eq_self getLsbD_append)

/-! ### Fields laid one after the other -/

theorem getLsbD_append_low {v w k : Nat} (x : BitVec v) (y : BitVec w) (h : k < w) : (x ++ y).getLsbD k = y.getLsbD k :=
  getLsbD_append.trans (if_pos h)

theorem getLsbD_append_high {v w k : Nat} (x : BitVec v) (y : BitVec w) (h : w ≤ k) :
    (x ++ y).getLsbD k = x.getLsbD (k - w) :=
  getLsbD_append.trans (if_neg (Nat.not_lt.mpr h))

theorem getLsbD_ofBool_zero (b : Bool) : (BitVec.ofBool b).getLsbD 0 = b := by cases b <;> rfl

/-! ### The common fields of a first word (Table 10.1) -/

section
variable (op : BitVec 8) (h : GHead) (f : BitVec 38)

theorem gword_opcode : (gword op h f).extractLsb' 56 8 = op := by
  unfold gword
  simp (disch := decide) only [extractLsb'_append_eq_of_le, extractLsb'_eq_self, Nat.reduceSub]

theorem gword_head :
    (⟨(gword op h f).extractLsb' 42 14, (gword op h f).extractLsb' 39 3, (gword op h f).getLsbD 38⟩ : GHead) = h := by
  unfold gword
  simp (disch := decide) only [extractLsb'_append_eq_of_le, extractLsb'_append_eq_of_add_le, extractLsb'_eq_self,
    getLsbD_append_low, getLsbD_append_high, getLsbD_ofBool_zero, Nat.reduceSub]

theorem gword_field {lo n : Nat} (hn : lo + n ≤ 38) : (gword op h f).extractLsb' lo n = f.extractLsb' lo n :=
  extractLsb'_append_eq_of_add_le hn

theorem gword_bit {k : Nat} (hk : k < 38) : (gword op h f).getLsbD k = f.getLsbD k :=
  getLsbD_append_low _ f hk

end

variable {i : Instr} {p : Nat} {w x : Word} {e : Option Word}

/-- The fields of an instruction's own words are the instruction. -/
theorem guandFields_encode (hp : guandOf i = some p) (he : guandEncode i = some (w, e))
    (hc : ∀ q h pd cond ra imm rb imm26, i = .cmp q h pd cond ra imm rb imm26 →
      (imm = true → rb = 0) ∧ (imm = false → imm26 = 0)) : guandFields p w (e.getD x) = some i := by
  cases i with
  | cmp q h pd cond ra imm rb imm26 =>
    obtain ⟨hreg, himm⟩ := hc q h pd cond ra imm rb imm26 rfl
    cases hp
    cases he
    cases imm <;>
      simp (disch := decide) only [guandFields, gword_opcode, gword_head, gword_field, gword_bit, hreg, himm,
        extractLsb'_append_eq_of_le, extractLsb'_append_eq_of_add_le, extractLsb'_eq_self, getLsbD_append_low,
        getLsbD_append_high, getLsbD_ofBool_zero, Nat.sub_add_eq, Nat.reduceSub, BitVec.reduceToNat, Bool.false_eq_true,
        if_true, if_false]
  | nop | br | loop | lend | tickwait | plog | rdt | add | sub | mul | divs | divu | neg | abs | and | or | xor | shl | shr
  | sra | adds | subs | muls | adduS | subuS | addi | movi | ori | ld | st | aadd | aswp | acas | acas2 | fenceDepot
  | fenceTick | recv | send | expect | lclr | tld | tacc | emit | tst | post =>
    cases hp
    cases he
    simp (disch := decide) only [guandFields, gword_opcode, gword_head, gword_field, gword_bit, fmtR, fmtI, fmtLd, fmtA,
      fmtC, Option.getD_some, extractLsb'_append_eq_of_le, extractLsb'_append_eq_of_add_le, extractLsb'_eq_self,
      getLsbD_append_low, getLsbD_append_high, getLsbD_ofBool_zero, Nat.reduceSub, BitVec.reduceToNat,
      BitVec.reduceGetLsb, Bool.false_eq_true, if_true, if_false]
  | _ => cases hp

theorem wordsMatch_iff {o : Option (Word × Option Word)} :
    wordsMatch w x o = true ↔ o = some (w, none) ∨ o = some (w, some x) := by
  obtain _ | ⟨a, _ | b⟩ := o <;> simp [wordsMatch]

theorem wordsMatch_own : wordsMatch w (e.getD x) (some (w, e)) = true := by
  rw [wordsMatch_iff]
  cases e with
  | none => exact .inl rfl
  | some b => exact .inr rfl

theorem guandDecode_eq_some_iff :
    guandDecode p w x = some i ↔ guandFields p w x = some i ∧ wordsMatch w x (guandEncode i) = true := by
  unfold guandDecode
  cases guandFields p w x with
  | none => simp
  | some j =>
    simp only [Option.ite_none_right_eq_some, Option.some.injEq, and_comm]
    exact and_congr_right fun h => by rw [h]

/-- An instruction of two words has an extension. -/
theorem guandEncode_ne_of_len (h : guandLen i = 2) : guandEncode i ≠ some (w, none) := by
  cases i with
  | send | expect | emit => simp [guandEncode]
  | _ => cases h

/-- Settles O56: the words of an instruction give back its fields, and only its own words are decoded. -/
theorem guandDecodesItsWords : Obligations.GuandDecodesItsWords := by
  refine ⟨fun i p w x e hp he hx hc => ?_, fun p w x i hd => ?_⟩
  · have hext : e.getD x = x := by
      cases e with
      | none => rfl
      | some b => exact (hx b rfl).symm
    rw [guandDecode_eq_some_iff, he, ← hext]
    exact ⟨guandFields_encode hp he hc, wordsMatch_own⟩
  · have henc := wordsMatch_iff.mp (guandDecode_eq_some_iff.mp hd).2
    exact ⟨guandOf_of_decode hd, henc, fun hlen => henc.resolve_left (guandEncode_ne_of_len hlen)⟩

/-- Settles O55, word by word. -/
theorem guandWordsDecode : Obligations.GuandWordsDecode := by
  refine ⟨?_, ?_, ?_, ?_, ?_, ?_, ?_, ?_, ?_, ?_, ?_, ?_, fun p x => rfl⟩ <;> decide +kernel

end Sys2Proof.Machine
end

section
/-! SUPPORT. The saturating and dividing instructions of Table 10.6 at issue (R249, R267): the value and the flags of each. -/

namespace Sys2Proof.Machine

variable {s : State} {p : Nat}

/-! ### Saturation (R249) -/

/-- A clamped signed result is the nearest value of 64 bits, with SAT where that is another. -/
theorem clampSat_spec (v : Int) :
    (clampSat v).1.toInt = max (-(2 ^ 63)) (min (2 ^ 63 - 1) v) ∧
      (clampSat v).2 = if (clampSat v).1.toInt = v then 0 else sfSAT := by
  have hmin : wordMin.toInt = -(2 ^ 63) := by decide
  have hmax : wordMax.toInt = 2 ^ 63 - 1 := by decide
  unfold clampSat
  split
  next hlo => exact ⟨by dsimp only; omega, (if_neg (by dsimp only; omega)).symm⟩
  next hlo =>
    split
    next hhi => exact ⟨by dsimp only; omega, (if_neg (by dsimp only; omega)).symm⟩
    next hhi =>
      have hv : (BitVec.ofInt 64 v).toInt = v := BitVec.toInt_ofInt_eq_self (by decide) (by omega) (by omega)
      exact ⟨by dsimp only; omega, (if_pos hv).symm⟩

/-- A clamped unsigned result that is not negative. -/
theorem clampSatU_natCast (n : Nat) :
    (clampSatU n).1.toNat = min (2 ^ 64 - 1) n ∧ (clampSatU n).2 = if (clampSatU n).1.toNat = n then 0 else sfSAT := by
  have hmax : (BitVec.allOnes 64).toNat = 2 ^ 64 - 1 := rfl
  unfold clampSatU
  rw [if_neg (by omega)]
  split
  next hhi => exact ⟨by dsimp only; omega, (if_neg (by dsimp only; omega)).symm⟩
  next hhi =>
    have hv : (BitVec.ofInt 64 n).toNat = n := by
      rw [BitVec.ofInt_natCast, BitVec.toNat_ofNat]
      omega
    exact ⟨by dsimp only; omega, (if_pos hv).symm⟩

theorem subusOp_spec (a b : Word) :
    (subusOp a b).1.toNat = a.toNat - b.toNat ∧ (subusOp a b).2 = if b.toNat ≤ a.toNat then 0 else sfSAT := by
  unfold subusOp
  by_cases h : b.toNat ≤ a.toNat
  · rw [← Int.ofNat_sub h, if_pos h]
    obtain ⟨hv, hf⟩ := clampSatU_natCast (a.toNat - b.toNat)
    have hfit : (clampSatU ↑(a.toNat - b.toNat)).1.toNat = a.toNat - b.toNat := by omega
    exact ⟨hfit, hf.trans (if_pos hfit)⟩
  · rw [clampSatU, if_pos (by omega), if_neg h]
    exact ⟨(Nat.sub_eq_zero_of_le (by omega)).symm, rfl⟩

/-! ### Division (R249, R267) -/

theorem divsOp_zero (a : Word) : divsOp a 0 = (0, a, sfDZ) := if_pos rfl

theorem divsOp_eq (a : Word) {b : Word} (hb : b ≠ 0) :
    divsOp a b = (a.sdiv b, a.srem b, if (a.sdiv b).toInt = a.toInt.tdiv b.toInt then 0 else sfOVF) := by
  have hq : BitVec.ofInt 64 (a.toInt.tdiv b.toInt) = a.sdiv b :=
    BitVec.eq_of_toInt_eq (by rw [BitVec.toInt_ofInt, BitVec.toInt_sdiv])
  have hr : BitVec.ofInt 64 (a.toInt.tmod b.toInt) = a.srem b := by rw [← BitVec.toInt_srem, BitVec.ofInt_toInt]
  rw [divsOp, if_neg hb, wrapOvf_of hq, hr]

/-- The one overflow of a signed divide. -/
theorem divsOp_overflow : divsOp wordMin (-1) = (wordMin, 0, sfOVF) := by decide

theorem divsOp_exact {a b : Word} (hb : b ≠ 0) (h : a ≠ wordMin ∨ b.toInt ≠ -1) :
    divsOp a b = (a.sdiv b, a.srem b, 0) ∧ (a.sdiv b).toInt = a.toInt.tdiv b.toInt := by
  have hq := BitVec.toInt_sdiv_of_ne_or_ne a b (h.imp_right (mt (congrArg BitVec.toInt)))
  exact ⟨by rw [divsOp_eq a hb, if_pos hq], hq⟩

theorem divuOp_zero (a : Word) : divuOp a 0 = (0, a, sfDZ) := if_pos rfl

theorem divuOp_eq (a : Word) {b : Word} (hb : b ≠ 0) : divuOp a b = (a / b, a % b, 0) := if_neg hb

/-! ### The instructions (Table 10.6) -/

/-- A divide, by what its operation gives: RE is written after RD. -/
theorem divide_acts {i : Instr} {rd ra rb re : BitVec 5} (f : Word → Word → Word × Word × BitVec 3) (h : s.issues p i) :
    s.divide p i rd ra rb re f = .next (s.setThread p
      ((((s.movedOn p i).setReg rd.toNat (f (s.sreg p ra) (s.sreg p rb)).1).setReg re.toNat
        (f (s.sreg p ra) (s.sreg p rb)).2.1).orFlags (f (s.sreg p ra) (s.sreg p rb)).2.2)) := by
  rw [State.divide, issueT_acts _ h]
  rfl

/-- Settles O19, instruction by instruction. -/
theorem scalarSaturatesAndDivides : Obligations.ScalarSaturatesAndDivides := by
  intro s p h rd ra rb re
  refine ⟨fun hi => ?_, fun hi => ?_, fun hi => ?_, fun hi => ?_, fun hi => ?_, fun hi => ?_, fun hi => ?_⟩
  · obtain ⟨hv, hf⟩ := clampSat_spec ((s.sreg p ra).toInt + (s.sreg p rb).toInt)
    exact ⟨_, hv, scalarR_gives (f := addsOp) hi (Prod.ext rfl hf)⟩
  · obtain ⟨hv, hf⟩ := clampSat_spec ((s.sreg p ra).toInt - (s.sreg p rb).toInt)
    exact ⟨_, hv, scalarR_gives (f := subsOp) hi (Prod.ext rfl hf)⟩
  · obtain ⟨hv, hf⟩ := clampSat_spec ((s.sreg p ra).toInt * (s.sreg p rb).toInt)
    exact ⟨_, hv, scalarR_gives (f := mulsOp) hi (Prod.ext rfl hf)⟩
  · obtain ⟨hv, hf⟩ := clampSatU_natCast ((s.sreg p ra).toNat + (s.sreg p rb).toNat)
    exact ⟨_, hv, scalarR_gives (f := addusOp) hi (Prod.ext rfl hf)⟩
  · obtain ⟨hv, hf⟩ := subusOp_spec (s.sreg p ra) (s.sreg p rb)
    exact ⟨_, hv, scalarR_gives (f := subusOp) hi (Prod.ext rfl hf)⟩
  · refine ⟨_, _, _, fun hb => ?_, fun hb ha hm => ?_, fun hb hx => ?_, divide_acts divsOp hi⟩
    · rw [hb, divsOp_zero]
      exact ⟨rfl, rfl, rfl⟩
    · obtain hm1 : s.sreg p rb = -1 := BitVec.eq_of_toInt_eq hm
      rw [ha, hm1, divsOp_overflow]
      exact ⟨rfl, rfl, rfl⟩
    · obtain ⟨heq, hq⟩ := divsOp_exact hb hx
      rw [heq]
      exact ⟨hq, BitVec.toInt_srem .., rfl⟩
  · refine ⟨_, _, _, fun hb => ?_, fun hb => ?_, divide_acts divuOp hi⟩
    · rw [hb, divuOp_zero]
      exact ⟨rfl, rfl, rfl⟩
    · rw [divuOp_eq _ hb]
      exact ⟨BitVec.toNat_udiv, BitVec.toNat_umod, rfl⟩

end Sys2Proof.Machine
end

section
/-! SUPPORT. Depot instructions at issue and the retire of fences and atomics (Table 10.8, R268-R271, R317, R321): the
record that each takes, what a fence holds back, and what enters the write buffer. -/

namespace Sys2Proof.Machine

variable {s : State} {p : Nat} {i : Instr} {h : GHead}

theorem thread_count (s : State) (i n q : Nat) : (s.count i n).thread q = s.thread q :=
  congrArg (fun t : Tbl Thread => t.getD q {}) (count_threads s i n)

/-! ### Reading a depot without errors (R311, R312) -/

theorem count_zero (s : State) (i : Nat) : s.count i 0 = s := if_pos rfl

theorem eccCorrect_clean (hsoft : s.depot.soft = []) (a n : Nat) : s.eccCorrect a n = s := by
  have hs : { s with depot := { s.depot with soft := [] } } = s := by rw [← hsoft]
  simp only [State.eccCorrect, hsoft, List.filter_nil, List.length_nil, count_zero, hs]

/-- A read of a depot without errors gives its bytes and changes nothing. -/
theorem depotRead_clean (hbad : s.depot.bad = []) (hsoft : s.depot.soft = []) (a n : Nat) :
    s.depotRead a n = (true, memRead s.depot.mem a n, s) := by
  simp only [State.depotRead, eccCorrect_clean hsoft, hbad, List.filter_nil, List.length_nil, count_zero, List.isEmpty_nil]

/-! ### Loads with nothing older (R269, R271, R317) -/

theorem forward_none {t : Thread} (hrecs : t.recs = []) (hwb : t.wb = []) (id a : Nat) (b : Byte) : t.forward id a b = b := by
  simp only [Thread.forward, hrecs, hwb, List.filter_nil, List.foldl_nil]

theorem loadBefore_none {t : Thread} (hrecs : t.recs = []) (id : Nat) : t.loadBefore id = false := by
  simp only [Thread.loadBefore, hrecs, List.any_nil]

theorem bindLoad_clean (hbad : s.depot.bad = []) (hsoft : s.depot.soft = []) (hrecs : (s.thread p).recs = [])
    (hwb : (s.thread p).wb = []) (id a n : Nat) (sx : Bool) :
    s.bindLoad p id (some a) n sx =
      ((if sx then BitVec.ofInt 64 (signed (8 * n) (leNat (memRead s.depot.mem a n)))
        else BitVec.ofNat 64 (leNat (memRead s.depot.mem a n)), 0), s) := by
  simp only [State.bindLoad, depotRead_clean hbad hsoft, forward_none hrecs hwb, List.zipIdx_map_fst, if_true]

theorem ld_acts {rd ra : BitVec 5} {sz : BitVec 2} {sx : Bool} {off : BitVec 25} {a : Nat}
    (hi : s.issues p (.ld p h rd ra sz sx off)) (hf : (s.thread p).fenced = false) (hd : s.depot.draining = false)
    (ha : s.ptrAddr p (s.sreg p ra) off.toInt (2 ^ sz.toNat) = some a)
    (hat : (s.thread p).atomicOver a (2 ^ sz.toNat) = false) (hbad : s.depot.bad = []) (hsoft : s.depot.soft = [])
    (hrecs : (s.thread p).recs = []) (hwb : (s.thread p).wb = []) :
    exec (.ld p h rd ra sz sx off) s = .next (s.recorded p (.ld p h rd ra sz sx off)
      (.ld rd.toNat (some a) (2 ^ sz.toNat) sx (some
        (if sx then BitVec.ofInt 64 (signed (8 * 2 ^ sz.toNat) (leNat (memRead s.depot.mem a (2 ^ sz.toNat))))
         else BitVec.ofNat 64 (leNat (memRead s.depot.mem a (2 ^ sz.toNat))), 0))) [rd.toNat]) := by
  have ha' : s.ptrAddr p ((s.thread p).reg ra.toNat) off.toInt (2 ^ sz.toNat) = some a := ha
  have hbefore (id : Nat) : (s.movedOn p (.ld p h rd ra sz sx off)).loadBefore id = false := loadBefore_none hrecs id
  show execLd p h rd ra sz sx off s = _
  simp only [execLd, issue_acts _ _ hi, movedOn_reg, hf, hat, ha', hd, hbefore, bindLoad_clean hbad hsoft hrecs hwb]
  rfl

/-! ### Fences (R321) -/

/-- An instruction that is held back at issue does nothing. -/
theorem issue_held {ok : Thread → Bool} {act : State → Thread → State} (hi : s.issues p i) (hok : ok (s.thread p) = false) :
    s.issue p i ok act = .next s := by
  rw [issue_acts _ _ hi, hok]
  rfl

theorem fenced_of_mem {t : Thread} {x : Rec} {tick : Bool} {waits : List (Nat × Nat)} (hx : x ∈ t.recs)
    (hop : x.op = .fence tick waits) : t.fenced = true :=
  List.any_eq_true.mpr ⟨x, hx, by rw [hop]⟩

theorem atomicIssue_held {ra : BitVec 5} {off : Int} {n rd : Nat} {awaited : List Nat} {op : Thread → StoreOp}
    (hi : s.issues p i) (hf : (s.thread p).fenced = true) : s.atomicIssue p i ra off n rd awaited op = .next s :=
  issue_held hi (congrArg (!·) hf)

theorem retire_depotFence {r : Rec} {l : List Rec} (hp : p < 128) (hr : (s.thread p).recs = r :: l)
    (hop : r.op = .fence false []) :
    exec (.retire p) s = .next (if (s.thread p).wb = [] then s.setThread p { s.thread p with recs := l } else s) := by
  show execRetire p s = _
  simp only [execRetire, withPart_lt _ hp, hr, List.head?_cons, hop, State.muleDrained, List.all_nil, Bool.and_true,
    List.isEmpty_iff, State.popRec, State.modThread, List.tail_cons]

/-- Settles O22, instruction by instruction. -/
theorem depotInstructionsIssue : Obligations.DepotInstructionsIssue := by
  refine ⟨fun s p a h rd ra sz sx off hi hf hd ha hat hbad hsoft hrecs hwb =>
      ld_acts hi hf hd ha hat hbad hsoft hrecs hwb,
    fun s p h rs ra sz off hi hf => ?_, fun s p h hi => ?_, fun s p h hi => ?_,
    fun s p r l hp hr hop => ⟨fun hwb => ?_, fun hwb => ?_⟩,
    fun s p i x h rd ra rb re sz sx o25 o23 o18 eng fmt t rows tw tr tc hi hx hop hcases => ?_⟩
  · show execSt p h rs ra sz off s = _
    rw [execSt, issue_acts _ _ hi, hf]
    rfl
  · show execFenceDepot p h s = _
    exact issueT_records hi rfl
  · show execFenceTick p h s = _
    exact issueT_records hi rfl
  · rw [retire_depotFence hp hr hop, if_pos hwb]
  · rw [retire_depotFence hp hr hop, if_neg hwb]
  · have hf := fenced_of_mem hx hop
    obtain rfl | rfl | rfl | rfl | rfl | rfl | rfl | rfl := hcases
    · show execLd p h rd ra sz sx o25 s = _
      rw [execLd]
      exact issue_held hi (by rw [hf]; rfl)
    · show execSt p h rd ra sz o25 s = _
      rw [execSt]
      exact issue_held hi (by rw [hf]; rfl)
    · show execAadd p h rd ra rb o23 s = _
      exact atomicIssue_held hi hf
    · show execAswp p h rd ra rb o23 s = _
      exact atomicIssue_held hi hf
    · show execAcas p h rd ra rb re o18 s = _
      exact atomicIssue_held hi hf
    · show execAcas2 p h rd ra rb re o18 s = _
      exact atomicIssue_held hi hf
    · show execTld p h eng t fmt true ra rows tr tc s = _
      rw [execTld]
      exact issue_held hi (by rw [hf]; rfl)
    · show execTst p h eng t ra rows tw tr tc s = _
      rw [execTst]
      exact issue_held hi (by rw [hf]; rfl)

/-! ### Atomics (R270) -/

/-- An atomic at issue: its address rounded down to its size, which the segment check acts on. -/
theorem atomicIssue_acts {ra : BitVec 5} {off : Int} {n rd c g o : Nat} {awaited : List Nat} {op : Thread → StoreOp}
    (hi : s.issues p i) (hf : (s.thread p).fenced = false) (ho : ptrPlus (s.sreg p ra) off = some (c, g, o))
    (hlen : guandLen i = 1) :
    s.atomicIssue p i ra off n rd awaited op = .next (s.recorded p i
      (.atomic (s.segAddr p c g (o / n * n) n) n (decide (o % n ≠ 0)) (op (s.movedOn p i)) rd) awaited) := by
  have ho' : ptrPlus ((s.thread p).reg ra.toNat) off = some (c, g, o) := ho
  have hround : o - o % n = o / n * n := by
    have := Nat.div_add_mod' o n
    omega
  simp only [State.atomicIssue, issue_acts _ _ hi, hf, movedOn_reg, ho', hround, State.recorded, hlen]
  rfl

theorem retire_atomic {r : Rec} {l : List Rec} {a n rd : Nat} {mis : Bool} {op : StoreOp} (hp : p < 128)
    (hr : (s.thread p).recs = r :: l) (hop : r.op = .atomic (some a) n mis op rd) (hroom : (s.thread p).wb.length < 16) :
    exec (.retire p) s = .next (((s.popRec p).modThread p (fun t =>
      t.buffer { id := r.id, pc := r.pc, addr := a, op := op, rd := some rd })).count
        (partCtr p rkMisalign) (if mis then 1 else 0)) := by
  show execRetire p s = _
  simp only [execRetire, withPart_lt _ hp, hr, List.head?_cons, hop, hroom, decide_true, if_true]
  cases mis with
  | true => rfl
  | false => rfl

/-- Settles O23: every atomic issues by the shared rule. -/
theorem atomicsAreRoundedDown : Obligations.AtomicsAreRoundedDown := by
  refine ⟨fun s p c g o h rd ra rb off hi hf ho => ?_, fun s p c g o h rd ra rb off hi hf ho => ?_,
    fun s p c g o h rd ra rb re off hi hf ho => ?_, fun s p c g o h rd ra rb re off hi hf ho => ?_,
    fun s p a n rd mis op r l hp hr hop hroom => .of_next (retire_atomic hp hr hop hroom) ?_⟩
  · show execAadd p h rd ra rb off s = _
    exact atomicIssue_acts hi hf ho rfl
  · show execAswp p h rd ra rb off s = _
    exact atomicIssue_acts hi hf ho rfl
  · show execAcas p h rd ra rb re off s = _
    exact atomicIssue_acts hi hf ho rfl
  · show execAcas2 p h rd ra rb re off s = _
    exact atomicIssue_acts hi hf ho rfl
  · simp only [State.popRec, modThread_eq, Thread.buffer, thread_count, thread_setThread_self, hr, List.tail_cons,
      count_depot, setThread_depot, true_and]
    refine ⟨?_, fun q hq => by rw [thread_setThread_ne _ _ hq, thread_setThread_ne _ _ hq]⟩
    cases mis with
    | true => rw [if_pos rfl, ctr_count_one]; rfl
    | false => rw [if_neg Bool.false_ne_true, count_zero]; rfl

end Sys2Proof.Machine
end

section
/-! SUPPORT. Write buffers (R319, R322, R325, R326, R328): what a store or an atomic at the head of a thread's buffer leaves of
a depot without unreadable units, piece by piece, and that delivering posts touches neither depot nor ports. -/

namespace Sys2Proof.Machine

variable {s t : State} {p : Nat}

/-! ### Posts leave the depot, the ports and the threads (R286, R287) -/

theorem deliverPost_keeps (s : State) (p : Nat) (j : PostJob) :
    (s.deliverPost p j).threads = s.threads ∧ (s.deliverPost p j).depot = s.depot ∧ (s.deliverPost p j).ports = s.ports := by
  unfold State.deliverPost
  repeat' split
  all_goals simp

theorem deliverPosts_keep (p : Nat) (l : List PostJob) (s : State) :
    (l.foldl (fun a j => a.deliverPost p j) s).threads = s.threads ∧
      (l.foldl (fun a j => a.deliverPost p j) s).depot = s.depot ∧
      (l.foldl (fun a j => a.deliverPost p j) s).ports = s.ports := by
  induction l generalizing s with
  | nil => exact ⟨rfl, rfl, rfl⟩
  | cons j l ih =>
    obtain ⟨ht, hd, hp⟩ := ih (s.deliverPost p j)
    obtain ⟨ht', hd', hp'⟩ := deliverPost_keeps s p j
    exact ⟨ht.trans ht', hd.trans hd', hp.trans hp'⟩

theorem thread_congr (h : t.threads = s.threads) (q : Nat) : t.thread q = s.thread q := by simp only [State.thread, h]

/-- Delivering a thread's posts takes them off its list; the depot, the ports and all else of the threads stay. -/
theorem flushPosts_keeps (s : State) (p : Nat) :
    (∃ l, (s.flushPosts p).thread p = { s.thread p with posts := l }) ∧
      (∀ q, q ≠ p → (s.flushPosts p).thread q = s.thread q) ∧ (s.flushPosts p).depot = s.depot ∧
      (s.flushPosts p).ports = s.ports := by
  obtain ⟨ht, hd, hp⟩ := deliverPosts_keep p
    ((s.thread p).posts.filter (fun j => !(s.thread p).wb.any (fun e => e.id < j.after)))
    (s.setThread p { s.thread p with
      posts := (s.thread p).posts.filter (fun j => (s.thread p).wb.any (fun e => e.id < j.after)) })
  exact ⟨⟨_, (thread_congr ht p).trans (thread_setThread_self ..)⟩,
    fun q hq => (thread_congr ht q).trans (thread_setThread_ne _ _ hq), hd, hp⟩

/-! ### Pieces of a store (R312, R325, R326) -/

/-- State `t` is state `s` with the bytes `m` in its depot, as far as the threads, the ports and the unreadable units tell. -/
structure DepotHolds (s t : State) (m : List Host.Cell) : Prop where
  mem : t.depot.mem = m
  bad : t.depot.bad = []
  threads : t.threads = s.threads
  ports : t.ports = s.ports

theorem depotPiece_holds (hbad : s.depot.bad = []) (a : Nat) (d : List Byte) :
    (s.depotPiece a d).1 = true ∧ DepotHolds s (s.depotPiece a d).2 (memWrite s.depot.mem a d) := by
  simp only [State.depotPiece, hbad, List.filter_nil, List.isEmpty_nil, if_true, count_depot, true_and]
  exact ⟨rfl, rfl, count_threads .., count_ports ..⟩

/-- A read of a depot whose units can all be read. -/
theorem depotRead_holds (hbad : s.depot.bad = []) (a n : Nat) :
    (s.depotRead a n).1 = true ∧ (s.depotRead a n).2.1 = memRead s.depot.mem a n ∧
      DepotHolds s (s.depotRead a n).2.2 s.depot.mem := by
  simp only [State.depotRead, State.eccCorrect, hbad, List.filter_nil, List.isEmpty_nil, true_and]
  exact ⟨by simp, by simp, by simp, by simp⟩

/-- The pieces of a store, one after the other, with the number of those not written. -/
def State.depotPieces (s : State) (l : List (Nat × List Byte)) : Nat × State :=
  l.foldl (fun r p => (if (r.2.depotPiece p.1 p.2).1 then r.1 else r.1 + 1, (r.2.depotPiece p.1 p.2).2)) (0, s)

theorem depotStore_eq (s : State) (k a : Nat) (d : List Byte) :
    s.depotStore k a d = s.depotPieces (cutPieces k d.length a d) := rfl

theorem depotPieces_cons (hbad : s.depot.bad = []) (c : Nat × List Byte) (l : List (Nat × List Byte)) :
    s.depotPieces (c :: l) = (s.depotPiece c.1 c.2).2.depotPieces l := by
  simp only [State.depotPieces, List.foldl_cons, (depotPiece_holds hbad c.1 c.2).1, if_true]

theorem depotPieces_holds (hbad : s.depot.bad = []) (l : List (Nat × List Byte)) :
    (s.depotPieces l).1 = 0 ∧
      DepotHolds s (s.depotPieces l).2 (l.foldl (fun m c => memWrite m c.1 c.2) s.depot.mem) := by
  induction l generalizing s with
  | nil => exact ⟨rfl, rfl, hbad, rfl, rfl⟩
  | cons c l ih =>
    obtain ⟨-, hpiece⟩ := depotPiece_holds hbad c.1 c.2
    obtain ⟨hzero, hrest⟩ := ih hpiece.bad
    rw [depotPieces_cons hbad]
    exact ⟨hzero, by rw [hrest.mem, hpiece.mem, List.foldl_cons], hrest.bad, hrest.threads.trans hpiece.threads,
      hrest.ports.trans hpiece.ports⟩

theorem memWrite_append (m : List Host.Cell) (a : Nat) (d d' : List Byte) :
    memWrite m a (d ++ d') = memWrite (memWrite m a d) (a + d.length) d' := by
  induction d generalizing m a with
  | nil => rfl
  | cons b d ih => rw [List.cons_append, memWrite, ih, memWrite, List.length_cons, Nat.add_assoc, Nat.add_comm 1]

/-- Wherever a store is cut, its pieces write its bytes. -/
theorem memWrite_cutPieces {k n : Nat} (hk : 0 < k) (m : List Host.Cell) (a : Nat) {d : List Byte} (hn : d.length ≤ n) :
    (cutPieces k n a d).foldl (fun m c => memWrite m c.1 c.2) m = memWrite m a d := by
  induction n generalizing m a d with
  | zero => rw [List.eq_nil_of_length_eq_zero (Nat.le_zero.mp hn)]; rfl
  | succ n ih =>
    cases d with
    | nil => rfl
    | cons b d =>
      have hw : 0 < k - a % k := Nat.sub_pos_of_lt (Nat.mod_lt a hk)
      have hrest : ((b :: d).drop (k - a % k)).length ≤ n := by rw [List.length_drop]; omega
      simp only [cutPieces, List.foldl_cons, ih _ _ hrest]
      have hcut := memWrite_append m a ((b :: d).take (k - a % k)) ((b :: d).drop (k - a % k))
      rw [List.take_append_drop] at hcut
      rw [hcut]
      obtain hle | hlt := Nat.le_total (b :: d).length (k - a % k)
      · rw [List.drop_eq_nil_of_le hle]
        rfl
      · rw [List.length_take_of_le hlt]

theorem depotStore_holds (hbad : s.depot.bad = []) {k : Nat} (hk : 0 < k) (a : Nat) (d : List Byte) :
    (s.depotStore k a d).1 = 0 ∧ DepotHolds s (s.depotStore k a d).2 (memWrite s.depot.mem a d) := by
  have h := depotPieces_holds hbad (cutPieces k d.length a d)
  rwa [memWrite_cutPieces hk _ _ (Nat.le_refl _)] at h

/-! ### The head of a thread's buffer (R319) -/

theorem storePerformed_next {e : WbEntry} {rest : List WbEntry} {d : List Byte} (hp : p < 128)
    (hwb : (s.thread p).wb = e :: rest) (hop : e.op = .bytes d ∨ e.op = .stream d) (hdrain : s.drainHolds e = false)
    (hbad : s.depot.bad = []) :
    ∃ k, 0 < k ∧ exec (.storePerformed (.thread p)) s =
      .next (((s.setWb (.thread p) rest).depotStore k e.addr d).2.flushPosts p) := by
  have hzero (k : Nat) (hk : 0 < k) : ((s.setWb (.thread p) rest).depotStore k e.addr d).1 = 0 :=
    (depotStore_holds (s := s.setWb (.thread p) rest) hbad hk e.addr d).1
  have hwb' : s.wbOf (.thread p) = e :: rest := hwb
  obtain hop | hop := hop
  · refine ⟨8, by decide, ?_⟩
    show execStorePerformed (.thread p) s = _
    simp only [execStorePerformed, withAgent, withPart_lt _ hp, hwb', hdrain, hop, hzero 8 (by decide)]
    rfl
  · refine ⟨64, by decide, ?_⟩
    show execStorePerformed (.thread p) s = _
    simp only [execStorePerformed, withAgent, withPart_lt _ hp, hwb', hdrain, hop, hzero 64 (by decide)]
    rfl

/-- Bytes at the head: they are what the depot has more, and the thread has the rest of its buffer. -/
theorem storePerformed_leaves {e : WbEntry} {rest : List WbEntry} {d : List Byte} (hp : p < 128)
    (hwb : (s.thread p).wb = e :: rest) (hop : e.op = .bytes d ∨ e.op = .stream d) (hdrain : s.drainHolds e = false)
    (hbad : s.depot.bad = []) :
    Gives (.storePerformed (.thread p)) s (fun t => (∃ l, t.thread p = { s.thread p with wb := rest, posts := l }) ∧
      (∀ q, q ≠ p → t.thread q = s.thread q) ∧ t.depot.mem = memWrite s.depot.mem e.addr d ∧ t.ports = s.ports) := by
  obtain ⟨k, hk, hnext⟩ := storePerformed_next hp hwb hop hdrain hbad
  obtain ⟨-, hstored⟩ := depotStore_holds (s := s.setWb (.thread p) rest) hbad hk e.addr d
  obtain ⟨⟨l, hself⟩, hother, hdepot, hports⟩ :=
    flushPosts_keeps ((s.setWb (.thread p) rest).depotStore k e.addr d).2 p
  refine .of_next hnext ⟨⟨l, ?_⟩, fun q hq => ?_, ?_, hports.trans hstored.ports⟩
  · rw [hself, thread_congr hstored.threads]
    exact congrArg (fun u : Thread => { u with posts := l }) (thread_setThread_self ..)
  · rw [hother q hq, thread_congr hstored.threads]
    exact thread_setThread_ne _ _ hq
  · rw [hdepot, hstored.mem]
    rfl

/-! ### Atomics (R270, R328) -/

/-- The depot's bytes after an atomic. -/
def atomicMem (op : StoreOp) (a : Nat) (m : List Host.Cell) : List Host.Cell :=
  match atomicWrite op (memRead m a op.size) with
  | some d => memWrite m a d
  | none => m

/-- An atomic reads its word and writes it. -/
def State.atomicStored (s : State) (op : StoreOp) (a : Nat) : State :=
  match atomicWrite op (s.depotRead a op.size).2.1 with
  | some d => ((s.depotRead a op.size).2.2.depotPiece a d).2
  | none => (s.depotRead a op.size).2.2

theorem atomicStored_holds (hbad : s.depot.bad = []) (op : StoreOp) (a : Nat) :
    DepotHolds s (s.atomicStored op a) (atomicMem op a s.depot.mem) := by
  obtain ⟨-, hbytes, hread⟩ := depotRead_holds hbad a op.size
  unfold State.atomicStored atomicMem
  rw [hbytes]
  split
  next d _ =>
    obtain ⟨-, hpiece⟩ := depotPiece_holds hread.bad a d
    exact ⟨by rw [hpiece.mem, hread.mem], hpiece.bad, hpiece.threads.trans hread.threads, hpiece.ports.trans hread.ports⟩
  next => exact hread

/-- The thread after its atomic: the registers take the old value, and nothing waits for the entry any more. -/
def Thread.atomicDone (t : Thread) (e : WbEntry) (rest : List WbEntry) (rd : Nat) (old : List Byte) : Thread :=
  (Thread.takeOld { t with wb := rest } e.op rd old).landed e.id

theorem atomicPerformed_next {e : WbEntry} {rest : List WbEntry} {rd : Nat} (hp : p < 128)
    (hwb : (s.thread p).wb = e :: rest) (hop : (∀ d, e.op ≠ .bytes d) ∧ ∀ d, e.op ≠ .stream d) (hrd : e.rd = some rd)
    (hdrain : s.drainHolds e = false) (hbad : s.depot.bad = []) :
    exec (.atomicPerformed (.thread p)) s =
      .next ((((s.setWb (.thread p) rest).atomicStored e.op e.addr).modThread p (fun t =>
        (t.takeOld e.op rd (memRead s.depot.mem e.addr e.op.size)).landed e.id)).flushPosts p) := by
  obtain ⟨hread, hbytes, -⟩ := depotRead_holds (s := s.setWb (.thread p) rest) hbad e.addr e.op.size
  have hwb' : s.wbOf (.thread p) = e :: rest := hwb
  have hdepot : (s.setWb (.thread p) rest).depot = s.depot := rfl
  rw [hdepot] at hbytes
  obtain ⟨written, hwritten⟩ : ∃ o, atomicWrite e.op (memRead s.depot.mem e.addr e.op.size) = o := ⟨_, rfl⟩
  show execAtomicPerformed (.thread p) s = _
  simp only [execAtomicPerformed, withAgent, withPart_lt _ hp, hwb', State.atomicStored]
  cases hcase : e.op with
  | bytes d => exact absurd hcase (hop.1 d)
  | stream d => exact absurd hcase (hop.2 d)
  | _ =>
    rw [hcase] at hread hbytes hwritten
    cases written <;>
      simp only [hdrain, hread, hrd, hbytes, hwritten, Bool.not_true, Bool.false_eq_true, if_false, State.wbDone]

theorem atomicPerformed_leaves {e : WbEntry} {rest : List WbEntry} {rd : Nat} (hp : p < 128)
    (hwb : (s.thread p).wb = e :: rest) (hop : (∀ d, e.op ≠ .bytes d) ∧ ∀ d, e.op ≠ .stream d) (hrd : e.rd = some rd)
    (hdrain : s.drainHolds e = false) (hbad : s.depot.bad = []) :
    Gives (.atomicPerformed (.thread p)) s (fun t =>
      (∃ l, t.thread p =
        { (s.thread p).atomicDone e rest rd (memRead s.depot.mem e.addr e.op.size) with posts := l }) ∧
      t.depot.mem = atomicMem e.op e.addr s.depot.mem) := by
  have hstored := atomicStored_holds (s := s.setWb (.thread p) rest) hbad e.op e.addr
  obtain ⟨⟨l, hself⟩, -, hdepot, -⟩ := flushPosts_keeps
    (((s.setWb (.thread p) rest).atomicStored e.op e.addr).modThread p (fun t =>
      (t.takeOld e.op rd (memRead s.depot.mem e.addr e.op.size)).landed e.id)) p
  refine .of_next (atomicPerformed_next hp hwb hop hrd hdrain hbad) ⟨⟨l, ?_⟩, ?_⟩
  · have hold : (s.setWb (.thread p) rest).thread p = { s.thread p with wb := rest } := thread_setThread_self ..
    rw [hself, modThread_eq, thread_setThread_self, thread_congr hstored.threads, hold]
    rfl
  · rw [hdepot]
    exact hstored.mem

theorem natAt_all {n : Nat} {b : List Byte} (h : b.length = n) : natAt b 0 n = leNat b := by
  subst h
  simp [natAt, bytesAt]

/-- An atomic of one word whose old value goes to RD alone. -/
theorem wordAtomic_leaves {e : WbEntry} {rest : List WbEntry} {rd : Nat} (hp : p < 128)
    (hwb : (s.thread p).wb = e :: rest) (hop : (∃ v, e.op = .aadd v) ∨ ∃ c n, e.op = .acas c n) (hrd : e.rd = some rd)
    (hdrain : s.drainHolds e = false) (hbad : s.depot.bad = []) :
    Gives (.atomicPerformed (.thread p)) s (fun t => (t.thread p).wb = rest ∧
      (rd ≠ 0 → (t.thread p).reg rd = BitVec.ofNat 64 (leNat (memRead s.depot.mem e.addr 8))) ∧
      (∀ k, k ≠ rd → (t.thread p).reg k = (s.thread p).reg k) ∧ t.depot.mem = atomicMem e.op e.addr s.depot.mem) := by
  have hatomic : (∀ d, e.op ≠ .bytes d) ∧ ∀ d, e.op ≠ .stream d := by
    obtain ⟨v, hop⟩ | ⟨c, n, hop⟩ := hop <;> simp [hop]
  have hdone (old : List Byte) : (s.thread p).atomicDone e rest rd old =
      (Thread.setReg { s.thread p with wb := rest } rd (BitVec.ofNat 64 (natAt old 0 8))).landed e.id := by
    obtain ⟨v, hop⟩ | ⟨c, n, hop⟩ := hop <;> rw [Thread.atomicDone, hop] <;> rfl
  have hsize : e.op.size = 8 := by
    obtain ⟨v, hop⟩ | ⟨c, n, hop⟩ := hop <;> rw [hop] <;> rfl
  obtain ⟨t, ht, ⟨l, hself⟩, hmem⟩ := atomicPerformed_leaves hp hwb hatomic hrd hdrain hbad
  rw [hdone, hsize, natAt_all (memRead_length ..)] at hself
  refine ⟨t, ht, ?_, fun h0 => ?_, fun k hk => ?_, hmem⟩
  · rw [hself]
    exact setReg_wb ..
  · rw [hself]
    exact reg_setReg_self _ _ h0
  · rw [hself]
    exact reg_setReg_ne ({ s.thread p with wb := rest } : Thread) _ hk

/-- A word written reads back, and every byte outside it reads as before. -/
theorem memWrite_word {m : List Host.Cell} (hm : Memory.wf m = true) (a v : Nat) :
    memRead (memWrite m a (leBytes 8 v)) a 8 = leBytes 8 v ∧
      ∀ b, (b < a ∨ a + 8 ≤ b) → memGet (memWrite m a (leBytes 8 v)) b = memGet m b := by
  have hlen : (leBytes 8 v).length = 8 := leBytes_length 8 v
  have hself := memRead_memWrite_self hm a (leBytes 8 v)
  rw [hlen] at hself
  refine ⟨hself, fun b hb => ?_⟩
  rw [memGet_memWrite hm, hlen, if_neg (by omega)]

theorem atomicMem_aadd (v : Word) (a : Nat) (m : List Host.Cell) :
    atomicMem (.aadd v) a m = memWrite m a (leBytes 8 (BitVec.ofNat 64 (leNat (memRead m a 8)) + v).toNat) := rfl

theorem atomicMem_acas (c n : Word) (a : Nat) (m : List Host.Cell) :
    atomicMem (.acas c n) a m =
      if leNat (memRead m a 8) = c.toNat then memWrite m a (leBytes 8 n.toNat) else m := by
  unfold atomicMem atomicWrite StoreOp.size
  by_cases h : leNat (memRead m a 8) = c.toNat <;> simp only [h, if_true, if_false]

/-! ### The end of the hinge drain (R322) -/

theorem hingeDrainEnd_next (hd : s.depot.draining = true) (ht : ∀ x ∈ s.threads, ∀ e ∈ x.2.wb, e.drain = false)
    (hm : ∀ x ∈ s.mule.wbs, ∀ e ∈ x.2, e.drain = false) :
    exec .hingeDrainEnd s = .next { s with depot := { s.depot with draining := false } } := by
  have hthreads : s.threads.any (fun x => x.2.wb.any (fun e => e.drain)) = false :=
    List.any_eq_false.mpr fun x hx => by simpa using ht x hx
  have hmule : s.mule.wbs.any (fun x => x.2.any (fun e => e.drain)) = false :=
    List.any_eq_false.mpr fun x hx => by simpa using hm x hx
  show execHingeDrainEnd s = _
  simp only [execHingeDrainEnd, hd, hthreads, hmule]
  rfl

/-- Settles O26, clause by clause. -/
theorem writeBuffersPerform : Obligations.WriteBuffersPerform := by
  refine ⟨fun s p e rest d hp hwb hop hdrain hbad hok => ?_, fun s p rd e rest v hp hwb hop hrd hdrain hbad hok => ?_,
    fun s p rd e rest c n hp hwb hop hrd hdrain hbad hok => ?_, fun s hd ht hm => hingeDrainEnd_next hd ht hm⟩
  · obtain ⟨t, ht, ⟨l, hself⟩, hother, hmem, hports⟩ := storePerformed_leaves hp hwb hop hdrain hbad
    refine ⟨t, ht, by rw [hself], fun a => ?_, fun r => by rw [hself]; rfl, hother, hports⟩
    rw [hmem, memGet_memWrite hok]
  · obtain ⟨t, ht, hrest, hold, hregs, hmem⟩ := wordAtomic_leaves hp hwb (.inl ⟨v, hop⟩) hrd hdrain hbad
    rw [hop, atomicMem_aadd] at hmem
    exact ⟨t, ht, hrest, hold, hregs, hmem ▸ memWrite_word hok _ _⟩
  · obtain ⟨t, ht, hrest, hold, -, hmem⟩ := wordAtomic_leaves hp hwb (.inr ⟨c, n, hop⟩) hrd hdrain hbad
    refine ⟨t, ht, hrest, hold, ?_⟩
    rw [hmem, hop, atomicMem_acas]
    split
    · exact memWrite_word hok _ _
    · exact ⟨rfl, fun _ _ => rfl⟩

end Sys2Proof.Machine
end

section
/-! SUPPORT. Mule's accesses to the depot (R270, R313, R315, R316, R319, R328, R387) and the patrol scrub (R313). -/

namespace Sys2Proof.Machine

variable {s : State} {core a n : Nat}

/-! ### Mule's cores (R315, R387) -/

theorem muleDepotAccess_next (x : MuleAccess) (hc : core < 8) (ha : s.alive = true) (hm : s.fw.muleUp = true) :
    exec (.muleDepotAccess core x) s = .next (s.muleAccess core x) := by
  show execMuleDepotAccess core x s = _
  simp only [execMuleDepotAccess, hc, ha, hm, decide_true, withUnit_true, Bool.and_self, if_true]

/-- A load with no entry of the core's own before it gives the bytes of the depot. -/
theorem muleAccess_load (hr : s.muleReaches a n false = true) (hd : s.depot.draining = false)
    (hwb : s.wbOf (.mule core) = []) (hbad : s.depot.bad = []) (hsoft : s.depot.soft = []) :
    s.muleAccess core (.load a n) = { s with out := s.out ++ [.muleData core (memRead s.depot.mem a n)] } := by
  simp only [State.muleAccess, State.muleLoad, hr, hd, hwb, hbad, depotRead_clean hbad hsoft, atomicIn, forwardWb,
    List.any_nil, List.foldl_nil, List.contains_nil, List.zipIdx_map_fst, Bool.not_true, Bool.or_self, Bool.false_eq_true,
    if_false, if_true]
  rfl

theorem muleAccess_store {d : List Byte} (hr : s.muleReaches a d.length true = true)
    (hroom : (s.wbOf (.mule core)).length < 32) :
    s.muleAccess core (.store a d) = s.setWb (.mule core) (s.wbOf (.mule core) ++
      [{ id := 0, pc := 0, addr := a, op := if d.length ≤ 8 then .bytes d else .stream d }]) := by
  simp only [State.muleAccess, State.mulePush, hr, Nat.not_le.mpr hroom, Bool.not_true, Bool.false_eq_true, if_false]

theorem muleAtomic_pushes {op : StoreOp} (hr : s.muleReaches (a / n * n) n true = true)
    (hroom : (s.wbOf (.mule core)).length < 32) :
    s.muleAtomic core a n op = s.setWb (.mule core) (s.wbOf (.mule core) ++
      [{ id := 0, pc := 0, addr := a / n * n, op := op }]) := by
  simp only [State.muleAtomic, State.mulePush, hr, Nat.not_le.mpr hroom, Bool.not_true, Bool.false_eq_true, if_false]

/-! ### The patrol scrub (R313) -/

/-- A counter other than the gate's bypass count, after any number of events. -/
theorem ctr_count_wide (s : State) {i : Nat} (n : Nat) (hi : i ≠ bypassCtr) :
    (s.count i n).ctr i = satAdd i (s.ctr i) n := by
  obtain rfl | hn := Nat.eq_zero_or_pos n
  · apply BitVec.eq_of_toNat_eq
    have hlt := (s.ctr i).isLt
    rw [count_zero, satAdd_toNat, ctrMax, if_neg hi]
    omega
  · exact ctr_count_self s i n (by omega)

theorem devCtr_ne_bypassCtr {k : Nat} (hk : k < 2 ^ 16) : devCtr k ≠ bypassCtr := by
  unfold devCtr bypassCtr ctrIndex
  omega

/-- The state after a scrub pass that began at `t0`. -/
def State.scrubbed (s : State) (t0 : Nat) : State :=
  State.bumpDev { (s.count (devCtr dkDepotEccCorr) s.depot.soft.length).count (devCtr dkDepotEccUncorr)
      s.depot.bad.length with
    depot := { s.depot with soft := [] }
    power := { s.power with scrubFrom := some (t0 + scrubNs) } } dkDepotScrubPass

theorem scrubPassEnd_next {t0 : Nat} (ha : s.alive = true) (hfrom : s.power.scrubFrom = some t0)
    (ht : t0 + 86400000000000 ≤ s.time) : exec .scrubPassEnd s = .next (s.scrubbed t0) := by
  have ht' : t0 + scrubNs ≤ s.time := ht
  show execScrubPassEnd s = _
  simp only [execScrubPassEnd, State.scrubbed, hfrom, ha, ht', decide_true, Bool.and_self, if_true, count_depot, count_power]

theorem scrubbed_ctr (s : State) (t0 i : Nat) :
    (s.scrubbed t0).ctr i = (((s.count (devCtr dkDepotEccCorr) s.depot.soft.length).count (devCtr dkDepotEccUncorr)
      s.depot.bad.length).count (devCtr dkDepotScrubPass) 1).ctr i := rfl

theorem scrubbed_counts (s : State) (t0 : Nat) :
    (s.scrubbed t0).ctr (devCtr dkDepotScrubPass) = satAdd (devCtr dkDepotScrubPass) (s.ctr (devCtr dkDepotScrubPass)) 1 ∧
    (s.scrubbed t0).ctr (devCtr dkDepotEccCorr) =
      satAdd (devCtr dkDepotEccCorr) (s.ctr (devCtr dkDepotEccCorr)) s.depot.soft.length ∧
    (s.scrubbed t0).ctr (devCtr dkDepotEccUncorr) =
      satAdd (devCtr dkDepotEccUncorr) (s.ctr (devCtr dkDepotEccUncorr)) s.depot.bad.length := by
  have hcu : devCtr dkDepotEccCorr ≠ devCtr dkDepotEccUncorr := devCtr_ne (by decide)
  have hcp : devCtr dkDepotEccCorr ≠ devCtr dkDepotScrubPass := devCtr_ne (by decide)
  have hup : devCtr dkDepotEccUncorr ≠ devCtr dkDepotScrubPass := devCtr_ne (by decide)
  refine ⟨?_, ?_, ?_⟩
  · rw [scrubbed_ctr, ctr_count_one, ctr_count_ne _ _ hup.symm, ctr_count_ne _ _ hcp.symm]
  · rw [scrubbed_ctr, ctr_count_ne _ _ hcp, ctr_count_ne _ _ hcu, ctr_count_wide _ _ (devCtr_ne_bypassCtr (by decide))]
  · rw [scrubbed_ctr, ctr_count_ne _ _ hup, ctr_count_wide _ _ (devCtr_ne_bypassCtr (by decide)), ctr_count_ne _ _ hcu.symm]

/-- Settles O27, access by access. -/
theorem muleCoresAndScrub : Obligations.MuleCoresAndScrub := by
  refine ⟨fun s core a n hc ha hm hr hd hwb hbad hsoft => ?_, fun s core a d hc ha hm hr hroom => ?_,
    fun s core a d hc ha hm hr => ?_, fun s core a n hc ha hm hr => .of_next (muleDepotAccess_next _ hc ha hm) ?_,
    fun s core a n x op v c w cl ch nl nh hc ha hm hx hr hroom => ?_,
    fun s t0 ha hfrom ht => .of_next (scrubPassEnd_next ha hfrom ht) ?_⟩
  · rw [muleDepotAccess_next _ hc ha hm, muleAccess_load hr hd hwb hbad hsoft]
  · rw [muleDepotAccess_next _ hc ha hm, muleAccess_store hr hroom]
  · rw [muleDepotAccess_next _ hc ha hm]
    simp only [State.muleAccess, State.muleViolation, hr, Bool.not_false, if_true]
  · simp only [State.muleAccess, State.muleViolation, hr, Bool.not_false, if_true, bumpDev_eq]
    exact ⟨by rw [emit_out, count_out], by simp, by simp, ctr_count_one s _⟩
  · rw [muleDepotAccess_next _ hc ha hm, ← muleAtomic_pushes hr hroom]
    obtain ⟨rfl, rfl, rfl⟩ | ⟨rfl, rfl, rfl⟩ | ⟨rfl, rfl, rfl⟩ | ⟨rfl, rfl, rfl⟩ := hx <;> rfl
  · obtain ⟨hpass, hcorr, huncorr⟩ := scrubbed_counts s t0
    exact ⟨by simp [State.scrubbed], hpass, hcorr, huncorr, by simp [State.scrubbed], by simp [State.scrubbed]⟩

end Sys2Proof.Machine
end

section
/-! SUPPORT. Send entries start (R290, R291, R343-R346): the entry is fetched with a CQ entry reserved, acts by its kind, and
is listed as started; copies and armed table entries write their own bytes of the depot. -/

namespace Sys2Proof.Machine

variable {s t u : State} {qid a : Nat} {q : Queue} {e : List Byte}

/-! ### The entry is fetched (R343, R344) -/

/-- The read that fetches the next entry of an SQ. -/
def State.fetchRead (s : State) (q : Queue) : Out :=
  .pcieRead (s.fnOf (s.ctxPart q.ctx))
    ((s.slotOf q).base + BitVec.ofNat 64 (q.ci.toNat % (s.slotOf q).size * 64)) 64

/-- The next entry of an SQ is fetched: a CQ entry is reserved, and the consumer index moves on. -/
def State.fetchEntry (s : State) (qid : Nat) (q : Queue) : State :=
  ((s.cqReserve q).emit (s.fetchRead q)).setQueue qid { q with ci := q.ci + 1 }

/-- What an entry has on the list of started entries before it has acted. -/
def Queue.startedEntry (q : Queue) (e : List Byte) : Started :=
  { idx := q.ci.toNat, opc := natAt e 0 1, tag := BitVec.ofNat 32 (natAt e 4 4) }

/-- An entry is listed as started. -/
def State.addStarted (s : State) (qid : Nat) (y : Started) : State :=
  match s.queue? qid with
  | some z => s.setQueue qid { z with started := z.started ++ [y] }
  | none => s

theorem addStarted_eq (h : s.queue? qid = some q) (y : Started) :
    s.addStarted qid y = s.setQueue qid { q with started := q.started ++ [y] } := by
  simp only [State.addStarted, h]

/-- A well-formed entry of a ready queue acts on the state in which it is fetched, and is listed. -/
theorem startEntryOf_acts (hq : s.queue? qid = some q) (hready : s.sqReady q e = true) (hok : entryOk e = true)
    (act : State → Queue → Started → Started × State) :
    s.startEntryOf qid e true act =
      (act (s.fetchEntry qid q) q (q.startedEntry e)).2.addStarted qid (act (s.fetchEntry qid q) q (q.startedEntry e)).1 := by
  simp only [State.startEntryOf, hq, hready, hok, Bool.not_true, Bool.false_eq_true, if_false]
  rfl

theorem cqReserve_only (s : State) (q : Queue) : { s.cqReserve q with queues := s.queues } = s := by
  unfold State.cqReserve
  repeat' split
  all_goals rfl

theorem fetchEntry_only (s : State) (qid : Nat) (q : Queue) :
    { s.fetchEntry qid q with queues := s.queues, out := s.out } = s :=
  (congrArg (fun t : State => { t with out := s.out }) (cqReserve_only s q) :)

@[simp] theorem fetchEntry_queue (s : State) (qid : Nat) (q : Queue) :
    (s.fetchEntry qid q).queue? qid = some { q with ci := q.ci + 1 } := queue_setQueue_self ..
@[simp] theorem fetchEntry_out (s : State) (qid : Nat) (q : Queue) :
    (s.fetchEntry qid q).out = s.out ++ [s.fetchRead q] :=
  (congrArg (fun t : State => t.out ++ [s.fetchRead q]) (cqReserve_only s q) :)
@[simp] theorem fetchEntry_depot (s : State) (qid : Nat) (q : Queue) : (s.fetchEntry qid q).depot = s.depot :=
  (congrArg State.depot (fetchEntry_only s qid q) :)
@[simp] theorem fetchEntry_ports (s : State) (qid : Nat) (q : Queue) : (s.fetchEntry qid q).ports = s.ports :=
  (congrArg State.ports (fetchEntry_only s qid q) :)
@[simp] theorem fetchEntry_ctxs (s : State) (qid : Nat) (q : Queue) : (s.fetchEntry qid q).ctxs = s.ctxs :=
  (congrArg State.ctxs (fetchEntry_only s qid q) :)
@[simp] theorem fetchEntry_counters (s : State) (qid : Nat) (q : Queue) : (s.fetchEntry qid q).counters = s.counters :=
  (congrArg State.counters (fetchEntry_only s qid q) :)
@[simp] theorem fetchEntry_txs (s : State) (qid : Nat) (q : Queue) : (s.fetchEntry qid q).txs = s.txs :=
  (congrArg State.txs (fetchEntry_only s qid q) :)
@[simp] theorem fetchEntry_rooster (s : State) (qid : Nat) (q : Queue) : (s.fetchEntry qid q).rooster = s.rooster :=
  (congrArg State.rooster (fetchEntry_only s qid q) :)
@[simp] theorem fetchEntry_ctx (s : State) (qid : Nat) (q : Queue) (c : Nat) :
    (s.fetchEntry qid q).ctx? c = s.ctx? c := (congrArg (State.ctx? · c) (fetchEntry_only s qid q) :)
@[simp] theorem fetchEntry_ctxPart (s : State) (qid : Nat) (q : Queue) (c : Nat) :
    (s.fetchEntry qid q).ctxPart c = s.ctxPart c := (congrArg (State.ctxPart · c) (fetchEntry_only s qid q) :)
@[simp] theorem fetchEntry_func (s : State) (qid : Nat) (q : Queue) (n : Nat) :
    (s.fetchEntry qid q).func n = s.func n := (congrArg (State.func · n) (fetchEntry_only s qid q) :)
@[simp] theorem fetchEntry_fnOf (s : State) (qid : Nat) (q : Queue) (p : Nat) :
    (s.fetchEntry qid q).fnOf p = s.fnOf p := (congrArg (State.fnOf · p) (fetchEntry_only s qid q) :)
@[simp] theorem fetchEntry_rankAddr (s : State) (qid : Nat) (q : Queue) (p rank : Nat) :
    (s.fetchEntry qid q).rankAddr p rank = s.rankAddr p rank :=
  (congrArg (State.rankAddr · p rank) (fetchEntry_only s qid q) :)
@[simp] theorem fetchEntry_dmaRange (s : State) (qid : Nat) (q : Queue) (p : Nat) (e : List Byte) (len : Nat) :
    (s.fetchEntry qid q).dmaRange p e len = s.dmaRange p e len :=
  (congrArg (State.dmaRange · p e len) (fetchEntry_only s qid q) :)
@[simp] theorem fetchEntry_collTable (s : State) (qid : Nat) (q : Queue) (p : Nat) :
    (s.fetchEntry qid q).collTable p = s.collTable p := (congrArg (State.collTable · p) (fetchEntry_only s qid q) :)

/-! ### B_SEND and C_SEND (R345, R346) -/

/-- A B_SEND as it is listed, with the number of its message. -/
def Queue.startedB (q : Queue) (e : List Byte) (msg : BitVec 32) : Started :=
  { q.startedEntry e with
    msg := msg, rank := natAt e 8 4, dq := natAt e 12 2, host := BitVec.ofNat 64 (natAt e 24 8), len := natAt e 16 4 }

theorem bSend_next {c : Ctx} {dst : BitVec 32} (hqid : qid < 4096) (hq : s.queue? qid = some q)
    (hready : s.sqReady q e = true) (hok : entryOk e = true) (hopc : natAt e 0 1 = 1) (hlen : natAt e 16 4 ≠ 0)
    (hc : s.ctx? q.ctx = some c) (hdst : s.rankAddr c.part (natAt e 8 4) = some dst) :
    exec (.bSend qid e) s = .next ((((s.fetchEntry qid q).setCtx q.ctx { c with msg := c.msg + 1 }).setQueue qid
      { q with ci := q.ci + 1, sent := q.sent ++ [c.msg] }).addStarted qid (q.startedB e c.msg)) := by
  have hqueue : ((s.fetchEntry qid q).setCtx q.ctx { c with msg := c.msg + 1 }).queue? qid =
      some { q with ci := q.ci + 1 } := fetchEntry_queue s qid q
  show execBSend qid e s = _
  simp only [execBSend, withQueue_lt _ hqid, hopc, decide_true, startEntryOf_acts hq hready hok, hlen, if_false,
    fetchEntry_ctx, hc, fetchEntry_rankAddr, hdst, hqueue]
  rfl

/-- The state in which a C_SEND is fetched, its payload asked for. -/
def State.fetchCSend (s : State) (qid : Nat) (q : Queue) (e : List Byte) : State :=
  if natAt e 16 4 = 0 then s.fetchEntry qid q
  else (s.fetchEntry qid q).emit
    (.pcieRead (s.fnOf (s.ctxPart q.ctx)) (BitVec.ofNat 64 (natAt e 24 8)) (natAt e 16 4))

theorem fetchCSend_only (s : State) (qid : Nat) (q : Queue) (e : List Byte) :
    { s.fetchCSend qid q e with out := (s.fetchEntry qid q).out } = s.fetchEntry qid q := by
  unfold State.fetchCSend
  split <;> rfl

theorem fetchCSend_queue (s : State) (qid : Nat) (q : Queue) (e : List Byte) :
    (s.fetchCSend qid q e).queue? qid = some { q with ci := q.ci + 1 } :=
  (congrArg (State.queue? · qid) (fetchCSend_only s qid q e) :).trans (fetchEntry_queue s qid q)
theorem fetchCSend_txs (s : State) (qid : Nat) (q : Queue) (e : List Byte) : (s.fetchCSend qid q e).txs = s.txs :=
  (congrArg State.txs (fetchCSend_only s qid q e) :).trans (fetchEntry_txs s qid q)
theorem fetchCSend_ports (s : State) (qid : Nat) (q : Queue) (e : List Byte) : (s.fetchCSend qid q e).ports = s.ports :=
  (congrArg State.ports (fetchCSend_only s qid q e) :).trans (fetchEntry_ports s qid q)
theorem fetchCSend_depot (s : State) (qid : Nat) (q : Queue) (e : List Byte) : (s.fetchCSend qid q e).depot = s.depot :=
  (congrArg State.depot (fetchCSend_only s qid q e) :).trans (fetchEntry_depot s qid q)
theorem fetchCSend_ctxs (s : State) (qid : Nat) (q : Queue) (e : List Byte) : (s.fetchCSend qid q e).ctxs = s.ctxs :=
  (congrArg State.ctxs (fetchCSend_only s qid q e) :).trans (fetchEntry_ctxs s qid q)

theorem cSend_next {data : List Byte} {dst : BitVec 32} (hqid : qid < 4096) (hq : s.queue? qid = some q)
    (hready : s.sqReady q e = true) (hok : entryOk e = true) (hopc : natAt e 0 1 = 2)
    (hdst : s.rankAddr (s.ctxPart q.ctx) (natAt e 8 4) = some dst) :
    exec (.cSend qid e data) s = .next (((s.fetchCSend qid q e).queueC
      { localPort := 0x40, far := dst, ctx := q.ctx } (s.ctxPart q.ctx) (natAt e 12 2) (padTo (natAt e 16 4) data)
      (some (qid, q.ci.toNat)) (some (natAt e 8 4))).addStarted qid (q.startedEntry e)) := by
  show execCSend qid e data s = _
  simp only [execCSend, withQueue_lt _ hqid, hopc, decide_true, startEntryOf_acts hq hready hok, fetchEntry_ctxPart,
    fetchEntry_rankAddr, fetchEntry_fnOf, hdst, State.fetchCSend]
  rfl

theorem queueC_queue (s : State) (k : StreamKey) (part dq : Nat) (payload : List Byte) (entry : Option (Nat × Nat))
    (rank : Option Nat) (qid : Nat) : (s.queueC k part dq payload entry rank).queue? qid = s.queue? qid := rfl

/-- A frame put at the end of a stream that is there takes its next number, and is not its first. -/
theorem queueC_stream {k : StreamKey} {t0 : TxStream} (h : assoc? s.txs k = some t0) (part dq : Nat) (payload : List Byte)
    (entry : Option (Nat × Nat)) (rank : Option Nat) :
    assoc? (s.queueC k part dq payload entry rank).txs k = some { t0 with
      next := t0.next + 1
      unacked := t0.unacked ++ [{ seq := t0.next, syn := false, part := part, dq := dq, payload := payload,
                                  entry := entry, rank := rank }] } := by
  simp only [State.queueC, State.setTx, h, assoc?_set_self]
  rfl

/-! ### The depot serves an entry (R311, R312, R326) -/

/-- State `t` is state `s` with the bytes `m` in its depot and the outputs `o` sent, as far as a send entry tells. -/
structure DepotServes (s t : State) (m : List Host.Cell) (o : List Out) : Prop extends DepotHolds s t m where
  queues : t.queues = s.queues
  ctxs : t.ctxs = s.ctxs
  out : t.out = s.out ++ o

namespace DepotServes

variable {m m' : List Host.Cell} {o o' : List Out}

theorem refl (hbad : s.depot.bad = []) : DepotServes s s s.depot.mem [] :=
  ⟨⟨rfl, hbad, rfl, rfl⟩, rfl, rfl, (List.append_nil _).symm⟩

theorem trans (h : DepotServes s t m o) (h' : DepotServes t u m' o') : DepotServes s u m' (o ++ o') :=
  ⟨⟨h'.mem, h'.bad, h'.threads.trans h.threads, h'.ports.trans h.ports⟩, h'.queues.trans h.queues, h'.ctxs.trans h.ctxs,
    by rw [h'.out, h.out, List.append_assoc]⟩

theorem emit (hbad : s.depot.bad = []) (x : Out) : DepotServes s (s.emit x) s.depot.mem [x] :=
  ⟨⟨rfl, hbad, rfl, rfl⟩, rfl, rfl, rfl⟩

theorem depotPiece (hbad : s.depot.bad = []) (a : Nat) (d : List Byte) :
    DepotServes s (s.depotPiece a d).2 (memWrite s.depot.mem a d) [] := by
  refine ⟨(depotPiece_holds hbad a d).2, ?_, ?_, ?_⟩ <;>
    simp only [State.depotPiece, hbad, List.filter_nil, List.isEmpty_nil, if_true, count_queues, count_ctxs, count_out,
      List.append_nil]

theorem depotRead (hbad : s.depot.bad = []) (a n : Nat) : DepotServes s (s.depotRead a n).2.2 s.depot.mem [] := by
  refine ⟨(depotRead_holds hbad a n).2.2, ?_, ?_, ?_⟩ <;>
    simp only [State.depotRead, State.eccCorrect, count_queues, count_ctxs, count_out, List.append_nil]

theorem depotPieces (hbad : s.depot.bad = []) (l : List (Nat × List Byte)) :
    DepotServes s (s.depotPieces l).2 (l.foldl (fun m c => memWrite m c.1 c.2) s.depot.mem) [] := by
  induction l generalizing s with
  | nil => exact .refl hbad
  | cons c l ih =>
    have hpiece := depotPiece hbad c.1 c.2
    have hrest := hpiece.trans (ih hpiece.bad)
    rw [hpiece.mem] at hrest
    rwa [depotPieces_cons hbad]

/-- A stream store writes its bytes, and every piece of them (R326). -/
theorem depotStream (hbad : s.depot.bad = []) (a : Nat) (d : List Byte) :
    (s.depotStream a d).1 = true ∧ DepotServes s (s.depotStream a d).2 (memWrite s.depot.mem a d) [] := by
  have h := depotPieces hbad (cutPieces 64 d.length a d)
  rw [memWrite_cutPieces (by decide) _ _ (Nat.le_refl _)] at h
  exact ⟨decide_eq_true (depotStore_holds hbad (by decide) a d).1, h⟩

/-- The read requests of a copy leave the package, and nothing else. -/
theorem readHost (hbad : s.depot.bad = []) (fn : Nat) (a : Word) (len : Nat) :
    ∃ o, DepotServes s (s.readHost fn a len) s.depot.mem o := by
  unfold State.readHost
  induction List.range (ceilDiv len 4096) generalizing s with
  | nil => exact ⟨[], .refl hbad⟩
  | cons i l ih =>
    have hread := emit hbad (.pcieRead fn (a + BitVec.ofNat 64 (4096 * i)) (Nat.min 4096 (len - 4096 * i)))
    obtain ⟨o, hrest⟩ := ih hread.bad
    exact ⟨_, hread.trans hrest⟩

/-- An entry that the depot has served is listed on its queue. -/
theorem addStarted (h : DepotServes (s.fetchEntry qid q) u m o) (y : Started) :
    (u.addStarted qid y).depot.mem = m ∧
      (u.addStarted qid y).queue? qid = some { q with ci := q.ci + 1, started := q.started ++ [y] } ∧
      (u.addStarted qid y).ctxs = s.ctxs ∧ (u.addStarted qid y).ports = s.ports ∧
      (u.addStarted qid y).out = s.out ++ s.fetchRead q :: o := by
  have hqueue : u.queue? qid = some { q with ci := q.ci + 1 } :=
    (congrArg (Tbl.get? · qid) h.queues).trans (fetchEntry_queue s qid q)
  rw [addStarted_eq hqueue]
  refine ⟨h.mem, queue_setQueue_self .., ?_, ?_, ?_⟩
  · rw [setQueue_ctxs, h.ctxs, fetchEntry_ctxs]
  · rw [setQueue_ports, h.ports, fetchEntry_ports]
  · rw [setQueue_out, h.out, fetchEntry_out, List.append_assoc, List.singleton_append]

end DepotServes

/-! ### Copies (R312, R326, R358) -/

/-- Wherever bytes are cut, their pieces are as long as they are. -/
theorem cutPieces_lengths {k n : Nat} (hk : 0 < k) (a : Nat) {d : List Byte} (hn : d.length ≤ n) :
    ((cutPieces k n a d).map (fun c => c.2.length)).sum = d.length := by
  induction n generalizing a d with
  | zero => rw [List.eq_nil_of_length_eq_zero (Nat.le_zero.mp hn)]; rfl
  | succ n ih =>
    cases d with
    | nil => rfl
    | cons b d =>
      have hw : 0 < k - a % k := Nat.sub_pos_of_lt (Nat.mod_lt a hk)
      have hrest : ((b :: d).drop (k - a % k)).length ≤ n := by rw [List.length_drop]; omega
      simp only [cutPieces, List.map_cons, List.sum_cons, ih _ hrest, List.length_take, List.length_drop]
      omega

/-- The pieces of a copy into the depot, one after the other, with the bytes moved. -/
def State.copyIn (s : State) (n : Nat) (l : List (Nat × List Byte)) : Nat × State :=
  l.foldl (fun r c =>
    (if (r.2.depotPiece c.1 c.2).1 then r.1 + c.2.length else r.1, (r.2.depotPiece c.1 c.2).2)) (n, s)

/-- Without unreadable units every piece of a copy into the depot is moved. -/
theorem copyIn_eq (hbad : s.depot.bad = []) (n : Nat) (l : List (Nat × List Byte)) :
    s.copyIn n l = (n + (l.map (fun c => c.2.length)).sum, (s.depotPieces l).2) := by
  induction l generalizing s n with
  | nil => rfl
  | cons c l ih =>
    obtain ⟨hwritten, hpiece⟩ := depotPiece_holds hbad c.1 c.2
    have hrest := ih hpiece.bad (n + c.2.length)
    rw [Nat.add_assoc] at hrest
    rw [depotPieces_cons hbad, List.map_cons, List.sum_cons, ← hrest]
    simp only [State.copyIn, List.foldl_cons, hwritten, if_true]

theorem copyIn_serves (hbad : s.depot.bad = []) (a : Nat) (d : List Byte) :
    (s.copyIn 0 (cutPieces 64 d.length a d)).1 = d.length ∧
      DepotServes s (s.copyIn 0 (cutPieces 64 d.length a d)).2 (memWrite s.depot.mem a d) [] := by
  have hserves := DepotServes.depotPieces hbad (cutPieces 64 d.length a d)
  rw [memWrite_cutPieces (by decide) _ _ (Nat.le_refl _)] at hserves
  rw [copyIn_eq hbad]
  exact ⟨by rw [Nat.zero_add, cutPieces_lengths (by decide) _ (Nat.le_refl _)], hserves⟩

/-- The pieces of a copy from the depot, one after the other, each written as `w` says, with the bytes moved. -/
def State.copyOut (s : State) (n : Nat) (w : Nat × List Byte → Out) (l : List (Nat × List Byte)) : Nat × State :=
  l.foldl (fun r c =>
    if (r.2.depotRead c.1 c.2.length).1 then
      (r.1 + c.2.length, (r.2.depotRead c.1 c.2.length).2.2.emit (w c))
    else (r.1, (r.2.depotRead c.1 c.2.length).2.2)) (n, s)

/-- Without unreadable units every piece of a copy from the depot is moved, in order. -/
theorem copyOut_serves (hbad : s.depot.bad = []) (n : Nat) (w : Nat × List Byte → Out) (l : List (Nat × List Byte)) :
    (s.copyOut n w l).1 = n + (l.map (fun c => c.2.length)).sum ∧
      DepotServes s (s.copyOut n w l).2 s.depot.mem (l.map w) := by
  induction l generalizing s n with
  | nil => exact ⟨rfl, .refl hbad⟩
  | cons c l ih =>
    have hread := DepotServes.depotRead hbad c.1 c.2.length
    have hpiece := hread.trans (.emit hread.bad (w c))
    have hstep : s.copyOut n w (c :: l) =
        ((s.depotRead c.1 c.2.length).2.2.emit (w c)).copyOut (n + c.2.length) w l := by
      simp only [State.copyOut, List.foldl_cons, (depotRead_holds hbad c.1 c.2.length).1, if_true]
    obtain ⟨hmoved, hrest⟩ := ih hpiece.bad (n + c.2.length)
    have hall := hpiece.trans hrest
    rw [hpiece.mem, hread.mem] at hall
    rw [hstep]
    exact ⟨by rw [hmoved, List.map_cons, List.sum_cons, Nat.add_assoc], hall⟩

/-- An entry that has moved `n` of its bytes: OK where they are all, else MEM_ERR (R372). -/
def Queue.startedCopy (q : Queue) (e : List Byte) (n : Nat) : Started :=
  { q.startedEntry e with status := some (if n = natAt e 16 4 then 0 else 4), moved := n }

/-- The bytes that a DMA_TO_DEPOT moves, and its fetched state after the copy of `data` to depot address `a`. -/
def State.dmaIn (s : State) (qid : Nat) (q : Queue) (e data : List Byte) (a : Nat) : Nat × State :=
  ((s.fetchEntry qid q).readHost (s.fnOf (s.ctxPart q.ctx)) (BitVec.ofNat 64 (natAt e 24 8)) (natAt e 16 4)).copyIn 0
    (cutPieces 64 (natAt e 16 4) a data)

theorem dmaToDepot_next {data : List Byte} (hqid : qid < 4096) (hq : s.queue? qid = some q)
    (hready : s.sqReady q e = true) (hok : entryOk e = true) (hopc : natAt e 0 1 = 3) (hdir : natAt e 8 4 = 0)
    (hdata : data.length = natAt e 16 4) (hlen : natAt e 16 4 ≠ 0) (hdrain : s.depot.draining = false)
    (ha : s.dmaRange (s.ctxPart q.ctx) e (natAt e 16 4) = some a) :
    exec (.dmaToDepot qid e data) s =
      .next ((s.dmaIn qid q e data a).2.addStarted qid (q.startedCopy e (s.dmaIn qid q e data a).1)) := by
  show execDmaToDepot qid e data s = _
  simp only [execDmaToDepot, withQueue_lt _ hqid, hdrain, Bool.false_and, Bool.false_eq_true, if_false, hopc, hdir, hdata,
    decide_true, Bool.or_true, Bool.and_true, startEntryOf_acts hq hready hok, hlen, fetchEntry_ctxPart, fetchEntry_dmaRange, ha,
    fetchEntry_fnOf]
  rfl

theorem dmaIn_serves {data : List Byte} (hdata : data.length = natAt e 16 4) (hbad : s.depot.bad = []) :
    (s.dmaIn qid q e data a).1 = data.length ∧
      ∃ o, DepotServes (s.fetchEntry qid q) (s.dmaIn qid q e data a).2 (memWrite s.depot.mem a data) o := by
  have hbad' : (s.fetchEntry qid q).depot.bad = [] := by rw [fetchEntry_depot, hbad]
  obtain ⟨o, hread⟩ := DepotServes.readHost hbad' (s.fnOf (s.ctxPart q.ctx)) (BitVec.ofNat 64 (natAt e 24 8))
    (natAt e 16 4)
  obtain ⟨hmoved, hcopy⟩ := copyIn_serves hread.bad a data
  rw [hread.mem, fetchEntry_depot, hdata] at hcopy
  rw [hdata] at hmoved
  exact ⟨hmoved.trans hdata.symm, _, hread.trans hcopy⟩

/-- The write that carries one piece of a DMA_TO_HOST from depot address `a`. -/
def State.dmaWrite (s : State) (q : Queue) (e : List Byte) (a : Nat) (c : Nat × List Byte) : Out :=
  .pcieWrite (s.fnOf (s.ctxPart q.ctx)) (BitVec.ofNat 64 (natAt e 24 8) + BitVec.ofNat 64 (c.1 - a)) c.2
    (s.func (s.fnOf (s.ctxPart q.ctx))).relaxed

/-- The pieces of a DMA_TO_HOST. -/
def State.dmaPieces (s : State) (e : List Byte) (a : Nat) : List (Nat × List Byte) :=
  cutPieces 64 (natAt e 16 4) a (memRead s.depot.mem a (natAt e 16 4))

theorem dmaPieces_lengths (s : State) (e : List Byte) (a : Nat) :
    ((s.dmaPieces e a).map (fun c => c.2.length)).sum = natAt e 16 4 := by
  rw [State.dmaPieces, cutPieces_lengths (by decide) _ (Nat.le_of_eq (memRead_length ..)), memRead_length]

/-- The bytes that a DMA_TO_HOST moves, and its fetched state after the copy from depot address `a`. -/
def State.dmaOut (s : State) (qid : Nat) (q : Queue) (e : List Byte) (a : Nat) : Nat × State :=
  (s.fetchEntry qid q).copyOut 0 (s.dmaWrite q e a) (s.dmaPieces e a)

theorem dmaToHost_next (hqid : qid < 4096) (hq : s.queue? qid = some q) (hready : s.sqReady q e = true)
    (hok : entryOk e = true) (hopc : natAt e 0 1 = 3) (hdir : natAt e 8 4 = 1) (hlen : natAt e 16 4 ≠ 0)
    (hdrain : s.depot.draining = false) (ha : s.dmaRange (s.ctxPart q.ctx) e (natAt e 16 4) = some a) :
    exec (.dmaToHost qid e) s =
      .next ((s.dmaOut qid q e a).2.addStarted qid (q.startedCopy e (s.dmaOut qid q e a).1)) := by
  show execDmaToHost qid e s = _
  simp only [execDmaToHost, withQueue_lt _ hqid, hdrain, Bool.false_and, Bool.false_eq_true, if_false, hopc, hdir,
    decide_true, Bool.and_true, startEntryOf_acts hq hready hok, hlen, fetchEntry_ctxPart, fetchEntry_dmaRange, ha,
    fetchEntry_fnOf, fetchEntry_func, fetchEntry_depot]
  rfl

theorem dmaOut_serves (hbad : s.depot.bad = []) :
    (s.dmaOut qid q e a).1 = natAt e 16 4 ∧ DepotServes (s.fetchEntry qid q) (s.dmaOut qid q e a).2 s.depot.mem
      ((s.dmaPieces e a).map (s.dmaWrite q e a)) := by
  have hcopy := copyOut_serves (s := s.fetchEntry qid q) (by rw [fetchEntry_depot, hbad]) 0 (s.dmaWrite q e a)
    (s.dmaPieces e a)
  rwa [dmaPieces_lengths, Nat.zero_add, fetchEntry_depot] at hcopy

/-! ### START (R290, R291) -/

theorem bytesAt_eq_map (b : List Byte) (i n : Nat) : bytesAt b i n = (List.range n).map (fun k => b.getD (i + k) 0) := by
  apply List.ext_getElem
  · rw [bytesAt_length, List.length_map, List.length_range]
  · intro k hk _
    rw [bytesAt_length] at hk
    simp only [bytesAt, List.getElem_append, List.getElem_map, List.getElem_range, List.getElem_replicate,
      List.getElem_take, List.getElem_drop, List.length_take, List.length_drop]
    split
    · rw [List.getD_eq_getElem?_getD, List.getElem?_eq_getElem (by omega), Option.getD_some]
    · rw [List.getD_eq_getElem?_getD, List.getElem?_eq_none (by omega), Option.getD_none]

/-- The first bytes of a run are a shorter run. -/
theorem bytesAt_prefix (b : List Byte) (i : Nat) {k n : Nat} (h : k ≤ n) : bytesAt (bytesAt b i n) 0 k = bytesAt b i k := by
  rw [bytesAt_eq_map _ 0, bytesAt_eq_map b i k]
  refine List.map_congr_left fun j hj => ?_
  have hjn : j < n := Nat.lt_of_lt_of_le (List.mem_range.mp hj) h
  rw [Nat.zero_add, bytesAt_eq_map, List.getD_eq_getElem?_getD, List.getElem?_map, List.getElem?_range hjn]
  rfl

/-- The first of the bytes written read back. -/
theorem memRead_memWrite_prefix {m : List Host.Cell} (hm : Memory.wf m = true) (a : Nat) (d d' : List Byte) :
    memRead (memWrite m a (d ++ d')) a d.length = d := by
  rw [memWrite_append, memRead_memWrite_clear (wf_memWrite hm a d) _ _ _ _ (.inl (Nat.le_refl _)),
    memRead_memWrite_self hm]

/-- The table entry of a collective that START arms, of generation `gen` (Table 11.2). -/
def armedEntry (e : List Byte) (gen : Nat) : List Byte :=
  bytesAt (bytesAt e 12 44) 0 23 ++ leBytes 1 1 ++ bytesAt (bytesAt e 12 44) 24 8 ++
    leBytes 4 (collChunks (bytesAt e 12 44)) ++ bytesAt (bytesAt e 12 44) 36 8 ++ leBytes 4 gen

theorem armedEntry_eq (e : List Byte) (gen : Nat) :
    ∃ d, armedEntry e gen = bytesAt e 12 23 ++ 1 :: d := by
  rw [armedEntry, bytesAt_prefix _ _ (by decide)]
  simp only [List.append_assoc]
  exact ⟨_, rfl⟩

theorem armedEntry_length (e : List Byte) (gen : Nat) : (armedEntry e gen).length = 48 := by
  simp only [armedEntry, List.length_append, bytesAt_length, leBytes_length]

theorem armedEntry_state (e : List Byte) (gen : Nat) : (armedEntry e gen).getD 23 0 = 1 := by
  obtain ⟨d, hd⟩ := armedEntry_eq e gen
  rw [hd, List.getD_eq_getElem?_getD, List.getElem?_append_right (Nat.le_of_eq (bytesAt_length ..)), bytesAt_length]
  rfl

theorem armedEntry_gen {e : List Byte} {gen : Nat} (h : gen < 2 ^ 32) : natAt (armedEntry e gen) 44 4 = gen := by
  have hgen := natAt_field (n := 4) [] (Nat.lt_of_lt_of_le h (by decide))
  rw [List.append_nil] at hgen
  rw [armedEntry, natAt_append _ _ (by simp [bytesAt_length, leBytes_length])]
  simpa only [List.length_append, bytesAt_length, leBytes_length] using hgen

/-- A memory in which a table entry is armed: its state, its generation, what it copies, and the bytes outside it. -/
theorem memWrite_armedEntry {m : List Host.Cell} (hm : Memory.wf m = true) (a : Nat) (e : List Byte) {gen : Nat}
    (h : gen < 2 ^ 32) :
    memGet (memWrite m a (armedEntry e gen)) (a + 23) = 1 ∧
      natAt (memRead (memWrite m a (armedEntry e gen)) a 48) 44 4 = gen ∧
      memRead (memWrite m a (armedEntry e gen)) a 23 = bytesAt e 12 23 ∧
      ∀ k, (k < a ∨ a + 48 ≤ k) → memGet (memWrite m a (armedEntry e gen)) k = memGet m k := by
  have hself := memRead_memWrite_self hm a (armedEntry e gen)
  obtain ⟨d, hd⟩ := armedEntry_eq e gen
  have hprefix := memRead_memWrite_prefix hm a (bytesAt e 12 23) (1 :: d)
  rw [armedEntry_length] at hself
  rw [bytesAt_length, ← hd] at hprefix
  refine ⟨?_, by rw [hself, armedEntry_gen h], hprefix, fun k hk => ?_⟩
  · rw [memGet_memWrite hm, armedEntry_length, if_pos (by omega), Nat.add_sub_cancel_left, armedEntry_state]
  · rw [memGet_memWrite hm, armedEntry_length, if_neg (by omega)]

/-- The generation after that of the table entry at depot address `a`. -/
def State.nextGen (s : State) (a : Nat) : Nat := (natAt (memRead s.depot.mem a 48) 44 4 + 1) % 2 ^ 32

/-- The table entry at depot address `a` is read and armed: whether it is written. -/
def State.armEntry (s : State) (e : List Byte) (a : Nat) : Bool × State :=
  (s.depotRead a 48).2.2.depotStream a (armedEntry e (s.nextGen a))

theorem armEntry_serves (hbad : s.depot.bad = []) (e : List Byte) (a : Nat) :
    (s.armEntry e a).1 = true ∧
      DepotServes s (s.armEntry e a).2 (memWrite s.depot.mem a (armedEntry e (s.nextGen a))) [] := by
  have hread := DepotServes.depotRead hbad a 48
  obtain ⟨hwritten, hstored⟩ := DepotServes.depotStream hread.bad a (armedEntry e (s.nextGen a))
  rw [hread.mem] at hstored
  exact ⟨hwritten, hread.trans hstored⟩

/-- A START as it is listed: OK where its table entry is written, else MEM_ERR (R372). -/
def Queue.startedArm (q : Queue) (e : List Byte) (written : Bool) : Started :=
  { q.startedEntry e with status := some (if written then 0 else 4) }

theorem start_next {base : Nat} (hqid : qid < 4096) (hq : s.queue? qid = some q) (hready : s.sqReady q e = true)
    (hok : entryOk e = true) (hopc : natAt e 0 1 = 4) (hdrain : s.depot.draining = false) (hbad : s.depot.bad = [])
    (hbase : s.collTable (s.ctxPart q.ctx) = some base) (ha : a = base + natAt e 8 1 % 16 * 64)
    (hstatus : startStatus (bytesAt e 12 44) (natAt (memRead s.depot.mem a 48) 23 1) s.rooster.tickNo = 0) :
    exec (.start qid e) s = .next (((s.fetchEntry qid q).armEntry e a).2.addStarted qid
      (q.startedArm e ((s.fetchEntry qid q).armEntry e a).1)) := by
  have hread : ((s.fetchEntry qid q).depotRead a 48).1 = true :=
    (depotRead_holds (by rw [fetchEntry_depot, hbad]) a 48).1
  have hbytes : ((s.fetchEntry qid q).depotRead a 48).2.1 = memRead s.depot.mem a 48 := by
    rw [(depotRead_bytes _ a 48).1, fetchEntry_depot]
  subst ha
  show execStart qid e s = _
  simp only [execStart, withQueue_lt _ hqid, hdrain, Bool.false_eq_true, if_false, hopc, decide_true,
    startEntryOf_acts hq hready hok, fetchEntry_ctxPart, fetchEntry_collTable, hbase, hread, Bool.not_true, hbytes,
    fetchEntry_rooster, hstatus, ne_eq, not_true_eq_false, State.armEntry, State.nextGen, fetchEntry_depot]
  rfl

/-! ### Every kind of entry -/

/-- Settles O32, kind by kind of send entry. -/
theorem sendEntriesStart : Obligations.SendEntriesStart := by
  refine ⟨fun s qid q e c dst hqid hq hready hok hopc hlen hc hdst => ?_,
    fun s qid q e data dst t0 hqid hq hready hok hopc hdst htx => ?_,
    fun s qid a q e data hqid hq hready hok hopc hdir hdata hne hdrain ha hbad hm => ?_,
    fun s qid a q e hqid hq hready hok hopc hdir hlen hdrain ha hbad => ?_,
    fun s qid base a q e hqid hq hready hok hopc hdrain hbad hm hbase ha hstatus => ?_⟩
  · refine .of_next (bSend_next hqid hq hready hok hopc hlen hc hdst) ?_
    rw [addStarted_eq (queue_setQueue_self ..), Queue.startedB, Queue.startedEntry, hopc]
    exact ⟨queue_setQueue_self .., ctx_setCtx_self .., fetchEntry_ports s qid q, fetchEntry_depot s qid q,
      fetchEntry_counters s qid q⟩
  · refine .of_next (cSend_next hqid hq hready hok hopc hdst) ?_
    rw [addStarted_eq ((queueC_queue ..).trans (fetchCSend_queue s qid q e)), Queue.startedEntry, hopc]
    exact ⟨queueC_stream ((congrArg (assoc? · _) (fetchCSend_txs s qid q e)).trans htx) .., queue_setQueue_self ..,
      fetchCSend_ports s qid q e, fetchCSend_depot s qid q e, fetchCSend_ctxs s qid q e⟩
  · have hlen : natAt e 16 4 ≠ 0 := hdata ▸ mt List.eq_nil_of_length_eq_zero hne
    obtain ⟨hmoved, o, hserves⟩ := dmaIn_serves (s := s) (qid := qid) (q := q) (a := a) hdata hbad
    obtain ⟨hmem, hqueue, hctxs, hports, -⟩ := hserves.addStarted (q.startedCopy e data.length)
    refine .of_next (dmaToDepot_next hqid hq hready hok hopc hdir hdata hlen hdrain ha) ?_
    rw [hmoved]
    exact ⟨fun k => by rw [hmem, memGet_memWrite hm],
      by rw [hqueue, Queue.startedCopy, Queue.startedEntry, if_pos hdata, hopc], hctxs, hports⟩
  · obtain ⟨hmoved, hserves⟩ := dmaOut_serves (s := s) (qid := qid) (q := q) (e := e) (a := a) hbad
    obtain ⟨hmem, hqueue, hctxs, -, hout⟩ := hserves.addStarted (q.startedCopy e (natAt e 16 4))
    refine .of_next (dmaToHost_next hqid hq hready hok hopc hdir hlen hdrain ha) ?_
    rw [hmoved]
    exact ⟨⟨_, hout⟩, by rw [hqueue, Queue.startedCopy, Queue.startedEntry, if_pos rfl, hopc], hmem, hctxs⟩
  · obtain ⟨hwritten, hserves⟩ := armEntry_serves (s := s.fetchEntry qid q) (by rw [fetchEntry_depot, hbad]) e a
    obtain ⟨hmem, hqueue, -⟩ := hserves.addStarted (q.startedArm e true)
    obtain ⟨hstate, hgen, hcopied, hothers⟩ := memWrite_armedEntry (m := s.depot.mem) hm a e
      (Nat.mod_lt (natAt (memRead s.depot.mem a 48) 44 4 + 1) (by decide))
    refine .of_next (start_next hqid hq hready hok hopc hdrain hbad hbase ha hstatus) ?_
    rw [hwritten, hmem, hqueue, Queue.startedArm, Queue.startedEntry, hopc, State.nextGen, fetchEntry_depot]
    exact ⟨hstate, hgen, hcopied, hothers, rfl⟩

end Sys2Proof.Machine
end

section
/-! SUPPORT. Doorbells (R343, R361, R362, R365): what a write to a page does, by the queue whose page it is, and the page as a
register of BAR2. -/

namespace Sys2Proof.Machine

variable {s : State} {vf page p qid : Nat} {v : BitVec 32} {q : Queue} {kinds : List Nat}

/-! ### Entries posted and freed (R343, R344, R365) -/

/-- The queue after an accepted doorbell of an SQ or RQ. -/
def Queue.posted (q : Queue) (v : BitVec 32) : Queue := { q with pi := v.setWidth 16, lastDb := v.setWidth 16 }

/-- The queue after an accepted doorbell of a CQ. -/
def Queue.drained (q : Queue) (v : BitVec 32) : Queue := { q with ci := v.setWidth 16, lastDb := v.setWidth 16 }

theorem postEntries_sq (hk : q.kind = 1) (hfit : (v.setWidth 16 - q.ci).toNat ≤ (s.slotOf q).size) :
    s.postEntries p qid q v = s.setQueue qid (q.posted v) := by
  have h2 : q.kind ≠ 2 := by rw [hk]; decide
  simp only [State.postEntries, if_neg (Nat.not_lt.mpr hfit), if_neg h2, Queue.posted]

theorem postEntries_rq (hk : q.kind = 2) (hfit : (v.setWidth 16 - q.ci).toNat ≤ (s.slotOf q).size) :
    s.postEntries p qid q v = (s.setQueue qid (q.posted v)).serveRing qid := by
  simp only [State.postEntries, if_neg (Nat.not_lt.mpr hfit), hk, if_true, Queue.posted]

theorem postEntries_past (hpast : (s.slotOf q).size < (v.setWidth 16 - q.ci).toNat) :
    s.postEntries p qid q v = s.bumpPart p rkDbBad := if_pos hpast

theorem freeEntries_plain (harm : v.getLsbD 16 = false) (hfit : (q.pi - v.setWidth 16).toNat ≤ (s.slotOf q).size)
    (hrqs : s.rqsOn q = []) : s.freeEntries p qid q v = s.setQueue qid (q.drained v) := by
  simp only [State.freeEntries, if_neg (Nat.not_lt.mpr hfit), harm, hrqs, Bool.or_false, Bool.false_eq_true, if_false,
    List.foldl_nil, Queue.drained]

theorem freeEntries_arm (harm : v.getLsbD 16 = true) (hfit : (q.pi - v.setWidth 16).toNat ≤ (s.slotOf q).size)
    (hrqs : s.rqsOn q = []) :
    s.freeEntries p qid q v = (s.setQueue qid { q.drained v with armed := true }).cqTest qid := by
  simp only [State.freeEntries, if_neg (Nat.not_lt.mpr hfit), harm, hrqs, Bool.or_true, if_true, List.foldl_nil,
    Queue.drained]

theorem freeEntries_past (hpast : (s.slotOf q).size < (q.pi - v.setWidth 16).toNat) :
    s.freeEntries p qid q v = s.bumpPart p rkDbBad := if_pos hpast

/-! ### The page of a queue (R361, R362) -/

theorem doorbell_noQueue (ho : s.pathOpen (.vf vf) = true) (hq : s.queue? (32 * (vf - 1) + page) = none) :
    s.doorbell vf page v kinds = s.bumpPart (vf - 1) rkDbBad := by
  simp only [State.doorbell, ho, hq, Bool.not_true, Bool.false_eq_true, if_false]

/-- Bits above ARM are out of range, whatever the queue. -/
theorem doorbell_outOfRange (ho : s.pathOpen (.vf vf) = true) (hq : s.queue? (32 * (vf - 1) + page) = some q)
    (hv : 2 ^ 17 ≤ v.toNat) : s.doorbell vf page v kinds = s.bumpPart (vf - 1) rkDbBad := by
  have hbits : v.toNat / 2 ^ 17 ≠ 0 := Nat.ne_of_gt (Nat.div_pos hv (by decide))
  simp only [State.doorbell, ho, hq, Bool.not_true, Bool.false_eq_true, if_false, if_pos hbits]

/-- A doorbell of the kind of its queue, in range. -/
theorem doorbell_rung (ho : s.pathOpen (.vf vf) = true) (hq : s.queue? (32 * (vf - 1) + page) = some q)
    (hv : v.toNat < 2 ^ 17) (hk : kinds.contains q.kind = true) :
    s.doorbell vf page v kinds =
      if q.kind = 3 then s.freeEntries (vf - 1) (32 * (vf - 1) + page) q v
      else s.postEntries (vf - 1) (32 * (vf - 1) + page) q v := by
  simp only [State.doorbell, ho, hq, Bool.not_true, Bool.false_eq_true, if_false, Nat.div_eq_of_lt hv, ne_eq,
    not_true_eq_false, hk]

theorem doorbell_posts (ho : s.pathOpen (.vf vf) = true) (hq : s.queue? (32 * (vf - 1) + page) = some q)
    (hv : v.toNat < 2 ^ 17) {k : Nat} (hk : q.kind = k) (h3 : k ≠ 3) :
    s.doorbell vf page v [k] = s.postEntries (vf - 1) (32 * (vf - 1) + page) q v := by
  rw [doorbell_rung ho hq hv (by simp [hk]), if_neg (hk ▸ h3)]

theorem doorbell_frees (ho : s.pathOpen (.vf vf) = true) (hq : s.queue? (32 * (vf - 1) + page) = some q)
    (hv : v.toNat < 2 ^ 17) (hk : q.kind = 3) :
    s.doorbell vf page v [3] = s.freeEntries (vf - 1) (32 * (vf - 1) + page) q v := by
  rw [doorbell_rung ho hq hv (by simp [hk]), if_pos hk]

/-- Kinds that both hold the queue's make no difference. -/
theorem doorbell_kinds (hq : s.queue? (32 * (vf - 1) + page) = some q) {kinds' : List Nat}
    (hk : kinds.contains q.kind = true) (hk' : kinds'.contains q.kind = true) :
    s.doorbell vf page v kinds = s.doorbell vf page v kinds' := by
  simp only [State.doorbell, hq, hk, hk']

/-! ### ARM (R365) -/

theorem setArm_lt (hv : v.toNat < 2 ^ 17) : (v ||| 0x10000).toNat < 2 ^ 17 := by
  rw [BitVec.toNat_or]
  exact Nat.or_lt_two_pow hv (by decide)

theorem setArm_outOfRange (hv : 2 ^ 17 ≤ v.toNat) : 2 ^ 17 ≤ (v ||| 0x10000).toNat := by
  rw [BitVec.toNat_or]
  exact Nat.le_trans hv Nat.left_le_or

theorem setArm_arm (v : BitVec 32) : (v ||| 0x10000).getLsbD 16 = true := by simp

theorem setArm_index (v : BitVec 32) : (v ||| 0x10000).setWidth 16 = v.setWidth 16 := by
  rw [BitVec.setWidth_or]
  exact BitVec.or_zero

theorem arm_of_lt (hv : v.toNat < 2 ^ 16) : v.getLsbD 16 = false := Nat.testBit_lt_two_pow hv

/-! ### The commands -/

theorem withPage_lt (r : Res) (hvf : vf < 129) (hp : page < 32) : withPage vf page r = r := by
  rw [withPage, withFunc_lt _ hvf, decide_eq_true hp, withUnit_true]

theorem exec_sqDoorbell (hvf : vf < 129) (hp : page < 32) (v : BitVec 32) (s : State) :
    exec (.sqDoorbell vf page v) s = .next (s.doorbell vf page v [1]) := withPage_lt _ hvf hp
theorem exec_rqDoorbell (hvf : vf < 129) (hp : page < 32) (v : BitVec 32) (s : State) :
    exec (.rqDoorbell vf page v) s = .next (s.doorbell vf page v [2]) := withPage_lt _ hvf hp
theorem exec_cqDoorbell (hvf : vf < 129) (hp : page < 32) (v : BitVec 32) (s : State) :
    exec (.cqDoorbell vf page v) s = .next (s.doorbell vf page v [3]) := withPage_lt _ hvf hp
theorem exec_cqArm (hvf : vf < 129) (hp : page < 32) (v : BitVec 32) (s : State) :
    exec (.cqArm vf page v) s = .next (s.doorbell vf page (v ||| 0x10000) [3]) := withPage_lt _ hvf hp

/-! ### The page as a register (R9, R361) -/

/-- The page of a queue is a 32-bit register that shows the last index accepted. -/
theorem regAt_bell (h1 : 1 ≤ vf) (hvf : vf < 129) (hp : page < 32) (hq : s.queue? (32 * (vf - 1) + page) = some q) :
    s.regAt (.bell vf) (page * 0x1000) = some ⟨false, q.lastDb.toNat, .doorbell vf page⟩ := by
  have hpage : page * 0x1000 / 0x1000 = page := Nat.mul_div_cancel _ (by decide)
  simp only [State.regAt, State.bellReg, h1, Nat.le_of_lt_succ hvf, hpage, hp, hq, Nat.mul_mod_left, decide_true,
    Bool.and_self, if_true]

theorem write_bell (h1 : 1 ≤ vf) (hvf : vf < 129) (hp : page < 32) (ho : s.pathOpen (.vf vf) = true)
    (hq : s.queue? (32 * (vf - 1) + page) = some q) :
    s.writeAt (.bell vf) (page * 0x1000) 4 (v.setWidth 64) = s.doorbell vf page v [1, 2, 3] := by
  have hv : BitVec.ofNat 32 ((v.setWidth 64).toNat % 2 ^ 32) = v := by
    have hlt := v.isLt
    apply BitVec.eq_of_toNat_eq
    simp only [BitVec.toNat_ofNat, BitVec.toNat_setWidth]
    omega
  rw [writeAt_four (path := .bell vf) ho (by omega), write32_narrow (regAt_bell h1 hvf hp hq) rfl]
  exact congrArg (s.doorbell vf page · [1, 2, 3]) hv

/-- A write of four bytes rings the doorbell of the queue's own kind. -/
theorem registerWrite_bell (h1 : 1 ≤ vf) (hvf : vf < 129) (hp : page < 32) (ho : s.pathOpen (.vf vf) = true)
    (hq : s.queue? (32 * (vf - 1) + page) = some q) {k : Nat} (hk : q.kind = k) (hmem : k ∈ [1, 2, 3]) :
    exec (.registerWrite (.bell vf) (page * 0x1000) 4 (v.setWidth 64)) s = .next (s.doorbell vf page v [k]) := by
  show Host.Outcome.next (s.writeAt (.bell vf) (page * 0x1000) 4 (v.setWidth 64)) = _
  rw [write_bell h1 hvf hp ho hq, doorbell_kinds hq (kinds' := [k]) (by simpa [hk] using hmem) (by simp [hk])]

/-- An open page can be read. -/
theorem readable_bell (ho : s.pathOpen (.vf vf) = true) : s.readable (.bell vf) = true := by
  simp only [State.pathOpen, State.alive, State.vfUp, Bool.and_eq_true] at ho
  obtain ⟨⟨⟨⟨hcold, -⟩, -⟩, hready⟩, ⟨-, hexists⟩, hflr⟩ := ho
  simp only [State.readable, hcold, hready, hexists, hflr, Bool.and_self]

theorem read_bell (h1 : 1 ≤ vf) (hvf : vf < 129) (hp : page < 32) (ho : s.pathOpen (.vf vf) = true)
    (hq : s.queue? (32 * (vf - 1) + page) = some q) :
    s.readOut (.bell vf) (page * 0x1000) 4 = s.emit (.mmioRead (q.lastDb.setWidth 64)) := by
  have hread : s.readAt (.bell vf) (page * 0x1000) 4 = (q.lastDb.toNat, s) := by
    have haligned : page * 0x1000 % 4 = 0 := by omega
    simp only [State.readAt, State.snapshotAt, haligned, State.read32, regAt_bell h1 hvf hp hq]
    rfl
  rw [readOut_readable (path := .bell vf) nofun (readable_bell ho), hread, BitVec.ofNat_toNat]

/-- A page takes no write of eight bytes (R362). -/
theorem writeAt_bell_eight (s : State) (vf off : Nat) (w : Word) : s.writeAt (.bell vf) off 8 w = s := by
  simp [State.writeAt, takes64]

/-- Settles O31, by the queue whose page it is. -/
theorem doorbellsMoveIndices : Obligations.DoorbellsMoveIndices := by
  intro s vf page v h1 hvf hp ho
  rw [exec_sqDoorbell hvf hp, exec_rqDoorbell hvf hp, exec_cqDoorbell hvf hp, exec_cqArm hvf hp]
  refine ⟨fun q hq hv hk hfit => ?_, fun q hq hv hk hfit => ?_, fun q hq hv hk hfit hrqs => ?_,
    fun q hq hv hk hfit hrqs => ?_, fun hq => ?_, fun q hq hv => ?_, fun q hq hv => ⟨fun hk hpast => ?_, fun hk hpast => ?_,
      fun hk hpast => ⟨?_, ?_⟩⟩, fun q hq => ⟨fun hk => ?_, fun hk => ?_, fun hk => ?_, ?_⟩, fun w off => ?_⟩
  · rw [doorbell_posts ho hq hv hk (by decide), postEntries_sq hk hfit, Queue.posted]
  · rw [doorbell_posts ho hq hv hk (by decide), postEntries_rq hk hfit, Queue.posted]
  · rw [doorbell_frees ho hq (by omega) hk, freeEntries_plain (arm_of_lt hv) hfit hrqs, Queue.drained]
  · rw [doorbell_frees ho hq (setArm_lt (by omega)) hk,
      freeEntries_arm (setArm_arm v) (by rwa [setArm_index]) hrqs, Queue.drained, setArm_index]
  · simp only [doorbell_noQueue ho hq, and_self]
  · simp only [doorbell_outOfRange ho hq hv, doorbell_outOfRange ho hq (setArm_outOfRange hv), and_self]
  · rw [doorbell_posts ho hq hv hk (by decide), postEntries_past hpast]
  · rw [doorbell_posts ho hq hv hk (by decide), postEntries_past hpast]
  · rw [doorbell_frees ho hq hv hk, freeEntries_past hpast]
  · rw [doorbell_frees ho hq (setArm_lt hv) hk, freeEntries_past (by rwa [setArm_index])]
  · exact registerWrite_bell h1 hvf hp ho hq hk (by decide)
  · exact registerWrite_bell h1 hvf hp ho hq hk (by decide)
  · exact registerWrite_bell h1 hvf hp ho hq hk (by decide)
  · exact congrArg Host.Outcome.next (read_bell h1 hvf hp ho hq)
  · exact congrArg Host.Outcome.next (writeAt_bell_eight s vf off w)

end Sys2Proof.Machine
end

section
/-! SUPPORT. The counters of the queues (R352) are none of those by which frames are counted on their way through the switch, so
that a frame of this Dolmo's own leaves them. -/

namespace Sys2Proof.Machine

variable {s t : State} {q d p k n : Nat}

/-! ### Indices (R515) -/

/-- The counters of queues are the first of their instances, and the switch counts nothing in the first of a port. -/
@[simp] theorem queueCtr_ne_portCtr (hk : k % 2 ^ 16 ≠ 0) : queueCtr q ≠ portCtr p k := by
  simp only [queueCtr, portCtr, ctrIndex]; omega

@[simp] theorem queueCtr_ne_dieCtr (hd : d < 2) (hk : k < 2 ^ 16) : queueCtr q ≠ dieCtr d k := by
  simp only [queueCtr, dieCtr, ctrIndex]; omega

@[simp] theorem queueCtr_ne_devCtr (hk : k < 2 ^ 16) : queueCtr q ≠ devCtr k := by
  simp only [queueCtr, devCtr, ctrIndex]; omega

@[simp] theorem homeDie_lt (i : Nat) : homeDie i < 2 := by unfold homeDie; split <;> decide
@[simp] theorem descDie_lt (n : Nat) : descDie n < 2 := by unfold descDie; split <;> decide

/-! ### Updates that count nothing -/

theorem ctr_ite {c : Prop} [Decidable c] (i : Nat) : (if c then s else t).ctr i = if c then s.ctr i else t.ctr i :=
  apply_ite (State.ctr · i) ..

@[simp] theorem ctr_setDie (s : State) (d i : Nat) (v : Die) : (s.setDie d v).ctr i = s.ctr i :=
  ctr_congr (setDie_counters ..) i
@[simp] theorem ctr_emit (s : State) (o : Out) (i : Nat) : (s.emit o).ctr i = s.ctr i := rfl
@[simp] theorem ctr_mgmtCause (s : State) (b i : Nat) : (s.mgmtCause b).ctr i = s.ctr i :=
  ctr_congr (mgmtCause_counters ..) i

theorem ctr_henFree (s : State) (d : Nat) (b : Buffer) (i : Nat) : (s.henFree d b).ctr i = s.ctr i := by
  cases b with
  | none => rfl
  | pool k o => exact ctr_setDie ..
  | reserve w => exact ctr_setDie ..

theorem ctr_charge (s : State) (c : Charge) (n i : Nat) : (s.charge c n).ctr i = s.ctr i := by cases c <;> rfl

theorem ctr_uncharge (s : State) (c : Charge) (n i : Nat) : (s.uncharge c n).ctr i = s.ctr i := by
  cases c with
  | acct j b => unfold State.uncharge; dsimp only; split <;> rfl
  | sIn p => rfl
  | own p => rfl

theorem ctr_addWait (s : State) (w : HenWait) (i : Nat) : (s.addWait w).ctr i = s.ctr i := by
  unfold State.addWait
  simp only [ctr_ite, ctr_charge, ctr_setDie, ite_self]

/-! ### Frames stored and let go (R172, R173, R179, R180) -/

theorem henTake_queueCtr (hd : d < 2) (s : State) (b : Buffer) (fb : Bool) :
    (s.henTake d b fb).ctr (queueCtr q) = s.ctr (queueCtr q) := by
  unfold State.henTake
  cases b <;> simp [ctr_ite, hd, ikHenFallback, ikHenReserveUse]

theorem noBuffer_queueCtr (hd : d < 2) (s : State) : (s.noBuffer d).ctr (queueCtr q) = s.ctr (queueCtr q) := by
  unfold State.noBuffer
  simp [ctr_ite, hd, ikNoBuffer]

theorem henStore_queueCtr (hd : d < 2) (s : State) (b : Buffer) (fb : Bool) (h : Header) (payload : List Byte) (crowd : Bool)
    (refs : Nat) (c : Charge) :
    (s.henStore d b fb h payload crowd refs c).2.ctr (queueCtr q) = s.ctr (queueCtr q) := by
  unfold State.henStore
  split
  · exact noBuffer_queueCtr hd s
  · exact (ctr_charge ..).trans (henTake_queueCtr hd s b fb)

theorem release_queueCtr (s : State) (n : Nat) : (s.release n).ctr (queueCtr q) = s.ctr (queueCtr q) := by
  unfold State.release
  split
  · simp [ctr_count_ne _ _ (queueCtr_ne_dieCtr (descDie_lt n) (show ikHenRefErr < 2 ^ 16 by decide))]
  · split
    · exact (ctr_setDie ..).trans ((ctr_uncharge ..).trans (ctr_henFree ..))
    · rfl

theorem releaseEntry_queueCtr (s : State) (e : QEntry) : (s.releaseEntry e).ctr (queueCtr q) = s.ctr (queueCtr q) := by
  unfold State.releaseEntry
  split
  · exact release_queueCtr ..
  · rfl

/-! ### Copies to an egress (R148, R160, R164, R165) -/

theorem startEntry_queueCtr (s : State) (p : Nat) (e : QEntry) :
    (s.startEntry p e false).ctr (queueCtr q) = s.ctr (queueCtr q) := by
  unfold State.startEntry
  simp [ctr_ite, pkCrowdTx, State.crossBridge]

theorem enqueue_queueCtr (s : State) (p : Nat) (e : QEntry) :
    (s.enqueue p e).ctr (queueCtr q) = s.ctr (queueCtr q) := by
  have hdrop (k : Nat) (hk : k % 2 ^ 16 ≠ 0) :
      ((s.releaseEntry e).bumpPort p k).ctr (queueCtr q) = s.ctr (queueCtr q) := by
    rw [bumpPort_eq, ctr_count_ne _ _ (queueCtr_ne_portCtr hk), releaseEntry_queueCtr]
  have hpart := hdrop pkPartDrop (by decide)
  have hquar := hdrop pkQuarantineDrop (by decide)
  have hlate := hdrop pkLateTx (by decide)
  have hlimit := hdrop pkSLimitDrop (by decide)
  have hdown := hdrop pkDownDrop (by decide)
  unfold State.enqueue
  dsimp only
  cases e.hdr.cls <;> simp only [ctr_ite, hpart, hquar, hlate, hlimit, hdown, ctr_setPort, ite_self]

theorem place_queueCtr (s : State) (ing hold p : Nat) (e : QEntry) :
    (s.place ing hold e p).ctr (queueCtr q) = s.ctr (queueCtr q) := by
  have hk (c : Bool) : (if c = true then pkMcDownDrop else pkMcResidueDrop) % 2 ^ 16 ≠ 0 := by cases c <;> decide
  unfold State.place State.startNow
  simp only [ctr_ite, startEntry_queueCtr, ctr_setPort, modPort_eq, bumpPort_eq, ctr_count_ne _ _ (queueCtr_ne_portCtr (hk _)),
    releaseEntry_queueCtr, enqueue_queueCtr, ite_self]

theorem storeCopies_queueCtr (s : State) (ing : Nat) (h : Header) (payload : List Byte) (crowd : Bool) (d : Dest) (b : Buffer)
    (fb : Bool) : (s.storeCopies ing h payload crowd d b fb false none).2.ctr (queueCtr q) = s.ctr (queueCtr q) := by
  have hs := henStore_queueCtr (q := q) (homeDie_lt ing) s b fb h payload crowd d.refs
    (chargeOf ing h (none : Option (Nat × Nat)).isSome)
  unfold State.storeCopies
  dsimp only
  split
  next heq => rwa [heq] at hs
  next heq =>
    rw [heq] at hs
    exact List.foldlRecOn (motive := fun t : State => t.ctr (queueCtr q) = s.ctr (queueCtr q)) _ _ hs
      fun t ht _ _ => (place_queueCtr ..).trans ht

/-! ### A frame of this Dolmo's own (R143, R150, R159) -/

/-- An endpoint of this Dolmo has no port, so that its frames count in no port as they are routed. -/
theorem route_queueCtr {ing : Nat} (hing : 49 ≤ ing) (s : State) (h : Header) :
    (s.route ing h).1.ctr (queueCtr q) = s.ctr (queueCtr q) :=
  route_fst (P := fun t => t.ctr (queueCtr q) = s.ctr (queueCtr q)) rfl
    (fun k => by rw [State.bumpIng, if_neg (Nat.not_lt.mpr hing)]) (by simp [dkTwinDrop])

theorem sendLocal_queueCtr {ing : Nat} (hing : 49 ≤ ing) (s : State) (h : Header) (payload : List Byte) :
    (s.sendLocal ing h payload).ctr (queueCtr q) = s.ctr (queueCtr q) := by
  have hr := route_queueCtr (q := q) hing s h
  unfold State.sendLocal
  split
  next heq => rwa [heq] at hr
  next heq =>
    rw [heq] at hr
    rw [← hr]
    simp only [ctr_ite, ctr_addWait]
    split
    · rfl
    · split
      · rfl
      · split
        · exact noBuffer_queueCtr (homeDie_lt _) _
        · exact ctr_addWait ..
        · exact storeCopies_queueCtr ..

end Sys2Proof.Machine
end

section
/-! SUPPORT. Send entries end (R343, R347, R352, R372): the record of an entry, the status that a bad read leaves, and what the
end of a hold drops. -/

namespace Sys2Proof.Machine

variable {s : State} {qid n st : Nat} {q v : Queue} {x : Started}

/-! ### Records (R343, R344, R365) -/

/-- A test of a CQ leaves its indices and its reserved entries. -/
theorem cqTest_queue_self (hv : s.queue? n = some v) :
    ∃ w, (s.cqTest n).queue? n = some w ∧ w.pi = v.pi ∧ w.reserved = v.reserved ∧ w.ci = v.ci := by
  simp only [State.cqTest, hv]
  split
  · exact ⟨_, (congrArg (Tbl.get? · n) (fire_queues ..)).trans (queue_setQueue_self ..), rfl, rfl, rfl⟩
  · exact ⟨v, hv, rfl, rfl, rfl⟩

theorem cqTest_queue_ne {m : Nat} (h : m ≠ n) (s : State) : (s.cqTest n).queue? m = s.queue? m := by
  unfold State.cqTest
  split
  · rfl
  · split
    · exact (congrArg (Tbl.get? · m) (fire_queues ..)).trans (queue_setQueue_ne _ _ h)
    · rfl

/-- A CQ with one record more. -/
def Queue.recorded (v : Queue) (reserved eligible event : Bool) (now : Nat) : Queue :=
  { v with
    pi := v.pi + 1
    reserved := if reserved then v.reserved - 1 else v.reserved
    pending := if eligible then min 65535 (v.pending + 1) else v.pending
    firstAt := if eligible && v.pending = 0 then some now else v.firstAt
    event := v.event || event }

/-- A record has gone out at the producer index of its CQ, and then the index. -/
def State.recordSent (s : State) (n : Nat) (v : Queue) (rcd : List Byte) (reserved eligible event : Bool) : State :=
  ((s.setQueue n (v.recorded reserved eligible event s.time)).emit (.pcieWrite (s.fnOf (s.ctxPart v.ctx))
    ((s.slotOf v).base + BitVec.ofNat 64 (v.pi.toNat % (s.slotOf v).size * 32)) rcd false)).emit
    (.pcieWrite (s.fnOf (s.ctxPart v.ctx)) (s.slotOf v).wb (leBytes 4 (v.pi + 1).toNat) false)

theorem writeRecord_eq (hv : s.queue? n = some v) (rcd : List Byte) (reserved eligible event : Bool) :
    s.writeRecord n rcd reserved eligible event = (s.recordSent n v rcd reserved eligible event).cqTest n := by
  simp only [State.writeRecord, hv]
  rfl

/-- A record into a reserved entry moves the producer index of its CQ. -/
theorem writeRecord_queue_self (hv : s.queue? n = some v) (rcd : List Byte) (eligible event : Bool) :
    ∃ w, (s.writeRecord n rcd true eligible event).queue? n = some w ∧ w.pi = v.pi + 1 ∧ w.reserved = v.reserved - 1 ∧
      w.ci = v.ci := by
  have hsent : (s.recordSent n v rcd true eligible event).queue? n = some (v.recorded true eligible event s.time) :=
    queue_setQueue_self ..
  rw [writeRecord_eq hv]
  exact cqTest_queue_self hsent

theorem writeRecord_queue_ne {m : Nat} (h : m ≠ n) (s : State) (rcd : List Byte) (reserved eligible event : Bool) :
    (s.writeRecord n rcd reserved eligible event).queue? m = s.queue? m := by
  unfold State.writeRecord
  split
  · rfl
  · exact (cqTest_queue_ne h _).trans (queue_setQueue_ne _ _ h)

/-- A record goes out, then the producer index, then what message they cause. -/
theorem writeRecord_sends (hv : s.queue? n = some v) (rcd : List Byte) (reserved eligible event : Bool) :
    ∃ l, (s.writeRecord n rcd reserved eligible event).out = s.out ++
      .pcieWrite (s.fnOf (s.ctxPart v.ctx))
        ((s.slotOf v).base + BitVec.ofNat 64 (v.pi.toNat % (s.slotOf v).size * 32)) rcd false ::
      .pcieWrite (s.fnOf (s.ctxPart v.ctx)) (s.slotOf v).wb (leBytes 4 (v.pi + 1).toNat) false :: l := by
  obtain ⟨l, hl⟩ := cqTest_out (s.recordSent n v rcd reserved eligible event) n
  refine ⟨l, ?_⟩
  rw [writeRecord_eq hv, ← hl, State.recordSent, emit_out, emit_out, setQueue_out, List.append_assoc, List.append_assoc]
  rfl

/-! ### A known outcome (R342, R347) -/

/-- The record of an entry of queue `q` that ends with status `st` (Table 13.6). -/
def State.entryRecord (s : State) (q : Queue) (x : Started) (st : Nat) : List Byte :=
  leBytes 1 16 ++ leBytes 1 st ++ leBytes 1 q.slot ++ leBytes 1 x.opc ++ leBytes 4 x.tag.toNat ++
    leBytes 4 (if x.opc = 1 then x.msg.toNat else 0) ++ leBytes 4 0 ++ leBytes 8 x.moved ++ leBytes 4 0 ++
    leBytes 4 (s.rooster.tickNo.toNat % 2 ^ 32)

/-- The queue without the entry of index `idx`. -/
def Queue.ended (q : Queue) (idx : Nat) : Queue := { q with started := q.started.filter (fun y => y.idx ≠ idx) }

/-- A queue that is not being disabled stays. -/
theorem sqSettle_enabled (hq : s.queue? qid = some q) (hd : (s.slotOf q).disabling = false) : s.sqSettle qid = s := by
  simp only [State.sqSettle, hq, hd, Bool.false_and, Bool.false_eq_true, if_false]

theorem sendEntryComplete_next (hqid : qid < 4096) (hq : s.queue? qid = some q)
    (hx : q.started.find? (fun y => y.idx = x.idx) = some x) (hst : x.status = some st) (hcq : s.cqOf q = some n)
    (hne : n ≠ qid) (hd : (s.slotOf q).disabling = false) :
    exec (.sendEntryComplete qid x.idx) s =
      .next ((s.setQueue qid (q.ended x.idx)).writeRecord n (s.entryRecord q x st) true true false) := by
  have hslot (t : State) (ht : t.qslots = s.qslots) : (t.slotOf (q.ended x.idx)).disabling = false := by
    rw [← hd]
    simp only [State.slotOf, State.qslot, ht, Queue.ended]
  show execSendEntryComplete qid x.idx s = _
  simp only [execSendEntryComplete, withQueue_lt _ hqid, hq, hx, hst, hcq]
  refine congrArg Host.Outcome.next (sqSettle_enabled (q := q.ended x.idx) ?_ (hslot _ (writeRecord_qslots ..)))
  exact (writeRecord_queue_ne hne.symm ..).trans (queue_setQueue_self ..)

/-! ### A bad read (R372) -/

/-- An entry of which no stream holds a frame has none to withdraw. -/
theorem withdrawEntry_absent {e : Nat × Nat} (h : ∀ y ∈ s.txs, ∀ u ∈ y.2.unacked, u.entry ≠ some e) :
    s.withdrawEntry e = s := by
  unfold State.withdrawEntry
  refine List.foldlRecOn (motive := fun t => t = s) _ _ rfl fun t ht y hy => ?_
  have hnone : y.2.unacked.find? (fun u => u.entry = some e && u.sends = 0) = none :=
    List.find?_eq_none.mpr fun u hu => by simp [h y hy u hu]
  rw [hnone]
  exact ht

theorem dmaReadError_next {idx : Nat} (hqid : qid < 4096) (hq : s.queue? qid = some q) (hx : ∃ x ∈ q.started, x.idx = idx)
    (htxs : ∀ y ∈ s.txs, ∀ u ∈ y.2.unacked, u.entry ≠ some (qid, idx)) (e : List Byte) :
    exec (.dmaReadError qid idx false e) s = .next (s.setQueue qid { q with
      started := q.started.map (fun x => if x.idx = idx then { x with status := some (x.status.getD 4) } else x) }) := by
  have hany : q.started.any (fun x => x.idx = idx) = true := by simpa using hx
  show execDmaReadError qid idx false e s = _
  simp only [execDmaReadError, withQueue_lt _ hqid, hq, hany, Bool.not_false, Bool.and_self, if_true,
    withdrawEntry_absent htxs, State.setEntry]

/-! ### The end of a hold (R212, R352) -/

theorem endIng_ge (mule : Bool) : 49 ≤ endIng mule := by cases mule <;> decide

/-- A LOSS echo counts on no queue. -/
theorem lossEcho_queueCtr (s : State) (k : MsgKey) (part : Nat) (mule : Bool) (j : Nat) :
    (s.lossEcho k part mule).ctr (queueCtr j) = s.ctr (queueCtr j) := by
  have hecho (t : State) (marked total : Nat) :
      (t.sendEcho mule k.src part k.ctx k.msg marked total 2).ctr (queueCtr j) = t.ctr (queueCtr j) :=
    (sendLocal_queueCtr (endIng_ge mule) ..).trans (ctr_count_ne t 1 (queueCtr_ne_devCtr (by decide)))
  unfold State.lossEcho
  dsimp only
  split
  · exact hecho ..
  · exact hecho ..

/-- A message that is dropped on a queue's account counts there once. -/
theorem dropMsg_queueCtr (s : State) (m : OpenMsg) (j : Nat) :
    (s.dropMsg m (queueCtr j)).ctr (queueCtr j) = satAdd (queueCtr j) (s.ctr (queueCtr j)) 1 := by
  obtain ⟨u, hback, hvoid⟩ := voidMsg_takes s m
  rw [State.dropMsg, lossEcho_queueCtr, ctr_bump_self, hvoid]
  exact congrArg (satAdd _ · 1) (ctr_congr hback.counters _)

theorem ringHoldExpiry_next {k : MsgKey} {m : OpenMsg} (hm : s.msgs.find? (fun y => y.key = k) = some m)
    (hhold : m.hold = some n) (hq : s.queue? m.qid = some q) (hlong : (s.slotOf q).ringHold ≤ n) :
    exec (.ringHoldExpiry k) s = .next (s.dropMsg m (queueCtr m.qid)) := by
  show execRingHoldExpiry k s = _
  simp only [execRingHoldExpiry, hm, hhold, hq, hlong, if_true]

/-- Settles O33: the record of an entry, its status after a bad read, and the message of a hold that is over. -/
theorem sendEntriesComplete : Obligations.SendEntriesComplete := by
  refine ⟨fun s qid n st q v x hqid hq hx hst hcq hne hv hd => .of_next (sendEntryComplete_next hqid hq hx hst hcq hne hd) ?_,
    fun s qid idx q e hqid hq hx htxs => dmaReadError_next hqid hq hx htxs e,
    fun s k m n q hm hhold hq hlong => .of_next (ringHoldExpiry_next hm hhold hq hlong) ?_⟩
  · have hv' : (s.setQueue qid (q.ended x.idx)).queue? n = some v := (queue_setQueue_ne _ _ hne).trans hv
    exact ⟨(writeRecord_queue_ne hne.symm ..).trans (queue_setQueue_self ..), writeRecord_queue_self hv' ..,
      writeRecord_sends hv' .., writeRecord_depot .., writeRecord_counters ..⟩
  · obtain rfl : m.key = k := by simpa using List.find?_some hm
    obtain ⟨u, l, ⟨hmsgs, hdead, hthreads, -, -, hmem⟩, hbeyond, -⟩ := dropMsg_keeps s m (queueCtr m.qid)
    rw [beyondSwitch_count, beyondSwitch_count] at hbeyond
    exact ⟨(congrArg State.msgs hbeyond).trans hmsgs,
      (congrArg State.deadMsgs hbeyond).trans (congrArg (· ++ [m.key]) hdead), dropMsg_queueCtr s m m.qid,
      (congrArg State.threads hbeyond).trans hthreads, (congrArg (fun t => t.depot.mem) hbeyond).trans hmem⟩

end Sys2Proof.Machine
end

section
/-! SUPPORT. Drain-and-swap (R458, R459): a change that is pending alone lands where its landing condition holds, or is rolled
back at the 64th hinge, and either way is pending no longer. -/

namespace Sys2Proof.Machine

variable {s : State} {d : DrainPending}

/-! ### A pending change is gone -/

/-- The list of pending changes without those of the setting of `d`. -/
def Gate.without (g : Gate) (d : DrainPending) : Gate :=
  { g with drains := g.drains.filter (fun x => !x.req.sameSetting d.req) }

theorem without_drains {g : Gate} (hd : g.drains = [d]) (hself : d.req.sameSetting d.req = true) :
    (g.without d).drains = [] := by
  rw [Gate.without, hd, List.filter_cons_of_neg (by simp [hself]), List.filter_nil]

/-- Of the rest of the machine only a die can see that a change is gone. -/
theorem dropDrain_eq (s : State) (d : DrainPending) :
    ∃ w e, s.dropDrain d = { s with gate := s.gate.without d, west := w, east := e } := by
  unfold State.dropDrain
  split
  · obtain ⟨w, e, h⟩ := setDie_eq ({ s with gate := s.gate.without d } : State) _ _
    exact ⟨w, e, h⟩
  · exact ⟨s.west, s.east, rfl⟩

/-- No die sees it where the change is none of pools. -/
theorem dropDrain_plain (hpools : ∀ v, d.req ≠ .setPools v) (s : State) :
    s.dropDrain d = { s with gate := s.gate.without d } := by
  unfold State.dropDrain
  split
  next h => exact absurd h (hpools _)
  next => rfl

/-! ### Landing (R458, Table 19.6) -/

/-- A change of the PF that lands is logged. -/
def State.loggedLanding (s : State) (d : DrainPending) : State :=
  if d.slot = 1 then { s with gate := { s.gate with log := s.gate.log ++ [d.code] } } else s

theorem loggedLanding_eq (s : State) (d : DrainPending) :
    ∃ l, s.loggedLanding d = { s with gate := { s.gate with log := l } } := by
  unfold State.loggedLanding
  split
  · exact ⟨_, rfl⟩
  · exact ⟨s.gate.log, rfl⟩

theorem setHenMin_lands {p w e : Nat} (hw : s.west.reserve.getD p 0 ≤ w) (he : s.east.reserve.getD p 0 ≤ e) :
    s.drainLands (.setHenMin p w e) = true := by
  simp only [State.drainLands, hw, he, decide_true, Bool.and_self]

theorem drainLand_next (ha : s.alive = true) (h0 : s.rooster.slot = 0) (hd : s.gate.drains = [d])
    (hage : d.age.isSome = true) (hlands : s.drainLands d.req = true) :
    exec .drainLand s = .next (((s.landDrain d.req).dropDrain d).loggedLanding d) := by
  show execDrainLand s = _
  simp only [execDrainLand, ha, h0, hd, hage, hlands, decide_true, Bool.and_self, Bool.true_or, if_true, List.foldl_cons,
    List.foldl_nil]
  rfl

/-- No value that comes in force touches the list of pending changes. -/
theorem landDrain_gate (s : State) (r : GateReq) : (s.landDrain r).gate = s.gate := by
  unfold State.landDrain
  split
  · exact List.foldlRecOn (motive := fun t : State => t.gate = s.gate) _ _ rfl fun _ ht _ _ => ht
  · rfl
  · rfl
  · exact setDie_gate ..
  · exact count_gate ..
  · rfl
  · rfl

/-- The only pending change, none of pools, lands: its value is in force, and beside it only the gate has changed. -/
theorem drainLand_lands {r : GateReq} (ha : s.alive = true) (h0 : s.rooster.slot = 0) (hd : s.gate.drains = [d])
    (hr : d.req = r) (hage : d.age.isSome = true) (hlands : s.drainLands r = true) (hself : r.sameSetting r = true)
    (hpools : ∀ v, r ≠ .setPools v) :
    ∃ g : Gate, g.drains = [] ∧ exec .drainLand s = .next { s.landDrain r with gate := g } := by
  subst hr
  obtain ⟨l, hlog⟩ := loggedLanding_eq ((s.landDrain d.req).dropDrain d) d
  refine ⟨{ s.gate.without d with log := l }, without_drains hd hself, ?_⟩
  rw [drainLand_next ha h0 hd hage hlands, hlog, dropDrain_plain hpools, landDrain_gate]

/-! ### A carve-out that lands (R313, R333) -/

/-- A granule that joins a carve-out is zeroed. -/
def State.zeroGranule (s : State) (g : Nat) : State :=
  { s with depot := { s.depot with
      mem := memZero s.depot.mem (granuleAddr g) granuleSize
      bad := s.depot.bad.filter (fun u => !unitWhole (granuleAddr g) granuleSize u)
      soft := s.depot.soft.filter (fun u => !unitWhole (granuleAddr g) granuleSize u) } }

/-- The granules of a new carve-out, by their numbers in it, that the old one does not have. -/
def joining (old : Nat × Nat) (f n : Nat) : List Nat :=
  (List.range n).filter (fun i => !(old.1 ≤ f + i && f + i < old.1 + old.2))

theorem mem_joining {old : Nat × Nat} {f n i : Nat} :
    i ∈ joining old f n ↔ i < n ∧ ¬ (old.1 ≤ f + i ∧ f + i < old.1 + old.2) := by
  simp only [joining, List.mem_filter, List.mem_range, Bool.not_eq_true', ← Bool.not_eq_true, Bool.and_eq_true,
    decide_eq_true_eq]

theorem zeroGranules_parts (s : State) (f : Nat) (l : List Nat) :
    (l.foldl (fun t i => t.zeroGranule (f + i)) s).parts = s.parts :=
  List.foldlRecOn (motive := fun t : State => t.parts = s.parts) _ _ rfl fun _ ht _ _ => ht

/-- Zeroed granules read 0, and every byte outside them reads as before. -/
theorem zeroGranules_mem (hm : s.memOk) (f : Nat) (l : List Nat) :
    (l.foldl (fun t i => t.zeroGranule (f + i)) s).memOk ∧
      ∀ a, memGet (l.foldl (fun t i => t.zeroGranule (f + i)) s).depot.mem a =
        if ∃ i ∈ l, granuleAddr (f + i) ≤ a ∧ a < granuleAddr (f + i) + granuleSize then 0 else memGet s.depot.mem a := by
  induction l generalizing s with
  | nil => exact ⟨hm, fun a => by simp⟩
  | cons i l ih =>
    obtain ⟨hok, hget⟩ := ih (s := s.zeroGranule (f + i)) (wf_memZero hm _ _)
    refine ⟨hok, fun a => (hget a).trans ?_⟩
    have hzero : memGet (s.zeroGranule (f + i)).depot.mem a =
        if granuleAddr (f + i) ≤ a ∧ a < granuleAddr (f + i) + granuleSize then 0 else memGet s.depot.mem a :=
      memGet_memZero hm ..
    have hcons : (∃ j ∈ i :: l, granuleAddr (f + j) ≤ a ∧ a < granuleAddr (f + j) + granuleSize) ↔
        (granuleAddr (f + i) ≤ a ∧ a < granuleAddr (f + i) + granuleSize) ∨
          ∃ j ∈ l, granuleAddr (f + j) ≤ a ∧ a < granuleAddr (f + j) + granuleSize := by
      simp only [List.mem_cons, exists_eq_or_imp]
    by_cases hrest : ∃ j ∈ l, granuleAddr (f + j) ≤ a ∧ a < granuleAddr (f + j) + granuleSize
    · rw [if_pos hrest, if_pos (hcons.mpr (.inr hrest))]
    · rw [if_neg hrest, hzero]
      exact ite_congr (propext (hcons.trans (or_iff_left hrest))).symm (fun _ => rfl) fun _ => rfl

/-- A carve-out in force: the granules that join it read 0, and every other byte reads as before. -/
theorem landDrain_setCarve (hm : s.memOk) (p f n : Nat) :
    ((s.landDrain (.setCarve p f n)).part p).carve = (f, n) ∧
      (∀ a, memGet (s.landDrain (.setCarve p f n)).depot.mem a =
        if ∃ i, i < n ∧ granuleAddr (f + i) ≤ a ∧ a < granuleAddr (f + i) + granuleSize ∧
            ¬ ((s.part p).carve.1 ≤ f + i ∧ f + i < (s.part p).carve.1 + (s.part p).carve.2) then 0
        else memGet s.depot.mem a) ∧ (s.landDrain (.setCarve p f n)).memOk := by
  have hland : s.landDrain (.setCarve p f n) = (joining (s.part p).carve f n).foldl (fun t i => t.zeroGranule (f + i))
      (s.setPart p { s.part p with carve := (f, n) }) := rfl
  obtain ⟨hok, hget⟩ := zeroGranules_mem (s := s.setPart p { s.part p with carve := (f, n) }) hm f
    (joining (s.part p).carve f n)
  rw [hland, State.part, zeroGranules_parts]
  refine ⟨congrArg Part.carve (part_setPart_self ..), fun a => (hget a).trans (ite_congr (propext ?_) (fun _ => rfl) fun _ => rfl), hok⟩
  simp only [mem_joining]
  exact exists_congr fun i => ⟨fun ⟨⟨hn, hnew⟩, hlo, hhi⟩ => ⟨hn, hlo, hhi, hnew⟩,
    fun ⟨hn, hlo, hhi, hnew⟩ => ⟨⟨hn, hnew⟩, hlo, hhi⟩⟩

/-! ### The least limits of an ingress point (R156) -/

theorem acctKey_ne (i : Nat) : acctKey i false ≠ acctKey i true := by simp [acctKey, b2n]

/-- Both accounts of an ingress point take their least limits, and nothing else of them changes. -/
theorem landDrain_setGmin (s : State) (k b c : Nat) :
    (s.landDrain (.setGmin k b c)).acct (codeIngress k) false = { s.acct (codeIngress k) false with gmin := b } ∧
      (s.landDrain (.setGmin k b c)).acct (codeIngress k) true = { s.acct (codeIngress k) true with gmin := c } :=
  ⟨(acct_setAcct_ne _ _ (acctKey_ne _)).trans (acct_setAcct_self ..), acct_setAcct_self ..⟩

/-! ### Rollback (R459) -/

/-- A change is rolled back: it is gone and counted, its slot shows DRAIN_TIMEOUT, and the device log takes it. -/
def State.rolledBack (s : State) (d : DrainPending) : State :=
  let u := (s.dropDrain d).bumpDev dkDrainRollback
  (u.setGateSlot d.slot { u.gateSlot d.slot with status := gsDrainTimeout, detail := d.code }).log (.drainRollback d.code)

theorem drainRollback_next {n : Nat} (ha : s.alive = true) (h0 : s.rooster.slot = 0) (hd : s.gate.drains = [d])
    (hage : d.age = some n) (h64 : 64 ≤ n) (hlands : s.drainLands d.req = false) :
    exec .drainRollback s = .next (s.rolledBack d) := by
  show execDrainRollback s = _
  simp only [execDrainRollback, ha, h0, hd, hage, Option.getD_some, h64, hlands, Bool.not_false, decide_true, Bool.and_self,
    if_true, List.foldl_cons, List.foldl_nil]
  rfl

/-- Settles O41: what the value of each setting leaves as it lands, and what a rollback leaves. -/
theorem drainsLandOrRollBack : Obligations.DrainsLandOrRollBack := by
  refine ⟨fun s d p m ha h0 hd hr hage hlands => ?_, fun s d p w e ha h0 hd hr hage hw he => ?_,
    fun s d p f n ha h0 hd hr hage hlands hm => ?_, fun s d k b c ha h0 hd hr hage hlands => ?_,
    fun s d n ha h0 hd hage h64 hlands hself => .of_next (drainRollback_next ha h0 hd hage h64 hlands) ?_⟩
  · obtain ⟨g, hg, hnext⟩ := drainLand_lands ha h0 hd hr hage (hr ▸ hlands) (decide_eq_true rfl) nofun
    exact .of_next hnext ⟨congrArg Part.ports (part_setPart_self ..), fun q hq => part_setPart_ne _ _ hq, hg, rfl, rfl, rfl⟩
  · obtain ⟨g, hg, hnext⟩ := drainLand_lands ha h0 hd hr hage (setHenMin_lands hw he) (decide_eq_true rfl) nofun
    have hpart := part_setPart_self s p { s.part p with minW := w, minE := e }
    exact .of_next hnext ⟨congrArg Part.minW hpart, congrArg Part.minE hpart, fun q hq => part_setPart_ne _ _ hq, hg, rfl, rfl⟩
  · obtain ⟨g, hg, hnext⟩ := drainLand_lands ha h0 hd hr hage (hr ▸ hlands) (decide_eq_true rfl) nofun
    obtain ⟨hcarve, hzero, hok⟩ := landDrain_setCarve hm p f n
    exact .of_next hnext ⟨hcarve, hg, hzero, hok⟩
  · obtain ⟨g, hg, hnext⟩ := drainLand_lands ha h0 hd hr hage (hr ▸ hlands) (decide_eq_true rfl) nofun
    obtain ⟨hb, hc⟩ := landDrain_setGmin s k b c
    exact .of_next hnext ⟨congrArg Acct.gmin hb, congrArg Acct.gmin hc, (congrArg Acct.limit hb :), hg, rfl⟩
  · obtain ⟨w, e, hdrop⟩ := dropDrain_eq s d
    rw [State.rolledBack, hdrop]
    exact ⟨without_drains hd hself, congrArg GateSlot.status (gateSlot_setGateSlot_self ..),
      congrArg GateSlot.detail (gateSlot_setGateSlot_self ..), ctr_count_one .., rfl, rfl, rfl, rfl⟩

end Sys2Proof.Machine
end

section
/-! SUPPORT. Steps, and what the moves of the ledger never take back: what was sent, a fused MIN_SVN, a number given. -/

namespace Sys2Proof.Machine

/-- Settles O52. -/
theorem stepRunsTheFrontCommand : Obligations.StepRunsTheFrontCommand := by
  refine ⟨fun c rest s hp => ?_, fun c s => rfl, fun s hp => ?_, rfl, rfl, rfl⟩
  · simp only [step, hp]
  · have hidle : step s = .next s.idle := by simp only [step, hp]
    rw [hidle, State.idle]

/-- Settles O53: each register of the reset state is read off its definition. -/
theorem resetState : Obligations.ResetState := by
  refine ⟨rfl, rfl, rfl, rfl, fun _ => rfl, rfl, rfl, rfl, rfl, rfl, fun _ => ⟨rfl, fun r => ?_⟩, rfl, rfl, rfl, rfl,
    fun _ => rfl, fun _ => ⟨rfl, rfl⟩, rfl, rfl, rfl, fun _ => rfl, fun _ => rfl, fun _ => rfl, fun _ => rfl, fun _ => rfl,
    rfl, rfl⟩
  simp [Thread.reg, State.reset, State.thread]

/-! ### What no move takes back (R375) -/

/-- `K` keeps what `L` has sent, fused and given, and its queue. -/
def Ledger.Kept (L K : Ledger) : Prop :=
  L.out <+: K.out ∧ L.minSvn ≤ K.minSvn ∧ K.pending = L.pending ∧ L.free ≤ K.free

/-- Every move keeps what was sent, fused and given. -/
theorem Grown.kept {L K : Ledger} (hg : Grown L K) : L.Kept K := by
  induction hg with
  | same => exact ⟨List.prefix_refl _, le_refl _, rfl, le_refl _⟩
  | counted _ _ _ ih | cleared _ _ _ _ ih | written _ _ _ ih | zeroed _ _ _ ih => exact ih
  | sent o _ ih => exact ⟨ih.1.trans (List.prefix_append _ _), ih.2⟩
  | gave f hf _ ih =>
    obtain ⟨ho, hm, hp, hn⟩ := ih
    exact ⟨ho, hm, hp, hn.trans hf⟩
  | fused v hv _ ih =>
    obtain ⟨ho, hm, hp, hn⟩ := ih
    exact ⟨ho, hm.trans hv, hp, hn⟩

/-- A cold reset keeps the fuses, the queue and what was sent (R441). -/
theorem startCold_kept (s : State) (low : Bool) : s.ledger.Kept (s.startCold low).ledger :=
  ⟨List.prefix_refl _, le_refl _, rfl, le_refl _⟩

/-- Every command keeps what was sent, fused and given. -/
theorem exec_kept {c : Instr} {s t : State} (he : exec c s = .next t) : s.ledger.Kept t.ledger := by
  by_cases hc : startsCold c
  · obtain rfl | rfl | rfl | rfl := hc <;> (injection he with e; subst e; exact startCold_kept s _)
  · have hg := exec_grows hc (L := s.ledger) .same
    rw [he] at hg
    exact Grown.kept hg

/-- Settles O59: the command at the front runs on the rest of the queue, and no command takes back what the ledger keeps. -/
theorem nothingIsTakenBack : Obligations.NothingIsTakenBack := by
  intro s t he
  cases hp : s.pending with
  | nil =>
    simp only [step, hp] at he
    injection he with e
    subst e
    exact ⟨List.prefix_refl _, le_refl _, hp, le_refl _⟩
  | cons c rest =>
    simp only [step, hp] at he
    exact exec_kept he

end Sys2Proof.Machine
end

section
/-! SUPPORT. Vectors and causes (R365, R367, R368): a vector that fires, the pending bits that go out when a mask is lifted,
and the cause bits that a W1C write leaves. -/

namespace Sys2Proof.Machine

variable {s : State} {fn entry : Nat}

/-! ### A vector fires (R360, R367) -/

/-- Nothing masks an entry of a function that exists. -/
abbrev State.vectorOpen (s : State) (fn entry : Nat) : Prop :=
  s.funcExists fn = true ∧ (s.func fn).msixEnable = true ∧ (s.func fn).fmask = false ∧ entry ∈ (s.func fn).unmasked

theorem fire_open (h : s.vectorOpen fn entry) : s.fire fn entry = s.emit (.msix fn entry) := by
  obtain ⟨hx, he, hm, hu⟩ := h
  simp [State.fire, hx, he, hm, hu]

theorem fire_masked (h : ¬ s.vectorOpen fn entry) :
    (s.fire fn entry).out = s.out ∧ entry ∈ ((s.fire fn entry).func fn).pba := by
  have hc : ¬ ((s.funcExists fn && (s.func fn).msixEnable && !(s.func fn).fmask &&
      (s.func fn).unmasked.contains entry) = true) := by simpa [State.vectorOpen, and_assoc] using h
  rw [State.fire, if_neg hc]
  refine ⟨rfl, ?_⟩
  rw [func_setFunc_self]
  by_cases hp : entry ∈ (s.func fn).pba <;> simp [hp]

/-- A vector that fires sends its message where nothing masks it, and else waits in the PBA. -/
theorem fire_takes (s : State) (fn entry : Nat) :
    if s.vectorOpen fn entry then (s.fire fn entry).out = s.out ++ [.msix fn entry]
    else (s.fire fn entry).out = s.out ∧ entry ∈ ((s.fire fn entry).func fn).pba := by
  split
  next h => rw [fire_open h]; rfl
  next h => exact fire_masked h

/-! ### Pending vectors (R367) -/

/-- MSI-X messages of a function leave the package one after the other. -/
theorem foldl_emit_msix (s : State) (fn : Nat) (l : List Nat) :
    l.foldl (fun t e => t.emit (.msix fn e)) s = { s with out := s.out ++ l.map (Out.msix fn) } := by
  induction l generalizing s with
  | nil => simp
  | cons e l ih => rw [List.foldl_cons, ih]; simp [State.emit, State.wireAfter]

/-- The pending entries of a function that nothing masks any longer. -/
def Func.unheld (f : Func) : List Nat := (List.range 33).filter (fun e => f.pba.contains e && f.unmasked.contains e)

theorem Func.mem_unheld {f : Func} {e : Nat} : e ∈ f.unheld ↔ e < 33 ∧ e ∈ f.pba ∧ e ∈ f.unmasked := by
  simp [Func.unheld]

/-- A function without its pending entries that go out. -/
def Func.drained (f : Func) : Func := { f with pba := f.pba.filter (fun e => !f.unheld.contains e) }

theorem drainPba_open (hx : s.funcExists fn = true) (he : (s.func fn).msixEnable = true) (hm : (s.func fn).fmask = false) :
    s.drainPba fn = { s.setFunc fn (s.func fn).drained with out := s.out ++ (s.func fn).unheld.map (Out.msix fn) } := by
  have hc : (s.funcExists fn && (s.func fn).msixEnable && !(s.func fn).fmask) = true := by simp [hx, he, hm]
  rw [State.drainPba, if_pos hc]
  exact foldl_emit_msix (s.setFunc fn (s.func fn).drained) fn (s.func fn).unheld

theorem drainPba_masked (h : ¬ (s.funcExists fn = true ∧ (s.func fn).msixEnable = true ∧ (s.func fn).fmask = false)) :
    s.drainPba fn = s := by
  rw [State.drainPba, if_neg (by simpa [and_assoc] using h)]

/-- Sending what is pending changes one function's pending bits, and what has left the package. -/
theorem drainPba_eq (s : State) (fn : Nat) : ∃ b o, s.drainPba fn = { s.setFunc fn { s.func fn with pba := b } with out := o } ∨
    s.drainPba fn = s := by
  by_cases h : s.funcExists fn = true ∧ (s.func fn).msixEnable = true ∧ (s.func fn).fmask = false
  · obtain ⟨hx, he, hm⟩ := h
    exact ⟨_, _, .inl (drainPba_open hx he hm)⟩
  · exact ⟨[], [], .inr (drainPba_masked h)⟩

theorem drainPba_queues (s : State) (fn : Nat) : (s.drainPba fn).queues = s.queues := by
  obtain ⟨b, o, h | h⟩ := drainPba_eq s fn <;> rw [h]
  rfl

theorem drainPba_func_ne (s : State) {fn g : Nat} (h : g ≠ fn) : (s.drainPba fn).func g = s.func g := by
  obtain ⟨b, o, e | e⟩ := drainPba_eq s fn <;> rw [e]
  exact func_setFunc_ne s _ h

/-- What is pending may go; nothing else of the function changes. -/
theorem drainPba_func (s : State) (fn : Nat) : ∃ b, (s.drainPba fn).func fn = { s.func fn with pba := b } := by
  obtain ⟨b, o, e | e⟩ := drainPba_eq s fn <;> rw [e]
  · exact ⟨b, func_setFunc_self ..⟩
  · exact ⟨_, rfl⟩

/-- An entry that nothing masks is not pending afterwards, and its message has gone out if it was. -/
theorem drainPba_unheld (h : s.vectorOpen fn entry) (hn : entry < 33) :
    entry ∉ ((s.drainPba fn).func fn).pba ∧ (entry ∈ (s.func fn).pba → Out.msix fn entry ∈ (s.drainPba fn).out) := by
  obtain ⟨hx, he, hm, hu⟩ := h
  rw [drainPba_open hx he hm]
  refine ⟨fun hmem => ?_, fun hp => ?_⟩
  · replace hmem : entry ∈ ((s.setFunc fn (s.func fn).drained).func fn).pba := hmem
    simp [Func.drained, Func.mem_unheld, hn, hu] at hmem
  · exact List.mem_append_right _ (List.mem_map_of_mem (Func.mem_unheld.mpr ⟨hn, hp, hu⟩))

theorem lt_of_lt_vectorCount (h : entry < vectorCount fn) : entry < 33 := by
  unfold vectorCount at h
  split at h <;> omega

/-! ### W1C writes of causes (R8, R368) -/

theorem testBit_foldl_or (l : List Nat) (a b : Nat) :
    (l.foldl (fun a i => a ||| (1 <<< i)) a).testBit b = (a.testBit b || decide (b ∈ l)) := by
  induction l generalizing a with
  | nil => simp
  | cons i l ih =>
    rw [List.foldl_cons, ih, Nat.testBit_or, Nat.one_shiftLeft, Nat.testBit_two_pow]
    simp [List.mem_cons, eq_comm, Bool.or_assoc]

theorem testBit_listMask (l : List Nat) (b : Nat) : (listMask l).testBit b = decide (b ∈ l) := by
  simp [listMask, testBit_foldl_or]

theorem testBit_setNow (l : Tbl Nat) (now b : Nat) : (setNow l now).testBit b = decide ((b, now) ∈ l) := by
  simp [setNow, testBit_listMask]

/-- A cause bit stays where it was set, unless a 1 is written to it that no event of this cycle set (R8). -/
theorem causeLeft_bit (c : BitVec 4) (v : BitVec 32) (l : Tbl Nat) (now : Nat) {b : Nat} (hb : b < 4) :
    (c &&& ~~~(v.setWidth 4 &&& ~~~BitVec.ofNat 4 (setNow l now))).getLsbD b = true ↔
      c.getLsbD b = true ∧ (v.getLsbD b = false ∨ (b, now) ∈ l) := by
  simp only [BitVec.getLsbD_and, BitVec.getLsbD_not, BitVec.getLsbD_setWidth, BitVec.getLsbD_ofNat, testBit_setNow, hb,
    decide_true, Bool.true_and, Bool.and_eq_true, Bool.not_eq_true', Bool.and_eq_false_iff, Bool.not_eq_false',
    decide_eq_true_eq]

/-! ### The commands -/

theorem cqTimedFire_next {qid : Nat} {q : Queue} (hn : qid < 4096) (ha : s.alive = true) (hq : s.queue? qid = some q)
    (hk : q.kind = 3) (hf : q.fires s.time = true) :
    exec (.cqTimedFire qid) s = .next ((s.setQueue qid { q with armed := false, pending := 0, firstAt := none, event := false }).fire
      (s.ctxPart q.ctx + 1) (qid % 32)) := by
  simp [exec, execCqTimedFire, withQueue, hn, ha, State.cqTest, hq, hk, hf]

/-- A function with an entry unmasked. -/
def Func.unmask (f : Func) (entry : Nat) : Func := { f with unmasked := f.unmasked.filter (· ≠ entry) ++ [entry] }

theorem Func.mem_unmask {f : Func} {e : Nat} :
    e ∈ (f.unmask entry).unmasked ↔ (e ∈ f.unmasked ∧ e ≠ entry) ∨ e = entry := by
  simp [Func.unmask]

theorem msixUnmask_next (hn : fn < 129) (he : entry < vectorCount fn) (ha : s.alive = true) (hr : s.power.ready = true)
    (hx : s.funcExists fn = true) : exec (.msixUnmask fn entry) s = .next ((s.setFunc fn ((s.func fn).unmask entry)).drainPba fn) := by
  simp [exec, execMsixUnmask, withFunc, withUnit, hn, he, ha, hr, hx, State.setMask, Func.unmask]

/-- A function that has a configuration request answered takes the MSI-X enable and mask that it carries. -/
theorem setMsix_next (hn : fn < 129) (hc : s.power.coldReset = false) (hr : s.power.ready = true)
    (hh : s.power.hpRetry = false) (hf : (s.func fn).flr = false) (hx : s.funcExists fn = true) (en mask : Bool) :
    exec (.configRequest fn (.setMsix en mask)) s =
      .next ((s.setFunc fn { s.func fn with msixEnable := en, fmask := mask }).drainPba fn) := by
  simp [exec, execConfigRequest, withFunc, hn, hc, hr, hh, hf, hx]

theorem funcCauseClear_next {path : Path} {p : Nat} (v : BitVec 32) (hp : p < 128) (hr : s.reachesPart path p = true) :
    exec (.funcCauseClear path p v) s = .next (s.clearFuncCause p v) := by
  simp [exec, execFuncCauseClear, withPart, hp, hr]

theorem mgmtCauseClear_next (v : BitVec 32) (ha : s.alive = true) (hr : s.power.ready = true) :
    exec (.mgmtCauseClear .pf v) s = .next (s.clearMgmtCause v) := by
  simp [exec, execMgmtCauseClear, State.pathOpen, ha, hr]

/-- A cause that is clear fires nothing; one with a bit left fires its vector again. -/
theorem fireIf_takes {c : BitVec 4} {t u : State} (hu : u = if c = 0 then t else t.fire fn entry) :
    (c = 0 → u.out = t.out ∧ u.funcs = t.funcs) ∧
    (c ≠ 0 → if t.vectorOpen fn entry then u.out = t.out ++ [.msix fn entry]
      else u.out = t.out ∧ entry ∈ (u.func fn).pba) := by
  subst hu
  refine ⟨fun h => by rw [if_pos h]; exact ⟨rfl, rfl⟩, fun h => ?_⟩
  rw [if_neg h]
  exact fire_takes t fn entry

/-- Whatever reads neither functions nor what has left the package is the same after a vector has fired. -/
theorem fireIf_keeps {α : Type} {f : State → α} (hf : ∀ (t : State) n e, f (t.fire n e) = f t) (c : BitVec 4) (t : State)
    (fn entry : Nat) : f (if c = 0 then t else t.fire fn entry) = f t := by
  split
  · rfl
  · exact hf t fn entry

/-- Settles O34. -/
theorem vectorsAndCauses : Obligations.VectorsAndCauses := by
  refine ⟨fun s qid q hn ha hq hk hf => ?_, fun s fn entry hn he ha hr hx => ?_,
    fun s fn entry hn he hc hr hh hf hx hu hp => ?_, fun s path p v hp hr => ?_, fun s v ha hr => ?_⟩
  · refine .of_next (cqTimedFire_next hn ha hq hk hf) ⟨?_, fun h => ?_, fun h => ?_, fun n hne => ?_, ?_⟩
    · simp [State.queue?, State.setQueue]
    · rw [fire_open (s := s.setQueue ..) h]; exact ⟨rfl, rfl⟩
    · exact fire_masked (s := s.setQueue ..) h
    · simp [State.queue?, State.setQueue, hne]
    · simp
  · refine .of_next (msixUnmask_next hn he ha hr hx) ?_
    obtain ⟨b, hb⟩ := drainPba_func (s.setFunc fn ((s.func fn).unmask entry)) fn
    have hmem : ∀ e, e ∈ (((s.setFunc fn ((s.func fn).unmask entry)).drainPba fn).func fn).unmasked ↔
        (e ∈ (s.func fn).unmasked ∧ e ≠ entry) ∨ e = entry := by
      intro e
      rw [hb, func_setFunc_self]
      exact Func.mem_unmask
    refine ⟨by simp [hmem], fun hen hfm => ?_, fun e hne => by simp [hmem, hne], fun g hg => ?_, drainPba_queues ..⟩
    · have hopen : (s.setFunc fn ((s.func fn).unmask entry)).vectorOpen fn entry := by
        refine ⟨hx, ?_⟩
        rw [func_setFunc_self]
        exact ⟨hen, hfm, Func.mem_unmask.mpr (.inr rfl)⟩
      have h := drainPba_unheld hopen (lt_of_lt_vectorCount he)
      rw [func_setFunc_self] at h
      exact h
    · exact (drainPba_func_ne _ hg).trans (func_setFunc_ne s _ hg)
  · refine .of_next (setMsix_next hn hc hr hh hf hx true false) ?_
    have hopen : (s.setFunc fn { s.func fn with msixEnable := true, fmask := false }).vectorOpen fn entry :=
      ⟨hx, by rw [func_setFunc_self], by rw [func_setFunc_self], by rw [func_setFunc_self]; exact hu⟩
    obtain ⟨hgone, hsent⟩ := drainPba_unheld hopen (lt_of_lt_vectorCount he)
    rw [func_setFunc_self] at hsent
    exact ⟨hsent hp, hgone⟩
  · refine .of_next (funcCauseClear_next v hp hr) ?_
    have hpart : (s.clearFuncCause p v).parts = s.parts.set p { s.part p with
        cause := (s.part p).cause &&& ~~~(v.setWidth 4 &&& ~~~BitVec.ofNat 4 (setNow (s.part p).causeAt s.time)) } :=
      fireIf_keeps (f := State.parts) fire_parts _ _ (p + 1) 32
    have hself : (s.clearFuncCause p v).part p = { s.part p with
        cause := (s.part p).cause &&& ~~~(v.setWidth 4 &&& ~~~BitVec.ofNat 4 (setNow (s.part p).causeAt s.time)) } := by
      rw [State.part, hpart, Tbl.getD_set_self]
    obtain ⟨hzero, hleft⟩ := fireIf_takes (fn := p + 1) (entry := 32) (u := s.clearFuncCause p v) rfl
    rw [hself]
    refine ⟨fun b hb => causeLeft_bit _ v _ _ hb, hzero, hleft, fun q hq => ?_, ?_, ?_⟩
    · rw [State.part, hpart]; exact Tbl.getD_set_ne _ _ _ hq
    · exact fireIf_keeps (f := State.threads) fire_threads _ _ (p + 1) 32
    · exact fireIf_keeps (f := State.queues) fire_queues _ _ (p + 1) 32
  · refine .of_next (mgmtCauseClear_next v ha hr) ?_
    have hcause : (s.clearMgmtCause v).power.mgmtCause =
        s.power.mgmtCause &&& ~~~(v.setWidth 4 &&& ~~~BitVec.ofNat 4 (setNow s.power.mgmtAt s.time)) :=
      congrArg Power2.mgmtCause (fireIf_keeps (f := State.power) fire_power _ _ 0 0)
    obtain ⟨hzero, hleft⟩ := fireIf_takes (fn := 0) (entry := 0) (u := s.clearMgmtCause v) rfl
    rw [hcause]
    exact ⟨fun b hb => causeLeft_bit _ v _ _ hb, hzero, hleft, fireIf_keeps (f := State.parts) fire_parts _ _ 0 0,
      fireIf_keeps (f := State.threads) fire_threads _ _ 0 0⟩

end Sys2Proof.Machine
end

section
/-! SUPPORT. Configuration requests (R1, R360, R367, R369, R447) and SMBus (R373, R374, R516). -/

namespace Sys2Proof.Machine

variable {s : State} {fn : Nat} {path : Path}

/-! ### Configuration requests -/

/-- A function has configuration requests answered: it exists, and neither READY nor a reset stands in the way. -/
abbrev State.answersConfig (s : State) (fn : Nat) : Prop :=
  s.power.coldReset = false ∧ s.power.ready = true ∧ s.power.hpRetry = false ∧ (s.func fn).flr = false ∧
  s.funcExists fn = true

theorem configRequest_retries (r : ConfigReq) (hn : fn < 129)
    (h : s.power.coldReset = true ∨ s.power.ready = false ∨ s.power.hpRetry = true ∨ (s.func fn).flr = true) :
    exec (.configRequest fn r) s = .next (s.emit (.configRetry fn)) := by
  have hc : (s.power.coldReset || !s.power.ready || s.power.hpRetry || (s.func fn).flr) = true := by
    simpa [or_assoc] using h
  show withFunc fn (.next (ite _ _ _)) = _
  rw [if_pos hc, withFunc, if_pos hn]

theorem configRead_answers (o : Nat) (hn : fn < 129) (h : s.answersConfig fn) :
    exec (.configRequest fn (.read o)) s = .next (s.emit (.configReply fn o (configValue fn o))) := by
  obtain ⟨hc, hr, hh, hf, hx⟩ := h
  simp [exec, execConfigRequest, withFunc, hn, hc, hr, hh, hf, hx]

theorem setRelaxed_next (b : Bool) (hn : fn < 129) (h : s.answersConfig fn) :
    exec (.configRequest fn (.setRelaxed b)) s = .next (s.setFunc fn { s.func fn with relaxed := b }) := by
  obtain ⟨hc, hr, hh, hf, hx⟩ := h
  simp [exec, execConfigRequest, withFunc, hn, hc, hr, hh, hf, hx]

theorem setVfs_next {n : Nat} (h : s.answersConfig 0) (hrec : s.fw.recovery = false) (h1 : 1 ≤ n) (h128 : n ≤ 128) :
    exec (.configRequest 0 (.setVfs n)) s = .next { s with power := { s.power with numVfs := n } } := by
  obtain ⟨hc, hr, hh, hf, hx⟩ := h
  have hn0 : n ≠ 0 := by omega
  have hn128 : ¬ 128 < n := by omega
  simp [exec, execConfigRequest, withFunc, hc, hr, hh, hf, hx, hrec, hn0, hn128]

/-- READY is published at 1,000 ms at the latest (R447). -/
theorem readyPublish_next (ha : s.alive = true) (hr : s.power.ready = false) (ht : 1000000000 ≤ s.time) :
    exec .readyPublish s =
      .next (State.mgmtCause { s with power := { s.power with ready := true, scrubFrom := some s.time } } 1) := by
  have ht' : 1000 * msNs ≤ s.time := ht
  simp [exec, execReadyPublish, ha, hr, ht']

/-- A management cause that is set shows, and READY stays. -/
theorem mgmtCause_power (s : State) {bit : Nat} (hb : bit < 4) :
    (s.mgmtCause bit).power.ready = s.power.ready ∧ (s.mgmtCause bit).power.mgmtCause.getLsbD bit = true := by
  simp only [State.mgmtCause]
  split <;> simp [hb]

/-! ### Registers before READY (R369) -/

/-- Before READY no write of GATE_CALL is answered. -/
theorem fatalCall_notReady (hr : s.power.ready = false) (off : Nat) : s.fatalCall path off = false := by
  cases path with
  | pf => simp [State.fatalCall, State.slotOpen, hr]
  | vf n =>
    cases n with
    | zero => simp [State.fatalCall]
    | succ m => simp [State.fatalCall, State.slotOpen, hr]
  | smbus | bell n => simp [State.fatalCall]

theorem registerWrite_notReady (hr : s.power.ready = false) (off bytes : Nat) (v : Word) :
    exec (.registerWrite path off bytes v) s = .next s := by
  have hc : (!s.pathOpen path && !s.fatalCall path off) = true := by simp [State.pathOpen, hr, fatalCall_notReady hr]
  show Host.Outcome.next (State.writeAt s path off bytes v) = _
  rw [State.writeAt, if_pos hc]

/-- Settles O36. -/
theorem configurationRequests : Obligations.ConfigurationRequests := by
  refine ⟨fun s fn r hn h => configRequest_retries r hn h, fun s fn hn hc hr hh hf hx => ?_,
    fun s n hc hr hh hf hrec h1 h128 => setVfs_next ⟨hc, hr, hh, hf, rfl⟩ hrec h1 h128, fun s ha hr ht => ?_,
    fun s path off bytes v hp hr => ⟨registerWrite_notReady hr off bytes v, ?_⟩⟩
  · have h : s.answersConfig fn := ⟨hc, hr, hh, hf, hx⟩
    refine ⟨configRead_answers 0 hn h, fun b => setRelaxed_next b hn h, fun en mask => ?_⟩
    refine .of_next (setMsix_next hn hc hr hh hf hx en mask) ?_
    obtain ⟨b, hb⟩ := drainPba_func (s.setFunc fn { s.func fn with msixEnable := en, fmask := mask }) fn
    rw [hb, func_setFunc_self]
    exact ⟨rfl, rfl, fun g hg => (drainPba_func_ne _ hg).trans (func_setFunc_ne s _ hg)⟩
  · exact .of_next (readyPublish_next ha hr ht) (mgmtCause_power _ (by decide)).1
  · have hread : s.readable path = false := by simp [State.readable, hr]
    show Host.Outcome.next (s.readOut path off bytes) = _
    rw [readOut_notReadable hp hread]
    rfl

/-! ### SMBus (R373, R374) -/

/-- A device that is READY answers at its address. -/
theorem smbus_answers {early : Bool} (hu : s.smbusUp = true) (hr : s.power.ready = true) (act : State → State) :
    s.smbus early act = act s := by
  simp [State.smbus, hu, hr]

theorem readAt_smbus_eight {off : Nat} {r : Reg} (ha : off % 8 = 0) (h : off ≠ 0x4000) (hr : s.regAt .smbus off = some r)
    (hw : r.wide = true) : s.readAt .smbus off 8 = (r.value, s) := by
  simp [State.readAt, ha, State.snapshotAt, h, read64_wide hr hw]

theorem readAt_smbus_four {off : Nat} {r : Reg} (ha : off % 4 = 0) (h : off ≠ 0x4000) (hr : s.regAt .smbus off = some r)
    (hw : r.wide = false) : s.readAt .smbus off 4 = (r.value, s) := by
  simp [State.readAt, ha, State.snapshotAt, h, State.read32, hr, hw]

theorem regRead_replies {off bytes : Nat} {v : Nat} (hu : s.smbusUp = true) (hr : s.power.ready = true)
    (hv : s.readAt .smbus off bytes = (v, s)) :
    exec (.regRead off bytes) s = .next { s with out := s.out ++ [.smbusReply (leBytes 1 0 ++ leBytes bytes v)] } := by
  have hout : s.readOut .smbus off bytes =
      (s.readAt .smbus off bytes).2.emit (.smbusReply (leBytes 1 0 ++ leBytes bytes (s.readAt .smbus off bytes).1)) := by
    rw [State.readOut]
    exact smbus_answers hu hr _
  rw [hv] at hout
  exact congrArg Host.Outcome.next hout

theorem counterRead_replies (hu : s.smbusUp = true) (hr : s.power.ready = true) (index : BitVec 32) :
    exec (.counterRead index) s = .next { s with out := s.out ++ [.smbusReply
      (if ctrExists (index.toNat / 2 ^ 28) (index.toNat / 2 ^ 16 % 2 ^ 12) (index.toNat % 2 ^ 16) then
        leBytes 1 0 ++ leBytes 8 (s.ctr index.toNat).toNat else leBytes 1 1 ++ leBytes 8 0)] } := by
  have hblock : bitsOf index.toNat 31 28 = index.toNat / 2 ^ 28 := by
    have := index.isLt
    simp only [bitsOf]; omega
  have hinst : bitsOf index.toNat 27 16 = index.toNat / 2 ^ 16 % 2 ^ 12 := by simp only [bitsOf]
  have hk : bitsOf index.toNat 15 0 = index.toNat % 2 ^ 16 := by simp [bitsOf]
  refine congrArg Host.Outcome.next ((smbus_answers hu hr _).trans ?_)
  dsimp only
  rw [hblock, hinst, hk]
  split <;> rfl

/-- Settles O37. -/
theorem smbusAnswers : Obligations.SmbusAnswers := by
  intro s hu hr
  refine ⟨fun off r ha h hreg hw => regRead_replies hu hr (readAt_smbus_eight ha h hreg hw),
    fun off r ha h hreg hw => regRead_replies hu hr (readAt_smbus_four ha h hreg hw),
    fun off bytes h4 h8 h => regRead_replies hu hr (readAt_otherSize h4 h8), counterRead_replies hu hr, ?_,
    fun sensor => ⟨_, congrArg Host.Outcome.next (smbus_answers hu hr _)⟩,
    fun bytes => ⟨_, congrArg Host.Outcome.next (smbus_answers hu hr _)⟩, fun code hc => ?_, fun off hg => ?_, fun off hg => ?_⟩
  · refine congrArg Host.Outcome.next ((smbus_answers hu hr _).trans ?_)
    rw [hr]
    rfl
  · have hcode : (1 ≤ code && code ≤ 3) = false := by
      rw [Bool.and_eq_false_iff, decide_eq_false_iff_not, decide_eq_false_iff_not]
      obtain rfl | h := hc
      · exact .inl (by decide)
      · exact .inr (by rw [BitVec.le_def]; simp; omega)
    refine congrArg Host.Outcome.next ?_
    dsimp only
    rw [hcode, if_neg Bool.false_ne_true]
    exact smbus_answers hu hr _
  · refine congrArg Host.Outcome.next ((smbus_answers hu hr _).trans ?_)
    rw [hg]
    rfl
  · refine congrArg Host.Outcome.next ((smbus_answers hu hr _).trans ?_)
    rw [hg]
    rfl

end Sys2Proof.Machine
end

section
/-! SUPPORT. Function Level Resets and PERST_N (R370, R371, R442, R499): what squashing one thread leaves of the others, and
what taking down the queues of a partition leaves of the threads and of the depot. -/

namespace Sys2Proof.Machine

/-! ### One thread loses its work (R237, R335) -/

/-- From `s` to `t` only thread `p`, the switch and the counters may have changed, of what a stop of a thread could reach. -/
structure SparesOthers (p : Nat) (s t : State) : Prop where
  thread : ∀ q, q ≠ p → t.thread q = s.thread q
  mem : t.depot.mem = s.depot.mem
  rooster : t.rooster = s.rooster
  twin : t.twin = s.twin

namespace SparesOthers

variable {p : Nat} {s t u : State}

theorem refl (s : State) : SparesOthers p s s := ⟨fun _ _ => rfl, rfl, rfl, rfl⟩

/-- An update of what `SparesOthers` does not speak of. -/
theorem other (h : SparesOthers p s t) (ht : u.threads = t.threads) (hd : u.depot = t.depot) (hr : u.rooster = t.rooster)
    (hw : u.twin = t.twin) : SparesOthers p s u :=
  ⟨fun q hq => (thread_congr ht q).trans (h.thread q hq), (congrArg Depot.mem hd).trans h.mem,
    hr.trans h.rooster, hw.trans h.twin⟩

theorem beyond (h : SparesOthers p s t) (hb : u.beyondSwitch = t.beyondSwitch) : SparesOthers p s u :=
  h.other (congrArg State.threads hb :) (congrArg State.depot hb :) (congrArg State.rooster hb :) (congrArg State.twin hb :)

theorem setThread {v : Thread} (h : SparesOthers p s t) : SparesOthers p s (t.setThread p v) :=
  ⟨fun q hq => (thread_setThread_ne t v hq).trans (h.thread q hq), h.mem, h.rooster, h.twin⟩

theorem count {i n : Nat} (h : SparesOthers p s t) : SparesOthers p s (t.count i n) := h.beyond (beyondSwitch_count ..)

theorem release {n : Nat} (h : SparesOthers p s t) : SparesOthers p s (t.release n) :=
  h.beyond ((KeepsBeyondSwitch.switchStable t).release (.refl t)).beyond

theorem releaseClaim {r : Rec} (h : SparesOthers p s t) : SparesOthers p s (t.releaseClaim p r) := by
  unfold State.releaseClaim
  repeat' split
  · exact h
  · exact h.release
  · exact h.setThread
  · exact h

theorem squashRec {r : Rec} (h : SparesOthers p s t) : SparesOthers p s (t.squashRec p r) := by
  unfold State.squashRec
  dsimp only
  split
  · split
    · rw [bumpEng_eq, bumpEng_eq]; exact h.releaseClaim.count.count
    · rw [bumpEng_eq]; exact h.releaseClaim.count
  · exact h.releaseClaim

theorem squashAll (h : SparesOthers p s t) : SparesOthers p s (t.squashAll p) :=
  setThread (List.foldlRecOn (motive := SparesOthers p s) _ _ h fun _ hu _ _ => hu.squashRec)

theorem dropSends (h : SparesOthers p s t) : SparesOthers p s (t.dropSends p) :=
  setThread (List.foldlRecOn (motive := SparesOthers p s) _ _ h fun _ hu _ _ => hu.count)

end SparesOthers

/-- A squash leaves the thread no operation that has not retired. -/
theorem squashAll_recs (s : State) (p : Nat) : ((s.squashAll p).thread p).recs = [] := by
  simp only [State.squashAll, modThread_eq, thread_setThread_self]

/-! ### The queues of a partition go (R340, R342, R370) -/

/-- From `s` to `t` queues may have been flushed and disabled: no thread, nothing of Rooster and no byte of the depot has
changed. -/
structure ClosesQueues (s t : State) : Prop where
  threads : t.threads = s.threads
  mem : t.depot.mem = s.depot.mem
  rooster : t.rooster = s.rooster

namespace ClosesQueues

variable {s t u : State} {α : Type}

theorem refl (s : State) : ClosesQueues s s := ⟨rfl, rfl, rfl⟩

/-- An update of what `ClosesQueues` does not speak of. -/
theorem other (h : ClosesQueues s t) (ht : u.threads = t.threads := by rfl) (hd : u.depot = t.depot := by rfl)
    (hr : u.rooster = t.rooster := by rfl) : ClosesQueues s u :=
  ⟨ht.trans h.threads, (congrArg Depot.mem hd).trans h.mem, hr.trans h.rooster⟩

theorem ite {c : Prop} [Decidable c] (ht : ClosesQueues s t) (hu : ClosesQueues s u) :
    ClosesQueues s (if c then t else u) := by split <;> assumption

theorem foldl {f : State → α → State} {xs : List α} (h : ClosesQueues s t)
    (step : ∀ u x, ClosesQueues s u → ClosesQueues s (f u x)) : ClosesQueues s (xs.foldl f t) :=
  List.foldlRecOn (motive := ClosesQueues s) xs f h fun u hu x _ => step u x hu

theorem writeRecord {qid : Nat} {rcd : List Byte} {reserved eligible event : Bool} (h : ClosesQueues s t) :
    ClosesQueues s (t.writeRecord qid rcd reserved eligible event) :=
  h.other (writeRecord_threads ..) (writeRecord_depot ..) (writeRecord_rooster ..)

theorem recvRecord {qid status marks index bytes ring : Nat} {src msg : BitVec 32} (h : ClosesQueues s t) :
    ClosesQueues s (t.recvRecord qid status marks src msg index bytes ring) := by
  dsimp only [State.recvRecord]
  split
  · exact h
  · split
    · exact h
    · exact h.writeRecord

theorem depotFree {k i : Nat} (h : ClosesQueues s t) : ClosesQueues s (t.depotFree k i) :=
  ⟨h.threads, (Depot.setPool_mem ..).trans h.mem, h.rooster⟩

theorem voidMsg {m : OpenMsg} (h : ClosesQueues s t) : ClosesQueues s (t.voidMsg m) :=
  other (foldl (foldl (h.other (u := t.dropMsgEntry m.key)) fun _ _ hu => hu.recvRecord) fun _ _ hu => hu.depotFree)

theorem voidQueue {qid : Nat} (h : ClosesQueues s t) : ClosesQueues s (t.voidQueue qid) := foldl h fun _ _ hu => hu.voidMsg

theorem clearPending {qid : Nat} (h : ClosesQueues s t) : ClosesQueues s (t.clearPending qid) := ite h.other h

theorem endQueue {c k : Nat} (h : ClosesQueues s t) : ClosesQueues s (t.endQueue c k) := ite (clearPending h.other) h.other

theorem sqSettle {qid : Nat} (h : ClosesQueues s t) : ClosesQueues s (t.sqSettle qid) := by
  dsimp only [State.sqSettle]
  split
  · exact ite h.endQueue h
  · exact h

theorem disableQueue {c k : Nat} (h : ClosesQueues s t) : ClosesQueues s (t.disableQueue c k) :=
  ite h (ite (sqSettle h.other) (ite h.voidQueue.endQueue (ite h h.endQueue)))

theorem flushEntry {qid : Nat} (h : ClosesQueues s t) : ClosesQueues s (t.flushEntry qid) := by
  dsimp only [State.flushEntry]
  split
  · exact h
  · refine ite h ?_
    split
    · exact h
    · exact writeRecord h.other

theorem flushSq {qid : Nat} (h : ClosesQueues s t) : ClosesQueues s (t.flushSq qid) := by
  dsimp only [State.flushSq]
  split
  · exact h
  · exact foldl h fun _ _ hu => hu.flushEntry

/-- The queues of a kind of some contexts are disabled. -/
theorem disableKind {c kind : Nat} (h : ClosesQueues s t) :
    ClosesQueues s ((t.slotsOfKind c kind).foldl (fun u k => u.disableQueue c k) t) := foldl h fun _ _ hu => hu.disableQueue

end ClosesQueues

/-! ### A VF is reset (R370) -/

/-- The thread of a partition whose VF is reset: what runs or has stopped is squashed, and halts at the next hinge. -/
def State.flrThread (s : State) (p : Nat) : State :=
  if (s.thread p).st = .running || (s.thread p).st = .stopped then
    (s.squashAll p).modThread p (fun t => { t with cmd := some .flr, waiting := false })
  else s

theorem flrThread_spares (s : State) (p : Nat) : SparesOthers p s (s.flrThread p) := by
  unfold State.flrThread
  split
  · rw [modThread_eq]; exact (SparesOthers.refl s).squashAll.setThread
  · exact .refl s

theorem flrThread_thread {s : State} {p : Nat} (h : (s.thread p).st = .running ∨ (s.thread p).st = .stopped) :
    ((s.flrThread p).thread p).recs = [] ∧ ((s.flrThread p).thread p).cmd = some .flr := by
  have hc : ((s.thread p).st = .running || (s.thread p).st = .stopped) = true := by simpa using h
  rw [State.flrThread, if_pos hc, modThread_eq, thread_setThread_self]
  exact ⟨squashAll_recs s p, rfl⟩

/-- After its thread, the queues and the causes of the partition go. -/
theorem flrPart_closes (s : State) (p : Nat) : ClosesQueues (s.flrThread p) (s.flrPart p) := by
  refine ClosesQueues.other (t := _) (ClosesQueues.foldl (ClosesQueues.foldl (.refl _) fun a c ha => ?_) fun a c ha => ?_)
  · exact (ClosesQueues.foldl ha fun _ _ hu => hu.flushSq.disableQueue).disableKind.disableKind
  · split
    · exact ha
    · exact .ite ha.other ha.other

theorem flrPart_mem (s : State) (p : Nat) : (s.flrPart p).depot.mem = s.depot.mem :=
  (flrPart_closes s p).mem.trans (flrThread_spares s p).mem

theorem flrPart_rooster (s : State) (p : Nat) : (s.flrPart p).rooster = s.rooster :=
  (flrPart_closes s p).rooster.trans (flrThread_spares s p).rooster

theorem flrPart_thread (s : State) (p q : Nat) : (s.flrPart p).thread q = (s.flrThread p).thread q :=
  thread_congr (flrPart_closes s p).threads q

/-- The function and the cause register of the partition are as a reset leaves them. -/
theorem flrPart_resets (s : State) (p : Nat) : (s.flrPart p).func (p + 1) = { flr := true } ∧ ((s.flrPart p).part p).cause = 0 := by
  refine ⟨func_setFunc_self .., ?_⟩
  exact congrArg Part.cause (Tbl.getD_set_self ..)

/-- Resetting every VF leaves Rooster and the depot's bytes. -/
theorem flrVfs_keeps (s : State) : s.flrVfs.depot.mem = s.depot.mem ∧ s.flrVfs.rooster = s.rooster :=
  List.foldlRecOn (motive := fun t => t.depot.mem = s.depot.mem ∧ t.rooster = s.rooster) _ _ ⟨rfl, rfl⟩
    fun t ⟨hm, hr⟩ p _ => ⟨(flrPart_mem t p).trans hm, (flrPart_rooster t p).trans hr⟩

/-! ### The commands -/

variable {s : State}

theorem vfFlr_next {vf : Nat} (h1 : 1 ≤ vf) (h129 : vf < 129) (ha : s.alive = true) (hr : s.power.ready = true)
    (hx : s.funcExists vf = true) : exec (.vfFlr vf) s = .next (s.flrPart (vf - 1)) := by
  have h0 : vf ≠ 0 := by omega
  simp [exec, execVfFlr, withFunc, withUnit, h0, h129, ha, hr, hx]

theorem pfFlr_next (ha : s.alive = true) (hr : s.power.ready = true) : exec .pfFlr s = .next s.flrPf := by
  simp [exec, execPfFlr, ha, hr]

/-- What PERST_N leaves of a reset device: the link is down and no VF exists (R371, R442). -/
def State.perstDown (t : State) : State :=
  { t with power := { t.power with perstLow := true, hp := .down, hpRetry := true, numVfs := 0 } }

theorem perstNAssert_next (hc : s.power.coldReset = false) : exec .perstNAssert s = .next s.flrVfs.flrPf.perstDown := by
  simp [exec, execPerstNAssert, hc, State.perstDown]

theorem portHpLinkTraining_next (hc : s.power.coldReset = false) (hp : s.power.perstLow = false) (hd : s.power.hp = .down)
    (ht : 30000000 ≤ s.time) (htr : s.power.tripped = false) :
    exec .portHpLinkTraining s = .next { s with power := { s.power with hp := .training } } := by
  have ht' : hpTrainNs ≤ s.time := ht
  simp [exec, execPortHpLinkTraining, State.hpTrain, hc, hp, hd, ht', htr]

/-- The queues that are left when a reset completes are the CQs that nothing names. -/
theorem flrComplete_next {fn : Nat} (hn : fn < 129) (h0 : fn ≠ 0) (hf : (s.func fn).flr = true)
    (hcmd : (s.thread (fn - 1)).cmd ≠ some .flr)
    (hcs : ∀ c ∈ s.ctxsOf (fn - 1), s.slotsOfKind c 1 = [] ∧ ∃ x, s.ctx? c = some x ∧ x.destroying = false) :
    ∃ u, ClosesQueues s u ∧ exec (.flrComplete fn) s = .next (u.setFunc fn { u.func fn with flr := false }) := by
  refine ⟨_, ClosesQueues.foldl (xs := s.ctxsOf (fn - 1)) (.refl s) fun _ c hu => hu.disableKind (c := c) (kind := 3), ?_⟩
  show withFunc fn (.next _) = _
  rw [withFunc, if_pos hn]
  dsimp only
  rw [hf, if_neg (by decide), if_neg h0]
  refine congrArg Host.Outcome.next (if_neg ?_)
  rw [Bool.or_eq_true, not_or, List.any_eq_true, decide_eq_true_eq]
  refine ⟨fun ⟨c, hc, hleft⟩ => ?_, hcmd⟩
  obtain ⟨hs, x, hx, hd⟩ := hcs c hc
  simp [hs, hx, hd] at hleft

/-- Settles O35. -/
theorem functionsReset : Obligations.FunctionsReset := by
  refine ⟨fun s vf h1 h129 ha hr hx => ?_, fun s ha hr => pfFlr_next ha hr, fun s hc => ?_, fun s => rfl,
    fun s hc hp hd ht htr => portHpLinkTraining_next hc hp hd ht htr, fun s h => ?_, fun s h => ?_,
    fun s fn hn h0 hf hcmd hcs => ?_⟩
  · refine .of_next (vfFlr_next h1 h129 ha hr hx) ?_
    obtain ⟨hfunc, hcause⟩ := flrPart_resets s (vf - 1)
    rw [show vf - 1 + 1 = vf by omega] at hfunc
    refine ⟨hfunc, hcause, fun hst => ?_, fun q hq => ?_, flrPart_mem ..⟩
    · rw [flrPart_thread]; exact flrThread_thread hst
    · rw [flrPart_thread]; exact (flrThread_spares s (vf - 1)).thread q hq
  · refine .of_next (perstNAssert_next hc) ⟨rfl, rfl, rfl, rfl, rfl, ?_, (flrVfs_keeps s).1, (flrVfs_keeps s).2⟩
    exact func_setFunc_self ..
  · show Host.Outcome.next (ite _ _ _) = _
    rw [if_pos h]
  · show withFunc 0 (.next _) = _
    simp [withFunc, h]
  · obtain ⟨u, hu, he⟩ := flrComplete_next hn h0 hf hcmd hcs
    exact .of_next he ⟨by rw [func_setFunc_self], hu.threads, hu.mem⟩

end Sys2Proof.Machine
end

section
/-! SUPPORT. The call gate (R377, R380, R382 to R386, R396): how a call is put in its place, judged, completed or refused. -/

namespace Sys2Proof.Machine

variable {s t : State} {c : Caller} {r : GateReq} {i : Instr}

/-! ### A call is made (R382, R383) -/

/-- A caller whose slot the gate has. -/
theorem withSlot_next (hs : c.slot ≤ 129) (t : State) : withSlot c (.next t) = .next t := if_pos (by omega)

/-- Every command that makes a gate call writes GATE_CALL with it. -/
theorem exec_gateOf (h : gateOf i = some (c, r)) (hs : c.slot ≤ 129) (s : State) : exec i s = .next (s.callGate c r) := by
  unfold gateOf at h
  split at h <;> cases h
  all_goals exact withSlot_next hs _

/-- A call waits in its place, and its slot is PENDING. -/
def State.waiting (s : State) (c : Caller) (r : GateReq) : State :=
  { s with gate := { s.gate with
      slots := s.gate.slots.set c.slot { s.gateSlot c.slot with pending := true }
      queue := gateInsert ⟨s.time, c.slot, c.rsv, r⟩ s.gate.queue } }

theorem callGate_waits (ho : s.slotOpen c.slot = true) (hp : (s.gateSlot c.slot).pending = false) (hf : s.fw.fatal = false) :
    s.callGate c r = s.waiting c r := by
  rw [State.callGate, ho, hp, hf]
  rfl

theorem callGate_lost (ho : s.slotOpen c.slot = true) (hp : (s.gateSlot c.slot).pending = true) :
    s.callGate c r = s.setGateSlot c.slot { s.gateSlot c.slot with lost := true, lostAt := some s.time } := by
  simp only [State.callGate, ho, hp, Bool.not_true, Bool.false_eq_true, if_false, if_true]

theorem callGate_fatal (ho : s.slotOpen c.slot = true) (hp : (s.gateSlot c.slot).pending = false) (hf : s.fw.fatal = true) :
    s.callGate c r = (s.setGateSlot c.slot ((s.gateSlot c.slot).done false gsFatal 0)).bumpDev dkGateRefused := by
  rw [State.callGate, ho, hp, hf]
  rfl

/-- A slot that is open belongs to a device that runs or is stopped by FATAL alone. -/
theorem slotOpen_up {k : Nat} (h : s.slotOpen k = true) : s.power.coldReset = false ∧ s.power.tripped = false := by
  simp only [State.slotOpen, Bool.and_eq_true, Bool.not_eq_true'] at h
  exact h.1

/-! ### Slots read after an update -/

theorem gateSlot_congr (h : t.gate.slots = s.gate.slots) (k : Nat) : t.gateSlot k = s.gateSlot k := by
  simp only [State.gateSlot, h]

theorem waiting_self (s : State) (c : Caller) (r : GateReq) :
    (s.waiting c r).gateSlot c.slot = { s.gateSlot c.slot with pending := true } := Tbl.getD_set_self ..

theorem waiting_ne (s : State) (c : Caller) (r : GateReq) {k : Nat} (h : k ≠ c.slot) :
    (s.waiting c r).gateSlot k = s.gateSlot k := Tbl.getD_set_ne _ _ _ h

/-! ### A call is served (R383) -/

/-- What is noted of a landing is for GATE_LOG alone. -/
theorem noteLanding_eq (s : State) (slot : Nat) (r : GateReq) :
    ∃ a b, s.noteLanding slot r = { s with gate := { s.gate with staged := a, stagedEpoch := b } } := by
  dsimp only [State.noteLanding]
  repeat' split
  all_goals exact ⟨_, _, rfl⟩

/-- The call at the front that is served: its slot is done, and GATE_LOG may note it. -/
def State.servedFor (t : State) (w : GateWait) (g : GateSlot) : State := (t.setGateSlot w.slot g).noteLanding w.slot w.req

theorem servedFor_takes (t : State) (w : GateWait) (g : GateSlot) :
    (t.servedFor w g).gateSlot w.slot = g ∧ (t.servedFor w g).gate.queue = t.gate.queue ∧
    (t.servedFor w g).gate.drains = t.gate.drains ∧ { t.servedFor w g with gate := t.gate } = t := by
  obtain ⟨a, b, h⟩ := noteLanding_eq (t.setGateSlot w.slot g) w.slot w.req
  rw [State.servedFor, h]
  exact ⟨Tbl.getD_set_self .., rfl, rfl, rfl⟩

/-- The gate serves the call at the front: no reset, no trip and no hinge drain stands in the way. -/
abbrev State.serves? (s : State) (w : GateWait) : Prop :=
  s.power.coldReset = false ∧ s.power.tripped = false ∧ (s.depot.draining && w.req.readsDepot) = false

theorem gateCallComplete_serves {w : GateWait} {rest : List GateWait} (hq : s.gate.queue = w :: rest) (hs : s.serves? w)
    (hok : State.serve { s with gate := { s.gate with queue := rest } } w.slot w.rsv w.req = .ok t) :
    exec .gateCallComplete s =
      .next (t.servedFor w ((s.gateSlot w.slot).done (rest.any (fun x => x.slot = w.slot)) 0 0)) := by
  obtain ⟨hc, ht, hd⟩ := hs
  show execGateCallComplete s = _
  simp only [execGateCallComplete, hq, hc, ht, hd, Bool.or_self, Bool.false_eq_true, if_false, hok]
  rfl

/-- A call alone in the gate is served at the next completion. -/
theorem waiting_served (ho : s.slotOpen c.slot = true) (hq : s.gate.queue = [])
    (hd : (s.depot.draining && r.readsDepot) = false)
    (hok : State.serve { s.waiting c r with gate := { (s.waiting c r).gate with queue := [] } } c.slot c.rsv r = .ok t) :
    exec .gateCallComplete (s.waiting c r) =
      .next (t.servedFor ⟨s.time, c.slot, c.rsv, r⟩ (((s.waiting c r).gateSlot c.slot).done false 0 0)) := by
  obtain ⟨hc, ht⟩ := slotOpen_up ho
  have hw : (s.waiting c r).gate.queue = [⟨s.time, c.slot, c.rsv, r⟩] := by simp only [State.waiting, hq, gateInsert]
  exact gateCallComplete_serves hw ⟨hc, ht, hd⟩ hok

/-- Each gate call is taken: it waits, and where it waits alone it is served next. -/
theorem gateCall_taken (h : gateOf i = some (c, r)) (hs : c.slot ≤ 129) (ho : s.slotOpen c.slot = true)
    (hp : (s.gateSlot c.slot).pending = false) (hf : s.fw.fatal = false) : Gives i s (s.callTaken c r) := by
  refine .of_next ((exec_gateOf h hs s).trans (congrArg _ (callGate_waits ho hp hf))) ⟨?_, rfl, fun k hk => waiting_ne s c r hk,
    rfl, fun hq hd t hok => ?_⟩
  · rw [waiting_self]
  · refine .of_next (waiting_served ho hq hd hok) ?_
    obtain ⟨hslot, -, -, hrest⟩ := servedFor_takes t ⟨s.time, c.slot, c.rsv, r⟩ (((s.waiting c r).gateSlot c.slot).done false 0 0)
    rw [hslot]
    exact ⟨rfl, rfl, rfl, hrest⟩

/-- Settles O38. -/
theorem gateCallsWait : Obligations.GateCallsWait := by
  refine ⟨fun s c hs ho hp hf => ?_, fun s i c r h hs ho => ⟨fun hp hf => ?_, fun hp => ?_, fun hp hf => ?_⟩⟩
  · have take : ∀ {i r}, gateOf i = some (c, r) → Gives i s (s.callTaken c r) := fun h => gateCall_taken h hs ho hp hf
    exact ⟨fun _ _ _ _ => take rfl, fun _ => take rfl, fun _ _ => take rfl, fun _ _ => take rfl, fun _ _ _ _ _ => take rfl,
      fun _ _ _ _ _ => take rfl, fun _ _ _ => take rfl, fun _ _ => take rfl, fun _ _ _ => take rfl, fun _ => take rfl,
      fun _ _ _ => take rfl, fun _ => take rfl, fun _ _ => take rfl, fun _ _ => take rfl, fun _ _ => take rfl,
      fun _ _ => take rfl, fun _ _ => take rfl, fun _ _ => take rfl, fun _ => take rfl, fun _ _ => take rfl,
      fun _ _ => take rfl, fun _ _ => take rfl, fun _ => take rfl, fun _ => take rfl, fun _ _ => take rfl,
      fun _ => take rfl, take rfl, fun _ _ => take rfl, fun _ _ => take rfl, fun _ => take rfl, take rfl,
      fun _ _ => take rfl, fun _ _ => take rfl, fun _ => take rfl⟩
  · refine .of_next ((exec_gateOf h hs s).trans (congrArg _ (callGate_waits ho hp hf))) ⟨?_, rfl, fun k hk => waiting_ne s c r hk,
      rfl, rfl, rfl, rfl, rfl, rfl, rfl⟩
    rw [waiting_self]
  · rw [exec_gateOf h hs, callGate_lost ho hp]
  · refine .of_next ((exec_gateOf h hs s).trans (congrArg _ (callGate_fatal ho hp hf))) ?_
    have hslot : ((s.setGateSlot c.slot ((s.gateSlot c.slot).done false gsFatal 0)).bumpDev dkGateRefused).gateSlot c.slot =
        (s.gateSlot c.slot).done false gsFatal 0 := by
      rw [bumpDev_eq, gateSlot_congr (congrArg Gate.slots (count_gate ..))]
      exact Tbl.getD_set_self ..
    rw [hslot]
    exact ⟨rfl, rfl, by rw [bumpDev_eq, count_gate]; rfl⟩

/-! ### The order in which a call is judged (R377, R380, R384, R386) -/

/-- The caller of a VF's slot names a partition that is not its own. -/
def namesOther (r : GateReq) (slot : Nat) : Bool :=
  match r.part? with | some p => 2 ≤ slot && p ≠ slot - 2 | none => false

theorem namesOther_iff {slot : Nat} : namesOther r slot = true ↔ ∃ p, r.part? = some p ∧ 2 ≤ slot ∧ p ≠ slot - 2 := by
  unfold namesOther
  cases r.part? <;> simp

/-- The caller may make the call, for this partition, in this state of the firmware. -/
def State.callerOpen (s : State) (slot : Nat) (r : GateReq) : Bool :=
  r.mayCall slot && !namesOther r slot && !(s.fw.recovery && !r.inRecovery)

/-- An epoch-table call or an ARM_EPOCH meets an armed switch. -/
def State.meetsArmed (s : State) (r : GateReq) : Bool := s.epoch.armed.isSome && (r.epochTable || r.code = 0x26)

theorem serve_eq (s : State) (slot : Nat) (rsv : Bool) (r : GateReq) :
    s.serve slot rsv r = need (!s.fw.fatal) gsFatal (need (s.callerOpen slot r) gsDenied
      (need (r.inRange && !rsv) gsBadCall (need (!s.meetsArmed r) gsArmed
        (need (!s.settingBusy r) gsBusy (s.serveReq slot r))))) := rfl

theorem callerOpen_iff {slot : Nat} : s.callerOpen slot r = true ↔
    r.mayCall slot = true ∧ (∀ p, r.part? = some p → slot < 2 ∨ p = slot - 2) ∧
      (s.fw.recovery = true → r.inRecovery = true) := by
  have hother : namesOther r slot = false ↔ ∀ p, r.part? = some p → slot < 2 ∨ p = slot - 2 := by
    rw [← Bool.not_eq_true, namesOther_iff]
    constructor
    · intro h p hp
      by_contra hne
      exact h ⟨p, hp, by omega, by omega⟩
    · rintro h ⟨p, hp, h2, hne⟩
      have := h p hp
      omega
  simp only [State.callerOpen, Bool.and_eq_true, Bool.not_eq_true', hother, and_assoc, Bool.and_eq_false_iff]
  cases s.fw.recovery <;> simp

theorem callerOpen_false {slot : Nat} (h : r.mayCall slot = false ∨ (∃ p, r.part? = some p ∧ 2 ≤ slot ∧ p ≠ slot - 2) ∨
    (s.fw.recovery = true ∧ r.inRecovery = false)) : s.callerOpen slot r = false := by
  rw [← Bool.not_eq_true, callerOpen_iff]
  rintro ⟨hmay, hpart, hrec⟩
  obtain h | ⟨p, hp, h2, hne⟩ | ⟨h, h'⟩ := h
  · rw [hmay] at h; cases h
  · have := hpart p hp
    omega
  · rw [hrec h] at h'; cases h'

theorem meetsArmed_false (h : s.epoch.armed = none ∨ (r.epochTable = false ∧ r.code ≠ 0x26)) : s.meetsArmed r = false := by
  obtain h | ⟨ht, hc⟩ := h
  · simp [State.meetsArmed, h]
  · simp [State.meetsArmed, ht, hc]

/-- A call whose caller is open is judged by its arguments first. -/
theorem serve_callerOpen {slot : Nat} (hf : s.fw.fatal = false) (hc : s.callerOpen slot r = true) (rsv : Bool) :
    s.serve slot rsv r = need (r.inRange && !rsv) gsBadCall (need (!s.meetsArmed r) gsArmed
        (need (!s.settingBusy r) gsBusy (s.serveReq slot r))) := by
  rw [serve_eq, need_of (by simp [hf]), need_of hc]

/-! ### What a refused call leaves (R311, R384, R396) -/

/-- From `s` to `t` the depot has been read: errors may have been corrected, and were counted (R311). -/
structure ReadsDepot (s t : State) : Prop where
  rest : { t with depot := s.depot, counters := s.counters } = s
  depot : { t.depot with soft := s.depot.soft } = s.depot
  clean : s.depot.soft = [] → t.depot = s.depot
  ctr : ∀ i, i ≠ devCtr dkDepotEccCorr → i ≠ devCtr dkDepotEccUncorr → t.ctr i = s.ctr i

namespace ReadsDepot

variable {u : State}

theorem refl (s : State) : ReadsDepot s s := ⟨rfl, rfl, fun _ => rfl, fun _ _ _ => rfl⟩

theorem trans (h : ReadsDepot s t) (k : ReadsDepot t u) : ReadsDepot s u where
  rest := (congrArg (fun x : State => { x with depot := s.depot, counters := s.counters }) k.rest).trans h.rest
  depot := (congrArg (fun x : Depot => { x with soft := s.depot.soft }) k.depot).trans h.depot
  clean hs := (k.clean ((congrArg Depot.soft (h.clean hs)).trans hs)).trans (h.clean hs)
  ctr i h1 h2 := (k.ctr i h1 h2).trans (h.ctr i h1 h2)

theorem eccCorrect (s : State) (a n : Nat) : ReadsDepot s (s.eccCorrect a n) where
  rest := (eccCorrect_only s a n).1
  depot := (eccCorrect_only s a n).2
  clean hs := by rw [eccCorrect_clean hs]
  ctr i h1 _ := ctr_count_ne _ _ h1

theorem depotRead (s : State) (a n : Nat) : ReadsDepot s (s.depotRead a n).2.2 := by
  refine (eccCorrect s a n).trans ⟨?_, ?_, fun _ => ?_, fun i _ h2 => ctr_count_ne _ _ h2⟩
  all_goals simp only [State.depotRead, State.count]; split <;> rfl

theorem imageAt (s : State) (p c seg off : Nat) : ReadsDepot s (s.imageAt p c seg off).1 := by
  dsimp only [State.imageAt]
  split
  · exact refl s
  · split
    · exact depotRead ..
    · split
      · exact depotRead ..
      · exact (depotRead ..).trans (depotRead ..)

theorem readFor (s : State) (r : GateReq) (status : Nat) : ReadsDepot s (s.readFor r status) := by
  unfold State.readFor
  split
  · split
    · exact imageAt ..
    · exact refl s
  · exact refl s

end ReadsDepot

/-- A refused call that is none of Mule's: what it read, its slot, and the counts. -/
def State.refused (s : State) (w : GateWait) (g : GateSlot) (e : Nat × Nat) : State :=
  ((s.readFor w.req e.1).setGateSlot w.slot g).count (devCtr dkGateRefused) 1

/-- A refused ADMIT_PLAN is counted by itself, too. -/
def State.alsoAdmit (t : State) : GateReq → State
  | .admitPlan .. => t.bumpDev dkAdmitRefused
  | _ => t

/-- The count of refused ADMIT_PLAN calls changes one counter. -/
theorem alsoAdmit_eq (t : State) (r : GateReq) : ∃ n, t.alsoAdmit r = t.count (devCtr dkAdmitRefused) n := by
  cases r
  case admitPlan => exact ⟨1, bumpDev_eq ..⟩
  all_goals exact ⟨0, (count_zero ..).symm⟩

theorem gateCallComplete_refuses {w : GateWait} {rest : List GateWait} {e : Nat × Nat} (hq : s.gate.queue = w :: rest)
    (hs : s.serves? w) (he : State.serve { s with gate := { s.gate with queue := rest } } w.slot w.rsv w.req = .error e) :
    ∃ m, exec .gateCallComplete s = .next (
      let u := (State.refused { s with gate := { s.gate with queue := rest } } w
        ((s.gateSlot w.slot).done m e.1 e.2) e).alsoAdmit w.req
      if w.slot = 0 then u.muleRefused w.req.code e.1 else u) := by
  obtain ⟨hc, ht, hd⟩ := hs
  refine ⟨rest.any (fun x => x.slot = w.slot), ?_⟩
  show execGateCallComplete s = _
  simp only [execGateCallComplete, hq, hc, ht, hd, Bool.or_self, Bool.false_eq_true, if_false, he]
  rfl

/-- What Mule keeps of its own refused call: the backoff of its code, and a log record. -/
theorem muleRefused_eq (t : State) (code status : Nat) : ∃ b l,
    t.muleRefused code status = { t with mule := { t.mule with backoff := b }, fw := { t.fw with devLog := l } } := by
  unfold State.muleRefused
  split
  · exact ⟨_, _, rfl⟩
  · exact ⟨_, _, rfl⟩

/-- A count changes the counters alone. -/
theorem count_only (s : State) (i n : Nat) (x : Tbl Word) : { s.count i n with counters := x } = { s with counters := x } := by
  unfold State.count
  split <;> rfl

/-- What a refused call leaves: its slot and the counts, and what reading an image corrected. -/
structure RefusedAs (s : State) (w : GateWait) (g : GateSlot) (rest : List GateWait) (u : State) : Prop where
  gate : u.gate = { s.gate with queue := rest, slots := s.gate.slots.set w.slot g }
  counted : u.ctr (devCtr dkGateRefused) = satAdd (devCtr dkGateRefused) (s.ctr (devCtr dkGateRefused)) 1
  ctr : ∀ i, i ≠ devCtr dkGateRefused → i ≠ devCtr dkAdmitRefused → i ≠ devCtr dkDepotEccCorr →
    i ≠ devCtr dkDepotEccUncorr → u.ctr i = s.ctr i
  depot : { u.depot with soft := s.depot.soft } = s.depot
  clean : s.depot.soft = [] → u.depot = s.depot

theorem refused_as (s : State) (w : GateWait) (rest : List GateWait) (g : GateSlot) (e : Nat × Nat) :
    RefusedAs s w g rest ((State.refused { s with gate := { s.gate with queue := rest } } w g e).alsoAdmit w.req) ∧
    { (State.refused { s with gate := { s.gate with queue := rest } } w g e).alsoAdmit w.req with
      gate := s.gate, counters := s.counters, depot := s.depot } = s := by
  have hread := ReadsDepot.readFor { s with gate := { s.gate with queue := rest } } w.req e.1
  obtain ⟨n, hn⟩ := alsoAdmit_eq (State.refused { s with gate := { s.gate with queue := rest } } w g e) w.req
  have hgate : (State.readFor { s with gate := { s.gate with queue := rest } } w.req e.1).gate = { s.gate with queue := rest } :=
    congrArg State.gate hread.rest
  rw [hn]
  refine ⟨⟨?_, ?_, fun i h1 h2 h3 h4 => ?_, ?_, fun hs => ?_⟩, ?_⟩
  · rw [count_gate, State.refused, count_gate]
    dsimp only [State.setGateSlot]
    rw [hgate]
  · rw [ctr_count_ne _ _ (devCtr_ne (by decide)), State.refused, ctr_count_one]
    exact congrArg (satAdd _ · 1) (hread.ctr _ (devCtr_ne (by decide)) (devCtr_ne (by decide)))
  · rw [ctr_count_ne _ _ h2, State.refused, ctr_count_ne _ _ h1]
    exact hread.ctr i h3 h4
  · rw [count_depot, State.refused, count_depot]
    exact hread.depot
  · rw [count_depot, State.refused, count_depot]
    exact hread.clean hs
  · have honly := count_only ((State.refused { s with gate := { s.gate with queue := rest } } w g e)) (devCtr dkAdmitRefused) n
      s.counters
    refine (congrArg (fun x : State => { x with gate := s.gate, depot := s.depot }) honly).trans ?_
    refine (congrArg (fun x : State => { x with gate := s.gate, depot := s.depot }) (count_only _ _ 1 s.counters)).trans ?_
    exact congrArg (fun x : State => { x with gate := s.gate }) hread.rest

/-- Mule's notes on a refusal are none of the gate, the depot or the counters. -/
theorem RefusedAs.muleRefused {w : GateWait} {g : GateSlot} {rest : List GateWait} {u : State} (h : RefusedAs s w g rest u)
    (code status : Nat) : RefusedAs s w g rest (u.muleRefused code status) := by
  obtain ⟨b, l, he⟩ := muleRefused_eq u code status
  rw [he]
  exact ⟨h.gate, h.counted, h.ctr, h.depot, h.clean⟩

/-- Settles O39. -/
theorem gateCallsAreJudgedInOrder : Obligations.GateCallsAreJudgedInOrder := by
  refine ⟨fun s slot rsv r => ⟨fun hf => ?_, fun hf hd => ?_, fun hf hmay hpart hrec => ?_, fun ho hr => ?_, fun _ => rfl⟩,
    fun s i c r t h hs ho hp hf hq hd hok => ?_, fun s w rest e hq hc ht hd he => ?_⟩
  · exact need_not (by simp [hf])
  · rw [serve_eq, need_of (by simp [hf]), need_not (callerOpen_false hd)]
    rfl
  · have hc : s.callerOpen slot r = true := callerOpen_iff.mpr ⟨hmay, hpart, hrec⟩
    refine ⟨fun hbad => ?_, fun hin hr harm hepoch => ?_, fun hin hr harm hbusy => ?_⟩ <;> rw [serve_callerOpen hf hc]
    · exact need_not (by obtain h | h := hbad <;> simp [h])
    · rw [need_of (by simp [hin, hr])]
      exact need_not (by obtain h | h := hepoch <;> simp [State.meetsArmed, harm, h])
    · rw [need_of (by simp [hin, hr]), need_of (by simp [meetsArmed_false harm])]
      exact need_not (by simp [hbusy])
  · obtain ⟨hf, hmay, hpart, hrec, hin, harm, hbusy⟩ := ho
    have hmeets : s.meetsArmed r = false := by
      cases h : s.epoch.armed with
      | none => exact meetsArmed_false (.inl h)
      | some a => exact meetsArmed_false (.inr (harm (by rw [h]; rfl)))
    rw [serve_callerOpen hf (callerOpen_iff.mpr ⟨hmay, hpart, hrec⟩), need_of (by simp [hin, hr]),
      need_of (by simp [hmeets]), need_of (by simp [hbusy])]
  · refine ⟨s.waiting c r, (exec_gateOf h hs s).trans (congrArg _ (callGate_waits ho hp hf)), ?_⟩
    refine .of_next (waiting_served ho hq hd hok) ?_
    obtain ⟨hslot, hqueue, hdrains, hrest⟩ :=
      servedFor_takes t ⟨s.time, c.slot, c.rsv, r⟩ (((s.waiting c r).gateSlot c.slot).done false 0 0)
    rw [hslot]
    exact ⟨rfl, rfl, hqueue, (congrArg State.epoch hrest :), (congrArg State.ctxs hrest :), (congrArg State.parts hrest :),
      (congrArg State.ports hrest :), (congrArg State.depot hrest :), (congrArg State.fw hrest :),
      (congrArg State.mule hrest :), hdrains⟩
  · obtain ⟨m, hexec⟩ := gateCallComplete_refuses hq ⟨hc, ht, hd⟩ he
    obtain ⟨has, hrest⟩ := refused_as s w rest ((s.gateSlot w.slot).done m e.1 e.2) e
    refine .of_next hexec ?_
    dsimp only
    generalize hu : (State.refused { s with gate := { s.gate with queue := rest } } w
      ((s.gateSlot w.slot).done m e.1 e.2) e).alsoAdmit w.req = u at has hrest ⊢
    have hv : RefusedAs s w ((s.gateSlot w.slot).done m e.1 e.2) rest
        (if w.slot = 0 then u.muleRefused w.req.code e.1 else u) := by
      split
      · exact has.muleRefused ..
      · exact has
    have hself := gateSlot_congr (s := s.setGateSlot w.slot ((s.gateSlot w.slot).done m e.1 e.2)) (congrArg Gate.slots hv.gate :)
    have hslot := (hself w.slot).trans (Tbl.getD_set_self ..)
    rw [hslot]
    refine ⟨rfl, rfl, congrArg Gate.queue hv.gate, hv.counted, hv.ctr, hv.depot, hv.clean,
      fun k hk => (hself k).trans (Tbl.getD_set_ne _ _ _ hk), (congrArg Gate.drains hv.gate :), fun h1 => ?_, fun h0 => ?_⟩
    · rw [if_neg (show w.slot ≠ 0 by omega)]
      exact hrest
    · obtain ⟨b, l, hm⟩ := muleRefused_eq u w.req.code e.1
      rw [if_pos h0, hm]
      have hmule : u.mule = s.mule := (congrArg State.mule hrest :)
      have hfw : u.fw = s.fw := (congrArg State.fw hrest :)
      refine ⟨?_, ?_, ?_⟩
      · rw [← hmule, ← hfw]
        exact hrest
      · rw [hmule]
      · rw [hfw]

end Sys2Proof.Machine
end

section
/-! SUPPORT. From power to READY (R378 to R380, R389, R432, R433, R441 to R447): what the end of cold reset, the boot chain,
the port groups and the restart of Mule leave. -/

namespace Sys2Proof.Machine

variable {s : State}

/-! ### Measurement (R393) -/

/-- From `s` to `t` an entry has been measured into MREG0: the log and the log's bytes have grown, or LOG_FULL is set. -/
structure Measures (s t : State) : Prop where
  rest : ∃ m l f d, t = { s with fw := { s.fw with mreg0 := m, log := l, logFull := f }, depot := d }
  grows : s.fw.log.length < 262144 → t.fw.log.length = s.fw.log.length + 1

theorem measure_measures (s : State) (kind subject svn : Nat) (d : BitVec 384) : Measures s (s.measure kind subject svn d) := by
  dsimp only [State.measure]
  split
  next h => exact ⟨⟨_, _, _, _, rfl⟩, fun _ => List.length_append ..⟩
  next h => exact ⟨⟨_, _, _, _, rfl⟩, fun h' => absurd h' h⟩

theorem extend0_measures (s : State) (kind svn : Nat) (d : BitVec 384) : Measures s (s.extend0 kind svn d) := by
  obtain ⟨⟨m, l, f, x, h⟩, hg⟩ :=
    measure_measures { s with fw := { s.fw with mreg0 := mregNext s.fw.mreg0 d } } kind 0 svn d
  exact ⟨⟨m, l, f, x, h⟩, hg⟩

/-! ### Cold reset ends (R432, R433, R447) -/

/-- What the straps, the fuses and the key table leave before the boot is measured. -/
def State.sampled (s : State) (b : BoardRead) : State :=
  { s with
    time := 0
    fw := { s.fw with
      keys := if b.keySeal = Config.keySeal b.keys then b.keys else [], seqA := b.seqA, seqB := b.seqB
      bootTry := if b.seqA.toNat < b.seqB.toNat then [true, false] else [false, true] }
    power := { s.power with
      coldReset := false, rstLow := false, loc := b.straps, stackFail := b.stackFail
      depotFail := decide (b.stackFail ≠ 0), zeroed := !decide (b.stackFail ≠ 0)
      strapBad := 4 ≤ locPlane b.straps || locTier b.straps = 3 } }

theorem coldResetEnd_next {b : BoardRead} (hc : s.power.coldReset = true) :
    exec (.coldResetEnd b) s = .next
      ((State.extend0 (if b.keySeal = Config.keySeal b.keys then s.sampled b else (s.sampled b).bumpDev dkKeySealBad) 1 0
        (Config.sha384 (leBytes 2 Config.romVersion.toNat))).extend0 2 0 Config.fuseDigest) := by
  show execColdResetEnd b s = _
  simp only [execColdResetEnd, hc, Bool.not_true, Bool.false_eq_true, if_false, decide_eq_true_eq]
  rfl

/-! ### The boot chain (R379, R380, R475) -/

theorem bootCopyCheck_next {copyB : Bool} {image : List Byte} (ha : s.alive = true) (ht : s.fw.bootTry.head? = some copyB) :
    exec (.bootCopyCheck copyB image) s =
      .next (if muleImageOk image s.fw.minSvn then s.startMule copyB image else s.copyFailed copyB) := by
  have hc : (s.alive && s.fw.bootTry.head? = some copyB) = true := by simp [ha, ht]
  show Host.Outcome.next (ite _ _ _) = _
  rw [if_pos hc]

/-- A copy that passes starts Mule, with its SVN. -/
theorem startMule_starts (s : State) (copyB : Bool) (b : List Byte) :
    (s.startMule copyB b).fw.muleUp = true ∧ (s.startMule copyB b).fw.muleSvn = natAt b 8 4 ∧
    (s.startMule copyB b).fw.bootTry = [] ∧ (s.startMule copyB b).fw.minSvn = s.fw.minSvn ∧
    (s.startMule copyB b).power = s.power := by
  unfold State.startMule
  obtain ⟨⟨m, l, f, d, h⟩, -⟩ := extend0_measures { s with fw := { s.fw with
      muleUp := true, muleSvn := natAt b 8 4, bootTry := [], restarting := false, petTicks := 0
      bootCopyB := if s.fw.restarting then s.fw.bootCopyB else copyB } } 3 (natAt b 8 4) (BitVec.ofNat 384 (natAt b 24 48))
  rw [h]
  exact ⟨rfl, rfl, rfl, rfl, rfl⟩

theorem copyFailed_keeps (s : State) (copyB : Bool) :
    (s.copyFailed copyB).fw.minSvn = s.fw.minSvn ∧ (s.copyFailed copyB).power = s.power := by
  dsimp only [State.copyFailed]
  split <;> exact ⟨rfl, rfl⟩

/-- At boot, a last copy that fails means RECOVERY. -/
theorem copyFailed_last {copyB : Bool} (ht : s.fw.bootTry = [copyB]) (hr : s.fw.restarting = false) :
    s.copyFailed copyB = { s with fw := { s.fw with
      bootTry := [], recovery := true, bootFailA := s.fw.bootFailA || !copyB, bootFailB := s.fw.bootFailB || copyB } } := by
  simp only [State.copyFailed, ht, hr, Bool.false_eq_true, if_false, List.tail_cons, List.isEmpty_nil]

/-! ### Port groups (R443) -/

theorem admitPort_ports (s : State) (p : Nat) : (s.admitPort p).ports = s.ports.set p { s.port p with admitted := true } :=
  lanesFrom_keeps (f := State.ports) (fun _ _ => rfl) (s.modPort p (fun q => { q with admitted := true })) p .detect

theorem admitPort_power (s : State) (p : Nat) : (s.admitPort p).power = s.power :=
  lanesFrom_keeps (f := State.power) (fun _ _ => rfl) (s.modPort p (fun q => { q with admitted := true })) p .detect

/-- A port of the group that is enabled and not yet admitted. -/
def State.joins (s : State) (g p : Nat) : Bool := s.groupOf p = g && (s.port p).enable && !(s.port p).admitted

/-- The ports of a group are admitted. -/
def State.admitGroup (s : State) (g : Nat) : State :=
  (List.range 49).foldl (fun t p => if s.joins g p then t.admitPort p else t) s

theorem portGroupAdmit_next {g : Nat} (hg : g < 8) (ha : s.alive = true) (hc : s.confined = false)
    (ht : (120 + 40 * g) * 1000000 ≤ s.time) : exec (.portGroupAdmit g) s = .next (s.admitGroup g) := by
  have ht' : (120 + 40 * g) * msNs ≤ s.time := ht
  simp [exec, execPortGroupAdmit, withUnit, hg, ha, hc, ht', State.admitGroup, State.joins]

theorem admitGroup_power (s : State) (g : Nat) : (s.admitGroup g).power = s.power :=
  List.foldlRecOn (motive := fun t : State => t.power = s.power) _ _ rfl fun t ht p _ => by
    split
    · exact (admitPort_power t p).trans ht
    · exact ht

/-- A port that does not join stays as it is. -/
theorem admitGroup_port {g q : Nat} (hq : s.joins g q = false) : (s.admitGroup g).port q = s.port q :=
  List.foldlRecOn (motive := fun t : State => t.port q = s.port q) _ _ rfl fun t ht p _ => by
    split
    next hp =>
      have hne : q ≠ p := by rintro rfl; rw [hq] at hp; cases hp
      rw [State.port, admitPort_ports]
      exact (Tbl.getD_set_ne _ _ _ hne).trans ht
    next => exact ht

/-- A port that joins is admitted. -/
theorem admitGroup_admits {g p : Nat} (hp : p < 49) (hj : s.joins g p = true) : ((s.admitGroup g).port p).admitted = true := by
  refine foldl_establishes (f := fun t q => if s.joins g q then State.admitPort t q else t)
    (P := fun q t => s.joins g q = true → (State.port t q).admitted = true) (fun t q hq => ?_) (fun t q y ht hq => ?_)
    (List.range 49) s p (List.mem_range.mpr hp) hj
  · rw [if_pos hq, State.port, admitPort_ports, Tbl.getD_set_self]
  · split
    · by_cases hne : q = y
      · subst hne
        rw [State.port, admitPort_ports, Tbl.getD_set_self]
      · rw [State.port, admitPort_ports, Tbl.getD_set_ne _ _ _ hne]
        exact ht hq
    · exact ht hq

/-! ### Candidacy (R446) -/

theorem gmCandidacyStart_next (ha : s.alive = true) (hc : s.confined = false) (hn : s.rooster.candidate = false)
    (ht : 600000000 ≤ s.time) (hst : s.rooster.st ≠ .free ∨ s.rooster.gmEligible = false) :
    exec .gmCandidacyStart s = .next { s with rooster := { s.rooster with candidate := true } } := by
  have ht' : 600 * msNs ≤ s.time := ht
  have hfree : ¬ ((s.rooster.st = .free && s.rooster.gmEligible) = true) := by
    obtain h | h := hst <;> simp [h]
  show execGmCandidacyStart s = _
  simp only [execGmCandidacyStart, ha, hc, hn, ht', Bool.not_false, Bool.and_self, decide_true, if_true, if_neg hfree]

/-- A candidate that is still FREE, and eligible, becomes GM. -/
theorem gmCandidacyStart_gm (ha : s.alive = true) (hc : s.confined = false) (hn : s.rooster.candidate = false)
    (ht : 600000000 ≤ s.time) (hst : s.rooster.st = .free) (he : s.rooster.gmEligible = true) :
    Gives .gmCandidacyStart s (fun t => t.rooster.st = .gm ∧ t.rooster.starting = true ∧ t.rooster.hops = 0 ∧
      t.rooster.parent = none ∧ t.rooster.candidate = true ∧ t.ports = s.ports) := by
  have ht' : 600 * msNs ≤ s.time := ht
  unfold Gives
  simp only [exec, execGmCandidacyStart, ha, hc, hn, ht', hst, he, Bool.not_false, Bool.and_self, decide_true, if_true]
  exact ⟨_, rfl, rfl, rfl, rfl, rfl, rfl, rfl⟩

/-! ### Restart of Mule (R389) -/

/-- The ticks of the restarts that still count, with this one. -/
def State.recentRestarts (s : State) : List Word :=
  s.fw.restarts.filter (fun t => (s.rooster.tickNo - t).toNat < restartSpan) ++ [s.rooster.tickNo]

/-- What a restart takes from Mule before it is counted and measured. -/
def State.muleStopped (s : State) : State :=
  let hold : Bool := 3 ≤ s.recentRestarts.length
  { s with
    mule := s.mule.cleared
    msgs := s.msgs.filter (fun m => m.qid ≠ muleQid)
    gate := { s.gate with
      queue := s.gate.queue.filter (fun w => w.slot ≠ 0)
      slots := s.gate.slots.set 0 { s.gateSlot 0 with pending := false } }
    fw := { s.fw with
      muleUp := false, muleSvn := 0, petTicks := 0, restarts := s.recentRestarts, muleHeld := s.fw.muleHeld || hold
      restarting := !hold
      bootTry := if hold then [] else if s.fw.seqA.toNat < s.fw.seqB.toNat then [true, false] else [false, true] } }

theorem muleRestart_next (ha : s.alive = true) (h0 : s.rooster.slot = 0) (hu : s.fw.muleUp = true) (hp : 64 < s.fw.petTicks) :
    exec .muleRestart s = .next ((s.muleStopped.closeMuleStreams.bumpDev dkMuleRestart).measure 8 0 0 Config.restartDigest) := by
  show execMuleRestart s = _
  simp only [execMuleRestart, ha, h0, hu, hp, Bool.and_self, decide_true, if_true]
  rfl

/-- Settles O42. -/
theorem bootReachesReady : Obligations.BootReachesReady := by
  refine ⟨fun s => ?_, fun s b hc hfail => ?_, fun s copyB image ha ht => ?_, fun s copyB image ha ht hr hbad => ?_,
    fun s g p hg hp ha hc ht hgrp hen => ?_, fun s ha hc hn ht hst => gmCandidacyStart_next ha hc hn ht hst,
    fun s ha hc hn ht hst he => ?_, fun s ha hr ht => ?_, fun s ha h0 hu hp => ?_⟩
  · have cold : ∀ low, s.coldOf low (s.startCold low) := fun low =>
      ⟨rfl, rfl, rfl, rfl, rfl, rfl, rfl, rfl, rfl, rfl, rfl, rfl, rfl⟩
    exact ⟨.of_next rfl (cold true), .of_next rfl (cold _), .of_next rfl (cold _), .of_next rfl (cold _)⟩
  · refine .of_next (coldResetEnd_next hc) ?_
    generalize hx : (if b.keySeal = Config.keySeal b.keys then s.sampled b else (s.sampled b).bumpDev dkKeySealBad) = x
    have hkeep : x.power = (s.sampled b).power ∧ x.fw = (s.sampled b).fw ∧ x.time = (s.sampled b).time := by
      subst hx
      split
      · exact ⟨rfl, rfl, rfl⟩
      · rw [bumpDev_eq]; exact ⟨count_power .., count_fw .., count_time ..⟩
    obtain ⟨hpow, hfw, htime⟩ := hkeep
    obtain ⟨⟨m, l, f, d, h1⟩, hg1⟩ := extend0_measures x 1 0 (Config.sha384 (leBytes 2 Config.romVersion.toNat))
    obtain ⟨⟨m', l', f', d', h2⟩, hg2⟩ :=
      extend0_measures (x.extend0 1 0 (Config.sha384 (leBytes 2 Config.romVersion.toNat))) 2 0 Config.fuseDigest
    have hlog : s.fw.log.length + 2 ≤ 262144 → ((x.extend0 1 0 (Config.sha384 (leBytes 2 Config.romVersion.toNat))).extend0 2 0
        Config.fuseDigest).fw.log.length = s.fw.log.length + 2 := by
      intro hle
      have hx0 : x.fw.log.length = s.fw.log.length := by rw [hfw]; rfl
      have hx1 := hg1 (by omega)
      have hx2 := hg2 (by omega)
      omega
    refine ⟨?_, ?_, ?_, ?_, ?_, ?_, ?_, hlog⟩ <;> rw [h2, h1] <;> dsimp only
    · rw [hpow]; rfl
    · rw [hpow]; rfl
    · rw [htime]; rfl
    · rw [hpow]; simp [State.sampled, hfail]
    · rw [hfw]; rfl
    · rw [hfw]; rfl
    · rw [hfw]; rfl
  · refine .of_next (bootCopyCheck_next ha ht) ?_
    obtain ⟨hup, hsvn, hboot, hmin, hpow⟩ := startMule_starts s copyB image
    split
    next hok => exact ⟨hmin, hpow, fun _ => ⟨hup, hsvn, hboot⟩⟩
    next hbad => exact ⟨(copyFailed_keeps s copyB).1, (copyFailed_keeps s copyB).2, fun hok => absurd hok hbad⟩
  · refine .of_next (bootCopyCheck_next ha (by rw [ht]; rfl)) ?_
    rw [hbad, if_neg Bool.false_ne_true, copyFailed_last ht hr]
    refine ⟨rfl, rfl, ?_, ?_, rfl⟩ <;> rintro rfl <;> simp
  · refine .of_next (portGroupAdmit_next hg ha hc ht) ⟨?_, fun q hq hne => admitGroup_port (by simp [State.joins, State.groupOf, hne]),
      admitGroup_power s g⟩
    cases hj : s.joins g p with
    | true => exact admitGroup_admits hp hj
    | false =>
      rw [admitGroup_port hj]
      simpa [State.joins, State.groupOf, hgrp, hen] using hj
  · exact gmCandidacyStart_gm ha hc hn ht hst he
  · refine .of_next (readyPublish_next ha hr ht) ⟨?_, ?_, mgmtCause_ports .., mgmtCause_rooster ..⟩
    · exact (mgmtCause_power _ (by decide)).1
    · exact (mgmtCause_power _ (by decide)).2
  · refine .of_next (muleRestart_next ha h0 hu hp) ?_
    obtain ⟨⟨m, l, f, d, h⟩, -⟩ := measure_measures
      (s.muleStopped.closeMuleStreams.bumpDev dkMuleRestart) 8 0 0 Config.restartDigest
    rw [h, bumpDev_eq]
    refine ⟨?_, ?_, ?_, ?_, ?_, ?_, ?_, ?_, ?_, ?_⟩
    · simp [State.closeMuleStreams, State.muleStopped]
    · simp [State.closeMuleStreams, State.muleStopped]
    · simp [State.closeMuleStreams, State.muleStopped, Mule.cleared]
    · simp [State.closeMuleStreams, State.muleStopped, Mule.cleared]
    · simp [State.closeMuleStreams, State.muleStopped, Mule.cleared]
    · simp [State.closeMuleStreams, State.muleStopped, State.gateSlot]
    · simp [State.closeMuleStreams, State.muleStopped]
    · exact ctr_count_one ..
    · simp [State.closeMuleStreams, State.muleStopped]
    · simp [State.closeMuleStreams, State.muleStopped]

end Sys2Proof.Machine
end

section
/-! SUPPORT. Service messages (R405), and the shards that Depot keeps for them (R407, R408). -/

namespace Sys2Proof.Machine

variable {s t u : State} {m : SvcMsg}

/-! ### A message is sent (R405) -/

/-- Only the class C streams change. -/
theorem muleSendC_eq (s : State) (dst : BitVec 32) (part ctx : Nat) (b : List Byte) :
    ∃ x, s.muleSendC dst part ctx b = { s with txs := x } := ⟨_, rfl⟩

/-- A reply changes nothing but the class C streams. -/
theorem svcReply_eq (s : State) (m : SvcMsg) (st : Nat) (b : List Byte) : ∃ x, s.svcReply m st b = { s with txs := x } := ⟨_, rfl⟩

@[simp] theorem svcReply_mule (s : State) (m : SvcMsg) (st : Nat) (b : List Byte) : (s.svcReply m st b).mule = s.mule := rfl
@[simp] theorem svcReply_depot (s : State) (m : SvcMsg) (st : Nat) (b : List Byte) : (s.svcReply m st b).depot = s.depot := rfl
@[simp] theorem svcReply_threads (s : State) (m : SvcMsg) (st : Nat) (b : List Byte) :
    (s.svcReply m st b).threads = s.threads := rfl

/-- Replies to any number of messages change nothing but the class C streams. -/
theorem svcReplies_eq {α : Type} (f : α → SvcMsg) (st : Nat) (b : List Byte) (l : List α) (s : State) :
    ∃ x, l.foldl (fun t a => State.svcReply t (f a) st b) s = { s with txs := x } := by
  induction l generalizing s with
  | nil => exact ⟨_, rfl⟩
  | cons a l ih =>
    obtain ⟨x, hx⟩ := ih (s.svcReply (f a) st b)
    exact ⟨x, hx⟩

/-! ### A message is served (R405) -/

/-- The operations of a service are requests. -/
theorem svcOps_request {v o : Nat} (h : (svcOps v).contains o = true) : o < 128 := by
  have hmem := List.contains_iff_mem.mp h
  unfold svcOps at hmem
  split at hmem <;> simp at hmem <;> omega

/-- A message that is served goes to its operation. -/
theorem serveMsg_acts {v o : Nat} (h : s.serves m v o) (act : State → State) : s.serveMsg m v o act = act (s.takeMsg m) := by
  obtain ⟨ha, hu, ht, hf, hv, ho, haddr, hup, hlt, hop⟩ := h
  have hreq := svcOps_request hop
  have hsrc : ¬(v = 0 ∧ addrPort m.src ≠ 0x41) := fun ⟨h0, hne⟩ => hne (haddr h0)
  have hrun : ¬(v ≠ 0 ∧ s.serviceUp v = false) := fun ⟨h0, hne⟩ => absurd (hup h0) (by simp [hne])
  simp only [State.serveMsg, ha, hu, ht, hf, hv, ho, hop]
  rw [if_neg (by simp), if_neg (by omega), if_neg (by simp), if_neg (by simpa using hsrc), if_neg (by simpa using hrun),
    if_neg (by omega), if_neg (by simp), if_pos (by simp)]

theorem serveFixed_acts {v o n : Nat} (h : s.serves m v o) (hn : (msgBody m).length = n) (act : State → State) :
    s.serveFixed m v o n act = .next (act (s.takeMsg m)) := by
  rw [State.serveFixed, serveMsg_acts h, if_pos hn]

theorem serveDepot_acts {o n : Nat} {write : Bool} (h : s.serves m 1 o) (hn : (msgBody m).length = n)
    (hg : (s.takeMsg m).msgGranted m 1 write = true) (act : State → State) :
    s.serveDepot m o n write act = .next (act (s.takeMsg m)) := by
  rw [State.serveDepot, serveFixed_acts h hn, if_pos hg]

/-- A request to a service that does not run. -/
theorem serveMsg_noService (ha : s.alive = true) (hu : s.fw.muleUp = true) (ht : s.msgTurn m = true) (hf : msgFormed m = true)
    (ho : msgOp m < 128) (h0 : msgService m ≠ 0) (hdown : s.serviceUp (msgService m) = false) (v o : Nat)
    (act : State → State) : s.serveMsg m v o act = (s.takeMsg m).svcReply m svNoService [] := by
  simp only [State.serveMsg, ha, hu, ht, hf, hdown]
  rw [if_neg (by simp), if_neg (by omega), if_neg (by simp), if_neg (by simp [h0]), if_pos (by simp [h0])]

/-- A request to an operator service that runs. -/
theorem serveMsg_operator (ha : s.alive = true) (hu : s.fw.muleUp = true) (ht : s.msgTurn m = true) (hf : msgFormed m = true)
    (ho : msgOp m < 128) (h4 : 4 ≤ msgService m) (hup : s.serviceUp (msgService m) = true) (v o : Nat)
    (act : State → State) : s.serveMsg m v o act = (s.takeMsg m).openReply m := by
  have h0 : msgService m ≠ 0 := by omega
  simp only [State.serveMsg, ha, hu, ht, hf, hup]
  rw [if_neg (by simp), if_neg (by omega), if_neg (by simp), if_neg (by simp [h0]), if_neg (by simp), if_pos h4]

/-- The reply of an operator service: one of the statuses, and a body that fits. -/
theorem openReply_replies (s : State) (m : SvcMsg) :
    ∃ (st n : Nat) (b : List Byte), st < 10 ∧ b.length ≤ 4080 ∧
      s.openReply m = State.svcReply { s with free := n } m st b := by
  refine ⟨_, _, _, ?_, ?_, rfl⟩
  · exact Nat.mod_lt _ (by decide)
  · simp only [List.length_map, List.length_range]
    exact Nat.le_of_lt_succ (Nat.mod_lt _ (by decide))

/-! ### Extents (R407) -/

theorem overlaps_comm (a n b k : Nat) : overlaps a n b k = overlaps b k a n := by
  rw [Bool.eq_iff_iff]
  simp only [overlaps, Bool.and_eq_true, decide_eq_true_eq]
  tauto

/-- Extents of `room` bytes in a data region that ends at `len`, clear of each other and of those in use. -/
structure Placed (len room : Nat) (used : List (Nat × Nat)) (l : List Nat) : Prop where
  inside : ∀ o ∈ l, 65536 ≤ o ∧ o + room ≤ len ∧ o % 65536 = 0
  apart : l.Pairwise (fun a b => overlaps a room b room = false)
  clear : ∀ o ∈ l, ∀ x ∈ used, overlaps o room x.1 x.2 = false

theorem mem_extentPlaces {len room o : Nat} {used : List (Nat × Nat)} (h : o ∈ extentPlaces len room used) :
    (65536 ≤ o ∧ o + room ≤ len ∧ o % 65536 = 0) ∧ ∀ x ∈ used, overlaps o room x.1 x.2 = false := by
  obtain ⟨hmem, hok⟩ := List.mem_filter.mp h
  obtain ⟨i, -, rfl⟩ := List.mem_map.mp hmem
  simp only [Bool.and_eq_true, decide_eq_true_eq, List.all_eq_true, Bool.not_eq_true'] at hok
  exact ⟨⟨hok.1.1, hok.1.2, Nat.mul_mod_left i 65536⟩, hok.2⟩

/-- An extent that is placed first, and those placed after it. -/
theorem Placed.cons {len room o : Nat} {used : List (Nat × Nat)} {l : List Nat} (ho : o ∈ extentPlaces len room used)
    (h : Placed len room ((o, room) :: used) l) : Placed len room used (o :: l) := by
  obtain ⟨hin, hclear⟩ := mem_extentPlaces ho
  refine ⟨List.forall_mem_cons.mpr ⟨hin, h.inside⟩, List.pairwise_cons.mpr ⟨fun b hb => ?_, h.apart⟩,
    List.forall_mem_cons.mpr ⟨hclear, fun b hb x hx => h.clear b hb x (List.mem_cons_of_mem _ hx)⟩⟩
  rw [overlaps_comm]
  exact h.clear b hb (o, room) List.mem_cons_self

/-- What `placeExtents` answers, wherever the open choice puts the extents. -/
theorem placeExtents_placed {len room n : Nat} {used : List (Nat × Nat)} {acc l : List Nat}
    (h : s.placeExtents len room n used acc = (some l, u)) :
    ∃ new f, l = acc ++ new ∧ new.length = n ∧ Placed len room used new ∧ u = { s with free := f } := by
  induction n generalizing s used acc with
  | zero =>
    obtain ⟨⟩ := h
    exact ⟨[], _, (List.append_nil _).symm, rfl, ⟨nofun, .nil, nofun⟩, rfl⟩
  | succ n ih =>
    simp only [State.placeExtents] at h
    split at h
    · cases h
    next hne =>
      have hpos : 0 < (extentPlaces len room used).length := by
        rwa [List.length_pos_iff, ne_eq, ← List.isEmpty_iff]
      have hmem : (extentPlaces len room used).getD (s.fresh.1.toNat % (extentPlaces len room used).length) 0 ∈
          extentPlaces len room used := by
        rw [List.getD_eq_getElem _ _ (Nat.mod_lt _ hpos)]
        exact List.getElem_mem _
      obtain ⟨new, f, rfl, hlen, hplaced, rfl⟩ := ih h
      exact ⟨_ :: new, f, by rw [List.append_assoc]; rfl, congrArg (· + 1) hlen, hplaced.cons hmem, rfl⟩

/-! ### Bytes of a shard (R326, R408) -/

theorem depotPiece_mule (s : State) (a : Nat) (d : List Byte) : (s.depotPiece a d).2.mule = s.mule := by
  dsimp only [State.depotPiece]
  split <;> simp

theorem depotStream_mule (s : State) (a : Nat) (d : List Byte) : (s.depotStream a d).2.mule = s.mule :=
  List.foldlRecOn (motive := fun r : Nat × State => r.2.mule = s.mule) _ _ rfl fun r hr c _ =>
    (depotPiece_mule r.2 c.1 c.2).trans hr

/-- A shard is created where its extents found room. -/
theorem create_next {c : Ctx} {l : List Nat} (hs : s.serves m 1 1) (hb : (msgBody m).length = 12)
    (hg : (s.takeMsg m).msgGranted m 1 true = true) (hc : s.ctx? (msgCtx m) = some c)
    (hroom : shardRoom (natAt (msgBody m) 8 4) ≤ 0x4000000) (hnone : s.shardFor m = none) (hfew : (s.shardsOf m).length < 1024)
    (hplace : (s.takeMsg m).placeExtents ((c.segs.getD (msgSeg m) (0, 0)).2 * 4096) (shardRoom (natAt (msgBody m) 8 4)) 3
      ((s.shardsOf m).flatMap (fun x => x.ext.map (fun o => (o, shardRoom x.cap)))) [] = (some l, u)) :
    exec (.create m) s = .next (State.svcReply { u with mule := { u.mule with shards := u.mule.shards ++
      [{ ctx := msgCtx m, seg := msgSeg m, id := natAt (msgBody m) 0 8, cap := natAt (msgBody m) 8 4, ext := l }] } }
        m svOk []) := by
  have hc' : (s.takeMsg m).ctx? (msgCtx m) = some c := hc
  have hnone' : (s.takeMsg m).shardFor m = none := hnone
  have hown : (s.takeMsg m).shardsOf m = s.shardsOf m := rfl
  refine (serveDepot_acts hs hb hg _).trans (congrArg _ ?_)
  simp only [hc', hnone', hown, hplace, Option.isSome_none, Bool.false_eq_true, if_false, if_neg (Nat.not_lt.mpr hroom),
    if_neg (Nat.not_le.mpr hfew)]

/-- A version's bytes go to the free extent, and are answered OK. -/
theorem put_next {x : Shard} {a : Nat} (hs : s.serves m 1 2) (hb16 : 16 ≤ (msgBody m).length)
    (hb : (msgBody m).length ≤ 4080) (hg : (s.takeMsg m).msgGranted m 1 true = true) (hx : s.shardFor m = some x)
    (hver : ∀ w sz o, x.latest = some (w, sz, o) → w < natAt (msgBody m) 8 4)
    (hfit : natAt (msgBody m) 12 4 + ((msgBody m).length - 16) ≤ x.cap) (hst : x.staged = none)
    (ha : s.segAddr m.part (msgCtx m) (msgSeg m) (x.freeExtent + natAt (msgBody m) 12 4) ((msgBody m).length - 16) = some a)
    (hd : s.depot.draining = false) (hbad : s.depot.bad = []) :
    exec (.put m) s = .next ((((s.takeMsg m).depotStream a ((msgBody m).drop 16)).2.setShard
      { x with staged := some (natAt (msgBody m) 8 4, x.freeExtent) }).svcReply m svOk []) := by
  have hx' : (s.takeMsg m).shardFor m = some x := hx
  have hlen : ((msgBody m).drop 16).length = (msgBody m).length - 16 := List.length_drop
  have ha' : (s.takeMsg m).segAddr m.part (msgCtx m) (msgSeg m) (x.freeExtent + natAt (msgBody m) 12 4)
      ((msgBody m).length - 16) = some a := ha
  have hd' : (s.takeMsg m).depot.draining = false := hd
  have hok := (DepotServes.depotStream (s := s.takeMsg m) hbad a ((msgBody m).drop 16)).1
  refine congrArg Host.Outcome.next ((serveMsg_acts hs _).trans ?_)
  simp only [hx', hst, hlen, hg, ha', hd', hok, Bool.not_true, Bool.false_eq_true, if_false, if_true,
    if_neg (Nat.not_lt.mpr hfit)]
  refine (if_neg (by simp only [Bool.or_eq_true, decide_eq_true_eq]; omega)).trans (if_neg ?_)
  split
  next w sz o hl => exact fun hle => absurd (hver w sz o hl) (Nat.not_lt.mpr (of_decide_eq_true hle))
  next => exact Bool.false_ne_true

/-- Settles O44. -/
theorem depotKeepsShards : Obligations.DepotKeepsShards := by
  refine ⟨fun s u m c len cap l hs hb hg hc hlen hcap hroom hnone hfew hplace => ?_,
    fun s m x a e hs hb16 hb hg hx hver hfit hst he ha hd hbad hmem => ?_,
    fun s m x e hs hb hg hx hst hfit => ?_, fun s m x v size e a hs hb hg hx hver hlen hsize ha hd hbad hsoft => ?_,
    fun s m x hs hb hg hx => ?_, fun s m c ha hu ht hf ho h0 hc => ?_⟩
  · subst hlen hcap
    refine .of_next (create_next hs hb hg hc hroom hnone hfew hplace) ?_
    obtain ⟨new, f, rfl, hnew, hplaced, rfl⟩ := placeExtents_placed hplace
    refine ⟨rfl, hnew, hplaced.inside, hplaced.apart, fun x hx e he o ho => ?_, rfl, rfl⟩
    exact hplaced.clear o ho _ (List.mem_flatMap.mpr ⟨x, hx, List.mem_map_of_mem he⟩)
  · subst he
    refine .of_next (put_next hs hb16 hb hg hx hver hfit hst ha hd hbad) ⟨fun k => ?_, ?_, ?_⟩
    · have hbytes := (DepotServes.depotStream (s := s.takeMsg m) hbad a ((msgBody m).drop 16)).2.mem
      rw [svcReply_depot]
      refine (congrArg (memGet · k) hbytes).trans ((memGet_memWrite hmem a k _).trans ?_)
      rw [List.length_drop, List.getD_eq_getElem?_getD, List.getElem?_drop, ← List.getD_eq_getElem?_getD]
    · intro y hy hctx hseg hid
      obtain ⟨z, -, rfl⟩ := List.mem_map.mp hy
      split at hctx
      next hz => rw [if_pos hz]
      next hz => rw [if_neg hz] at hseg hid; simp [hctx, hseg, hid] at hz
    · exact congrArg Mule.inbox (depotStream_mule (s.takeMsg m) a _)
  · refine (serveDepot_acts hs hb hg _).trans (congrArg _ ?_)
    have hx' : (s.takeMsg m).shardFor m = some x := hx
    simp only [hx', hst, ne_eq, not_true_eq_false, if_false, if_neg (Nat.not_lt.mpr hfit)]
    rfl
  · refine (serveDepot_acts hs hb hg _).trans (congrArg _ ?_)
    have hx' : (s.takeMsg m).shardFor m = some x := hx
    have ha' : (s.takeMsg m).segAddr m.part (msgCtx m) (msgSeg m) (e + natAt (msgBody m) 12 4) (natAt (msgBody m) 16 4) = some a := ha
    have hd' : (s.takeMsg m).depot.draining = false := hd
    have hread := depotRead_clean (s := s.takeMsg m) hbad hsoft a (natAt (msgBody m) 16 4)
    simp only [hx', hver, ha', hd', hread, Bool.false_eq_true, if_false, if_true]
    exact if_neg (by simp only [Bool.or_eq_true, decide_eq_true_eq]; omega)
  · refine .of_next (serveDepot_acts hs hb hg _) ?_
    have hx' : (s.takeMsg m).shardFor m = some x := hx
    simp only [hx']
    exact ⟨rfl, rfl, rfl⟩
  · obtain ⟨v, o, act, hexec⟩ : ∃ v o act, exec c s = .next (s.serveMsg m v o act) := by
      obtain rfl | rfl | rfl | rfl | rfl | rfl | rfl | rfl | rfl | rfl | rfl | rfl := hc <;> exact ⟨_, _, _, rfl⟩
    refine ⟨fun hdown => hexec.trans (congrArg _ (serveMsg_noService ha hu ht hf ho h0 hdown v o act)), fun hup h4 => ?_⟩
    obtain ⟨st, n, b, hst, hbody, hreply⟩ := openReply_replies (s.takeMsg m) m
    exact ⟨st, n, b, hst, hbody, hexec.trans (congrArg _ ((serveMsg_operator ha hu ht hf ho h4 hup v o act).trans hreply))⟩

end Sys2Proof.Machine
end

section
/-! SUPPORT. Roll-call keeps jobs (R409, R410), and Checkpoint drain its parts (R412, R413). -/

namespace Sys2Proof.Machine

variable {s t u : State} {m : SvcMsg} {j : Job}

/-! ### Roll-call (R409, R410) -/

/-- A request on a job that exists. -/
theorem withJob_acts (hj : s.mule.jobs.get? (msgScope m) = some j) (act : Job → State) : s.withJob m act = act j := by
  unfold State.withJob
  rw [hj]

/-- A Roll-call request of one length, on a job that exists. -/
theorem serveJob_acts {o n : Nat} (hs : s.serves m 2 o) (hn : (msgBody m).length = n)
    (hj : s.mule.jobs.get? (msgScope m) = some j) (act : State → Job → State) :
    s.serveFixed m 2 o n (fun t => t.withJob m (act t)) = .next (act (s.takeMsg m) j) :=
  (serveFixed_acts hs hn _).trans (congrArg _ (withJob_acts (s := s.takeMsg m) hj _))

@[simp] theorem setJob_get_self (s : State) (k : Nat) (j : Job) : (s.setJob k j).mule.jobs.get? k = some j :=
  Tbl.get?_set_self ..

/-- A job after the barrier is looked at: released where every rank has arrived. -/
def Job.released (j : Job) (barrier : Nat) : Job :=
  if j.parts ≠ 0 && j.allAt barrier then { j with arrivals := j.arrivals.filter (fun x => x.barrier ≠ barrier) } else j

/-- Releasing a barrier takes its arrivals off the job, and answers them. -/
theorem releaseBarrier_job {k : Nat} (hj : s.mule.jobs.get? k = some j) (b : Nat) :
    (s.releaseBarrier k b).mule.jobs.get? k = some (j.released b) := by
  simp only [State.releaseBarrier, hj, Job.released]
  split
  · obtain ⟨x, hx⟩ := svcReplies_eq Arrival.msg svOk [] (j.arrivals.filter (fun x => x.barrier = b))
      (s.setJob k { j with arrivals := j.arrivals.filter (fun x => x.barrier ≠ b) })
    rw [hx]
    exact setJob_get_self ..
  · exact hj

/-- A barrier at which some rank is missing stays as it is. -/
theorem releaseBarrier_waits {k b : Nat} (hj : s.mule.jobs.get? k = some j) (h : ¬ (j.parts ≠ 0 ∧ j.allAt b = true)) :
    s.releaseBarrier k b = s := by
  simp only [State.releaseBarrier, hj]
  exact if_neg (by simpa using h)

theorem released_keeps (j : Job) (b : Nat) : (j.released b).ranks = j.ranks ∧ (j.released b).topics = j.topics := by
  unfold Job.released
  split <;> exact ⟨rfl, rfl⟩

theorem released_all {b : Nat} (h : j.parts ≠ 0 ∧ j.allAt b = true) :
    j.released b = { j with arrivals := j.arrivals.filter (fun x => x.barrier ≠ b) } := if_pos (by simpa using h)

theorem released_waits {b : Nat} (h : ¬ (j.parts ≠ 0 ∧ j.allAt b = true)) : j.released b = j := if_neg (by simpa using h)

/-- The arrival that a message of a joined rank makes. -/
def State.arrivalOf (s : State) (m : SvcMsg) (rank : Nat) : Arrival :=
  { rank := rank, barrier := natAt (msgBody m) 0 4, msg := m, tick := s.rooster.tickNo }

theorem arrive_next {e : Nat × BitVec 32} (hs : s.serves m 2 3) (hb : (msgBody m).length = 4)
    (hj : s.mule.jobs.get? (msgScope m) = some j) (he : j.ranks.find? (fun x => x.2 = m.src) = some e) :
    exec (.arrive m) s = .next (((s.takeMsg m).setJob (msgScope m)
      { j with arrivals := j.arrivals ++ [s.arrivalOf m e.1] }).releaseBarrier (msgScope m) (natAt (msgBody m) 0 4)) := by
  refine (serveJob_acts hs hb hj _).trans (congrArg _ ?_)
  simp only [he]
  rfl

theorem arriveTimeout_next {k : Nat} (ha : s.alive = true) (hu : s.fw.muleUp = true) (hj : s.mule.jobs.get? k = some j)
    (hlate : ∃ x ∈ j.arrivals, 65536 ≤ (s.rooster.tickNo - x.tick).toNat) :
    ∃ x, exec (.arriveTimeout k) s = .next { s.setJob k { j with
      arrivals := j.arrivals.filter (fun x => !decide (65536 ≤ (s.rooster.tickNo - x.tick).toNat)) } with txs := x } := by
  obtain ⟨y, hy, hold⟩ := hlate
  have hany : j.arrivals.any (fun x => decide (65536 ≤ (s.rooster.tickNo - x.tick).toNat)) = true :=
    List.any_eq_true.mpr ⟨y, hy, decide_eq_true hold⟩
  obtain ⟨x, hx⟩ := svcReplies_eq Arrival.msg svLost []
    (j.arrivals.filter (fun x => decide (65536 ≤ (s.rooster.tickNo - x.tick).toNat)))
    (s.setJob k { j with arrivals := j.arrivals.filter (fun x => !decide (65536 ≤ (s.rooster.tickNo - x.tick).toNat)) })
  refine ⟨x, ?_⟩
  show execArriveTimeout k s = _
  simp only [execArriveTimeout, hj, ha, hu, hany, Bool.and_self, if_true]
  exact congrArg _ hx

/-- Settles O45. -/
theorem rollCallKeepsJobs : Obligations.RollCallKeepsJobs := by
  refine ⟨fun s m j rank parts hs hb h0 hrank hparts hlt hle hj hjp harr hnew => ?_, fun s m j a hs hb hj ha => ?_,
    fun s m j e hs hb hj he => ?_, fun s k j ha hu hj hlate => ?_, fun s m j hs h4 h68 hj => ⟨fun v hv => ?_, fun hv hfew => ?_⟩,
    fun s m j v hs hb hj hv => ?_⟩
  · subst hrank hparts
    have hj' : (s.takeMsg m).mule.jobs.get? (msgScope m) = some j := hj
    refine (serveFixed_acts hs hb _).trans (congrArg _ ?_)
    simp only [Tbl.getD, hj', Option.getD_some, Option.isNone_some, Bool.false_and, Bool.false_eq_true, if_false, hjp, hnew,
      harr, List.foldl_nil, ne_eq, not_true_eq_false, svOk]
    exact if_neg (by simp only [Bool.or_eq_true, decide_eq_true_eq]; omega)
  · refine (serveJob_acts hs hb hj _).trans (congrArg _ ?_)
    simp only [ha, Option.isSome_some, if_true, svOk]
  · refine .of_next ((arrive_next hs hb hj he).trans rfl) ⟨_, releaseBarrier_job (setJob_get_self ..) _, ?_, ?_, ?_, ?_⟩
    · exact (released_keeps ..).1
    · exact (released_keeps ..).2
    · intro hall
      exact (congrArg Job.arrivals (released_all (j := { j with arrivals := j.arrivals ++ [s.arrivalOf m e.1] }) hall)).trans
        (by simp [State.arrivalOf])
    · intro hmiss
      rw [releaseBarrier_waits (setJob_get_self ..) hmiss]
      exact ⟨congrArg Job.arrivals (released_waits hmiss), rfl⟩
  · obtain ⟨x, hx⟩ := arriveTimeout_next ha hu hj hlate
    exact .of_next hx ⟨setJob_get_self .., fun i hi => Tbl.get?_set_ne _ _ hi, rfl, rfl⟩
  · refine congrArg Host.Outcome.next ((serveMsg_acts hs _).trans ?_)
    refine (if_neg (by simp only [Bool.or_eq_true, decide_eq_true_eq]; omega)).trans ((withJob_acts (s := s.takeMsg m) hj _).trans ?_)
    simp only [hv, svOk]
  · refine congrArg Host.Outcome.next ((serveMsg_acts hs _).trans ?_)
    refine (if_neg (by simp only [Bool.or_eq_true, decide_eq_true_eq]; omega)).trans ((withJob_acts (s := s.takeMsg m) hj _).trans ?_)
    simp only [hv, if_neg (Nat.not_le.mpr hfew), svOk]
  · refine (serveJob_acts hs hb hj _).trans (congrArg _ ?_)
    simp only [hv, Option.isSome_some, if_true, svOk]

/-! ### Checkpoint drain (R412, R413) -/

theorem drain_next (hs : s.serves m 3 1) (hb : (msgBody m).length = 30) (hg : (s.takeMsg m).msgGranted m 3 false = true)
    (hpos : 1 ≤ natAt (msgBody m) 8 8) (hle : natAt (msgBody m) 8 8 ≤ 2 ^ 40) (hfew : s.mule.drains.length < 64) :
    exec (.drain m) s = .next { s with mule := { (s.takeMsg m).mule with
      nextDrain := s.mule.nextDrain + 1
      drains := s.mule.drains ++ [{
        id := s.mule.nextDrain, req := m, ctx := msgCtx m, seg := msgSeg m, offset := natAt (msgBody m) 0 8
        len := natAt (msgBody m) 8 8, rank := natAt (msgBody m) 16 4, obj := natAt (msgBody m) 20 8
        dq := natAt (msgBody m) 28 2 }] } } := by
  have hfew' : ¬ 64 ≤ (s.takeMsg m).mule.drains.length := Nat.not_le.mpr hfew
  refine (serveFixed_acts hs hb _).trans (congrArg _ ?_)
  simp only [hg, Bool.not_true, Bool.false_eq_true, if_false, if_neg hfew']
  exact if_neg (by simp only [Bool.or_eq_true, decide_eq_true_eq]; omega)

theorem drainPartStart_next {id : Nat} {d : Drain} (hd : s.mule.drains.find? (fun x => x.id = id) = some d)
    (ha : s.alive = true) (hu : s.fw.muleUp = true) (hthr : s.mule.throttle < 3) (hnext : d.next < d.count)
    (hidle : d.sending = none) : exec (.drainPartStart id) s = .next (s.sendPart d d.next 1 (d.next + 1)) := by
  show execDrainPartStart id s = _
  simp only [execDrainPartStart, hd, ha, hu, hthr, hnext, hidle, Option.isNone_none, Bool.and_self, decide_true, if_true]

/-- A part that is done, where others are still to start. -/
theorem partDone_next {d : Drain} {x : DrainPart} (hs : s.serves m 3 2) (hb : (msgBody m).length = 12)
    (hg : (s.takeMsg m).msgGranted m 3 false = true)
    (hd : s.mule.drains.find? (fun y => y.obj = natAt (msgBody m) 0 8 && y.ctx = msgCtx m && y.seg = msgSeg m &&
      (y.parts.get? (natAt (msgBody m) 8 4)).isSome) = some d)
    (hx : d.parts.get? (natAt (msgBody m) 8 4) = some x) (hmore : d.next ≠ d.count) :
    exec (.partDone m) s = .next (((s.takeMsg m).setDrain
      { d with parts := d.parts.set (natAt (msgBody m) 8 4) { x with done := true } }).svcReply m svOk []) := by
  have hd' : (s.takeMsg m).mule.drains.find? (fun y => y.obj = natAt (msgBody m) 0 8 && y.ctx = msgCtx m && y.seg = msgSeg m &&
      (y.parts.get? (natAt (msgBody m) 8 4)).isSome) = some d := hd
  refine (serveFixed_acts hs hb _).trans (congrArg _ ?_)
  simp only [hg, hd', Tbl.getD, hx, Option.getD_some, Bool.not_true, Bool.false_eq_true, if_false]
  exact if_neg fun h => hmore (of_decide_eq_true (Bool.and_eq_true_iff.mp h).1)

/-- A part that is lost or late is sent again, or ends the drain. -/
theorem partResend_next {id k : Nat} {d : Drain} {x : DrainPart} (hd : s.mule.drains.find? (fun y => y.id = id) = some d)
    (hx : d.parts.get? k = some x) (ha : s.alive = true) (hu : s.fw.muleUp = true) (hopen : x.done = false)
    (hdue : x.lost = true ∨ 64 ≤ (s.rooster.tickNo - x.tick).toNat) :
    exec (.partResend id k) s =
      .next (if 4 ≤ x.sends then s.endDrain d svLost [] else s.sendPart d k (x.sends + 1) d.next) := by
  have hdue' : (x.lost || decide (64 ≤ (s.rooster.tickNo - x.tick).toNat)) = true := by simpa using hdue
  show execPartResend id k s = _
  simp only [execPartResend, hd, hx, ha, hu, hopen, hdue', Bool.not_false, Bool.and_self, if_true]

/-- Settles O46. -/
theorem checkpointDrains : Obligations.CheckpointDrains := by
  have hid {s : State} {id : Nat} {d : Drain} (h : s.mule.drains.find? (fun x => x.id = id) = some d) : d.id = id := by
    simpa using List.find?_some h
  refine ⟨fun s m hs hb hg hpos hle hfew => .of_next (drain_next hs hb hg hpos hle hfew) ⟨rfl, rfl, rfl, rfl⟩,
    fun s id d hd ha hu hthr hnext hidle => ?_, fun s m d k x hs hb hg hk hd hx hmore => ?_,
    fun s id k d x hd hx ha hu hopen hdue => ⟨fun hfew => ?_, fun hlast => ?_⟩⟩
  · obtain rfl := hid hd
    exact .of_next (drainPartStart_next hd ha hu hthr hnext hidle) ⟨rfl, rfl, rfl, rfl⟩
  · subst hk
    exact .of_next (partDone_next hs hb hg hd hx hmore) ⟨rfl, rfl⟩
  · obtain rfl := hid hd
    refine .of_next ((partResend_next hd hx ha hu hopen hdue).trans (congrArg _ (if_neg (Nat.not_le.mpr hfew)))) ⟨rfl, rfl, rfl⟩
  · obtain rfl := hid hd
    exact .of_next ((partResend_next hd hx ha hu hopen hdue).trans (congrArg _ (if_pos hlast))) ⟨rfl, rfl⟩

end Sys2Proof.Machine
end

section
/-! SUPPORT. What Mule decides (R396 to R404): each decision is a call in its own gate slot, and touches nothing else. -/

namespace Sys2Proof.Machine

variable {s t u : State} {r q : GateReq}

/-! ### Calls of Mule (R382, R383, R396) -/

theorem mem_gateInsert {w x : GateWait} {l : List GateWait} : x ∈ gateInsert w l ↔ x = w ∨ x ∈ l := by
  induction l with
  | nil => simp [gateInsert]
  | cons y l ih =>
    simp only [gateInsert]
    split
    · simp
    · simp only [List.mem_cons, ih]
      tauto

/-- A call of Mule changes nothing but the gate. -/
theorem muleCall_eq (s : State) (r : GateReq) : ∃ g, s.muleCall r = { s with gate := g } := ⟨_, rfl⟩

theorem muleCall_asks (s : State) (r : GateReq) : (s.muleCall r).muleAsks r :=
  ⟨congrArg GateSlot.pending (gateSlot_setGateSlot_self s 0 _), _, mem_gateInsert.mpr (.inl rfl), rfl, rfl⟩

/-- A call that waits still waits after another. -/
theorem muleCall_keeps (h : s.muleAsks q) : (s.muleCall r).muleAsks q := by
  obtain ⟨-, w, hw, hslot, hreq⟩ := h
  exact ⟨(muleCall_asks s r).1, w, mem_gateInsert.mpr (.inr hw), hslot, hreq⟩

/-! ### Decisions (R396 to R404) -/

/-- What no decision changes of Mule: the digest and its mark, the runs of hot hinges, the level in force and the calls that
are held back. -/
structure Mule.Same (m n : Mule) : Prop where
  digest : n.digest = m.digest
  reviewed : n.reviewed = m.reviewed
  hot1 : n.hot1 = m.hot1
  hot2 : n.hot2 = m.hot2
  hot3 : n.hot3 = m.hot3
  throttle : n.throttle = m.throttle
  backoff : n.backoff = m.backoff

/-- From `s` to `t` Mule took decisions: lanes, the gate, logs, class C streams and Mule's own bookkeeping, and no call that
waited was lost. -/
structure Decides (s t : State) : Prop where
  rest : ∃ l g f x m, t = { s with lanes := l, gate := g, fw := f, txs := x, mule := m }
  mule : s.mule.Same t.mule
  asks : ∀ r, s.muleAsks r → t.muleAsks r

namespace Decides

theorem refl (s : State) : Decides s s := ⟨⟨_, _, _, _, _, rfl⟩, ⟨rfl, rfl, rfl, rfl, rfl, rfl, rfl⟩, fun _ h => h⟩

theorem trans (h : Decides s t) (h' : Decides t u) : Decides s u := by
  obtain ⟨⟨l, g, f, x, m, rfl⟩, hm, ha⟩ := h
  obtain ⟨⟨l', g', f', x', m', rfl⟩, hm', ha'⟩ := h'
  exact ⟨⟨_, _, _, _, _, rfl⟩, ⟨hm'.digest.trans hm.digest, hm'.reviewed.trans hm.reviewed, hm'.hot1.trans hm.hot1,
    hm'.hot2.trans hm.hot2, hm'.hot3.trans hm.hot3, hm'.throttle.trans hm.throttle, hm'.backoff.trans hm.backoff⟩,
    fun r hr => ha' r (ha r hr)⟩

/-- Steps that each decide, one after the other. -/
theorem foldl {α : Type} {f : State → α → State} (h : ∀ t a, Decides t (f t a)) (l : List α) (s : State) :
    Decides s (l.foldl f s) :=
  List.foldlRecOn (motive := Decides s) l f (.refl s) fun t ht a _ => ht.trans (h t a)

theorem decided (s : State) (code subject before after : Nat) : Decides s (s.decide_ code subject before after) :=
  ⟨⟨_, _, _, _, _, rfl⟩, ⟨rfl, rfl, rfl, rfl, rfl, rfl, rfl⟩, fun _ h => h⟩

theorem muleCall (s : State) (r : GateReq) : Decides s (s.muleCall r) :=
  ⟨⟨_, _, _, _, _, rfl⟩, ⟨rfl, rfl, rfl, rfl, rfl, rfl, rfl⟩, fun _ h => muleCall_keeps h⟩

/-- A decision is logged, and called. -/
theorem call (s : State) (code subject before after : Nat) (r : GateReq) :
    Decides s ((s.decide_ code subject before after).muleCall r) := (decided ..).trans (muleCall ..)

theorem setLane (s : State) (p j : Nat) (l : Lane) : Decides s (s.setLane p j l) :=
  ⟨⟨_, _, _, _, _, rfl⟩, ⟨rfl, rfl, rfl, rfl, rfl, rfl, rfl⟩, fun _ h => h⟩

theorem setMule (s : State) (m : Mule) (h : s.mule.Same m) : Decides s { s with mule := m } :=
  ⟨⟨_, _, _, _, _, rfl⟩, h, fun _ h => h⟩

theorem armRequest (s : State) (t : Word) (key : Option (BitVec 24)) : Decides s (s.armRequest t key) := by
  unfold State.armRequest
  split
  all_goals exact ⟨⟨_, _, _, _, _, rfl⟩, ⟨rfl, rfl, rfl, rfl, rfl, rfl, rfl⟩, fun _ h => h⟩

theorem requestVariant (s : State) (p v : Nat) : Decides s (s.requestVariant p v) := (call ..).trans (armRequest ..)

theorem requestSwap (s : State) (p : Nat) (v : Variant) : Decides s (s.requestSwap p v) := by
  have mark : ∀ x, Decides s { s with mule := { s.mule with swapAsked := x } } := fun x =>
    setMule s _ ⟨rfl, rfl, rfl, rfl, rfl, rfl, rfl⟩
  have logged : ∀ (t : State) x, Decides t (t.log x) := fun t x =>
    ⟨⟨_, _, _, _, _, rfl⟩, ⟨rfl, rfl, rfl, rfl, rfl, rfl, rfl⟩, fun _ h => h⟩
  unfold State.requestSwap
  split
  · split
    · exact .refl s
    · exact (mark _).trans (logged ..)
  · split
    · split
      · split
        · exact .refl s
        · exact (mark _).trans (logged ..)
      · split
        · exact (mark _).trans (armRequest ..)
        · exact .refl s
    · split
      · exact (mark _).trans (armRequest ..)
      · exact .refl s

theorem reviewVariant (s : State) (d : Digest) (p : Nat) : Decides s (s.reviewVariant d p) := by
  unfold State.reviewVariant
  split
  · exact .refl s
  · split
    · exact .refl s
    · extract_lets run m t
      have ht : Decides s t := setMule s _ ⟨rfl, rfl, rfl, rfl, rfl, rfl, rfl⟩
      split
      · exact ht
      · split
        · exact ht.trans (setMule t _ ⟨rfl, rfl, rfl, rfl, rfl, rfl, rfl⟩)
        · split
          · split
            · exact ht.trans (requestVariant ..)
            · exact ht
          · exact ht.trans (requestSwap ..)

theorem reviewLane (s : State) (p j : Nat) : Decides s (s.reviewLane p j) := by
  dsimp only [State.reviewLane]
  split
  · exact (setLane ..).trans (call ..)
  · exact .refl s

theorem reviewNap (s : State) (d : Digest) (p : Nat) : Decides s (s.reviewNap d p) := by
  unfold State.reviewNap
  split
  · exact .refl s
  · extract_lets want
    split
    · exact call ..
    · exact .refl s

theorem reviewLog (s : State) (d : Digest) : Decides s (s.reviewLog d) := setMule s _ ⟨rfl, rfl, rfl, rfl, rfl, rfl, rfl⟩

end Decides

/-- The runs of hot and cool hinges that a digest leaves. -/
def State.heatRuns (s : State) (d : Digest) : State :=
  { s with mule := { s.mule with
      hot1 := if samplesHot d.samples 1 0 then s.mule.hot1 + 1 else 0
      hot2 := if samplesHot d.samples 2 0 then s.mule.hot2 + 1 else 0
      hot3 := if samplesHot d.samples 3 0 then s.mule.hot3 + 1 else 0
      cool := if s.mule.throttle ≠ 0 && !samplesHot d.samples s.mule.throttle 2 then s.mule.cool + 1 else 0 } }

/-- A review of the heat counts its runs, then decides. -/
theorem reviewHeat_decides (s : State) (d : Digest) : Decides (s.heatRuns d) (s.reviewHeat d) := by
  unfold State.reviewHeat
  extract_lets
  split
  · exact .call (s.heatRuns d) ..
  · exact .refl (s.heatRuns d)

/-- The second hinge that is hot at level 3 calls for level 3. -/
theorem reviewHeat_raises {d : Digest} (hhot : samplesHot d.samples 3 0 = true) (hrun : 1 ≤ s.mule.hot3)
    (hlow : s.mule.throttle < 3) (hretry : s.mayRetry 0x32 = true) : (s.reviewHeat d).muleAsks (.throttle 3) := by
  have hretry' : (s.heatRuns d).mayRetry 0x32 = true := hretry
  have hwant : 2 ≤ (if samplesHot d.samples 3 0 then s.mule.hot3 + 1 else 0) := by rw [if_pos hhot]; omega
  have h : s.reviewHeat d = ((s.heatRuns d).decide_ 0x32 0 s.mule.throttle 3).muleCall (.throttle 3) := by
    dsimp only [State.reviewHeat]
    rw [if_pos hwant]
    exact if_pos (by simp only [Bool.and_eq_true, decide_eq_true_eq]; exact ⟨hlow, hretry'⟩)
  rw [h]
  exact muleCall_asks ..

/-- The decisions that the review of a digest takes before it looks at the heat. -/
def State.reviewedBut (s : State) (d : Digest) : State :=
  let s0 : State := State.reviewLog { s with mule := { s.mule with reviewed := true } } d
  let s2 := (List.range 49).foldl (fun t p => (List.range (laneCount p)).foldl (fun u j => u.reviewLane p j) t) s0
  let s3 := (List.range 128).foldl (fun t p => t.reviewVariant d p) s2
  (List.range 49).foldl (fun t p => t.reviewNap d p) s3

theorem reviewedBut_decides (s : State) (d : Digest) :
    Decides { s with mule := { s.mule with reviewed := true } } (s.reviewedBut d) :=
  (((Decides.reviewLog _ d).trans (.foldl (fun t p => .foldl (fun u j => .reviewLane u p j) _ t) _ _)).trans
    (.foldl (fun t p => .reviewVariant t d p) _ _)).trans (.foldl (fun t p => .reviewNap t d p) _ _)

theorem muleHingeReview_next {d : Digest} (hd : s.mule.digest = some d) (ha : s.alive = true) (hu : s.fw.muleUp = true)
    (hr : s.mule.reviewed = false) : exec .muleHingeReview s = .next ((s.reviewedBut d).reviewHeat d) := by
  show execMuleHingeReview s = _
  simp only [execMuleHingeReview, State.reviewedBut, hd, ha, hu, hr, Bool.not_true, Bool.or_self, Bool.false_eq_true, if_false]

/-! ### Spread weights (R401) -/

/-- The weights of the entries whose targets have moved. -/
def State.spreadDue (s : State) : List (Nat × List Nat) :=
  (List.range 64).filterMap (fun k => (s.spreadWanted k).map (fun w => (k, w)))

theorem mem_spreadDue {k : Nat} {l : List Nat} (hk : k < 64) (h : s.spreadWanted k = some l) : (k, l) ∈ s.spreadDue :=
  List.mem_filterMap.mpr ⟨k, List.mem_range.mpr hk, by rw [h]; rfl⟩

/-- One entry's weights are asked for, with the sums before and after. -/
def State.callSpread (s t : State) (e : Nat × List Nat) : State :=
  (t.decide_ 0x21 e.1 ((s.epoch.cur.spread.getD e.1 []).foldl (· + ·) 0) (e.2.foldl (· + ·) 0)).muleCall (.setSpread e.1 e.2)

/-- Every entry that is due is asked for. -/
theorem spreadCalls_ask {k : Nat} {w : List Nat} (l : List (Nat × List Nat)) (hmem : (k, w) ∈ l) :
    (l.foldl s.callSpread s).muleAsks (.setSpread k w) :=
  foldl_establishes (f := s.callSpread) (P := fun (e : Nat × List Nat) (t : State) => t.muleAsks (.setSpread e.1 e.2))
    (fun _ _ => muleCall_asks ..)
    (fun _ _ _ ht => (Decides.call ..).asks _ ht) l s (k, w) hmem

theorem spreadWeightReview_next {d : Digest} (hd : s.mule.digest = some d) (ha : s.alive = true) (hu : s.fw.muleUp = true)
    (ht : d.tick = s.rooster.tickNo) (h64 : d.tick.toNat % 64 = 0) (h0 : s.rooster.slot = 0) (hi : s.epochIdle = true)
    (hh : s.holdOver s.mule.holdSpread = true) (hm : s.mayRetry 0x21 = true) (hdue : s.spreadDue ≠ []) :
    exec .spreadWeightReview s = .next ((s.spreadDue.foldl s.callSpread s).armRequest 0 none) := by
  have hdue' : ((List.range 64).filterMap (fun k => (s.spreadWanted k).map (fun w => (k, w)))).isEmpty = false :=
    List.isEmpty_eq_false_iff.mpr hdue
  rw [ht] at h64
  show execSpreadWeightReview s = _
  simp only [execSpreadWeightReview, State.spreadDue, hd, ha, hu, ht, h64, h0, hi, hh, hm, hdue',
    Bool.and_self, Bool.not_false, decide_true, if_true]
  rfl

/-! ### Decisions that end others (R398, R400, R404) -/

theorem laneExclusionRelease_next {port lane : Nat} {t0 : Word} (hp : port < 49) (hj : lane < laneCount port)
    (hl : (s.lane port lane).heldUntil = some t0) (ha : s.alive = true) (hu : s.fw.muleUp = true)
    (ht : t0.toNat ≤ s.rooster.tickNo.toNat) (hh : s.holdOver s.mule.holdPort = true) (hm : s.mayRetry 0x30 = true) :
    exec (.laneExclusionRelease port lane) s = .next
      (((s.setLane port lane { s.lane port lane with heldUntil := none }).decide_ 0x30 (laneKey port lane) 1 0).muleCall
        (.setPort port (.hold lane false))) := by
  show execLaneExclusionRelease port lane s = _
  simp only [execLaneExclusionRelease, withLane, hp, hj, hl, ha, hu, ht, hh, hm, Bool.and_self, decide_true, if_true]

theorem normalVariantReturn_next {p k : Nat} {pl : Plan} (hp : p < 128) (hpl : s.planOf p = some pl)
    (hk : pl.lowest (fun v => !v.limp) = some k) (ha : s.alive = true) (hu : s.fw.muleUp = true)
    (hpol : s.underPolicy p = true) (hrun : 64 ≤ s.mule.fitRun.getD p 0) (hne : (s.thread p).variant ≠ k)
    (hm : s.mayVary = true) : exec (.normalVariantReturn p) s = .next (s.requestVariant p k) := by
  show execNormalVariantReturn p s = _
  simp only [execNormalVariantReturn, withPart, hp, hpl, hk, ha, hu, hpol, hrun, hne, hm, Bool.and_self, decide_true,
    if_true, ne_eq, not_false_eq_true]

/-- The variant field of a word whose variant is replaced. -/
theorem variant_of_replaced (old : BitVec 7) (k : Nat) :
    ((old &&& ~~~7#7) ||| BitVec.ofNat 7 k) &&& 7 = BitVec.ofNat 7 k &&& 7 := by
  refine BitVec.eq_of_getLsbD_eq fun i hi => ?_
  simp only [BitVec.getLsbD_and, BitVec.getLsbD_or, BitVec.getLsbD_not, hi, decide_true, Bool.true_and]
  cases (7#7).getLsbD i <;> simp

/-- A variant that is requested is asked for, and armed. -/
theorem requestVariant_asks (s : State) (p k : Nat) :
    ∃ v : BitVec 7, (s.requestVariant p k).muleAsks (.setVariant p v) ∧ v &&& 7 = BitVec.ofNat 7 k &&& 7 :=
  ⟨_, (Decides.armRequest ..).asks _ (muleCall_asks ..), variant_of_replaced ..⟩

theorem throttleLower_next (ha : s.alive = true) (hu : s.fw.muleUp = true) (ht : s.mule.throttle ≠ 0) (hc : 64 ≤ s.mule.cool)
    (hm : s.mayRetry 0x32 = true) : exec .throttleLower s = .next
      ((State.decide_ { s with mule := { s.mule with cool := 0 } } 0x32 0 s.mule.throttle (s.mule.throttle - 1)).muleCall
        (.throttle (s.mule.throttle - 1))) := by
  show execThrottleLower s = _
  simp only [execThrottleLower, ha, hu, ht, hc, hm, Bool.and_self, decide_true, if_true, ne_eq, not_false_eq_true]

/-- Settles O48. -/
theorem muleDecides : Obligations.MuleDecides := by
  refine ⟨fun s d hd ha hu hr => ?_, fun s d hd ha hu hr => ?_, fun s d k l hd ha hu ht h64 h0 hi hh hm hk hw => ?_,
    fun s port lane t0 hp hj hl ha hu ht hh hm => ?_, fun s p k pl hp hpl hk ha hu hpol hrun hne hm => ?_,
    fun s ha hu ht hc hm => ?_⟩
  · have hbut := reviewedBut_decides s d
    have hheat := reviewHeat_decides (s.reviewedBut d) d
    refine .of_next (muleHingeReview_next hd ha hu hr) ⟨?_, ?_, ?_, ?_, ?_, ?_, fun hhot hrun hlow hretry => ?_, ?_, ?_, ?_, ?_⟩
    · exact hheat.mule.reviewed.trans hbut.mule.reviewed
    · exact (hheat.mule.digest.trans hbut.mule.digest).trans hd
    · rw [hheat.mule.hot1, State.heatRuns, hbut.mule.hot1]
    · rw [hheat.mule.hot2, State.heatRuns, hbut.mule.hot2]
    · rw [hheat.mule.hot3, State.heatRuns, hbut.mule.hot3]
    · exact hheat.mule.throttle.trans hbut.mule.throttle
    · have hrooster : (s.reviewedBut d).rooster = s.rooster := by
        obtain ⟨l, g, f, x, m, h⟩ := hbut.rest
        rw [h]
      refine reviewHeat_raises hhot ?_ ?_ ?_
      · rwa [hbut.mule.hot3]
      · rwa [hbut.mule.throttle]
      · rw [State.mayRetry, hbut.mule.backoff, hrooster]
        exact hretry
    all_goals
      obtain ⟨l, g, f, x, m, h⟩ := hheat.rest
      obtain ⟨l', g', f', x', m', h'⟩ := hbut.rest
      rw [h, State.heatRuns, h']
  · show execMuleHingeReview s = _
    simp only [execMuleHingeReview, hd, hr, Bool.or_true, if_true]
  · have hmem := mem_spreadDue hk hw
    refine .of_next (spreadWeightReview_next hd ha hu ht h64 h0 hi hh hm (List.ne_nil_of_mem hmem)) ⟨?_, ?_⟩
    · exact (Decides.armRequest ..).asks _ (spreadCalls_ask s.spreadDue hmem)
    · have hcalls : Decides s (s.spreadDue.foldl s.callSpread s) := .foldl (fun _ _ => .call ..) _ _
      obtain ⟨l, g, f, x, m, h⟩ := (hcalls.trans (.armRequest _ 0 none)).rest
      rw [h]
      exact ⟨rfl, rfl, rfl⟩
  · exact .of_next (laneExclusionRelease_next hp hj hl ha hu ht hh hm)
      ⟨congrArg Lane.heldUntil (lane_setLane_self ..), muleCall_asks .., rfl, rfl⟩
  · obtain ⟨l, g, f, x, m, h⟩ := (Decides.requestVariant s p k).rest
    refine .of_next (normalVariantReturn_next hp hpl hk ha hu hpol hrun hne hm) ⟨requestVariant_asks .., ?_⟩
    rw [h]
    exact ⟨rfl, rfl⟩
  · exact .of_next (throttleLower_next ha hu ht hc hm) ⟨rfl, muleCall_asks .., rfl, rfl, rfl⟩

end Sys2Proof.Machine
end

section
/-! SUPPORT. Arm requests and floods (R454 to R456), and the staging of a flooded switch. -/

namespace Sys2Proof.Machine

variable {s t u : State} {m : SvcMsg}

/-! ### Swap sets and the staging (R429, R456) -/

theorem count_eq (s : State) (i n : Nat) : ∃ c, s.count i n = { s with counters := c } := by
  unfold State.count
  split
  · exact ⟨_, rfl⟩
  · exact ⟨_, rfl⟩

/-- A read of the depot corrects what it can, and counts. -/
theorem depotRead_eq (s : State) (a n : Nat) : ∃ d c, (s.depotRead a n).2.2 = { s with depot := d, counters := c } := by
  obtain ⟨c, hc⟩ := count_eq { s with depot := { s.depot with soft := s.depot.soft.filter (fun u => !unitIn a n u) } }
    (devCtr dkDepotEccCorr) (s.depot.soft.filter (unitIn a n)).length
  obtain ⟨c', hc'⟩ := count_eq (s.eccCorrect a n) (devCtr dkDepotEccUncorr) (s.depot.bad.filter (unitIn a n)).length
  have hcorr : s.eccCorrect a n = { s with
      depot := { s.depot with soft := s.depot.soft.filter (fun u => !unitIn a n u) }, counters := c } := hc
  rw [hcorr] at hc'
  exact ⟨_, c', (congrArg (State.count · _ _) hcorr).trans hc'⟩

/-- Looking for a swap set reads the depot, and no more. -/
theorem findSwap_eq (s : State) (key : BitVec 24) : ∃ d c, (s.findSwap key).1 = { s with depot := d, counters := c } := by
  unfold State.findSwap
  extract_lets ok
  split
  · exact ⟨_, _, rfl⟩
  · split
    · exact ⟨_, _, rfl⟩
    · split
      · exact ⟨_, _, rfl⟩
      · exact depotRead_eq ..

/-- Calls of Mule change nothing but the gate. -/
theorem muleCalls_eq (l : List GateReq) (s : State) : ∃ g, l.foldl State.muleCall s = { s with gate := g } :=
  List.foldlRecOn (motive := fun t : State => ∃ g, t = { s with gate := g }) l _ ⟨_, rfl⟩ fun t ⟨g, hg⟩ r _ => by
    subst hg
    exact ⟨_, rfl⟩

/-- The swap sets of the keys, as they are read. -/
def State.swapSets (s : State) (keys : List (BitVec 24)) : State × List GateReq :=
  keys.foldl (fun a k => ((a.1.findSwap k).1, a.2 ++ (a.1.findSwap k).2)) (s, [])

theorem swapSets_eq (s : State) (keys : List (BitVec 24)) : ∃ d c, (s.swapSets keys).1 = { s with depot := d, counters := c } :=
  List.foldlRecOn (motive := fun r : State × List GateReq => ∃ d c, r.1 = { s with depot := d, counters := c }) keys _
    ⟨_, _, rfl⟩ fun r ⟨d, c, hr⟩ k _ => by
      obtain ⟨d', c', h⟩ := findSwap_eq r.1 k
      exact ⟨d', c', by rw [h, hr]⟩

def State.setStaging (s : State) (x : Word) : State := { s with mule := { s.mule with staging := some (x, []) } }

/-- A switch is staged: the calls of its swap sets, then ARM_EPOCH. -/
def State.stages (s : State) (x : Word) (keys : List (BitVec 24)) : State :=
  ((s.swapSets keys).2.foldl State.muleCall ((s.swapSets keys).1.setStaging x)).muleCall (.armEpoch x false 0)

theorem stages_eq (s : State) (x : Word) (keys : List (BitVec 24)) : ∃ d c g, s.stages x keys =
    { s with depot := d, counters := c, gate := g, mule := { s.mule with staging := some (x, []) } } := by
  obtain ⟨d, c, h⟩ := swapSets_eq s keys
  obtain ⟨g, hg⟩ := muleCalls_eq (s.swapSets keys).2 ((s.swapSets keys).1.setStaging x)
  unfold State.stages
  rw [hg, h]
  exact ⟨d, c, _, rfl⟩

/-- A switch to the next epoch is staged where none is armed. -/
theorem stageArm_stages {x : Word} {e : BitVec 32} (he : e = s.epoch.current + 1) (ha : s.epoch.armed = none)
    (keys : List (BitVec 24)) : s.stageArm x e keys = s.stages x keys := by
  unfold State.stageArm
  rw [if_neg (by simp [ha]), if_neg (by simp [he, ha])]
  rfl

/-- What a flooded switch leaves: of Mule only the switch that it stages, and neither epochs, threads nor ports. -/
theorem stageArm_eq (s : State) (x : Word) (e : BitVec 32) (keys : List (BitVec 24)) :
    ∃ d c g f w, s.stageArm x e keys =
      { s with depot := d, counters := c, gate := g, fw := f, mule := { s.mule with staging := w } } := by
  unfold State.stageArm
  split
  · exact ⟨_, _, _, _, _, rfl⟩
  · split
    · exact ⟨_, _, _, _, _, rfl⟩
    · obtain ⟨d, c, g, h⟩ := stages_eq s x keys
      exact ⟨d, c, g, s.fw, _, h⟩

/-! ### Messages to other Mules -/

/-- Messages to any number of Mules change nothing but the class C streams. -/
theorem toMules_eq (b : List Byte) (l : List (BitVec 24)) (s : State) :
    ∃ x, l.foldl (fun a k => State.toMule a k b) s = { s with txs := x } :=
  List.foldlRecOn (motive := fun t : State => ∃ x, t = { s with txs := x }) l _ ⟨_, rfl⟩ fun t ⟨x, hx⟩ k _ => by
    subst hx
    exact ⟨_, rfl⟩

/-- The answer to a request that a flood takes. -/
def State.armReply (b : List Byte) (s : State) (w : ArmWait) : State :=
  match w.msg with
  | some m => s.svcReply m svOk b
  | none => s

theorem armReplies_eq (b : List Byte) (l : List ArmWait) (s : State) :
    ∃ x, l.foldl (State.armReply b) s = { s with txs := x } :=
  List.foldlRecOn (motive := fun t : State => ∃ x, t = { s with txs := x }) l _ ⟨_, rfl⟩ fun t ⟨x, hx⟩ w _ => by
    subst hx
    unfold State.armReply
    split <;> exact ⟨_, rfl⟩

/-! ### The flood (R454, R455) -/

/-- Nothing is flooded while a flood is under way. -/
theorem floodHeld_waits (h : s.mule.flooded.isSome = true) : s.floodHeld = s := by
  unfold State.floodHeld
  exact if_pos (by simp [h])

/-- A lone request is taken into the flood. -/
theorem floodTake_one (w : ArmWait) : floodTake 0 [w] = [w] := by
  unfold floodTake
  split
  · rfl
  · rfl

/-- The tick of a flood of one request: no earlier than it asks for, nor than a flood that leaves now may name. -/
def State.floodTick (s : State) (w : ArmWait) : Word := BitVec.ofNat 64 (max s.earliestTick w.t.toNat)

/-- What the GM's Mule keeps of a flood of one request. -/
def State.flooding (s : State) (w : ArmWait) : State :=
  { s with mule := { s.mule with
      reqNo := s.mule.reqNo + 1, held := s.mule.held.drop 1, flooded := some (s.floodTick w), armSeq := s.mule.armSeq + 1
      armSeen := s.mule.armSeen ++ [BitVec.ofNat 64 (s.power.loc.toNat + s.mule.armSeq * 2 ^ 24)] } }

/-- A lone request is flooded to the partners, answered, and armed here. -/
theorem floodHeld_floods {w : ArmWait} (hgm : s.rooster.st = .gm) (hf : s.mule.flooded = none) (hh : s.mule.held = [w]) :
    ∃ b b' keys, s.floodHeld =
      ([w].foldl (State.armReply b') (((s.flooding w).dolmoPartners 49).foldl (fun a k => State.toMule a k b)
        (s.flooding w))).stageArm (s.floodTick w) (s.epoch.current + 1) keys := by
  have htake : floodTake 0 s.mule.held = [w] := by rw [hh, floodTake_one]
  unfold State.floodHeld
  rw [htake]
  exact ⟨_, _, _, if_neg (by simp [hgm, hf])⟩

theorem floodHeld_eq {w : ArmWait} (hgm : s.rooster.st = .gm) (hf : s.mule.flooded = none) (hh : s.mule.held = [w]) :
    ∃ x d c g f st, s.floodHeld = { s.flooding w with
      txs := x, depot := d, counters := c, gate := g, fw := f, mule := { (s.flooding w).mule with staging := st } } := by
  obtain ⟨b, b', keys, h⟩ := floodHeld_floods hgm hf hh
  obtain ⟨x, hx⟩ := toMules_eq b ((s.flooding w).dolmoPartners 49) (s.flooding w)
  obtain ⟨x', hx'⟩ := armReplies_eq b' [w] { s.flooding w with txs := x }
  obtain ⟨d, c, g, f, st, hst⟩ :=
    stageArm_eq { s.flooding w with txs := x' } (s.floodTick w) (s.epoch.current + 1) keys
  rw [hx, hx', hst] at h
  exact ⟨_, _, _, _, _, _, h⟩

/-- A flood names a tick at least 8 ahead (R455), and no earlier than it was asked for. -/
theorem floodTick_ahead (w : ArmWait) (h : s.earliestTick < 2 ^ 64) :
    s.rooster.tickNo.toNat + 8 ≤ (s.floodTick w).toNat ∧ w.t.toNat ≤ (s.floodTick w).toNat := by
  have hlead : s.rooster.tickNo.toNat + 8 ≤ s.earliestTick := Nat.le_add_right ..
  have hw := w.t.isLt
  have hval : (s.floodTick w).toNat = max s.earliestTick w.t.toNat :=
    (BitVec.toNat_ofNat ..).trans (Nat.mod_eq_of_lt (max_lt h hw))
  omega

theorem heldArmFlood_next (ha : s.alive = true) (hu : s.fw.muleUp = true) : exec .heldArmFlood s = .next s.floodHeld := by
  refine congrArg Host.Outcome.next (if_pos ?_)
  rw [ha, hu]
  rfl

/-! ### Requests (R454, R456) -/

/-- The request that an ARM_REQ carries. -/
def State.armWait (s : State) (m : SvcMsg) (id : BitVec 32) : ArmWait :=
  { id := id, t := BitVec.ofNat 64 (natAt (msgBody m) 0 8)
    key := if bitOf (natAt (msgBody m) 8 4) 24 then some (BitVec.ofNat 24 (natAt (msgBody m) 8 3)) else none
    msg := some m, tick := s.rooster.tickNo }

/-- The GM's Mule takes a request among those that it holds, and floods it when it may. -/
theorem armReq_held (hs : s.serves m 0 1) (hb : (msgBody m).length = 12) (hgm : s.rooster.st = .gm) :
    exec (.armReq m) s = .next (State.floodHeld { s.takeMsg m with mule := { (s.takeMsg m).mule with
      held := s.mule.held ++ [s.armWait m (msgReq m)] } }) := by
  obtain ⟨-, -, -, -, -, ho, -⟩ := id hs
  have hgm' : (s.takeMsg m).rooster.st = .gm := hgm
  refine (if_neg (by omega)).trans ((serveFixed_acts hs hb _).trans (congrArg _ ?_))
  exact if_pos hgm'

/-- Another Mule passes it on, under a number of its own. -/
theorem armReq_passed (hs : s.serves m 0 1) (hb : (msgBody m).length = 12) (hgm : s.rooster.st ≠ .gm) :
    ∃ x, exec (.armReq m) s = .next { s.takeMsg m with txs := x, mule := { (s.takeMsg m).mule with
      reqNo := s.mule.reqNo + 1, requests := s.mule.requests ++ [s.armWait m s.mule.reqNo] } } := by
  obtain ⟨-, -, -, -, -, ho, -⟩ := id hs
  have hgm' : (s.takeMsg m).rooster.st ≠ .gm := hgm
  exact ⟨_, (if_neg (by omega)).trans ((serveFixed_acts hs hb _).trans (congrArg _ (if_neg hgm')))⟩

/-- A lone request of Mule's own that has had no answer is sent again. -/
theorem armReqResend_next {w : ArmWait} (ha : s.alive = true) (hu : s.fw.muleUp = true) (hw : s.mule.requests = [w])
    (hm : w.msg = none) (ht : 8 ≤ (s.rooster.tickNo - w.tick).toNat) (hgm : s.rooster.st ≠ .gm) :
    ∃ x, exec .armReqResend s = .next { s with txs := x, mule := { s.mule with
      requests := [{ w with tick := s.rooster.tickNo }] } } := by
  have hdue : [w].filter (fun w => w.msg.isNone && decide (8 ≤ (s.rooster.tickNo - w.tick).toNat)) = [w] :=
    List.filter_cons_of_pos (by rw [hm]; exact decide_eq_true ht)
  have hgone : [w].filter (fun x => x.id ≠ w.id) = [] := by simp
  have hsends : exec .armReqResend s = execArmReqResend s := rfl
  simp only [hsends, execArmReqResend, ha, hu, hw, hdue, hgone, List.foldl_cons, List.foldl_nil, Bool.and_self, if_true,
    if_neg hgm, List.nil_append]
  exact ⟨_, rfl⟩

/-! ### ARM (R455) -/

/-- The ID of a flood. -/
def armId (m : SvcMsg) : Word := BitVec.ofNat 64 (natAt (msgBody m) 0 8)

/-- An ARM that was taken before is dropped. -/
theorem arm_again {port : Nat} (hp : port < 49) (hs : s.serves m 0 2) (hold : armId m ∈ s.mule.armSeen) :
    exec (.arm port m) s = .next (s.takeMsg m) := by
  have hold' : (s.takeMsg m).mule.armSeen.contains (armId m) = true := List.contains_iff_mem.mpr hold
  exact (if_pos hp).trans (congrArg Host.Outcome.next ((serveMsg_acts hs _).trans (if_pos hold')))

/-- An ARM is noted. -/
def State.armNoted (s : State) (m : SvcMsg) : State :=
  { s.takeMsg m with mule := { (s.takeMsg m).mule with armSeen := s.mule.armSeen ++ [armId m] } }

/-- An ARM that is new is forwarded to the partners, staged and armed. -/
theorem arm_next {port : Nat} (hp : port < 49) (hs : s.serves m 0 2) (hnew : armId m ∉ s.mule.armSeen) :
    ∃ keys, exec (.arm port m) s = .next
      ((((s.armNoted m).dolmoPartners port).foldl (fun a k => State.toMule a k m.bytes) (s.armNoted m)).stageArm
        (BitVec.ofNat 64 (natAt (msgBody m) 8 8)) (BitVec.ofNat 32 (natAt (msgBody m) 16 4)) keys) := by
  have hnew' : ¬ (s.takeMsg m).mule.armSeen.contains (armId m) = true := fun h => hnew (List.contains_iff_mem.mp h)
  exact ⟨_, (if_pos hp).trans (congrArg Host.Outcome.next ((serveMsg_acts hs _).trans (if_neg hnew')))⟩

/-! ### The deadline of the staging (R456) -/

theorem stagingDeadline_next {t0 : Word} {l : List GateReq} (hst : s.mule.staging = some (t0, l)) (ha : s.alive = true)
    (hu : s.fw.muleUp = true)
    (hend : s.rooster.hingeTime + (t0.toNat - 7 - s.rooster.tickNo.toNat) * s.tickNs ≤ s.time + 20000) :
    ∃ f, exec .stagingDeadline s = .next { s with
      fw := f
      gate := { s.gate with queue := s.gate.queue.filter (fun w => !(w.slot = 0 && w.req.epochTable)) }
      mule := { s.mule with staging := none } } := by
  have hsends : exec .stagingDeadline s = execStagingDeadline s := rfl
  simp only [hsends, execStagingDeadline, hst, ha, hu, hend, Bool.and_self, decide_true, if_true]
  split <;> exact ⟨_, rfl⟩

/-- Settles O47. -/
theorem armsAreFlooded : Obligations.ArmsAreFlooded := by
  refine ⟨fun s m hs hb hgm hf => ?_, fun s m hs hb hgm => ?_, fun s w ha hu hw hm ht hgm => ?_,
    fun s w ha hu hgm hf hh htick hlead => ?_, fun s port m hp hs hnew => ?_, fun s port m hp hs hold => arm_again hp hs hold,
    fun s t0 l hst ha hu hend => ?_⟩
  · refine .of_next ((armReq_held hs hb hgm).trans (congrArg _ (floodHeld_waits hf))) ?_
    exact ⟨⟨_, rfl, rfl, rfl, rfl, rfl⟩, rfl, rfl, rfl⟩
  · obtain ⟨x, hx⟩ := armReq_passed hs hb hgm
    exact .of_next hx ⟨⟨_, rfl, rfl, rfl, rfl, rfl⟩, rfl, rfl, rfl⟩
  · obtain ⟨x, hx⟩ := armReqResend_next ha hu hw hm ht hgm
    exact .of_next hx ⟨rfl, rfl, rfl⟩
  · obtain ⟨x, d, c, g, f, st, hflood⟩ := floodHeld_eq hgm hf hh
    have hheld : s.mule.held.drop 1 = [] := by rw [hh]; rfl
    exact .of_next ((heldArmFlood_next ha hu).trans (congrArg _ hflood))
      ⟨hheld, rfl, ⟨_, rfl, floodTick_ahead w (by omega)⟩, rfl, rfl⟩
  · obtain ⟨keys, hexec⟩ := arm_next hp hs hnew
    obtain ⟨x, hx⟩ := toMules_eq m.bytes ((s.armNoted m).dolmoPartners port) (s.armNoted m)
    rw [hx] at hexec
    obtain ⟨d, c, g, f, st, h⟩ := stageArm_eq { s.armNoted m with txs := x }
      (BitVec.ofNat 64 (natAt (msgBody m) 8 8)) (BitVec.ofNat 32 (natAt (msgBody m) 16 4)) keys
    refine .of_next hexec ⟨?_, ?_, fun hepoch harmed => ?_, ?_⟩
    · rw [h]; rfl
    · rw [h]; rfl
    · have he : BitVec.ofNat 32 (natAt (msgBody m) 16 4) = s.epoch.current + 1 := by rw [hepoch, BitVec.ofNat_toNat, BitVec.setWidth_eq]
      rw [stageArm_stages (s := { s.armNoted m with txs := x }) he harmed]
      exact (muleCall_asks ..).1
    · rw [h]
      exact ⟨rfl, rfl, rfl⟩
  · obtain ⟨f, hx⟩ := stagingDeadline_next hst ha hu hend
    exact .of_next hx ⟨rfl, rfl, rfl, rfl⟩

end Sys2Proof.Machine
end

section
/-! SUPPORT. The states of the pair (R414 to R428, Table 17.1). -/

namespace Sys2Proof.Machine

variable {s t u : State}

/-! ### A frame lost with its link (R166, R167) -/

theorem portDownQueues_keepsBeyond (s : State) (p : Nat) : KeepsBeyondSwitch s (s.portDownQueues p) := by
  have w := KeepsBeyondSwitch.switchStable s
  have drop {t : State} {q : Nat} {e : QEntry} (h : KeepsBeyondSwitch s t) : KeepsBeyondSwitch s (t.dropEntry q e) :=
    w.releaseEntry (SwitchStable.ite (w.setPort h) h)
  unfold State.portDownQueues
  refine List.foldlRecOn (motive := KeepsBeyondSwitch s) _ _ (w.setPort ?_) fun t ht e _ => w.bumpPort (drop ht)
  split
  · exact drop (w.setPort (.refl s))
  · exact .refl s

theorem KeepsBeyondSwitch.twin (h : KeepsBeyondSwitch s t) : t.twin = s.twin := (congrArg State.twin h.beyond :)

theorem KeepsBeyondSwitch.threads (h : KeepsBeyondSwitch s t) : t.threads = s.threads := (congrArg State.threads h.beyond :)

/-! ### Threads, one after the other -/

/-- Steps that each touch one thread: what a thread's own step does to it is what is left of it. -/
theorem foldl_thread {f : State → Nat → State} {I : State → Prop} (other : ∀ t p q, q ≠ p → (f t p).thread q = t.thread q)
    (keep : ∀ t p, I t → I (f t p)) {l : List Nat} (hl : l.Nodup) {p : Nat} (hp : p ∈ l) {s : State} (hs : I s) :
    ∃ t, I t ∧ t.thread p = s.thread p ∧ (l.foldl f s).thread p = (f t p).thread p := by
  induction l generalizing s with
  | nil => cases hp
  | cons x l ih =>
    obtain ⟨hx, hl⟩ := List.nodup_cons.mp hl
    obtain rfl | hmem := List.mem_cons.mp hp
    · refine ⟨s, hs, rfl, ?_⟩
      exact List.foldlRecOn (motive := fun u : State => u.thread p = (f s p).thread p) l f rfl fun t ht q hq =>
        (other t q p fun h => hx (h ▸ hq)).trans ht
    · obtain ⟨t, ht, hthread, hfold⟩ := ih hl hmem (keep s x hs)
      exact ⟨t, ht, hthread.trans (other s x p fun h => hx (h ▸ hmem)), hfold⟩

/-! ### Variants in SOLO (R257, R420, R423) -/

/-- Passing to a solo variant, or back, changes nothing but threads. -/
theorem setSolo_eq (s : State) (p : Nat) (solo : Bool) : ∃ x, s.setSolo p solo = { s with threads := x } := by
  dsimp only [State.setSolo]
  split <;> exact ⟨_, rfl⟩

theorem setSolo_other (s : State) (p : Nat) (solo : Bool) {q : Nat} (hq : q ≠ p) :
    (s.setSolo p solo).thread q = s.thread q := by
  dsimp only [State.setSolo]
  split <;> simp [thread_setThread_ne, hq]

theorem setSolo_self (s : State) (p : Nat) (solo : Bool) : ((s.setSolo p solo).thread p).solo = solo ∧
    ((s.setSolo p solo).thread p).variant = planVariant (s.epoch.cur.variant.getD p 0) solo := by
  dsimp only [State.setSolo]
  split <;> simp [thread_setThread_self]

/-- The partitions of the device pass to their solo variants, or back, where `g` says so. -/
def State.setSolos (s : State) (g : State → Nat → Bool) (solo : Bool) : State :=
  (List.range 128).foldl (fun t p => if g t p then t.setSolo p solo else t) s

theorem setSolos_eq (s : State) (g : State → Nat → Bool) (solo : Bool) : ∃ x, s.setSolos g solo = { s with threads := x } :=
  List.foldlRecOn (motive := fun t : State => ∃ x, t = { s with threads := x }) _ _ ⟨_, rfl⟩ fun t ⟨x, hx⟩ p _ => by
    split
    · obtain ⟨y, hy⟩ := setSolo_eq t p solo
      exact ⟨y, by rw [hy, hx]⟩
    · exact ⟨x, hx⟩

/-- What is left of a thread is what its own turn left. -/
theorem setSolos_thread (s : State) (g : State → Nat → Bool) (solo : Bool) {p : Nat} (hp : p < 128) :
    ∃ t : State, t.epoch = s.epoch ∧ t.thread p = s.thread p ∧
      (s.setSolos g solo).thread p = (if g t p then t.setSolo p solo else t).thread p := by
  refine foldl_thread (f := fun t p => if g t p then t.setSolo p solo else t) (I := fun t => t.epoch = s.epoch)
    (fun t p q hq => ?_) (fun t p ht => ?_) List.nodup_range (List.mem_range.mpr hp) rfl
  · split
    · exact setSolo_other t p solo hq
    · rfl
  · split
    · obtain ⟨x, hx⟩ := setSolo_eq t p solo
      rw [hx]
      exact ht
    · exact ht

/-- Whether a partition goes over to its solo variant rests on its thread and the variants in force. -/
theorem goesSolo_congr {p : Nat} (he : t.epoch = s.epoch) (ht : t.thread p = s.thread p) : t.goesSolo p = s.goesSolo p := by
  rw [State.goesSolo, State.goesSolo, he, ht]

/-- Under SOLO a partition that goes over runs its solo variant. -/
theorem planVariant_solo {v : BitVec 7} (h : v.getLsbD 6 = true) : planVariant v true = bitsOf v.toNat 5 3 := by
  rw [planVariant, h]
  rfl

/-- Engines that pass on change nothing but engines. -/
theorem handOver_eq (s : State) : ∃ e, s.handOver = { s with engines := e } :=
  List.foldlRecOn (motive := fun t : State => ∃ e, t = { s with engines := e }) _ _ ⟨_, rfl⟩ fun t ⟨e, he⟩ k _ => by
    subst he
    dsimp only
    split <;> exact ⟨_, rfl⟩

/-! ### Entering SOLO (R423, R425) -/

/-- What entering SOLO leaves: the twin's state, the solo variants, and one takeover counted. -/
structure TakesOver (s t : State) : Prop where
  st : t.twin.st = .solo
  adopts : t.twin.adoptsNext = some true
  solo : ∀ p, p < 128 → s.goesSolo p = true → (t.thread p).solo = true ∧
    (t.thread p).variant = bitsOf (s.epoch.cur.variant.getD p 0).toNat 5 3
  stays : ∀ p, p < 128 → s.goesSolo p = false → t.thread p = s.thread p
  counted : t.ctr (devCtr dkTwinTakeover) = satAdd (devCtr dkTwinTakeover) (s.ctr (devCtr dkTwinTakeover)) 1

/-- The twin's part of entering SOLO. -/
def State.soloTwin (s : State) : State :=
  State.bumpDev { s with twin := { s.twin with st := .solo, joiner := false, adoptsNext := some true } } dkTwinTakeover

/-- The survivor takes the engines over, gives up what is queued for the twin, and asks for a swap set. -/
def State.takeOver (s : State) : State :=
  let u := s.handOver.portDownQueues 48
  if u.fw.muleUp then u.armRequest 0 (some u.pairLoc) else u

theorem enterSolo_eq (s : State) : s.enterSolo = (s.soloTwin.setSolos State.goesSolo true).takeOver := by
  unfold State.enterSolo
  extract_lets tw s1 s2 s3
  have h2 : s2 = s1.setSolos State.goesSolo true := rfl
  have h3 : s3 = (s1.setSolos State.goesSolo true).handOver.portDownQueues 48 := by rw [← h2]
  calc (if s3.fw.muleUp then s3.armRequest 0 (some s3.pairLoc) else s3)
      = (s1.setSolos State.goesSolo true).takeOver := by rw [State.takeOver, ← h3]
    _ = (s.soloTwin.setSolos State.goesSolo true).takeOver := rfl

theorem takeOver_keeps (s : State) : s.takeOver.twin = s.twin ∧ s.takeOver.threads = s.threads ∧
    s.takeOver.ctr (devCtr dkTwinTakeover) = s.ctr (devCtr dkTwinTakeover) := by
  obtain ⟨e, he⟩ := handOver_eq s
  have hdown := portDownQueues_keepsBeyond s.handOver 48
  unfold State.takeOver
  extract_lets u
  have hu : KeepsBeyondSwitch s.handOver u := hdown
  clear_value u
  rw [he] at hu
  have htakeover : u.ctr (devCtr dkTwinTakeover) = s.ctr (devCtr dkTwinTakeover) := hu.ctr _ (by decide) (by decide)
  split
  · obtain ⟨l, g, f, x, m, h⟩ := (Decides.armRequest u 0 (some u.pairLoc)).rest
    rw [h]
    exact ⟨hu.twin, hu.threads, htakeover⟩
  · exact ⟨hu.twin, hu.threads, htakeover⟩

theorem enterSolo_keeps (s : State) : s.enterSolo.twin = (s.soloTwin.setSolos State.goesSolo true).twin ∧
    s.enterSolo.threads = (s.soloTwin.setSolos State.goesSolo true).threads ∧
    s.enterSolo.ctr (devCtr dkTwinTakeover) = (s.soloTwin.setSolos State.goesSolo true).ctr (devCtr dkTwinTakeover) := by
  rw [enterSolo_eq]
  exact takeOver_keeps _

theorem enterSolo_takesOver (s : State) : TakesOver s s.enterSolo := by
  obtain ⟨htwin, hthreads, hctr⟩ := enterSolo_keeps s
  obtain ⟨x, hx⟩ := setSolos_eq s.soloTwin State.goesSolo true
  have hsolo : s.soloTwin.epoch = s.epoch ∧ s.soloTwin.threads = s.threads := by
    rw [State.soloTwin, bumpDev_eq]
    exact ⟨count_epoch .., count_threads ..⟩
  have hturn {p : Nat} (hp : p < 128) : ∃ t : State, t.epoch = s.epoch ∧ t.thread p = s.thread p ∧
      s.enterSolo.thread p = (if s.goesSolo p then t.setSolo p true else t).thread p := by
    obtain ⟨t, he, ht, hfold⟩ := setSolos_thread s.soloTwin State.goesSolo true hp
    have he' := he.trans hsolo.1
    have ht' := ht.trans (thread_congr hsolo.2 p)
    refine ⟨t, he', ht', (thread_congr hthreads p).trans ?_⟩
    rw [hfold, goesSolo_congr he' ht']
  refine ⟨?_, ?_, fun p hp hgo => ?_, fun p hp hgo => ?_, ?_⟩
  · rw [htwin, hx, State.soloTwin, bumpDev_eq, count_twin]
  · rw [htwin, hx, State.soloTwin, bumpDev_eq, count_twin]
  · obtain ⟨t, he, ht, h⟩ := hturn hp
    have hv : (s.epoch.cur.variant.getD p 0).getLsbD 6 = true := by
      simp only [State.goesSolo, Bool.and_eq_true] at hgo
      exact hgo.2
    obtain ⟨h1, h2⟩ := setSolo_self t p true
    rw [h, hgo, if_pos rfl, h1, h2, he, planVariant_solo hv]
    exact ⟨rfl, rfl⟩
  · obtain ⟨t, he, ht, h⟩ := hturn hp
    rw [h, hgo, if_neg Bool.false_ne_true, ht]
  · rw [hctr, hx]
    exact ctr_count_one ..

/-! ### Hearing the twin (R416, R418, R422) -/

/-- What a lane did to a frame is counted on lanes. -/
theorem lineCounts_devCtr (s : State) (p : Nat) (f : RxFrame) {k : Nat} (hk : k < 2 ^ 16) :
    (s.lineCounts p f).ctr (devCtr k) = s.ctr (devCtr k) := by
  have step (t : State) (j k' : Nat) (h : t.ctr (devCtr k) = s.ctr (devCtr k)) :
      (t.bumpLane p j k').ctr (devCtr k) = s.ctr (devCtr k) := by
    have hne : devCtr k ≠ laneCtr p j k' := by simp only [devCtr, laneCtr, ctrIndex]; omega
    exact (ctr_count_ne t 1 hne).trans h
  exact List.foldlRecOn (motive := fun t => t.ctr (devCtr k) = s.ctr (devCtr k)) _ _
    (List.foldlRecOn (motive := fun t => t.ctr (devCtr k) = s.ctr (devCtr k)) _ _ rfl fun t h j _ => step t j _ h)
    fun t h j _ => step t j _ h

/-- A good HEARTBEAT is looked at: taken, or counted bad. -/
theorem heartbeat_next {p : Nat} {f : RxFrame} {offset : Int} (hp : p < 49) (ha : s.alive = true)
    (hact : (s.port p).active = true) (hahead : s.ahead offset = false) (hf : s.rxFail p f = none)
    (ht : f.hdr.typ.toNat = tyHeartbeat) :
    exec (.heartbeat p f offset) s = .next
      (if p = 48 && natAt f.body 0 8 = s.rooster.tickNo.toNat && natAt f.body 8 3 = s.pairLoc.toNat then
        (s.received p (s.lineCounts p f).counters).heartbeatIn f.body offset
      else (s.received p (s.lineCounts p f).counters).bumpDev dkHbBad) := by
  show execHeartbeat p f offset s = _
  rw [execHeartbeat, withPort_lt _ hp, hahead, if_neg Bool.false_ne_true, State.heartbeat, linkRx_good ha hact hf ht]

/-- A heartbeat that ends LINK_ONLY. -/
theorem heartbeatIn_paired {b : List Byte} {offset : Int} (hst : s.twin.st = .linkOnly) (hfar : natAt b 11 1 % 8 ≠ 5) :
    ∃ w, s.heartbeatIn b offset = { s with twin := w } ∧ w.st = .paired ∧ w.hbNow = some b ∧
      w.farState = some (natAt b 11 1 % 8) ∧ w.hbHeard = (s.twin.hbHeard || inWindow offset) := by
  refine ⟨_, if_neg ?_, if_pos hst, rfl, rfl, rfl⟩
  simp [hfar]

/-! ### Pairing (Table 17.1) -/

theorem pairingDecision_heard (ha : s.alive = true) (hr : s.power.ready = true) (h0 : s.rooster.slot = 0)
    (hst : s.twin.st = .unpaired) (hh : s.twin.heardSince = true) : exec .pairingDecision s = .next s.paired := by
  show execPairingDecision s = _
  simp only [execPairingDecision, ha, hr, h0, hst, hh, Bool.and_self, decide_true, if_true]

theorem pairingDecision_alone (ha : s.alive = true) (hr : s.power.ready = true) (h0 : s.rooster.slot = 0)
    (hst : s.twin.st = .unpaired) (hh : s.twin.heardSince = false) (h4 : 4 ≤ s.twin.readyHinges)
    (hnow : s.twin.heardNow = false) : exec .pairingDecision s = .next s.enterSolo := by
  show execPairingDecision s = _
  simp only [execPairingDecision, ha, hr, h0, hst, hh, h4, hnow, Bool.and_self, Bool.not_false, decide_true, if_true,
    Bool.false_eq_true, if_false]

/-- Beside a survivor, it joins. -/
theorem paired_joins (h3 : s.twin.farState = some 3) : s.paired = { s with twin := { s.twin with st := .standby } } := by
  unfold State.paired
  split
  next => rfl
  next h5 => rw [h3] at h5; cases h5
  next hne _ => exact absurd h3 hne

/-- Beside a twin that is neither in SOLO nor gone, the pair is whole. -/
theorem paired_whole (h3 : s.twin.farState ≠ some 3) (h5 : s.twin.farState ≠ some 5) :
    s.paired = { s with twin := { s.twin with st := .paired } } := by
  unfold State.paired
  split
  next h => exact absurd h h3
  next h => exact absurd h h5
  next => rfl

theorem linkOnlyEntry_next (ha : s.alive = true) (hst : s.twin.st = .paired) (hp : s.twin.pulseNow = true)
    (hb : s.twin.hbNow = none) (hm : 2 ≤ s.twin.hbMiss) :
    exec .linkOnlyEntry s = .next { s with twin := { s.twin with st := .linkOnly } } := by
  refine congrArg Host.Outcome.next (if_pos ?_)
  have h3 : 3 ≤ s.twin.hbMiss + 1 := by omega
  simp [ha, hst, hp, hb, h3]

theorem soloEntry_next (ha : s.alive = true) (h0 : s.rooster.slot = 0) (h3 : 3 ≤ s.twin.silent)
    (hst : s.twin.st = .paired ∨ s.twin.st = .linkOnly) : exec .soloEntry s = .next s.enterSolo := by
  refine congrArg Host.Outcome.next (if_pos ?_)
  simpa [ha, h0, h3] using hst

/-! ### Leaving (R426) -/

/-- A thread that runs is halted, and its work squashed; of the others nothing changes. -/
theorem haltThread_spares (s : State) (p : Nat) : SparesOthers p s (s.haltThread p) := by
  unfold State.haltThread
  split
  · exact (SparesOthers.refl s).squashAll.dropSends.setThread
  · exact .refl s

/-- The class S sends that a thread loses are counted, and no other work of its is touched. -/
theorem dropSends_recs (s : State) (p : Nat) : ((s.dropSends p).thread p).recs = (s.thread p).recs := by
  have hcounts : ∀ l : List SendJob, (l.foldl (fun t j => State.count t (portCtr j.op.port pkLateTx) (t.sendCount p j.op))
      s).threads = s.threads := fun l =>
    List.foldlRecOn (motive := fun t : State => t.threads = s.threads) _ _ rfl fun t ht j _ => (count_threads ..).trans ht
  rw [State.dropSends, modThread_eq, thread_setThread_self]
  exact (congrArg Thread.recs (thread_congr (hcounts _) p) :)

theorem haltThread_halts {p : Nat} (h : (s.thread p).st = .running) :
    ((s.haltThread p).thread p).st = .halted ∧ ((s.haltThread p).thread p).recs = [] := by
  rw [State.haltThread, if_pos h, modThread_eq, thread_setThread_self]
  exact ⟨rfl, (dropSends_recs ..).trans (squashAll_recs s p)⟩

/-- The Dolmo as it leaves its pair. -/
def State.detached (s : State) : State := { s with twin := { s.twin with st := .detached, detachAt := none } }

/-- Every thread that runs is halted. -/
def State.haltThreads (s : State) : State := (List.range 128).foldl (fun a p => a.haltThread p) s

theorem haltThreads_keeps (s : State) : s.haltThreads.twin = s.twin ∧ s.haltThreads.depot.mem = s.depot.mem := by
  unfold State.haltThreads
  exact List.foldlRecOn (motive := fun t : State => t.twin = s.twin ∧ t.depot.mem = s.depot.mem) _ _ ⟨rfl, rfl⟩
    fun t ⟨hw, hm⟩ p _ => ⟨(haltThread_spares t p).twin.trans hw, (haltThread_spares t p).mem.trans hm⟩

/-- What is left of a thread is what its own halt left. -/
theorem haltThreads_thread (s : State) {p : Nat} (hp : p < 128) :
    ∃ t : State, t.thread p = s.thread p ∧ s.haltThreads.thread p = (t.haltThread p).thread p := by
  obtain ⟨t, -, ht, h⟩ := foldl_thread (f := State.haltThread) (I := fun _ => True)
    (fun t p q hq => (haltThread_spares t p).thread q hq) (fun _ _ _ => trivial) List.nodup_range (List.mem_range.mpr hp)
    (s := s) trivial
  exact ⟨t, ht, h⟩

theorem detach_next (ha : s.alive = true) (h0 : s.rooster.slot = 0) (hd : s.twin.detachAt = some s.rooster.tickNo) :
    exec .detach s = .next s.detached.haltThreads := by
  show execDetach s = _
  simp only [execDetach, ha, h0, hd, Bool.not_true, ne_eq, not_true_eq_false, decide_false, Bool.or_self,
    Bool.false_eq_true, if_false, if_true, State.haltThreads, State.detached]

/-! ### Rejoining (R428) -/

/-- The twin's part of a rejoin. -/
def State.rejoined (s : State) : State :=
  { s with twin := { s.twin with
      attachAt := none, attachNamed := none, st := .paired, joiner := false, adoptsNext := some false } }

theorem attach_rejoins (ha : s.alive = true) (h0 : s.rooster.slot = 0) (hd : s.twin.attachDue s.rooster.tickNo = true)
    (hm : s.twin.mayAttach s.rooster.tickNo = true) :
    exec .attach s = .next (s.rejoined.setSolos (fun t p => (t.thread p).solo) false).handOver := by
  show execAttach s = _
  simp only [execAttach, ha, h0, hd, hm, Bool.and_self, decide_true, if_true, State.setSolos, State.rejoin, State.rejoined]

theorem attach_fails (ha : s.alive = true) (h0 : s.rooster.slot = 0) (hd : s.twin.attachDue s.rooster.tickNo = true)
    (hm : s.twin.mayAttach s.rooster.tickNo = false) :
    exec .attach s = .next
      (State.bumpPort { s with twin := { s.twin with attachAt := none, attachNamed := none } } 48 pkTwinAttachFail) := by
  show execAttach s = _
  simp only [execAttach, ha, h0, hd, hm, Bool.and_self, decide_true, if_true, Bool.false_eq_true, if_false]

/-- Settles O49. -/
theorem twinStatesChange : Obligations.TwinStatesChange := by
  refine ⟨fun s f offset ha hact hahead hf ht htick hloc hst hfar => ?_,
    fun s port f offset hp ha hact hahead hf ht hbad => ?_, fun s offset ha hahead hin => ?_,
    fun s ha hr h0 hst hh => ⟨fun h3 => ?_, fun h3 h5 => ?_⟩, fun s ha hr h0 hst hh h4 hnow => ?_,
    fun s ha hst hp hb hm => linkOnlyEntry_next ha hst hp hb hm, fun s ha h0 h3 hst => ?_, fun s ha h0 hd => ?_,
    fun s ha h0 hd hheard hnamed => ?_, fun s ha h0 hd hun => ?_⟩
  · have hnext := heartbeat_next (by decide : 48 < 49) ha hact hahead hf ht
    rw [if_pos (by simp [htick, hloc])] at hnext
    obtain ⟨w, h, hw, hnow, hfar', hheard⟩ := heartbeatIn_paired (s := s.received 48 (s.lineCounts 48 f).counters) (b := f.body)
      (offset := offset) hst hfar
    refine .of_next (hnext.trans (congrArg _ h)) ⟨hw, hnow, hfar', fun hin => ?_, rfl, rfl, rfl⟩
    exact hheard.trans (Bool.or_eq_true_iff.mpr (.inr hin))
  · have hnext := heartbeat_next hp ha hact hahead hf ht
    rw [if_neg (by simp only [Bool.and_eq_true, decide_eq_true_eq]; tauto)] at hnext
    refine .of_next hnext ?_
    rw [bumpDev_eq, ctr_count_one, count_twin, count_threads]
    exact ⟨rfl, congrArg (satAdd _ · 1) (lineCounts_devCtr s port f (by decide)), rfl⟩
  · refine congrArg Host.Outcome.next ((if_neg (by simp [hahead])).trans (if_pos ?_))
    rw [ha, hin]
    rfl
  · exact (pairingDecision_heard ha hr h0 hst hh).trans (congrArg _ (paired_joins h3))
  · exact (pairingDecision_heard ha hr h0 hst hh).trans (congrArg _ (paired_whole h3 h5))
  · have h := enterSolo_takesOver s
    exact .of_next (pairingDecision_alone ha hr h0 hst hh h4 hnow) ⟨h.st, h.adopts, h.counted⟩
  · have h := enterSolo_takesOver s
    exact .of_next (soloEntry_next ha h0 h3 hst) ⟨h.st, h.adopts, h.solo, h.stays, h.counted⟩
  · obtain ⟨htwin, hmem⟩ := haltThreads_keeps s.detached
    refine .of_next (detach_next ha h0 hd) ⟨?_, ?_, fun p hp hrun => ?_, fun p hp hrun => ?_, hmem⟩
    · rw [htwin]; rfl
    · rw [htwin]; rfl
    · obtain ⟨t, ht, h⟩ := haltThreads_thread s.detached hp
      rw [h]
      exact haltThread_halts ((congrArg Thread.st ht).trans hrun)
    · obtain ⟨t, ht, h⟩ := haltThreads_thread s.detached hp
      rw [h, State.haltThread, if_neg fun hr => hrun ((congrArg Thread.st ht).symm.trans hr)]
      exact ht
  · have hm : s.twin.mayAttach s.rooster.tickNo = true := by simp [Twin.mayAttach, hheard, hnamed]
    obtain ⟨e, he⟩ := handOver_eq (s.rejoined.setSolos (fun t p => (t.thread p).solo) false)
    obtain ⟨x, hx⟩ := setSolos_eq s.rejoined (fun t p => (t.thread p).solo) false
    have hback {p : Nat} (hp : p < 128) :
        ((s.rejoined.setSolos (fun t p => (t.thread p).solo) false).thread p).solo = false := by
      obtain ⟨t, -, -, h⟩ := setSolos_thread s.rejoined (fun t p => (t.thread p).solo) false hp
      rw [h]
      split
      next => exact (setSolo_self t p false).1
      next hoff => exact Bool.eq_false_iff.mpr hoff
    have hnext := attach_rejoins ha h0 hd hm
    generalize s.rejoined.setSolos (fun t p => (t.thread p).solo) false = y at he hx hback hnext
    refine .of_next (hnext.trans (congrArg _ he)) ⟨?_, ?_, ?_, fun p hp => hback hp, ?_, ?_⟩
    all_goals dsimp only; rw [hx]; rfl
  · have hm : s.twin.mayAttach s.rooster.tickNo = false := by simp [Twin.mayAttach, hun]
    refine .of_next (attach_fails ha h0 hd hm) ?_
    rw [bumpPort_eq, ctr_count_one, count_twin, count_threads]
    exact ⟨rfl, rfl, rfl, rfl⟩

end Sys2Proof.Machine
end

section
/-! SUPPORT. Where counters clear (R441, R484). `Grown` allows a clear at every step; this walk shows that the commands only
count, but for those that enable a queue, create a context or start a cold reset. -/

namespace Sys2Proof.Machine

set_option Elab.async false

/-! ### Counters that only rise -/

/-- From the counters `C` to `K` no counter has fallen. The bypass counter of the gate, which is 32 bits wide, is left out: a
value beyond its limit would fall to it. -/
structure Rising (C K : Tbl Word) : Prop where
  le : ∀ i, i ≠ bypassCtr → (C.getD i 0).toNat ≤ (K.getD i 0).toNat

/-- The answer of a command: no counter has fallen in a next state. -/
def Rises (C : Tbl Word) : Res → Prop
  | .next t => Rising C t.counters
  | _ => True

/-- The answer of a gate call: no counter has fallen in a state that it allows. -/
def RisesOk (C : Tbl Word) : Verdict → Prop
  | .ok t => Rising C t.counters
  | .error _ => True

/-- A delivery: no counter has fallen in the state after it. -/
def RisesGot (C : Tbl Word) (o : Option State) : Prop := ∀ t, o = some t → Rising C t.counters

variable {C : Tbl Word} {s s₁ s₂ : State} {α β : Type}

theorem Rising.refl (C : Tbl Word) : Rising C C := ⟨fun _ _ => Nat.le_refl _⟩

theorem Rising.trans {K M : Tbl Word} (h : Rising C K) (h' : Rising K M) : Rising C M :=
  ⟨fun i hi => Nat.le_trans (h.le i hi) (h'.le i hi)⟩

/-- A counter that counts does not fall. -/
theorem Rising.counted {i n : Nat} {K : Tbl Word} (h : Rising C K) : Rising C (K.set i (satAdd i (K.getD i 0) n)) := by
  refine ⟨fun j hj => Nat.le_trans (h.le j hj) ?_⟩
  by_cases e : j = i
  · subst e
    rw [Tbl.getD_set_self]
    refine le_satAdd j n _ ?_
    rw [ctrMax, if_neg hj]
    exact Nat.le_pred_of_lt (BitVec.isLt _)
  · rw [Tbl.getD_set_ne _ _ _ e]

/-! ### Choices, folds and results -/

theorem Rising.ite {c : Prop} [Decidable c] (h₁ : Rising C s₁.counters) (h₂ : Rising C s₂.counters) :
    Rising C (if c then s₁ else s₂).counters := by split <;> assumption

theorem Rising.ite_fst {c : Prop} [Decidable c] {p q : State × β} (hp : Rising C p.1.counters) (hq : Rising C q.1.counters) :
    Rising C (if c then p else q).1.counters := by split <;> assumption

theorem Rising.ite_snd {c : Prop} [Decidable c] {p q : β × State} (hp : Rising C p.2.counters) (hq : Rising C q.2.counters) :
    Rising C (if c then p else q).2.counters := by split <;> assumption

theorem Rising.foldl {f : State → α → State} {xs : List α} (hg : Rising C s.counters)
    (step : ∀ t x, Rising C t.counters → Rising C (f t x).counters) : Rising C (xs.foldl f s).counters :=
  List.foldlRecOn (motive := fun t => Rising C t.counters) xs f hg (fun t ht x _ => step t x ht)

theorem Rising.foldl_snd {f : β × State → α → β × State} {xs : List α} {r : β × State} (hg : Rising C r.2.counters)
    (step : ∀ r x, Rising C r.2.counters → Rising C (f r x).2.counters) : Rising C (xs.foldl f r).2.counters :=
  List.foldlRecOn (motive := fun r => Rising C r.2.counters) xs f hg (fun r hr x _ => step r x hr)

theorem Rising.foldl_fst {f : State × β → α → State × β} {xs : List α} {r : State × β} (hg : Rising C r.1.counters)
    (step : ∀ r x, Rising C r.1.counters → Rising C (f r x).1.counters) : Rising C (xs.foldl f r).1.counters :=
  List.foldlRecOn (motive := fun r => Rising C r.1.counters) xs f hg (fun r hr x _ => step r x hr)

/-- The state of a pair that an operation has given. -/
theorem Rising.fst {p : State × β} {x : β} (e : p = (s, x)) (hg : Rising C p.1.counters) : Rising C s.counters := by
  subst e; exact hg
theorem Rising.snd {p : β × State} {x : β} (e : p = (x, s)) (hg : Rising C p.2.counters) : Rising C s.counters := by
  subst e; exact hg
theorem Rising.got {o : Option State} (e : o = some s) (hg : RisesGot C o) : Rising C s.counters := hg s e
theorem Rising.served {v : Verdict} (e : v = .ok s) (hg : RisesOk C v) : Rising C s.counters := by subst e; exact hg

theorem Rises.next (hg : Rising C s.counters) : Rises C (.next s) := hg
theorem Rises.fault {f : Fault} : Rises C (.fault f) := trivial
theorem Rises.ite {c : Prop} [Decidable c] {r₁ r₂ : Res} (h₁ : Rises C r₁) (h₂ : Rises C r₂) :
    Rises C (if c then r₁ else r₂) := by split <;> assumption
theorem Rises.withPort {p r} (hr : Rises C r) : Rises C (withPort p r) := .ite hr .fault
theorem Rises.withLane {p j r} (hr : Rises C r) : Rises C (withLane p j r) := .ite (.ite hr .fault) .fault
theorem Rises.withPart {p r} (hr : Rises C r) : Rises C (withPart p r) := .ite hr .fault
theorem Rises.withCtx {c r} (hr : Rises C r) : Rises C (withCtx c r) := .ite hr .fault
theorem Rises.withQueue {q r} (hr : Rises C r) : Rises C (withQueue q r) := .ite hr .fault
theorem Rises.withFunc {n r} (hr : Rises C r) : Rises C (withFunc n r) := .ite hr .fault
theorem Rises.withUnit {b r} (hr : Rises C r) : Rises C (withUnit b r) := .ite hr .fault

theorem RisesOk.ok (hg : Rising C s.counters) : RisesOk C (.ok s) := hg
theorem RisesOk.error {e : Nat × Nat} : RisesOk C (.error e) := trivial
theorem RisesOk.ite {c : Prop} [Decidable c] {v₁ v₂ : Verdict} (h₁ : RisesOk C v₁) (h₂ : RisesOk C v₂) :
    RisesOk C (if c then v₁ else v₂) := by split <;> assumption
theorem RisesOk.need {b status v} (hv : RisesOk C v) : RisesOk C (need b status v) := .ite hv .error

theorem RisesGot.some (hg : Rising C s.counters) : RisesGot C (some s) := by rintro t ⟨⟩; exact hg
theorem RisesGot.ite {c : Prop} [Decidable c] {o₁ o₂ : Option State} (h₁ : RisesGot C o₁) (h₂ : RisesGot C o₂) :
    RisesGot C (if c then o₁ else o₂) := by split <;> assumption
theorem RisesGot.none : RisesGot C none := by rintro t ⟨⟩

/-! ### The moves on the machine -/

theorem Rising.emit {o} (hg : Rising C s.counters) : Rising C (s.emit o).counters := hg
theorem Rising.count {i n} (hg : Rising C s.counters) : Rising C (s.count i n).counters := .ite hg hg.counted
theorem Rising.bump {i} (hg : Rising C s.counters) : Rising C (s.bump i).counters := .count hg
theorem Rising.fresh (hg : Rising C s.counters) : Rising C s.fresh.2.counters := hg

/-- An update of what is no counter. -/
theorem Rising.upd {ti fr ou wi po ro pt la ac we ea de ep en th dp pa cx qs qu ms dm tx rx ec fn ga fw mu tw ax pe}
    (hg : Rising C s.counters) :
    Rising C (State.counters
      { s with pending := pe, time := ti, free := fr, out := ou, wire := wi, power := po, rooster := ro, ports := pt
               lanes := la, accts := ac, west := we, east := ea, descs := de, epoch := ep, engines := en, threads := th
               depot := dp, parts := pa, ctxs := cx, qslots := qs, queues := qu, msgs := ms, deadMsgs := dm, txs := tx
               rxs := rx, echoes := ec, funcs := fn, gate := ga, fw := fw, mule := mu, twin := tw, access := ax }) := hg

/-! ### Operations that every chapter shares -/

theorem Rising.setDie {d v} (hg : Rising C s.counters) : Rising C (s.setDie d v).counters := .ite hg hg

theorem Rising.fire {fn entry} (hg : Rising C s.counters) : Rising C (s.fire fn entry).counters := .ite (.emit hg) hg

theorem Rising.mgmtCause {bit} (hg : Rising C s.counters) : Rising C (s.mgmtCause bit).counters := .ite hg (.fire hg)

theorem Rising.funcCause {p bit} (hg : Rising C s.counters) : Rising C (s.funcCause p bit).counters := .ite hg (.fire hg)

theorem Rising.cqTest {qid} (hg : Rising C s.counters) : Rising C (s.cqTest qid).counters := by
  dsimp only [State.cqTest]
  split
  · exact hg
  · exact .ite (.fire hg) hg

theorem Rising.writeRecord {qid rcd reserved eligible event} (hg : Rising C s.counters) :
    Rising C (s.writeRecord qid rcd reserved eligible event).counters := by
  dsimp only [State.writeRecord]
  split
  · exact hg
  · exact .cqTest (.emit (.emit hg))

theorem Rising.cqOverflow {qid} (hg : Rising C s.counters) : Rising C (s.cqOverflow qid).counters := by
  dsimp only [State.cqOverflow]
  split
  · exact hg
  · split
    · exact hg
    · exact .funcCause hg

theorem Rising.eventDrop {c} (hg : Rising C s.counters) : Rising C (s.eventDrop c).counters := .funcCause (.bump hg)

theorem Rising.postEvent {c event w4 w8} (hg : Rising C s.counters) : Rising C (s.postEvent c event w4 w8).counters := by
  dsimp only [State.postEvent]
  split
  · exact hg
  · split
    · exact .eventDrop hg
    · split
      · exact .eventDrop hg
      · exact .ite (.cqOverflow (.eventDrop hg)) (.writeRecord hg)

theorem Rising.ctxFault {c code} (hg : Rising C s.counters) : Rising C (s.ctxFault c code).counters := by
  dsimp only [State.ctxFault]
  split
  · exact hg
  · exact .ite (.postEvent (.funcCause hg)) (.bump (.ite hg hg))

theorem Rising.faultAll {p code} (hg : Rising C s.counters) : Rising C (s.faultAll p code).counters :=
  .foldl hg (fun _ _ ht => .ctxFault ht)

/-! ### Counters -/

theorem Rising.bumpDev {k} (hg : Rising C s.counters) : Rising C (s.bumpDev k).counters := .bump hg

theorem Rising.bumpDie {d k} (hg : Rising C s.counters) : Rising C (s.bumpDie d k).counters := .bump hg

theorem Rising.bumpEng {e k} (hg : Rising C s.counters) : Rising C (s.bumpEng e k).counters := .bump hg

theorem Rising.bumpPort {p k} (hg : Rising C s.counters) : Rising C (s.bumpPort p k).counters := .bump hg

theorem Rising.bumpLane {p j k} (hg : Rising C s.counters) : Rising C (s.bumpLane p j k).counters := .bump hg

theorem Rising.bumpPart {p k} (hg : Rising C s.counters) : Rising C (s.bumpPart p k).counters := .bump hg

theorem Rising.bumpCtx {c k} (hg : Rising C s.counters) : Rising C (s.bumpCtx c k).counters := .bump hg

theorem Rising.bumpC {mule port ctx k} (hg : Rising C s.counters) : Rising C (s.bumpC mule port ctx k).counters :=
  .ite (.ite (.bumpPort hg) hg) (.bumpCtx hg)

/-! ### Hen and the accounts -/

theorem Rising.henTake {d b fallback} (hg : Rising C s.counters) : Rising C (s.henTake d b fallback).counters := by
  dsimp only [State.henTake]
  split
  · exact hg
  · exact .ite (.bumpDie (.setDie hg)) (.setDie hg)
  · exact .bumpDie (.setDie hg)

theorem Rising.henFree {d b} (hg : Rising C s.counters) : Rising C (s.henFree d b).counters := by
  dsimp only [State.henFree]
  split
  · exact hg
  · exact .setDie hg
  · exact .setDie hg

theorem Rising.charge {c units} (hg : Rising C s.counters) : Rising C (s.charge c units).counters := by
  dsimp only [State.charge]
  split <;> exact hg

theorem Rising.uncharge {c units} (hg : Rising C s.counters) : Rising C (s.uncharge c units).counters := by
  dsimp only [State.uncharge]
  split
  · exact .ite hg hg
  · exact hg
  · exact hg

theorem Rising.noBuffer {d} (hg : Rising C s.counters) : Rising C (s.noBuffer d).counters := .bumpDie (.ite (.setDie hg) hg)

theorem Rising.henStore {d b fallback h payload crowd refs c} (hg : Rising C s.counters) :
    Rising C (s.henStore d b fallback h payload crowd refs c).2.counters := by
  dsimp only [State.henStore]
  split
  · exact .noBuffer hg
  · exact .upd (.charge (.henTake hg))

theorem Rising.release {n} (hg : Rising C s.counters) : Rising C (s.release n).counters := by
  dsimp only [State.release]
  split
  · exact .mgmtCause (.bumpDie hg)
  · exact .ite (.setDie (.uncharge (.henFree hg))) hg

theorem Rising.releaseAll {l} (hg : Rising C s.counters) : Rising C (s.releaseAll l).counters :=
  .foldl hg (fun _ _ ht => .release ht)

theorem Rising.enterLevel {d l} (hg : Rising C s.counters) : Rising C (s.enterLevel d l).counters := by
  dsimp only [State.enterLevel]
  split
  · exact .bumpDie (.setDie hg)
  · exact .bumpDie (.setDie hg)
  · exact .mgmtCause (.bumpDie (.setDie hg))

theorem Rising.levelRise {d} (hg : Rising C s.counters) : Rising C (s.levelRise d).counters :=
  .foldl hg (fun _ _ ht => .ite (.enterLevel ht) ht)

theorem Rising.levelFall {d} (hg : Rising C s.counters) : Rising C (s.levelFall d).counters := .ite (.setDie hg) hg

theorem Rising.levelHeld {d} (hg : Rising C s.counters) : Rising C (s.levelHeld d).counters := .setDie hg

theorem Rising.judgeLevel {d} (hg : Rising C s.counters) : Rising C (s.judgeLevel d).counters :=
  .ite (.levelFall (.levelRise (.levelHeld hg))) (.levelRise (.levelHeld hg))

theorem Rising.rejudgeLevel {d} (hg : Rising C s.counters) : Rising C (s.rejudgeLevel d).counters :=
  .ite (.levelFall (.levelFall (.levelFall (.levelRise (.levelHeld hg))))) (.levelRise (.levelHeld hg))

/-! ### The depot -/

theorem Rising.eccCorrect {a n} (hg : Rising C s.counters) : Rising C (s.eccCorrect a n).counters := .count hg

theorem Rising.depotRead {a n} (hg : Rising C s.counters) : Rising C (s.depotRead a n).2.2.counters :=
  .count (.eccCorrect hg)

/-- A piece of a store writes its bytes, or only counts. -/
theorem Rising.depotPiece {a bytes} (hg : Rising C s.counters) : Rising C (s.depotPiece a bytes).2.counters := by
  simp only [State.depotPiece]
  split
  · exact .upd (.count hg)
  · exact .count (.count hg)

theorem Rising.depotStore {k a bytes} (hg : Rising C s.counters) : Rising C (s.depotStore k a bytes).2.counters :=
  .foldl_snd hg (fun _ _ hr => .depotPiece hr)

theorem Rising.depotStream {a bytes} (hg : Rising C s.counters) : Rising C (s.depotStream a bytes).2.counters :=
  .depotStore hg

theorem Rising.depotTake {k tag} (hg : Rising C s.counters) : Rising C (s.depotTake k tag).2.counters := by
  simp only [State.depotTake]
  split
  · exact .bumpDev hg
  · exact .bumpDev (.mgmtCause (.upd (.depotRead hg)))
  · exact .upd (.depotRead hg)

theorem Rising.depotFree {k i} (hg : Rising C s.counters) : Rising C (s.depotFree k i).counters :=
  .upd hg

/-! ### Frames through the switch -/

theorem Rising.lineCounts {p f} (hg : Rising C s.counters) : Rising C (s.lineCounts p f).counters :=
  .foldl (.foldl hg (fun _ _ ht => .bumpLane ht)) (fun _ _ ht => .bumpLane ht)

theorem Rising.enterHunt {p} (hg : Rising C s.counters) : Rising C (s.enterHunt p).counters := .ite hg (.bumpPort hg)

theorem Rising.rxDiscard {p f r} (hg : Rising C s.counters) : Rising C (s.rxDiscard p f r).counters := by
  dsimp only [State.rxDiscard]
  split
  · exact .bumpPort hg
  · exact .ite (.enterHunt (.foldl hg (fun _ _ ht => .bumpLane ht))) (.foldl hg (fun _ _ ht => .bumpLane ht))
  · exact .ite hg (.enterHunt (.bumpPort hg))
  · exact .ite hg (.bumpPort hg)
  · exact .bumpPort (.ite hg hg)
  · exact .bumpPort hg
  · exact .bumpPort hg
  · exact .bumpPort hg

theorem Rising.linkRx {p typ f} (hg : Rising C s.counters) : Rising C (s.linkRx p typ f).1.counters := by
  dsimp only [State.linkRx]
  refine .ite_fst hg ?_
  split
  · exact .rxDiscard (.lineCounts hg)
  · exact .upd (.lineCounts hg)

theorem Rising.bumpIng {ing k} (hg : Rising C s.counters) : Rising C (s.bumpIng ing k).counters := .ite (.bumpPort hg) hg

/-- A routed frame changes no more than a counter (R190-R202). -/

theorem Rising.route {ing h} (hg : Rising C s.counters) : Rising C (s.route ing h).1.counters :=
  route_fst (P := fun t => Rising C t.counters) hg (fun _ => .bumpIng hg) (.bumpDev hg)

theorem Rising.releaseEntry {e} (hg : Rising C s.counters) : Rising C (s.releaseEntry e).counters := by
  dsimp only [State.releaseEntry]
  split
  · exact .release hg
  · exact hg

theorem Rising.dropEntry {port e} (hg : Rising C s.counters) : Rising C (s.dropEntry port e).counters :=
  .releaseEntry (.ite hg hg)

theorem Rising.crossBridge {d n} (hg : Rising C s.counters) : Rising C (s.crossBridge d n).counters := .setDie hg

theorem Rising.startEntry {port e stomped} (hg : Rising C s.counters) : Rising C (s.startEntry port e stomped).counters := by
  unfold State.startEntry
  extract_lets q crowd marked h hdr u q1 cb cc q2 d s0 s1 s2
  have h0 : Rising C s0.counters := .ite (.setDie (.crossBridge hg)) hg
  have h1 : Rising C s1.counters := .emit (.upd h0)
  have h2 : Rising C s2.counters := .ite (.bumpPort h1) h1
  exact .ite (.bumpPort h2) h2

theorem Rising.downDiscard {port e} (hg : Rising C s.counters) : Rising C (s.downDiscard port e).counters :=
  .bumpPort (.dropEntry hg)

theorem Rising.enqueue {port e} (hg : Rising C s.counters) : Rising C (s.enqueue port e).counters := by
  have hd {k : Nat} : Rising C ((s.releaseEntry e).bumpPort port k).counters := .bumpPort (.releaseEntry hg)
  dsimp only [State.enqueue]
  refine .ite hd (.ite hd ?_)
  split
  · exact .ite hd (.ite hd (.upd hg))
  · exact .ite hd (.upd hg)
  · exact .ite hd (.upd hg)

theorem Rising.quarantineQueues {port} (hg : Rising C s.counters) : Rising C (s.quarantineQueues port).counters :=
  .ite hg (.foldl hg (fun _ _ ht => .bumpPort (.dropEntry ht)))

theorem Rising.startNow {port e stomped} (hg : Rising C s.counters) : Rising C (s.startNow port e stomped).counters :=
  .startEntry (.ite hg hg)

theorem Rising.place {ing hold e port} (hg : Rising C s.counters) : Rising C (s.place ing hold e port).counters :=
  .ite (.startNow hg) (.ite (.bumpPort (.releaseEntry hg)) (.enqueue hg))

theorem Rising.purgeLate {port} (hg : Rising C s.counters) : Rising C (s.purgeLate port).counters :=
  .foldl hg (fun _ _ ht => .bumpPort (.dropEntry ht))

theorem Rising.purgeStale {port} (hg : Rising C s.counters) : Rising C (s.purgeStale port).counters :=
  .foldl hg (fun _ _ ht => .bumpPort (.dropEntry ht))

theorem Rising.egressLaunch {port e bridgeBad} (hg : Rising C s.counters) :
    Rising C (s.egressLaunch port e bridgeBad).counters :=
  .ite (.bumpDie (.dropEntry hg)) (.startEntry hg)

theorem Rising.egressWaits {port} (hg : Rising C s.counters) : Rising C (s.egressWaits port).counters := .ite (.setDie hg) hg

theorem Rising.egressStart {port bridgeBad} (hg : Rising C s.counters) :
    Rising C (s.egressStart port bridgeBad).counters := by
  dsimp only [State.egressStart]
  refine .ite hg (.ite (.emit (.upd (.egressWaits (.purgeLate (.purgeStale hg))))) ?_)
  split
  · exact .egressWaits (.purgeLate (.purgeStale hg))
  · exact .egressLaunch (.egressWaits (.purgeLate (.purgeStale hg)))

theorem Rising.egressEndFrame {port} (hg : Rising C s.counters) : Rising C (s.egressEndFrame port).counters := by
  dsimp only [State.egressEndFrame]
  split
  · exact hg
  · exact .dropEntry hg

theorem Rising.portDownQueues {port} (hg : Rising C s.counters) : Rising C (s.portDownQueues port).counters := by
  dsimp only [State.portDownQueues]
  refine .foldl (.upd ?_) (fun _ _ ht => .downDiscard ht)
  split
  · exact .dropEntry hg
  · exact hg

theorem Rising.dropPartS {p} (hg : Rising C s.counters) : Rising C (s.dropPartS p).counters :=
  .foldl hg (fun _ _ ht => .ite ht (.foldl ht (fun _ _ hu => .bumpPort (.dropEntry hu))))

/-! ### Endpoints: messages, streams and echoes -/

theorem Rising.placeCopy {ing hold bad e port} (hg : Rising C s.counters) :
    Rising C (s.placeCopy ing hold bad e port).counters :=
  .ite (.ite (.startNow (.bumpDie hg)) (.releaseEntry (.bumpDie hg))) (.place hg)

theorem Rising.storeCopies {ing h payload crowd d b fb bad own} (hg : Rising C s.counters) :
    Rising C (s.storeCopies ing h payload crowd d b fb bad own).2.counters := by
  dsimp only [State.storeCopies]
  split
  · rename_i e
    have hs1 := Rising.snd e (.henStore hg)
    exact hs1
  · rename_i e
    have hs1 := Rising.snd e (.henStore hg)
    exact .foldl (.ite hs1 hs1) (fun _ _ ht => .ite (.enqueue ht) (.placeCopy ht))

theorem Rising.addWait {w} (hg : Rising C s.counters) : Rising C (s.addWait w).counters :=
  .ite (.setDie hg) (.charge (.setDie hg))

theorem Rising.dropWaits {d p} (hg : Rising C s.counters) : Rising C (s.dropWaits d p).counters :=
  .foldl (.setDie hg) (fun _ _ ht => .ite ht (.uncharge ht))

theorem Rising.sendLocal {ing h payload} (hg : Rising C s.counters) : Rising C (s.sendLocal ing h payload).counters := by
  dsimp only [State.sendLocal]
  split
  · rename_i e
    have hs1 := Rising.fst e (.route hg)
    exact hs1
  · rename_i e
    have hs1 := Rising.fst e (.route hg)
    refine .ite (.addWait hs1) (.ite (.addWait hs1) ?_)
    split
    · exact .noBuffer hs1
    · exact .addWait hs1
    · exact .storeCopies hs1

theorem Rising.echoAccount {h crowd mule} (hg : Rising C s.counters) : Rising C (s.echoAccount h crowd mule).counters := by
  dsimp only [State.echoAccount]
  split
  · exact .ite (.ite (.bumpDev hg) hg) hg
  · exact hg

theorem Rising.sendEcho {mule dst part ctx msg marked total kind} (hg : Rising C s.counters) :
    Rising C (s.sendEcho mule dst part ctx msg marked total kind).counters :=
  .sendLocal (.bumpDev hg)

theorem Rising.lossEcho {k part mule} (hg : Rising C s.counters) : Rising C (s.lossEcho k part mule).counters := by
  dsimp only [State.lossEcho]
  split <;> exact .sendEcho hg

theorem Rising.cqReserve {q} (hg : Rising C s.counters) : Rising C (s.cqReserve q).counters := by
  dsimp only [State.cqReserve]
  split
  · split <;> exact hg
  · exact hg

theorem Rising.rqTake {qid} (hg : Rising C s.counters) : Rising C (s.rqTake qid).2.counters := by
  dsimp only [State.rqTake]
  split
  · exact hg
  · exact .ite_snd (.upd (.cqReserve hg)) hg

theorem Rising.takeBufs {qid n acc} (hg : Rising C s.counters) : Rising C (s.takeBufs qid n acc).2.counters := by
  induction n generalizing s acc with
  | zero => exact hg
  | succ n ih =>
    simp only [State.takeBufs]
    split
    · rename_i e
      exact ih (.snd e (.rqTake hg))
    · rename_i e
      exact .snd e (.rqTake hg)

theorem Rising.bufWrite {qid part ring off bytes} (hg : Rising C s.counters) :
    Rising C (s.bufWrite qid part ring off bytes).counters :=
  .emit hg

theorem Rising.recvRecord {qid status marks src msg index bytes ring} (hg : Rising C s.counters) :
    Rising C (s.recvRecord qid status marks src msg index bytes ring).counters := by
  dsimp only [State.recvRecord]
  split
  · exact hg
  · split
    · exact hg
    · exact .writeRecord hg

theorem Rising.finishMsg {m} (hg : Rising C s.counters) : Rising C (s.finishMsg m).counters :=
  .foldl hg (fun _ _ ht => .recvRecord ht)

theorem Rising.voidMsg {m} (hg : Rising C s.counters) : Rising C (s.voidMsg m).counters :=
  .upd (.foldl (.foldl hg (fun _ _ ht => .recvRecord ht)) (fun _ _ ht => .depotFree ht))

theorem Rising.dropMsg {m ctr} (hg : Rising C s.counters) : Rising C (s.dropMsg m ctr).counters :=
  .lossEcho (.bump (.voidMsg hg))

theorem Rising.holdFrame {m moff payload ringHold} (hg : Rising C s.counters) :
    Rising C (s.holdFrame m moff payload ringHold).counters := by
  dsimp only [State.holdFrame]
  refine .ite (.dropMsg hg) (.ite ?_ (.ite (.upd (.depotStore hg)) (.upd (.depotStore hg))))
  split
  · rename_i e
    have ht := Rising.snd e (.depotTake hg)
    exact .ite (.upd (.depotStore ht)) (.upd (.depotStore ht))
  · rename_i e
    have ht := Rising.snd e (.depotTake hg)
    exact .dropMsg ht

theorem Rising.takeFrame {m h payload} (hg : Rising C s.counters) : Rising C (s.takeFrame m h payload).counters := by
  dsimp only [State.takeFrame]
  refine .ite (.ite hg hg) ?_
  split
  · exact .ite (.finishMsg (.bufWrite (.takeBufs hg))) (.upd (.bufWrite (.takeBufs hg)))
  · exact .holdFrame (.upd (.takeBufs hg))

theorem Rising.serveHeld {m} (hg : Rising C s.counters) : Rising C (s.serveHeld m).counters :=
  .ite (.ite (.finishMsg (.foldl (.foldl (.takeBufs hg) (fun _ _ ht => .bufWrite ht)) (fun _ _ ht => .depotFree ht)))
    (.upd (.foldl (.foldl (.takeBufs hg) (fun _ _ ht => .bufWrite ht)) (fun _ _ ht => .depotFree ht))))
    (.upd (.takeBufs hg))

theorem Rising.serveRing {qid} (hg : Rising C s.counters) : Rising C (s.serveRing qid).counters :=
  .foldl hg (fun _ _ ht => .serveHeld ht)

theorem Rising.deliverB {ing h payload crowd mule} (hg : Rising C s.counters) :
    Rising C (s.deliverB ing h payload crowd mule).counters := by
  dsimp only [State.deliverB]
  refine .ite (.bumpIng hg) ?_
  split
  · exact .bumpCtx (.echoAccount hg)
  · refine .ite (.bumpDev (.echoAccount hg)) ?_
    split
    · exact .ite (.bumpDev (.echoAccount hg)) (.takeFrame (.echoAccount hg))
    · exact .ite (.lossEcho (.bumpDev (.echoAccount hg))) (.takeFrame (.upd (.echoAccount hg)))

theorem Rising.setEntry {e f} (hg : Rising C s.counters) : Rising C (s.setEntry e f).counters := by
  dsimp only [State.setEntry]
  split <;> exact hg

theorem Rising.sendAck {k r} (hg : Rising C s.counters) : Rising C (s.sendAck k r).counters := .sendLocal hg

theorem Rising.sendRst {k part port} (hg : Rising C s.counters) : Rising C (s.sendRst k part port).counters :=
  .sendLocal (.bumpC (.fresh hg))

theorem Rising.withdrawC {k t u} (hg : Rising C s.counters) : Rising C (s.withdrawC k t u).counters := .ite hg hg

theorem Rising.aimC {k t u} (hg : Rising C s.counters) : Rising C (s.aimC k t u).2.counters := by
  dsimp only [State.aimC]
  split
  · exact hg
  · refine .ite_snd hg ?_
    split
    · split
      · exact .setEntry (.bumpPart (.withdrawC hg))
      · exact .bumpPart (.withdrawC hg)
    · exact .ite_snd hg (.upd (.withdrawC hg))

theorem Rising.muleStreamFailed {k t} (hg : Rising C s.counters) : Rising C (s.muleStreamFailed k t).counters := by
  dsimp only [State.muleStreamFailed]
  split
  · exact .upd (.upd (.bumpDev hg))
  · exact .upd (.bumpDev hg)

theorem Rising.failStream {k code} (hg : Rising C s.counters) : Rising C (s.failStream k code).counters := by
  dsimp only [State.failStream]
  split
  · exact hg
  · refine .ite (.muleStreamFailed hg) (.ctxFault (.foldl hg (fun _ _ ha => ?_)))
    split
    · exact .setEntry ha
    · exact ha

theorem Rising.ackArrives {k ack} (hg : Rising C s.counters) : Rising C (s.ackArrives k ack).counters := by
  dsimp only [State.ackArrives]
  split
  · exact hg
  · split
    · exact hg
    · refine .ite hg (.ite hg (.foldl hg (fun _ _ ha => ?_)))
      split
      · exact .setEntry ha
      · exact ha

theorem RisesGot.deliverMsg {h payload mule} (hg : Rising C s.counters) : RisesGot C (s.deliverMsg h payload mule) := by
  dsimp only [State.deliverMsg]
  refine .ite (.ite (.some hg) .none) ?_
  split
  · exact .none
  · split
    · exact .none
    · rename_i e
      have ht := Rising.snd e (.rqTake hg)
      exact .some (.recvRecord (.bufWrite ht))

theorem Rising.acceptC {ing h payload mule old} (hg : Rising C s.counters) :
    Rising C (s.acceptC ing h payload mule old).counters := by
  dsimp only [State.acceptC]
  refine .ite (.bumpC hg) ?_
  split
  · exact .bumpC hg
  · rename_i e
    have ht := Rising.got e (.deliverMsg hg)
    exact ht

theorem Rising.judgeC {ing h payload mule} (hg : Rising C s.counters) : Rising C (s.judgeC ing h payload mule).counters := by
  dsimp only [State.judgeC]
  split
  · exact .ite (.ite (.acceptC hg) (.bumpC hg)) (.sendRst hg)
  · exact .ite (.acceptC hg) (.ite (.sendAck (.bumpC hg)) (.ite (.sendAck (.bumpC hg)) (.bumpC hg)))

theorem Rising.refuseC {ing h} (hg : Rising C s.counters) : Rising C (s.refuseC ing h).counters := .ite (.sendRst hg) hg

theorem Rising.deliverC {ing h payload mule} (hg : Rising C s.counters) :
    Rising C (s.deliverC ing h payload mule).counters := by
  unfold State.deliverC
  extract_lets k s1
  have h1 : Rising C s1.counters := .ite (.ackArrives hg) hg
  refine .ite (.refuseC (.bumpIng hg)) ?_
  split
  · exact .ite (.failStream h1) h1
  · split
    · exact h1
    · exact .ite h1 (.upd h1)
  · exact .ite (.refuseC (.bumpCtx h1)) (.judgeC h1)

theorem Rising.deliverEcho {ing h payload mule} (hg : Rising C s.counters) :
    Rising C (s.deliverEcho ing h payload mule).counters := by
  have h1 : Rising C ((s.echoAccount h false mule).bumpDev dkEchoRx).counters := .bumpDev (.echoAccount hg)
  dsimp only [State.deliverEcho]
  refine .ite (.bumpIng hg) (.ite ?_ ?_)
  · split
    · exact .ite (.upd h1) h1
    · exact .upd h1
    · exact h1
  · split
    · split
      · exact .upd h1
      · exact h1
    · exact .postEvent h1
    · exact h1

theorem Rising.deliver {ing h payload crowd mule} (hg : Rising C s.counters) :
    Rising C (s.deliver ing h payload crowd mule).counters := by
  dsimp only [State.deliver]
  split
  · exact .bumpIng hg
  · exact .deliverB hg
  · exact .deliverEcho hg
  · exact .deliverC hg

theorem Rising.deliverAcross {ing h payload crowd mule bad} (hg : Rising C s.counters) :
    Rising C (s.deliverAcross ing h payload crowd mule bad).counters :=
  .ite (.bumpDie hg) (.deliver hg)

theorem Rising.bindFrame {d h n} (hg : Rising C s.counters) : Rising C (s.bindFrame d h n).counters := by
  dsimp only [State.bindFrame]
  split
  · exact hg
  · split
    · exact .release hg
    · exact .ite (.release hg) hg

theorem Rising.finishStore {ing h payload crowd d b fb bad own} (hg : Rising C s.counters) :
    Rising C (s.finishStore ing h payload crowd d b fb bad own).counters := by
  dsimp only [State.finishStore]
  split
  · rename_i e
    have hs1 := Rising.snd e (.storeCopies hg)
    exact hs1
  · rename_i e
    have hs1 := Rising.snd e (.storeCopies hg)
    exact .ite (.release (.deliverAcross (.ite (.release (.deliverAcross (.bindFrame hs1))) (.bindFrame hs1))))
      (.ite (.release (.deliverAcross (.bindFrame hs1))) (.bindFrame hs1))

theorem Rising.admitFrame {ing h payload crowd d bad limited} (hg : Rising C s.counters) :
    Rising C (s.admitFrame ing h payload crowd d bad limited).counters := by
  dsimp only [State.admitFrame]
  refine .ite (.addWait hg) ?_
  split
  · exact .noBuffer hg
  · exact .addWait hg
  · exact .finishStore hg

theorem Rising.serveWait {d w} (hg : Rising C s.counters) : Rising C (s.serveWait d w).counters := by
  dsimp only [State.serveWait]
  split
  · exact .noBuffer (.dropWaits hg)
  · exact .addWait (.dropWaits hg)
  · exact .finishStore (.dropWaits hg)

/-! ### Frames on links -/

theorem Rising.countRx {p h} (hg : Rising C s.counters) : Rising C (s.countRx p h).counters := .ite hg hg

theorem Rising.stompCopies {p f r} (hg : Rising C s.counters) : Rising C (s.stompCopies p f r).counters := by
  dsimp only [State.stompCopies]
  refine .ite ?_ hg
  split
  · exact hg
  · exact .foldl hg (fun _ _ ht => .ite (.startNow ht) ht)

theorem Rising.notReady {h} (hg : Rising C s.counters) : Rising C (s.notReady h).counters :=
  .ite (.bumpDev hg) (.sendLocal (.bumpDev hg))

theorem Rising.admitS {p f d} (hg : Rising C s.counters) : Rising C (s.admitS p f d).counters :=
  .ite (.bumpPort hg) (.admitFrame hg)

theorem Rising.arriveS {p f} (hg : Rising C s.counters) : Rising C (s.arriveS p f).counters := by
  dsimp only [State.arriveS]
  refine .ite hg (.ite (.bumpPort hg) ?_)
  split
  · exact .ite (.bumpPort hg) (.ite (.bumpPort hg) (.admitS hg))
  · split
    · rename_i e
      have hs1 := Rising.fst e (.route hg)
      exact hs1
    · rename_i e
      have hs1 := Rising.fst e (.route hg)
      exact .admitS hs1

theorem Rising.arriveBC {p f} (hg : Rising C s.counters) : Rising C (s.arriveBC p f).counters := by
  dsimp only [State.arriveBC]
  split
  · rename_i e
    have hs1 := Rising.fst e (.route hg)
    exact hs1
  · rename_i e
    have hs1 := Rising.fst e (.route hg)
    exact .admitFrame hs1

theorem Rising.judge {p typ f} (hg : Rising C s.counters) : Rising C (s.judge p typ f).counters := by
  dsimp only [State.judge]
  split
  · exact .rxDiscard (.ite (.countRx (.stompCopies hg)) hg)
  · refine .ite hg (.ite (.upd (.bumpPort hg)) (.ite (.upd (.notReady (.countRx hg))) ?_))
    split
    · exact .upd (.bumpPort (.countRx hg))
    · exact .upd (.ite (.arriveS (.countRx hg)) (.arriveBC (.countRx hg)))

theorem Rising.arrive {p typ f} (hg : Rising C s.counters) : Rising C (s.arrive p typ f).counters :=
  .ite hg (.judge (.lineCounts hg))

theorem Rises.credit {port f} (hg : Rising C s.counters) : Rises C (execCredit port f s) := by
  dsimp only [execCredit]
  refine .withPort (.next ?_)
  split
  · rename_i e
    have hs1 := Rising.fst e (.linkRx hg)
    exact hs1
  · rename_i e
    have hs1 := Rising.fst e (.linkRx hg)
    exact hs1

theorem Rises.creditSend {port} (hg : Rising C s.counters) : Rises C (execCreditSend port s) :=
  .withPort (.next (.ite hg hg))

theorem Rises.creditStall {port classC} (hg : Rising C s.counters) : Rises C (execCreditStall port classC s) :=
  .withPort (.next (.ite (.bumpPort hg) hg))

theorem Rises.cRetryTimeout {k} (hg : Rising C s.counters) : Rises C (execCRetryTimeout k s) := by
  dsimp only [execCRetryTimeout]
  refine .next ?_
  split
  · exact hg
  · split
    · exact .ite hg (.ite (.failStream hg) (.bumpC hg))
    · exact hg

theorem Rises.cAckSend {k} (hg : Rising C s.counters) : Rises C (execCAckSend k s) := by
  dsimp only [execCAckSend]
  refine .next ?_
  split
  · exact hg
  · exact .ite (.sendAck hg) hg

theorem Rises.notreadyRetry {k} (hg : Rising C s.counters) : Rises C (execNotreadyRetry k s) := by
  dsimp only [execNotreadyRetry]
  refine .next ?_
  split
  · exact hg
  · split
    · exact hg
    · exact .ite (.failStream hg) (.ite hg hg)

theorem Rises.egressFrameStart {start} (hg : Rising C s.counters) : Rises C (execEgressFrameStart start s) :=
  .withPort (.next (.ite (.egressStart hg) hg))

theorem Rises.egressFrameEnd {port} (hg : Rising C s.counters) : Rises C (execEgressFrameEnd port s) :=
  .withPort (.next (.egressEndFrame hg))

theorem Rises.mcHoldExpiry {port desc} (hg : Rising C s.counters) : Rises C (execMcHoldExpiry port desc s) := by
  dsimp only [execMcHoldExpiry]
  refine .withPort (.next ?_)
  split
  · exact hg
  · exact .ite hg (.bumpPort (.dropEntry hg))

theorem Rising.launch {ing h payload} (hg : Rising C s.counters) : Rising C (s.launch ing h payload).counters := by
  dsimp only [State.launch]
  split
  · rename_i e
    have hs1 := Rising.fst e (.route hg)
    exact hs1
  · rename_i e
    have hs1 := Rising.fst e (.route hg)
    exact .admitFrame hs1

theorem Rising.buildC {k t u} (hg : Rising C s.counters) : Rising C (s.buildC k t u).counters := by
  dsimp only [State.buildC]
  refine .ite (.launch ?_) hg
  split <;> exact hg

theorem Rising.buildB {qid q e data} (hg : Rising C s.counters) : Rising C (s.buildB qid q e data).counters := by
  dsimp only [State.buildB]
  split
  · exact .bumpPart (.setEntry hg)
  · exact .ite (.launch (.emit hg)) hg

theorem Rising.buildDrain {d k x} (hg : Rising C s.counters) : Rising C (s.buildDrain d k x).counters := by
  dsimp only [State.buildDrain]
  split
  · exact hg
  · split
    · exact .bumpPart hg
    · exact .ite (.ite (.launch (.upd (.upd (.depotRead hg)))) (.upd (.depotRead hg))) hg

theorem Rises.hostFrameBuild {src data} (hg : Rising C s.counters) : Rises C (execHostFrameBuild src data s) := by
  dsimp only [execHostFrameBuild]
  refine .ite .fault (.next (.ite hg ?_))
  split
  · split
    · rename_i e
      have hs1 := Rising.snd e (.aimC hg)
      exact hs1
    · rename_i e
      have hs1 := Rising.snd e (.aimC hg)
      split
      · exact hs1
      · split
        · exact .buildC hs1
        · exact hs1
  · refine .ite ?_ ?_
    · split
      · exact .buildDrain hg
      · exact hg
    · split
      · exact hg
      · split
        · exact .buildB hg
        · exact hg

theorem Rises.henAllocation {die pool} (hg : Rising C s.counters) : Rises C (execHenAllocation die pool s) := by
  dsimp only [execHenAllocation]
  refine .withUnit (.next ?_)
  split
  · exact hg
  · exact .serveWait hg

theorem Rises.henLevelChange {die} (hg : Rising C s.counters) : Rises C (execHenLevelChange die s) :=
  .withUnit (.next (.judgeLevel hg))

theorem Rises.echoSend {src ctx} (hg : Rising C s.counters) : Rises C (execEchoSend src ctx s) := by
  dsimp only [execEchoSend]
  refine .next ?_
  split
  · exact hg
  · split
    · exact hg
    · exact .sendEcho hg

theorem Rises.bMsgTimeout {k} (hg : Rising C s.counters) : Rises C (execBMsgTimeout k s) := by
  dsimp only [execBMsgTimeout]
  refine .next ?_
  split
  · exact hg
  · exact .ite hg (.dropMsg hg)

/-! ### Epoch tables -/

theorem Rising.openRoute (hg : Rising C s.counters) : Rising C (s.openRoute).counters := .ite hg hg

theorem Rising.openSpread (hg : Rising C s.counters) : Rising C (s.openSpread).counters := .ite hg hg

theorem Rising.openGrants (hg : Rising C s.counters) : Rising C (s.openGrants).counters := .ite hg hg

theorem Rising.openVariant (hg : Rising C s.counters) : Rising C (s.openVariant).counters := .ite hg hg

theorem Rising.openRemap {p} (hg : Rising C s.counters) : Rising C (s.openRemap p).counters := .ite hg hg

theorem Rising.stageRoute {i e} (hg : Rising C s.counters) : Rising C (s.stageRoute i e).counters := .upd (.openRoute hg)

theorem Rising.stageSpread {i w} (hg : Rising C s.counters) : Rising C (s.stageSpread i w).counters := .upd (.openSpread hg)

theorem Rising.stageGrants {p g} (hg : Rising C s.counters) : Rising C (s.stageGrants p g).counters := .upd (.openGrants hg)

theorem Rising.stageVariant {p v} (hg : Rising C s.counters) : Rising C (s.stageVariant p v).counters :=
  .upd (.openVariant hg)

theorem Rising.stageRemap {p l} (hg : Rising C s.counters) : Rising C (s.stageRemap p l).counters := .upd (.openRemap hg)

theorem Rising.applyPlans {l fresh} (hg : Rising C s.counters) : Rising C (s.applyPlans l fresh).counters :=
  .foldl hg (fun _ _ ht => .ite ht ht)

/-! ### Lanes -/

theorem Rising.setDown {p} (hg : Rising C s.counters) : Rising C (s.setDown p).counters :=
  .ite hg (.mgmtCause (.portDownQueues hg))

theorem Rising.lanesFrom {p st} (hg : Rising C s.counters) : Rising C (s.lanesFrom p st).counters :=
  .foldl hg (fun _ _ ht => ht)

theorem Rising.restartPort {p st} (hg : Rising C s.counters) : Rising C (s.restartPort p st).counters := .upd (.lanesFrom hg)

theorem Rising.sendRange {p kind index t2 t3 ab ba} (hg : Rising C s.counters) :
    Rising C (s.sendRange p kind index t2 t3 ab ba).counters :=
  .emit hg

theorem Rising.sendRangeReq {p r t1} (hg : Rising C s.counters) : Rising C (s.sendRangeReq p r t1).counters := .sendRange hg

theorem Rising.startRange {p} (hg : Rising C s.counters) : Rising C (s.startRange p).counters :=
  .ite (.ite (.sendRangeReq (.fresh hg)) hg) hg

theorem Rises.portRangeStart {path port} (hg : Rising C s.counters) : Rises C (execPortRangeStart path port s) :=
  .withPort (.next (.ite (.startRange hg) hg))

theorem Rising.setDelays {p out inn} (hg : Rising C s.counters) : Rising C (s.setDelays p out inn).counters :=
  .ite (.bumpPort hg) hg

theorem Rising.answerRange {port index stamp reply} (hg : Rising C s.counters) :
    Rising C (s.answerRange port index stamp reply).counters :=
  .sendRange hg

theorem Rises.range {port f stamp reply} (hg : Rising C s.counters) : Rises C (execRange port f stamp reply s) := by
  dsimp only [execRange]
  refine .withPort (.next ?_)
  split
  · rename_i e
    have hs1 := Rising.fst e (.linkRx hg)
    exact hs1
  · rename_i e
    have hs1 := Rising.fst e (.linkRx hg)
    refine .ite ?_ ?_
    · split <;> exact .ite (.answerRange hs1) hs1
    · split
      · exact hs1
      · exact .ite (.ite (.sendRangeReq hs1) hs1) (.ite (.setDelays hs1) hs1)

theorem Rises.rangingComplete {port} (hg : Rising C s.counters) : Rises C (execRangingComplete port s) := by
  dsimp only [execRangingComplete]
  refine .withPort (.next ?_)
  split
  · exact .ite (.setDelays (.sendRange hg)) hg
  · exact hg

theorem Rising.settleLanes {p old} (hg : Rising C s.counters) : Rising C (s.settleLanes p old).counters :=
  .foldl hg (fun _ _ ht => .ite ht (.ite ht (.ite ht (.ite (.ite ht ht) ht))))

theorem Rising.takeMaskIn {p m readmit} (hg : Rising C s.counters) : Rising C (s.takeMaskIn p m readmit).counters := by
  dsimp only [State.takeMaskIn]
  refine .ite ?_ ?_
  · refine .restartPort (.setDown (.ite (.foldl (.settleLanes hg) (fun _ _ ht => ?_)) (.settleLanes hg)))
    split
    · exact .bumpLane ht
    · exact ht
  · refine .startRange (.ite (.foldl (.settleLanes hg) (fun _ _ ht => ?_)) (.settleLanes hg))
    split
    · exact .bumpLane ht
    · exact ht

theorem Rising.takeMaskOut {p m readmit} (hg : Rising C s.counters) : Rising C (s.takeMaskOut p m readmit).counters := by
  unfold State.takeMaskOut
  extract_lets s0 q s1 s2 s3
  have h0 : Rising C s0.counters := .egressEndFrame hg
  have h2 : Rising C s2.counters := .emit (.upd h0)
  have h3 : Rising C s3.counters := by
    refine .ite (.foldl h2 (fun _ _ ht => ?_)) h2
    split
    · exact .bumpLane ht
    · exact ht
  exact .ite (.restartPort (.setDown h0)) (.ite h3 (.startRange h3))

theorem Rising.enterActive {p c inn out} (hg : Rising C s.counters) : Rising C (s.enterActive p c inn out).counters := by
  unfold State.enterActive
  extract_lets q loc dup q1 s0 s1 s2 pw s3
  have h1 : Rising C s1.counters := .settleLanes (.upd (.quarantineQueues (.upd (.upd hg))))
  have h2 : Rising C s2.counters := .ite (.bumpPort h1) h1
  have h3 : Rising C s3.counters := .ite (.bumpDev (.upd h2)) h2
  exact .startRange h3

theorem Rising.tryActive {p} (hg : Rising C s.counters) : Rising C (s.tryActive p).counters := by
  dsimp only [State.tryActive]
  refine .ite hg (.ite (.setDown hg) (.ite ?_ hg))
  split
  · exact hg
  · exact .ite hg (.enterActive hg)

theorem Rises.laneDetectPulse {port lane found} (hg : Rising C s.counters) :
    Rises C (execLaneDetectPulse port lane found s) := by
  dsimp only [execLaneDetectPulse]
  exact .withLane (.next (.ite (.ite (.upd (.ite hg (.emit hg))) (.upd (.ite hg (.emit hg)))) hg))

theorem Rises.receivedLight {port lane} (hg : Rising C s.counters) : Rises C (execReceivedLight port lane s) :=
  .withLane (.next (.ite hg hg))

theorem Rises.quietExpiry {port lane} (hg : Rising C s.counters) : Rises C (execQuietExpiry port lane s) :=
  .withLane (.next (.ite hg hg))

theorem Rises.bitLock {port lane} (hg : Rising C s.counters) : Rises C (execBitLock port lane s) :=
  .withLane (.next (.ite hg hg))

theorem Rising.eqLane {p j l} (hg : Rising C s.counters) : Rising C (s.eqLane p j l).counters := .ite (.emit hg) hg

theorem Rising.orient {p j m} (hg : Rising C s.counters) : Rising C (s.orient p j m).counters :=
  .ite hg (.ite hg (.tryActive hg))

theorem Rises.trainingMarker {port lane m} (hg : Rising C s.counters) : Rises C (execTrainingMarker port lane m s) := by
  dsimp only [execTrainingMarker]
  refine .withLane (.next (.ite hg (.ite (.ite hg hg) (.ite ?_ ?_))))
  · split <;> exact hg
  · split
    · exact hg
    · exact .orient hg
    · exact .eqLane hg
    · exact .ite hg hg
    · exact hg

theorem Rises.capsRecord {port lane bytes acks} (hg : Rising C s.counters) :
    Rises C (execCapsRecord port lane bytes acks s) := by
  simp only [execCapsRecord]
  refine .withLane (.next (.ite hg ?_))
  cases capsOf bytes with
  | none => exact .ite (.tryActive (.upd (.bumpPort hg))) (.upd (.bumpPort hg))
  | some c => exact .ite (.tryActive hg) hg

theorem Rises.laneTrainTimeout {port lane} (hg : Rising C s.counters) : Rises C (execLaneTrainTimeout port lane s) :=
  .withLane (.next (.ite (.tryActive (.bumpLane hg)) hg))

theorem Rises.excludedLaneRetry {port lane} (hg : Rising C s.counters) : Rises C (execExcludedLaneRetry port lane s) :=
  .withLane (.next (.ite hg hg))

theorem Rising.sendNotices {p l byEye} (hg : Rising C s.counters) : Rising C (s.sendNotices p l byEye).counters :=
  .emit (.emit (.emit (.ite (.emit hg) hg)))

theorem Rising.dropLane {p j byEye} (hg : Rising C s.counters) : Rising C (s.dropLane p j byEye).counters :=
  .sendNotices (.upd (.upd (.upd (.bumpLane hg))))

theorem Rises.lossOfLock {port lane x} (hg : Rising C s.counters) : Rises C (execLossOfLock port lane x s) :=
  .withLane (.next (.ite (.dropLane (.bumpLane hg)) hg))

theorem Rises.eyeWindowEnd {port lane eyes} (hg : Rising C s.counters) :
    Rises C (execEyeWindowEnd port lane eyes s) := by
  dsimp only [execEyeWindowEnd]
  refine .withLane (.next (.ite hg ?_))
  split
  · exact .eqLane hg
  · exact .ite (.dropLane hg) hg
  · exact .ite hg (.ite hg hg)
  · exact hg
  · exact hg
  · exact hg
  · exact hg

theorem Rises.marginalLaneDrop {port lane} (hg : Rising C s.counters) : Rises C (execMarginalLaneDrop port lane s) := by
  dsimp only [execMarginalLaneDrop]
  exact .withLane (.next (.ite (.upd (.bumpLane hg)) hg))

theorem Rises.notice {port m} (hg : Rising C s.counters) : Rises C (execNotice port m s) :=
  .withPort (.next (.ite (.ite hg (.takeMaskOut hg)) hg))

theorem Rises.realign {port m} (hg : Rising C s.counters) : Rises C (execRealign port m s) :=
  .withPort (.next (.ite (.ite (.takeMaskIn hg) (.ite (.takeMaskIn hg) hg)) hg))

theorem Rises.noticeRepeat {port} (hg : Rising C s.counters) : Rises C (execNoticeRepeat port s) :=
  .withPort (.next (.ite (.foldl hg (fun _ _ ht => .sendNotices ht)) hg))

theorem Rises.directionFailed {port} (hg : Rising C s.counters) : Rises C (execDirectionFailed port s) :=
  .withPort (.next (.ite (.restartPort (.setDown hg)) hg))

theorem Rising.sendAdapt {p} (hg : Rising C s.counters) : Rising C (s.sendAdapt p).counters :=
  .foldl (.upd (.emit hg)) (fun _ _ ht => .ite ht ht)

theorem Rises.adapt {port f early} (hg : Rising C s.counters) : Rises C (execAdapt port f early s) := by
  dsimp only [execAdapt]
  refine .withPort (.next ?_)
  split
  · rename_i e
    have hs1 := Rising.fst e (.linkRx hg)
    exact hs1
  · rename_i e
    have hs1 := Rising.fst e (.linkRx hg)
    refine .upd (.foldl hs1 (fun _ _ ht => ?_))
    split <;> exact ht

theorem Rising.portSlot1 {p} (hg : Rising C s.counters) : Rising C (s.portSlot1 p).counters := by
  dsimp only [State.portSlot1]
  split
  · refine .foldl ?_ (fun _ _ ht => .ite ht ht)
    split
    · exact .takeMaskOut hg
    · exact hg
  · refine .ite ?_ ?_
    · refine .bumpPort (.quarantineQueues (.upd (.foldl ?_ (fun _ _ ht => .ite ht ht))))
      split
      · exact .takeMaskOut hg
      · exact hg
    · refine .quarantineQueues (.upd (.foldl ?_ (fun _ _ ht => .ite ht ht)))
      split
      · exact .takeMaskOut hg
      · exact hg

theorem Rising.portHingeMove {p} (hg : Rising C s.counters) : Rising C (s.portHingeMove p).counters :=
  .foldl hg (fun _ _ ht => .ite ht ht)

theorem Rises.sleepWindowStart {port} (hg : Rising C s.counters) : Rises C (execSleepWindowStart port s) := by
  dsimp only [execSleepWindowStart]
  refine .withPort (.next (.ite ?_ hg))
  split
  · exact hg
  · exact .bumpPort (.emit hg)

theorem Rises.wakeBurst {port} (hg : Rising C s.counters) : Rises C (execWakeBurst port s) :=
  .withPort (.next (.ite (.emit hg) hg))

theorem Rises.wakeMarker {port m} (hg : Rising C s.counters) : Rises C (execWakeMarker port m s) :=
  .withPort (.next (.ite hg hg))

theorem Rises.napOrDozeMarker {port m} (hg : Rising C s.counters) : Rises C (execNapOrDozeMarker port m s) :=
  .withPort (.next (.ite (.ite hg (.ite hg hg)) hg))

theorem Rises.wakeMiss {port} (hg : Rising C s.counters) : Rises C (execWakeMiss port s) :=
  .withPort (.next (.ite (.foldl (.bumpPort hg) (fun _ _ ht => .ite (.dropLane (.bumpLane ht)) ht)) hg))

theorem Rises.framingError {port badHeader} (hg : Rising C s.counters) : Rises C (execFramingError port badHeader s) :=
  .withPort (.next (.ite (.enterHunt (.ite (.bumpPort hg) hg)) hg))

/-! ### Partitions, contexts and queues -/

theorem Rising.partCtl {path p legal c} (hg : Rising C s.counters) : Rising C (s.partCtl path p legal c).counters :=
  .ite hg (.ite hg (.bumpPart hg))

theorem Rises.clearFault {path ctx} (hg : Rising C s.counters) : Rises C (execClearFault path ctx s) := by
  dsimp only [execClearFault]
  refine .withCtx (.next ?_)
  split
  · exact .ite hg hg
  · exact hg

theorem Rises.eqWrite {path ctx v} (hg : Rising C s.counters) : Rises C (execEqWrite path ctx v s) := by
  dsimp only [execEqWrite]
  refine .withCtx (.next ?_)
  split
  · exact .ite hg hg
  · exact hg

theorem Rising.clearPending {qid} (hg : Rising C s.counters) : Rising C (s.clearPending qid).counters := .ite hg hg

theorem Rising.endQueue {ctx k} (hg : Rising C s.counters) : Rising C (s.endQueue ctx k).counters :=
  .ite (.clearPending hg) hg

theorem Rising.voidQueue {qid} (hg : Rising C s.counters) : Rising C (s.voidQueue qid).counters :=
  .foldl hg (fun _ _ ht => .voidMsg ht)

theorem Rising.sqSettle {qid} (hg : Rising C s.counters) : Rising C (s.sqSettle qid).counters := by
  dsimp only [State.sqSettle]
  split
  · exact .ite (.endQueue hg) hg
  · exact hg

theorem Rising.disableQueue {ctx k} (hg : Rising C s.counters) : Rising C (s.disableQueue ctx k).counters :=
  .ite hg (.ite (.sqSettle hg) (.ite (.endQueue (.voidQueue hg)) (.ite hg (.endQueue hg))))

theorem Rising.writeSize0 {ctx k w} (hg : Rising C s.counters) : Rising C (s.writeSize0 ctx k w).counters :=
  .ite hg (.ite hg (.disableQueue hg))

theorem Rises.queueDisable {path ctx k} (hg : Rising C s.counters) : Rises C (execQueueDisable path ctx k s) :=
  .withCtx (.withUnit (.next (.ite hg (.writeSize0 hg))))

theorem Rising.postEntries {p qid q v} (hg : Rising C s.counters) : Rising C (s.postEntries p qid q v).counters :=
  .ite (.bumpPart hg) (.ite (.serveRing hg) hg)

theorem Rising.freeEntries {p qid q v} (hg : Rising C s.counters) : Rising C (s.freeEntries p qid q v).counters :=
  .ite (.bumpPart hg) (.foldl (.ite (.cqTest hg) hg) (fun _ _ ht => .serveRing ht))

theorem Rising.doorbell {vf page v kinds} (hg : Rising C s.counters) : Rising C (s.doorbell vf page v kinds).counters := by
  dsimp only [State.doorbell]
  refine .ite hg ?_
  split
  · exact .bumpPart hg
  · exact .ite (.bumpPart hg) (.ite hg (.ite (.freeEntries hg) (.postEntries hg)))

theorem Rises.withPage {vf page r} (hr : Rises C r) : Rises C (withPage vf page r) := .withFunc (.withUnit hr)

theorem Rising.startEntryOf {qid e mine act} (hg : Rising C s.counters) (hact : ∀ t x1 x2, Rising C t.counters → Rising C
  (act t x1 x2).2.counters) :
    Rising C (s.startEntryOf qid e mine act).counters := by
  dsimp only [State.startEntryOf]
  split
  · exact hg
  · refine .ite hg (.ite ?_ ?_)
    · split
      · exact .upd (.upd (.emit (.cqReserve hg)))
      · exact .upd (.emit (.cqReserve hg))
    · refine .ite hg ?_
      split <;> exact hact _ _ _ (.upd (.emit (.cqReserve hg)))

theorem Rises.bSend {qid e} (hg : Rising C s.counters) : Rises C (execBSend qid e s) := by
  dsimp only [execBSend]
  refine .withQueue (.next (.startEntryOf hg (fun _ _ _ ht => (.ite_snd ht ?_))))
  split
  · exact ht
  · split
    · exact .bumpPart ht
    · split <;> exact ht

theorem Rises.cSend {qid e data} (hg : Rising C s.counters) : Rises C (execCSend qid e data s) := by
  dsimp only [execCSend]
  refine .withQueue (.next (.startEntryOf hg (fun _ _ _ ht => ?_)))
  split
  · exact .bumpPart ht
  · exact .upd (.ite ht (.emit ht))

theorem Rising.readHost {fn a len} (hg : Rising C s.counters) : Rising C (s.readHost fn a len).counters :=
  .foldl hg (fun _ _ ht => .emit ht)

theorem Rises.dmaToDepot {qid e data} (hg : Rising C s.counters) : Rises C (execDmaToDepot qid e data s) := by
  dsimp only [execDmaToDepot]
  refine .withQueue (.next (.ite hg (.startEntryOf hg (fun _ _ _ ht => (.ite_snd ht ?_)))))
  split
  · exact ht
  · exact .foldl_snd (.readHost ht) (fun _ _ hr => .depotPiece hr)

theorem Rises.dmaToHost {qid e} (hg : Rising C s.counters) : Rises C (execDmaToHost qid e s) := by
  dsimp only [execDmaToHost]
  refine .withQueue (.next (.ite hg (.startEntryOf hg (fun _ _ _ ht => (.ite_snd ht ?_)))))
  split
  · exact ht
  · exact .foldl_snd ht (fun _ _ hr => .ite_snd (.emit (.depotRead hr)) (.depotRead hr))

theorem Rises.start {qid e} (hg : Rising C s.counters) : Rises C (execStart qid e s) := by
  dsimp only [execStart]
  refine .withQueue (.next (.ite hg (.startEntryOf hg (fun _ _ _ ht => ?_))))
  split
  · exact ht
  · exact .ite_snd (.depotRead ht) (.ite_snd (.depotRead ht) (.depotStream (.depotRead ht)))

theorem Rises.sendEntryComplete {qid idx} (hg : Rising C s.counters) : Rises C (execSendEntryComplete qid idx s) := by
  dsimp only [execSendEntryComplete]
  refine .withQueue (.next ?_)
  split
  · exact hg
  · split
    · exact hg
    · split
      · exact hg
      · refine .sqSettle ?_
        split
        · exact .writeRecord hg
        · exact hg

theorem Rising.withdrawEntry {e} (hg : Rising C s.counters) : Rising C (s.withdrawEntry e).counters := by
  dsimp only [State.withdrawEntry]
  refine .foldl hg (fun _ _ ht => ?_)
  split
  · exact .withdrawC ht
  · exact ht

theorem Rises.dmaReadError {qid idx fetch e} (hg : Rising C s.counters) :
    Rises C (execDmaReadError qid idx fetch e s) := by
  dsimp only [execDmaReadError]
  refine .withQueue (.next ?_)
  split
  · exact hg
  · exact .ite (.setEntry (.withdrawEntry hg)) (.ite (.upd (.cqReserve hg)) hg)

theorem Rises.ringHoldExpiry {k} (hg : Rising C s.counters) : Rises C (execRingHoldExpiry k s) := by
  dsimp only [execRingHoldExpiry]
  refine .next ?_
  split
  · exact hg
  · split
    · exact .ite (.dropMsg hg) hg
    · exact hg

/-! ### The call gate -/

/-- A measurement is written to the log region (R393). -/
theorem Rising.measure {kind subject svn digest} (hg : Rising C s.counters) :
    Rising C (s.measure kind subject svn digest).counters := by
  unfold State.measure
  exact .ite hg hg

theorem Rising.extend0 {kind svn d} (hg : Rising C s.counters) : Rising C (s.extend0 kind svn d).counters := .measure hg

theorem Rising.extend1 {kind subject svn d} (hg : Rising C s.counters) : Rising C (s.extend1 kind subject svn d).counters :=
  .measure hg

theorem Rising.extend2 {p d} (hg : Rising C s.counters) : Rising C (s.extend2 p d).counters := .measure hg

theorem Rising.imageAt {p ctx seg off} (hg : Rising C s.counters) : Rising C (s.imageAt p ctx seg off).1.counters := by
  dsimp only [State.imageAt]
  split
  · exact hg
  · refine .ite_fst (.depotRead hg) ?_
    split
    · exact .depotRead hg
    · exact .depotRead (.depotRead hg)

theorem Rising.placeImage {p b} (hg : Rising C s.counters) : Rising C (s.placeImage p b).counters := .depotStream hg

theorem RisesOk.gateAdmit {p ctx seg off} (hg : Rising C s.counters) : RisesOk C (s.gateAdmit p ctx seg off) := by
  dsimp only [State.gateAdmit]
  split
  · exact .error
  · refine .ite .error ?_
    split
    · exact .error
    · rename_i e
      have hs1 := Rising.fst e (.imageAt hg)
      split
      · exact .error
      · exact .ite (.ok (.extend2 (.upd (.placeImage hs1)))) .error

theorem RisesOk.gateWithdraw {p} (hg : Rising C s.counters) : RisesOk C (s.gateWithdraw p) :=
  .ite .error (.ite .error (.ok hg))

theorem RisesOk.gateCtxDestroy {p ctx} (hg : Rising C s.counters) : RisesOk C (s.gateCtxDestroy p ctx) := by
  dsimp only [State.gateCtxDestroy]
  split
  · exact .error
  · exact .need (.ok hg)

theorem RisesOk.gateSegment {p ctx seg base len} (hg : Rising C s.counters) :
    RisesOk C (s.gateSegment p ctx seg base len) := by
  dsimp only [State.gateSegment]
  split
  · exact .error
  · exact .need (.ok hg)

theorem RisesOk.gateGrant {p ctx seg service access} (hg : Rising C s.counters) :
    RisesOk C (s.gateGrant p ctx seg service access) := by
  dsimp only [State.gateGrant]
  split
  · exact .error
  · exact .need (.ok hg)

theorem RisesOk.gateCarve {slot p first n} (hg : Rising C s.counters) : RisesOk C (s.gateCarve slot p first n) :=
  .need (.ok hg)

theorem RisesOk.gateHenMin {slot p w e} (hg : Rising C s.counters) : RisesOk C (s.gateHenMin slot p w e) := .need (.ok hg)

theorem RisesOk.gatePools {slot x} (hg : Rising C s.counters) : RisesOk C (s.gatePools slot x) := by
  dsimp only [State.gatePools]
  split
  · exact .need (.ok hg)
  · exact .need (.ok hg)
  · exact .need (.ok (.setDie hg))

theorem RisesOk.gateGmin {slot code b c} (hg : Rising C s.counters) : RisesOk C (s.gateGmin slot code b c) :=
  .need (.ok hg)

theorem RisesOk.gateSwitch {x} (hg : Rising C s.counters) : RisesOk C (s.gateSwitch x) := by
  dsimp only [State.gateSwitch]
  split
  · exact .need (.ok (.setDie hg))
  · exact .need (.ok hg)

theorem RisesOk.gateGrants {p l} (hg : Rising C s.counters) : RisesOk C (s.gateGrants p l) := by
  dsimp only [State.gateGrants]
  refine .ite .error ?_
  split
  · exact .ite (.ok (.stageGrants hg)) .error
  · exact .ok (.stageGrants hg)

theorem Rising.sendMaps {p} (hg : Rising C s.counters) : Rising C (s.sendMaps p).counters :=
  .foldl hg (fun _ _ ht => .foldl ht (fun _ _ hu => hu))

theorem Rising.armRequest {t key} (hg : Rising C s.counters) : Rising C (s.armRequest t key).counters := .ite hg hg

theorem RisesOk.gateArm {t flood key} (hg : Rising C s.counters) : RisesOk C (s.gateArm t flood key) := by
  dsimp only [State.gateArm]
  refine .ite (.need (.ok (.armRequest hg))) (.need ?_)
  split
  · exact .error
  · exact .ok hg

theorem Rising.startReach {p reach slot} (hg : Rising C s.counters) : Rising C (s.startReach p reach slot).counters :=
  .ite hg hg

theorem Rising.startLaneCfg {p j preset ovr slot} (hg : Rising C s.counters) :
    Rising C (s.startLaneCfg p j preset ovr slot).counters :=
  .ite hg hg

theorem Rising.applyPortSet {p slot x} (hg : Rising C s.counters) : Rising C (s.applyPortSet p slot x).counters := by
  dsimp only [State.applyPortSet]
  split
  · exact .startReach hg
  · exact hg
  · exact .startLaneCfg hg
  · exact hg

theorem Rising.portCall {p v} (hg : Rising C s.counters) : Rising C (s.portCall p v).counters := .upd (.applyPortSet hg)

theorem RisesOk.gateNap {p w} (hg : Rising C s.counters) : RisesOk C (s.gateNap p w) := .need (.ok hg)

theorem Rising.setKeys {l} (hg : Rising C s.counters) : Rising C (s.setKeys l).counters := .emit hg

theorem RisesOk.gateEnroll {key sig} (hg : Rising C s.counters) : RisesOk C (s.gateEnroll key sig) :=
  .need (.ok (.extend1 (.setKeys hg)))

theorem RisesOk.gateRevoke {key sig} (hg : Rising C s.counters) : RisesOk C (s.gateRevoke key sig) :=
  .need (.ok (.extend1 (.setKeys hg)))

theorem RisesOk.gateLoadService {b} (hg : Rising C s.counters) : RisesOk C (s.gateLoadService b) :=
  .need (.ok (.extend1 hg))

theorem Rising.flashMule {copyB b} (hg : Rising C s.counters) : Rising C (s.flashMule copyB b).counters := .emit hg

theorem RisesOk.gateCommitSvn (hg : Rising C s.counters) : RisesOk C s.gateCommitSvn := .need (.ok hg)

theorem RisesOk.gateAttest {slot nonce addr} (hg : Rising C s.counters) : RisesOk C (s.gateAttest slot nonce addr) :=
  .ok (.emit hg)

theorem RisesOk.gateCert {slot addr} (hg : Rising C s.counters) : RisesOk C (s.gateCert slot addr) := .ok (.emit hg)

theorem RisesOk.serveReq {slot x} (hx : ∀ p c, x ≠ .ctxCreate p c) (hg : Rising C s.counters) : RisesOk C (s.serveReq slot x) := by
  dsimp only [State.serveReq]
  split
  · exact .gateAdmit hg
  · exact .gateWithdraw hg
  · exact absurd rfl (hx _ _)
  · exact .gateCtxDestroy hg
  · exact .gateSegment hg
  · exact .gateGrant hg
  · exact .gateCarve hg
  · exact .ok hg
  · exact .gateHenMin hg
  · exact .gatePools hg
  · exact .gateGmin hg
  · exact .gateSwitch hg
  · exact .ok hg
  · exact .need (.ok (.stageRoute hg))
  · exact .ok (.stageSpread hg)
  · exact .ok (.ite (.sendMaps (.stageRemap hg)) (.stageRemap hg))
  · exact .gateGrants hg
  · exact .ite (.ok (.stageVariant hg)) .error
  · exact .need (.ok hg)
  · exact .gateArm hg
  · exact .ok (.applyPortSet hg)
  · exact .need (.ok hg)
  · exact .need (.ok hg)
  · exact .gateNap hg
  · exact .need (.ok hg)
  · exact .ok hg
  · exact .gateEnroll hg
  · exact .gateRevoke hg
  · exact .gateLoadService hg
  · exact .gateCommitSvn hg
  · exact .ok (.flashMule hg)
  · exact .gateAttest hg
  · exact .gateCert hg
  · exact .error

theorem RisesOk.serve {slot rsv r} (hr : ∀ p c, r ≠ .ctxCreate p c) (hg : Rising C s.counters) : RisesOk C (s.serve slot rsv r) :=
  .need (.need (.need (.need (.need (.serveReq hr hg)))))

theorem Rising.callGate {c r} (hg : Rising C s.counters) : Rising C (s.callGate c r).counters :=
  .ite hg (.ite hg (.ite (.bumpDev hg) hg))

theorem Rises.withSlot {c r} (hr : Rises C r) : Rises C (withSlot c r) := .withFunc hr

theorem Rising.noteLanding {slot r} (hg : Rising C s.counters) : Rising C (s.noteLanding slot r).counters := by
  dsimp only [State.noteLanding]
  refine .ite hg (.ite hg ?_)
  split
  · exact hg
  · exact .ite hg hg

theorem Rising.muleRefused {code status} (hg : Rising C s.counters) : Rising C (s.muleRefused code status).counters :=
  .ite hg hg

theorem Rising.readFor {r status} (hg : Rising C s.counters) : Rising C (s.readFor r status).counters := by
  dsimp only [State.readFor]
  split
  · exact .ite (.imageAt hg) hg
  · exact hg

/-- A change that lands zeroes the granules that join a carve-out (R313). -/
theorem Rising.landDrain {x} (hg : Rising C s.counters) : Rising C (s.landDrain x).counters := by
  simp only [State.landDrain]
  split
  · exact .foldl hg (fun _ _ ht => ht)
  · exact hg
  · exact hg
  · exact .setDie hg
  · exact .count (.upd hg)
  · exact hg
  · exact hg

theorem Rising.dropDrain {d} (hg : Rising C s.counters) : Rising C (s.dropDrain d).counters := by
  dsimp only [State.dropDrain]
  split
  · exact .setDie hg
  · exact hg

theorem Rises.drainLand (hg : Rising C s.counters) : Rises C (execDrainLand s) := by
  dsimp only [execDrainLand]
  exact .next (.ite (.foldl hg (fun _ _ ht => .ite (.ite (.upd (.dropDrain (.landDrain ht)))
    (.dropDrain (.landDrain ht))) ht)) hg)

theorem Rises.drainRollback (hg : Rising C s.counters) : Rises C (execDrainRollback s) := by
  dsimp only [execDrainRollback]
  exact .next (.ite (.foldl hg (fun _ _ ht => .ite (.upd (.upd (.bumpDev (.dropDrain ht)))) ht)) hg)

/-! ### Threads -/

theorem Rises.issue {p i ok act} (hg : Rising C s.counters) (hact : ∀ t x1, Rising C t.counters → Rising C (act t x1).counters)
  :
    Rises C (s.issue p i ok act) :=
  .withPart (.next (.ite (.ite (.ite (hact _ _ hg) hg) hg) hg))

theorem Rises.issueT {p i f} (hg : Rising C s.counters) : Rises C (s.issueT p i f) := .issue hg (fun _ _ hs => hs)

theorem Rises.scalar {p i rd f} (hg : Rising C s.counters) : Rises C (s.scalar p i rd f) := .issueT hg

theorem Rising.oxCorrect {eng read} (hg : Rising C s.counters) : Rising C (s.oxCorrect eng read).counters := .count hg

theorem Rising.handOver (hg : Rising C s.counters) : Rising C (s.handOver).counters := .foldl hg (fun _ _ ht => .ite ht ht)

theorem Rising.releaseClaim {p r} (hg : Rising C s.counters) : Rising C (s.releaseClaim p r).counters := by
  dsimp only [State.releaseClaim]
  split
  · split
    · exact hg
    · split
      · exact .release hg
      · exact hg
  · exact hg

theorem Rising.squashRec {p r} (hg : Rising C s.counters) : Rising C (s.squashRec p r).counters := by
  dsimp only [State.squashRec]
  split
  · exact .ite (.bumpEng (.bumpEng (.releaseClaim hg))) (.bumpEng (.releaseClaim hg))
  · exact .releaseClaim hg

theorem Rising.squashAll {p} (hg : Rising C s.counters) : Rising C (s.squashAll p).counters :=
  .upd (.foldl hg (fun _ _ ha => .squashRec ha))

theorem Rising.stopThread {p} (hg : Rising C s.counters) : Rising C (s.stopThread p).counters := .ite hg (.funcCause hg)

theorem Rising.dropSends {p} (hg : Rising C s.counters) : Rising C (s.dropSends p).counters :=
  .upd (.foldl hg (fun _ _ ht => .count ht))

theorem Rising.threadFault {p code pc} (hg : Rising C s.counters) : Rising C (s.threadFault p code pc).counters :=
  .ite (.stopThread (.bumpPart (.upd (.faultAll (.dropPartS (.dropSends (.squashAll hg))))))) (.faultAll hg)

theorem Rising.deliverPost {p j} (hg : Rising C s.counters) : Rising C (s.deliverPost p j).counters := by
  dsimp only [State.deliverPost]
  split
  · exact .bumpPart hg
  · split
    · exact .bumpPart hg
    · split
      · exact .bumpPart hg
      · exact .ite (.cqOverflow (.bumpPart hg)) (.writeRecord hg)

theorem Rising.flushPosts {p} (hg : Rising C s.counters) : Rising C (s.flushPosts p).counters :=
  .foldl hg (fun _ _ ha => .deliverPost ha)

theorem Rising.bindLoad {p id addr len sx} (hg : Rising C s.counters) :
    Rising C (s.bindLoad p id addr len sx).2.counters := by
  dsimp only [State.bindLoad]
  split
  · exact hg
  · exact .depotRead hg

/-! ### Guand instructions -/

theorem Rises.nop {p h} (hg : Rising C s.counters) : Rises C (execNop p h s) := .issueT hg

theorem Rises.br {p h cp cn target} (hg : Rising C s.counters) : Rises C (execBr p h cp cn target s) := .issueT hg

theorem Rises.loop {p h rc end_ max} (hg : Rising C s.counters) : Rises C (execLoop p h rc end_ max s) := .issueT hg

theorem Rises.lend {p h rc start} (hg : Rising C s.counters) : Rises C (execLend p h rc start s) := .issueT hg

theorem Rises.tickwait {p h} (hg : Rising C s.counters) : Rises C (execTickwait p h s) := .issueT hg

theorem Rises.tickwaitComplete {p} (hg : Rising C s.counters) : Rises C (execTickwaitComplete p s) :=
  .withPart (.next (.ite hg hg))

theorem Rises.cmp {p h pd cond ra imm rb imm26} (hg : Rising C s.counters) :
    Rises C (execCmp p h pd cond ra imm rb imm26 s) :=
  .issueT hg

theorem Rises.plog {p h pd opl pa pb} (hg : Rising C s.counters) : Rises C (execPlog p h pd opl pa pb s) := .issueT hg

theorem Rises.rdt {p h rd sel} (hg : Rising C s.counters) : Rises C (execRdt p h rd sel s) := .issueT hg

theorem Rises.scalarR {p i rd ra rb f} (hg : Rising C s.counters) : Rises C (s.scalarR p i rd ra rb f) := .scalar hg

theorem Rises.add {p h rd ra rb} (hg : Rising C s.counters) : Rises C (execAdd p h rd ra rb s) := .scalarR hg

theorem Rises.sub {p h rd ra rb} (hg : Rising C s.counters) : Rises C (execSub p h rd ra rb s) := .scalarR hg

theorem Rises.mul {p h rd ra rb} (hg : Rising C s.counters) : Rises C (execMul p h rd ra rb s) := .scalarR hg

theorem Rises.divide {p i rd ra rb re f} (hg : Rising C s.counters) : Rises C (s.divide p i rd ra rb re f) := .issueT hg

theorem Rises.divs {p h rd ra rb re} (hg : Rising C s.counters) : Rises C (execDivs p h rd ra rb re s) := .divide hg

theorem Rises.divu {p h rd ra rb re} (hg : Rising C s.counters) : Rises C (execDivu p h rd ra rb re s) := .divide hg

theorem Rises.neg {p h rd ra} (hg : Rising C s.counters) : Rises C (execNeg p h rd ra s) := .scalar hg

theorem Rises.abs {p h rd ra} (hg : Rising C s.counters) : Rises C (execAbs p h rd ra s) := .scalar hg

theorem Rises.and {p h rd ra rb} (hg : Rising C s.counters) : Rises C (execAnd p h rd ra rb s) := .scalarR hg

theorem Rises.or {p h rd ra rb} (hg : Rising C s.counters) : Rises C (execOr p h rd ra rb s) := .scalarR hg

theorem Rises.xor {p h rd ra rb} (hg : Rising C s.counters) : Rises C (execXor p h rd ra rb s) := .scalarR hg

theorem Rises.shl {p h rd ra rb} (hg : Rising C s.counters) : Rises C (execShl p h rd ra rb s) := .scalarR hg

theorem Rises.shr {p h rd ra rb} (hg : Rising C s.counters) : Rises C (execShr p h rd ra rb s) := .scalarR hg

theorem Rises.sra {p h rd ra rb} (hg : Rising C s.counters) : Rises C (execSra p h rd ra rb s) := .scalarR hg

theorem Rises.adds {p h rd ra rb} (hg : Rising C s.counters) : Rises C (execAdds p h rd ra rb s) := .scalarR hg

theorem Rises.subs {p h rd ra rb} (hg : Rising C s.counters) : Rises C (execSubs p h rd ra rb s) := .scalarR hg

theorem Rises.muls {p h rd ra rb} (hg : Rising C s.counters) : Rises C (execMuls p h rd ra rb s) := .scalarR hg

theorem Rises.adduS {p h rd ra rb} (hg : Rising C s.counters) : Rises C (execAdduS p h rd ra rb s) := .scalarR hg

theorem Rises.subuS {p h rd ra rb} (hg : Rising C s.counters) : Rises C (execSubuS p h rd ra rb s) := .scalarR hg

theorem Rises.addi {p h rd ra imm} (hg : Rising C s.counters) : Rises C (execAddi p h rd ra imm s) := .scalar hg

theorem Rises.movi {p h rd imm} (hg : Rising C s.counters) : Rises C (execMovi p h rd imm s) := .scalar hg

theorem Rises.ori {p h rd ra imm} (hg : Rising C s.counters) : Rises C (execOri p h rd ra imm s) := .scalar hg

theorem Rises.ld {p h rd ra sz sx off} (hg : Rising C s.counters) : Rises C (execLd p h rd ra sz sx off s) := by
  dsimp only [execLd]
  exact .issue hg (fun _ _ hs => .ite hs (.upd (.bindLoad hs)))

theorem Rises.ldDataReturn {p id} (hg : Rising C s.counters) : Rises C (execLdDataReturn p id s) := by
  dsimp only [execLdDataReturn]
  refine .withPart (.next ?_)
  split
  · exact hg
  · split
    · refine .ite hg (.upd ?_)
      split
      · exact hg
      · exact .bindLoad hg
    · exact hg

theorem Rises.st {p h rs ra sz off} (hg : Rising C s.counters) : Rises C (execSt p h rs ra sz off s) := by
  dsimp only [execSt]
  exact .issue hg (fun _ _ hs => hs)

theorem Rises.atomicIssue {p i ra off n rd awaited op} (hg : Rising C s.counters) :
    Rises C (s.atomicIssue p i ra off n rd awaited op) :=
  .issue hg (fun _ _ hs => hs)

theorem Rises.aadd {p h rd ra rb off} (hg : Rising C s.counters) : Rises C (execAadd p h rd ra rb off s) :=
  .atomicIssue hg

theorem Rises.aswp {p h rd ra rb off} (hg : Rising C s.counters) : Rises C (execAswp p h rd ra rb off s) :=
  .atomicIssue hg

theorem Rises.acas {p h rd ra rb re off} (hg : Rising C s.counters) : Rises C (execAcas p h rd ra rb re off s) :=
  .atomicIssue hg

theorem Rises.acas2 {p h rd ra rb re off} (hg : Rising C s.counters) : Rises C (execAcas2 p h rd ra rb re off s) :=
  .atomicIssue hg

theorem Rises.fenceDepot {p h} (hg : Rising C s.counters) : Rises C (execFenceDepot p h s) := .issueT hg

theorem Rises.fenceTick {p h} (hg : Rising C s.counters) : Rises C (execFenceTick p h s) := .issueT hg

theorem Rises.recv {p h hd grant cr dl} (hg : Rising C s.counters) : Rises C (execRecv p h hd grant cr dl s) :=
  .issueT hg

theorem Rises.send {p h port slot nf srck t rr cr fr dr slen ff lf eng} (hg : Rising C s.counters) :
    Rises C (execSend p h port slot nf srck t rr cr fr dr slen ff lf eng s) :=
  .issueT hg

theorem Rises.expect {p h pr hmask hf heng hw hole nfr} (hg : Rising C s.counters) :
    Rises C (execExpect p h pr hmask hf heng hw hole nfr s) :=
  .issue hg (fun _ _ hs => hs)

theorem Rises.lclr {p h eng w base rows form oper sgn} (hg : Rising C s.counters) :
    Rises C (execLclr p h eng w base rows form oper sgn s) :=
  .issueT hg

theorem Rises.tld {p h eng t fmt src ra rows tr tc} (hg : Rising C s.counters) :
    Rises C (execTld p h eng t fmt src ra rows tr tc s) := by
  dsimp only [execTld]
  refine .issue hg (fun _ _ hs => (.ite hs ?_))
  split <;> exact hs

theorem Rises.tacc {p h eng t w k lane} (hg : Rising C s.counters) : Rises C (execTacc p h eng t w k lane s) :=
  .issueT hg

theorem Rises.emit {p h eng w t fmt rm clamp kr cr er n lane e0i} (hg : Rising C s.counters) :
    Rises C (execEmit p h eng w t fmt rm clamp kr cr er n lane e0i s) :=
  .issueT hg

theorem Rises.tst {p h eng t ra rows tw tr tc} (hg : Rising C s.counters) :
    Rises C (execTst p h eng t ra rows tw tr tc s) :=
  .issue hg (fun _ _ hs => hs)

theorem Rises.post {p h rq ra fl eng w irq} (hg : Rising C s.counters) : Rises C (execPost p h rq ra fl eng w irq s) :=
  .issueT hg

/-! ### Port HP -/

theorem Rises.cqTimedFire {qid} (hg : Rising C s.counters) : Rises C (execCqTimedFire qid s) :=
  .withQueue (.next (.ite (.cqTest hg) hg))

theorem Rising.drainPba {fn} (hg : Rising C s.counters) : Rising C (s.drainPba fn).counters :=
  .ite (.foldl hg (fun _ _ ht => .emit ht)) hg

theorem Rising.setMask {fn entry mask} (hg : Rising C s.counters) : Rising C (s.setMask fn entry mask).counters :=
  .drainPba hg

theorem Rises.msixUnmask {fn entry} (hg : Rising C s.counters) : Rises C (execMsixUnmask fn entry s) :=
  .withFunc (.withUnit (.next (.ite (.setMask hg) hg)))

theorem Rising.clearFuncCause {p v} (hg : Rising C s.counters) : Rising C (s.clearFuncCause p v).counters :=
  .ite hg (.fire hg)

theorem Rises.funcCauseClear {path p v} (hg : Rising C s.counters) : Rises C (execFuncCauseClear path p v s) :=
  .withPart (.next (.ite (.clearFuncCause hg) hg))

theorem Rising.clearMgmtCause {v} (hg : Rising C s.counters) : Rising C (s.clearMgmtCause v).counters := .ite hg (.fire hg)

theorem Rises.mgmtCauseClear {path v} (hg : Rising C s.counters) : Rises C (execMgmtCauseClear path v s) :=
  .next (.ite (.clearMgmtCause hg) hg)

theorem Rising.flushEntry {qid} (hg : Rising C s.counters) : Rising C (s.flushEntry qid).counters := by
  dsimp only [State.flushEntry]
  split
  · exact hg
  · refine .ite hg ?_
    split
    · exact hg
    · exact .writeRecord (.upd (.fresh hg))

theorem Rising.flushSq {qid} (hg : Rising C s.counters) : Rising C (s.flushSq qid).counters := by
  dsimp only [State.flushSq]
  split
  · exact hg
  · exact .foldl hg (fun _ _ ht => .flushEntry ht)

theorem Rising.closeStreams {c} (hg : Rising C s.counters) : Rising C (s.closeStreams c).counters := by
  dsimp only [State.closeStreams]
  refine .upd (.foldl hg (fun _ _ ht => (.foldl ht (fun _ _ ha => ?_))))
  split
  · exact .setEntry ha
  · exact ha

theorem Rising.tearDown {c} (hg : Rising C s.counters) : Rising C (s.tearDown c).counters :=
  .ite (.upd (.foldl (.foldl (.closeStreams hg) (fun _ _ ht => .voidMsg ht))
    (fun _ _ ht => .foldl ht (fun _ _ hu => .disableQueue hu)))) (.foldl
    (.foldl (.closeStreams hg) (fun _ _ ht => .voidMsg ht)) (fun _ _ ht => .foldl ht
    (fun _ _ hu => .disableQueue hu)))

theorem Rising.destroyCtx {c} (hg : Rising C s.counters) : Rising C (s.destroyCtx c).counters := by
  dsimp only [State.destroyCtx]
  split
  · exact hg
  · exact .ite hg (.ite (.foldl hg (fun _ _ ht => .flushSq ht)) (.tearDown (.foldl hg (fun _ _ ht => .flushSq ht))))

theorem Rising.flrPart {p} (hg : Rising C s.counters) : Rising C (s.flrPart p).counters := by
  dsimp only [State.flrPart]
  refine .upd (.upd (.foldl (.foldl (.ite (.upd (.squashAll hg)) hg) (fun _ _ ha => .foldl
    (.foldl (.foldl ha (fun _ _ hu => .disableQueue (.flushSq hu))) (fun _ _ hu => .disableQueue hu))
    (fun _ _ hu => .disableQueue hu))) (fun _ _ ha => ?_)))
  split
  · exact ha
  · exact .ite ha ha

theorem Rises.vfFlr {vf} (hg : Rising C s.counters) : Rises C (execVfFlr vf s) :=
  .withFunc (.withUnit (.next (.ite (.flrPart hg) hg)))

theorem Rises.pfFlr (hg : Rising C s.counters) : Rises C (execPfFlr s) := .next (.ite hg hg)

theorem Rising.flrVfs (hg : Rising C s.counters) : Rising C (s.flrVfs).counters := .foldl hg (fun _ _ ht => .flrPart ht)

theorem Rises.perstNAssert (hg : Rising C s.counters) : Rises C (execPerstNAssert s) := by
  dsimp only [execPerstNAssert]
  exact .next (.ite hg (.upd (.upd (.flrVfs hg))))

theorem Rising.hpTrain (hg : Rising C s.counters) : Rising C (s.hpTrain).counters := .ite hg hg

theorem Rises.perstNDeassert (hg : Rising C s.counters) : Rises C (execPerstNDeassert s) := .next (.hpTrain hg)

theorem Rises.portHpLinkTraining (hg : Rising C s.counters) : Rises C (execPortHpLinkTraining s) := .next (.hpTrain hg)

theorem Rises.portHpTrained (hg : Rising C s.counters) : Rises C (execPortHpTrained s) := .next (.ite hg hg)

theorem Rises.flrComplete {fn} (hg : Rising C s.counters) : Rises C (execFlrComplete fn s) := by
  dsimp only [execFlrComplete]
  exact .withFunc (.next (.ite hg (.ite hg (.ite hg (.upd (.foldl hg (fun _ _ ha => .foldl ha
    (fun _ _ hu => .disableQueue hu))))))))

theorem Rises.configRequest {fn r} (hg : Rising C s.counters) : Rises C (execConfigRequest fn r s) := by
  dsimp only [execConfigRequest]
  refine .withFunc (.next (.ite (.emit hg) (.ite hg ?_)))
  split
  · exact .emit hg
  · exact .ite hg (.ite (.upd (.flrVfs hg)) hg)
  · exact .drainPba hg
  · exact hg
  · exact hg

/-! ### Begin, retire and write buffers -/

theorem Rising.beginFrameLoad {p e t fmt tr tc hd fr own} (hg : Rising C s.counters) :
    Rising C (s.beginFrameLoad p e t fmt tr tc hd fr own).2.counters := by
  dsimp only [State.beginFrameLoad]
  split
  · exact hg
  · refine .ite_snd hg ?_
    split
    · exact .ite_snd (.bumpDie hg) (.ite (.crossBridge hg) hg)
    · exact hg

theorem Rising.beginOp {p id op} (hg : Rising C s.counters) : Rising C (s.beginOp p id op).2.counters := by
  dsimp only [State.beginOp]
  split
  · exact hg
  · exact .beginFrameLoad hg
  · split
    · exact hg
    · exact .ite_snd hg (.ite_snd (.depotRead hg) (.depotRead hg))
  · exact .ite_snd hg (.ite_snd (.oxCorrect hg) (.oxCorrect hg))
  · exact .ite_snd hg (.ite_snd (.oxCorrect hg) (.oxCorrect hg))
  · exact .ite_snd (.oxCorrect hg) (.ite_snd hg (.oxCorrect hg))
  · exact hg

theorem Rising.addStreams {e l} (hg : Rising C s.counters) : Rising C (s.addStreams e l).counters := .ite hg hg

theorem Rises.oxOpBegin {p id} (hg : Rising C s.counters) : Rises C (execOxOpBegin p id s) := by
  dsimp only [execOxOpBegin]
  refine .withPart (.next ?_)
  split
  · exact hg
  · split
    · exact hg
    · refine .ite hg ?_
      split
      · rename_i e
        have hs1 := Rising.snd e (.beginOp hg)
        exact hs1
      · rename_i e
        have hs1 := Rising.snd e (.beginOp hg)
        exact .ite (.bumpEng hg) (.addStreams hs1)

theorem Rises.arrivalTest {p} (hg : Rising C s.counters) : Rises C (execArrivalTest p s) := by
  dsimp only [execArrivalTest]
  refine .withPart (.next ?_)
  split
  · exact hg
  · split <;> exact hg

theorem Rising.faultRec {p r code} (hg : Rising C s.counters) : Rising C (s.faultRec p r code).counters :=
  .threadFault (.upd (.releaseClaim hg))

theorem Rising.countTallyBad {e l} (hg : Rising C s.counters) : Rising C (s.countTallyBad e l).counters :=
  .foldl hg (fun _ _ ha => .ite (.bumpPort ha) (.bumpEng ha))

theorem Rising.retireOx {p e r} (hg : Rising C s.counters) : Rising C (s.retireOx p e r).counters := by
  dsimp only [State.retireOx]
  split
  · exact .upd (.upd (.count (.countTallyBad (.releaseClaim hg))))
  · exact .upd (.count (.countTallyBad (.releaseClaim hg)))

theorem Rising.holePath {p pr hole c} (hg : Rising C s.counters) : Rising C (s.holePath p pr hole c).counters :=
  .bumpPart (.upd (.squashAll hg))

theorem Rising.retireExpect {p r pr hf heng hw hole ok} (hg : Rising C s.counters) :
    Rising C (s.retireExpect p r pr hf heng hw hole ok).counters :=
  .ite hg (.ite (.faultRec hg) (.holePath (.ite hg hg)))

theorem Rises.retire {p} (hg : Rising C s.counters) : Rises C (execRetire p s) := by
  dsimp only [execRetire]
  refine .withPart (.next ?_)
  split
  · exact hg
  · split
    · split
      · exact .ite hg (.ite hg (.faultRec hg))
      · exact hg
    · split
      · exact .faultRec hg
      · exact .ite hg hg
    · split
      · exact .faultRec hg
      · exact .ite (.ite (.bumpPart hg) hg) hg
    · exact .ite hg hg
    · split
      · exact .retireExpect hg
      · exact hg
    · exact .ite (.faultRec hg) (.ite hg hg)
    · exact .ite (.faultRec hg) (.flushPosts hg)
    · refine .ite hg (.ite (.faultRec hg) ?_)
      split
      · exact hg
      · split
        · exact .ite (.retireOx hg) hg
        · exact .retireOx hg

theorem Rises.copyBackEnd {engine tile} (hg : Rising C s.counters) : Rises C (execCopyBackEnd engine tile s) :=
  .withUnit (.next (.ite (.ite hg (.count hg)) hg))

theorem Rising.sendBytes {depot eng t addr nf slen j} (hg : Rising C s.counters) :
    Rising C (s.sendBytes depot eng t addr nf slen j).2.counters :=
  .ite_snd (.depotRead hg) (.ite_snd (.addStreams (.oxCorrect hg)) (.ite (.bumpEng (.addStreams (.oxCorrect hg)))
    (.addStreams (.oxCorrect hg))))

theorem Rising.queueS {p port slot dst bytes first last tally tick chunk frame j} (hg : Rising C s.counters) :
    Rising C (s.queueS p port slot dst bytes first last tally tick chunk frame j).counters := by
  dsimp only [State.queueS]
  refine .ite hg ?_
  split
  · exact .noBuffer hg
  · exact .addWait hg
  · exact .upd (.storeCopies hg)

theorem Rising.sendFrames {p port slot nf depot t dst chunk frame addr slen ff lf eng tick pc f k j}
    (hg : Rising C s.counters) :
    Rising C (s.sendFrames p port slot nf depot t dst chunk frame addr slen ff lf eng tick pc f k j).counters := by
  induction k generalizing s j with
  | zero => exact hg
  | succ k ih =>
    simp only [State.sendFrames]
    split
    · rename_i e
      exact .threadFault (.snd e (.sendBytes hg))
    · rename_i e
      have h0 := Rising.snd e (.sendBytes hg)
      exact ih (.queueS (.ite h0 (.crossBridge h0)))

theorem Rises.sendTileRead {p id} (hg : Rising C s.counters) : Rises C (execSendTileRead p id s) := by
  dsimp only [execSendTileRead]
  refine .withPart (.next ?_)
  split
  · exact hg
  · refine .ite hg ?_
    split
    · refine .ite hg ?_
      split
      · exact .bumpPart hg
      · exact .sendFrames hg
    · exact hg

theorem Rising.setWb {a l} (hg : Rising C s.counters) : Rising C (s.setWb a l).counters := by
  dsimp only [State.setWb]
  split <;> exact hg

theorem Rises.withAgent {a r} (hr : Rises C r) : Rises C (withAgent a r) := by
  cases a with
  | thread p => exact .withPart hr
  | mule k => exact .withUnit hr

theorem Rising.wbError {a e n} (hg : Rising C s.counters) : Rising C (s.wbError a e n).counters := by
  dsimp only [State.wbError]
  split
  · exact .foldl hg (fun _ _ ht => .threadFault ht)
  · exact hg

theorem Rising.wbDone {a} (hg : Rising C s.counters) : Rising C (s.wbDone a).counters := by
  dsimp only [State.wbDone]
  split
  · exact .flushPosts hg
  · exact hg

theorem Rises.storePerformed {a} (hg : Rising C s.counters) : Rises C (execStorePerformed a s) := by
  dsimp only [execStorePerformed]
  refine .withAgent (.next ?_)
  split
  · exact hg
  · refine .ite hg ?_
    split
    · exact .wbDone (.ite (.depotStore (.setWb hg)) (.wbError (.depotStore (.setWb hg))))
    · exact .wbDone (.ite (.depotStore (.setWb hg)) (.wbError (.depotStore (.setWb hg))))
    · exact hg

theorem Rises.atomicPerformed {a} (hg : Rising C s.counters) : Rises C (execAtomicPerformed a s) := by
  unfold execAtomicPerformed
  refine .withAgent (.next ?_)
  split
  · exact hg
  · split
    · exact hg
    · exact hg
    · extract_lets r s1 s2
      have hr : Rising C r.2.2.counters := .depotRead (.setWb hg)
      have h1 : Rising C s1.counters := by
        dsimp only [s1]
        split
        · exact .depotPiece hr
        · exact hr
      have h2 : Rising C s2.counters := by
        dsimp only [s2]
        split
        · exact .upd h1
        · exact .emit h1
        · exact h1
      exact .ite hg (.ite (.wbDone (.wbError hr)) (.wbDone h2))

theorem Rises.hingeDrainEnd (hg : Rising C s.counters) : Rises C (execHingeDrainEnd s) := .next (.ite hg hg)

/-! ### Mule's accesses to the depot -/

/-- A load by Mule gives an open value for each byte where a unit cannot be read. -/
theorem Rising.muleLoad {core a n} (hg : Rising C s.counters) : Rising C (s.muleLoad core a n).counters := by
  exact .emit (.upd (.depotRead hg))

theorem Rising.mulePush {core a op} (hg : Rising C s.counters) : Rising C (s.mulePush core a op).counters := .setWb hg

theorem Rising.muleViolation {core n} (hg : Rising C s.counters) : Rising C (s.muleViolation core n).counters := by
  dsimp only [State.muleViolation]
  split
  · exact .emit (.bumpDev hg)
  · exact .bumpDev hg

theorem Rising.muleAtomic {core a n op} (hg : Rising C s.counters) : Rising C (s.muleAtomic core a n op).counters :=
  .ite (.muleViolation hg) (.ite hg (.mulePush hg))

theorem Rising.muleAccess {core x} (hg : Rising C s.counters) : Rising C (s.muleAccess core x).counters := by
  dsimp only [State.muleAccess]
  split
  · exact .ite (.muleViolation hg) (.ite hg (.muleLoad hg))
  · exact .ite (.muleViolation hg) (.ite hg (.mulePush hg))
  · exact .ite (.muleViolation hg) (.ite hg (.mulePush hg))
  · exact .muleAtomic hg
  · exact .muleAtomic hg
  · exact .muleAtomic hg
  · exact .muleAtomic hg

theorem Rises.muleDepotAccess {core a} (hg : Rising C s.counters) : Rises C (execMuleDepotAccess core a s) :=
  .withUnit (.next (.ite (.muleAccess hg) hg))

theorem Rises.scrubPassEnd (hg : Rising C s.counters) : Rises C (execScrubPassEnd s) := by
  dsimp only [execScrubPassEnd]
  refine .next ?_
  split
  · exact hg
  · exact .ite (.bumpDev (.upd (.count (.count hg)))) hg

/-! ### Resets and power -/

theorem Rises.coldResetEnd {b} (hg : Rising C s.counters) : Rises C (execColdResetEnd b s) :=
  .next (.ite hg (.extend0 (.extend0 (.ite hg (.bumpDev hg)))))

theorem Rising.startMule {copyB b} (hg : Rising C s.counters) : Rising C (s.startMule copyB b).counters := .extend0 hg

theorem Rising.copyFailed {copyB} (hg : Rising C s.counters) : Rising C (s.copyFailed copyB).counters := .ite hg hg

theorem Rises.bootCopyCheck {copyB image} (hg : Rising C s.counters) : Rises C (execBootCopyCheck copyB image s) :=
  .next (.ite (.ite (.startMule hg) (.copyFailed hg)) hg)

theorem Rises.muleRestart (hg : Rising C s.counters) : Rises C (execMuleRestart s) :=
  .next (.ite (.measure (.bumpDev hg)) hg)

theorem Rising.allStop (hg : Rising C s.counters) : Rising C (s.allStop).counters :=
  .foldl hg (fun _ _ ha => .restartPort ha)

theorem Rises.lockstepMismatch (hg : Rising C s.counters) : Rises C (execLockstepMismatch s) := by
  dsimp only [execLockstepMismatch]
  exact .next (.ite hg (.upd (.allStop hg)))

theorem Rises.thermalTrip {west east stack} (hg : Rising C s.counters) :
    Rises C (execThermalTrip west east stack s) := by
  dsimp only [execThermalTrip]
  exact .next (.ite (.emit (.upd (.allStop hg))) hg)

theorem Rises.tapInstruction {ir} (hg : Rising C s.counters) : Rises C (execTapInstruction ir s) :=
  .next (.ite (.emit (.emit hg)) (.emit hg))

theorem Rises.tapReset (hg : Rising C s.counters) : Rises C (execTapReset s) := .next hg

theorem Rising.admitPort {p} (hg : Rising C s.counters) : Rising C (s.admitPort p).counters := .lanesFrom hg

theorem Rises.portGroupAdmit {group} (hg : Rising C s.counters) : Rises C (execPortGroupAdmit group s) :=
  .withUnit (.next (.ite (.foldl hg (fun _ _ ht => .ite (.admitPort ht) ht)) hg))

theorem Rises.gmCandidacyStart (hg : Rising C s.counters) : Rises C (execGmCandidacyStart s) :=
  .next (.ite (.ite hg hg) hg)

theorem Rises.readyPublish (hg : Rising C s.counters) : Rises C (execReadyPublish s) := .next (.ite (.mgmtCause hg) hg)

/-! ### Mule at work -/

theorem Rising.openReply {m} (hg : Rising C s.counters) : Rising C (s.openReply m).counters :=
  .upd (.fresh (.fresh hg))

theorem Rising.serveMsg {m service op act} (hg : Rising C s.counters) (hact : ∀ t, Rising C t.counters → Rising C
  (act t).counters) :
    Rising C (s.serveMsg m service op act).counters :=
  .ite hg (.ite (.ite (hact _ hg) (.ite hg hg)) (.ite (.ite hg hg) (.ite hg
    (.ite hg (.ite (.openReply hg) (.ite hg (.ite (hact _ hg) hg)))))))

theorem Rises.serveFixed {m service op n act} (hg : Rising C s.counters) (hact : ∀ t, Rising C t.counters → Rising C
  (act t).counters) :
    Rises C (s.serveFixed m service op n act) :=
  .next (.serveMsg hg (fun _ ht => .ite (hact _ ht) ht))

theorem Rises.serveDepot {m op n write act} (hg : Rising C s.counters) (hact : ∀ t, Rising C t.counters → Rising C
  (act t).counters) :
    Rises C (s.serveDepot m op n write act) :=
  .serveFixed hg (fun _ ht => .ite (hact _ ht) ht)

theorem Rising.placeExtents {len room n used acc} (hg : Rising C s.counters) :
    Rising C (s.placeExtents len room n used acc).2.counters := by
  induction n generalizing s used acc with
  | zero => exact hg
  | succ n ih =>
    simp only [State.placeExtents]
    split
    · exact hg
    · exact ih (.fresh hg)

theorem Rises.create {m} (hg : Rising C s.counters) : Rises C (execCreate m s) := by
  dsimp only [execCreate]
  refine .serveDepot hg (fun _ ht => (.ite ht (.ite ht (.ite ht ?_))))
  split
  · rename_i e
    have hu := Rising.snd e (.placeExtents ht)
    exact hu
  · rename_i e
    have hu := Rising.snd e (.placeExtents ht)
    exact hu

theorem Rises.put {m} (hg : Rising C s.counters) : Rises C (execPut m s) := by
  dsimp only [execPut]
  refine .next (.serveMsg hg (fun _ ht => (.ite ht (.ite ht ?_))))
  split
  · exact ht
  · refine .ite ht (.ite ht ?_)
    split
    · exact ht
    · exact .ite hg (.upd (.upd (.depotStream ht)))

theorem Rises.commit {m} (hg : Rising C s.counters) : Rises C (execCommit m s) := by
  dsimp only [execCommit]
  refine .serveDepot hg (fun _ ht => ?_)
  split
  · exact ht
  · split
    · exact ht
    · exact .ite ht (.ite ht ht)

theorem Rises.get {m} (hg : Rising C s.counters) : Rises C (execGet m s) := by
  dsimp only [execGet]
  refine .serveDepot hg (fun _ ht => ?_)
  split
  · exact ht
  · split
    · exact ht
    · refine .ite ht ?_
      split
      · exact ht
      · exact .ite hg (.ite (.upd (.depotRead ht)) (.upd (.depotRead ht)))

theorem Rises.drop {m} (hg : Rising C s.counters) : Rises C (execDrop m s) := by
  dsimp only [execDrop]
  refine .serveDepot hg (fun _ ht => ?_)
  split <;> exact ht

theorem Rising.releaseBarrier {k barrier} (hg : Rising C s.counters) : Rising C (s.releaseBarrier k barrier).counters := by
  dsimp only [State.releaseBarrier]
  split
  · exact hg
  · exact .ite (.foldl hg (fun _ _ ht => ht)) hg

theorem Rising.withJob {m act} (hg : Rising C s.counters) (hact : ∀ x0, Rising C (act x0).counters) :
    Rising C (s.withJob m act).counters := by
  dsimp only [State.withJob]
  split
  · exact hg
  · exact hact _

theorem Rises.join {m} (hg : Rising C s.counters) : Rises C (execJoin m s) :=
  .serveFixed hg (fun _ ht => .ite ht (.ite ht (.ite ht (.foldl ht (fun _ _ hu => .releaseBarrier hu)))))

theorem Rises.leave {m} (hg : Rising C s.counters) : Rises C (execLeave m s) :=
  .serveFixed hg (fun _ ht => .withJob ht (fun _ => .ite ht ht))

theorem Rises.arrive {m} (hg : Rising C s.counters) : Rises C (execArrive m s) := by
  dsimp only [execArrive]
  refine .serveFixed hg (fun _ ht => (.withJob ht (fun _ => ?_)))
  split
  · exact ht
  · exact .releaseBarrier ht

theorem Rises.arriveTimeout {job} (hg : Rising C s.counters) : Rises C (execArriveTimeout job s) := by
  dsimp only [execArriveTimeout]
  refine .next ?_
  split
  · exact hg
  · exact .ite (.foldl hg (fun _ _ ht => ht)) hg

theorem Rises.propose {m} (hg : Rising C s.counters) : Rises C (execPropose m s) := by
  dsimp only [execPropose]
  refine .next (.serveMsg hg (fun _ ht => (.ite ht (.withJob ht (fun _ => ?_)))))
  split
  · exact ht
  · exact .ite ht ht

theorem Rises.forget {m} (hg : Rising C s.counters) : Rises C (execForget m s) :=
  .serveFixed hg (fun _ ht => .withJob ht (fun _ => .ite ht ht))

theorem Rises.drain {m} (hg : Rising C s.counters) : Rises C (execDrain m s) :=
  .serveFixed hg (fun _ ht => .ite ht (.ite ht (.ite ht ht)))

theorem Rises.drainPartStart {id} (hg : Rising C s.counters) : Rises C (execDrainPartStart id s) := by
  dsimp only [execDrainPartStart]
  refine .next ?_
  split
  · exact hg
  · exact .ite hg hg

theorem Rises.partDone {m} (hg : Rising C s.counters) : Rises C (execPartDone m s) := by
  dsimp only [execPartDone]
  refine .serveFixed hg (fun _ ht => (.ite ht ?_))
  split
  · exact ht
  · exact .ite ht ht

theorem Rises.partResend {id part} (hg : Rising C s.counters) : Rises C (execPartResend id part s) := by
  dsimp only [execPartResend]
  refine .next ?_
  split
  · exact hg
  · split
    · exact hg
    · exact .ite (.ite hg hg) hg

theorem Rising.findSwap {key} (hg : Rising C s.counters) : Rising C (s.findSwap key).1.counters := by
  dsimp only [State.findSwap]
  split
  · exact hg
  · split
    · exact hg
    · split
      · exact hg
      · exact .depotRead hg

theorem Rising.stageArm {t toEpoch keys} (hg : Rising C s.counters) : Rising C (s.stageArm t toEpoch keys).counters := by
  unfold State.stageArm
  refine .ite hg (.ite hg ?_)
  extract_lets r u m v
  have hr : Rising C r.1.counters := by
    refine .foldl_fst hg (fun a k ha => ?_)
    dsimp only
    exact .findSwap ha
  have hv : Rising C v.counters := .upd hr
  exact .upd (.foldl hv (fun _ _ ha => .upd ha))

theorem Rising.floodHeld (hg : Rising C s.counters) : Rising C s.floodHeld.counters := by
  unfold State.floodHeld
  extract_lets take keys t id next body r bytes u m v w x
  have hv : Rising C v.counters := .upd hg
  have hw : Rising C w.counters := .foldl hv (fun _ _ ha => .upd ha)
  have hx : Rising C x.counters := .foldl hw (fun _ _ ha => by split <;> exact ha)
  exact .ite hg (.stageArm hx)

theorem Rises.armReq {m} (hg : Rising C s.counters) : Rises C (execArmReq m s) := by
  dsimp only [execArmReq]
  refine .ite (.next (.serveMsg hg (fun _ ht => ?_))) (.serveFixed hg (fun _ ht => .ite (.floodHeld ht) ht))
  split
  · exact ht
  · split <;> exact ht

theorem Rises.armReqResend (hg : Rising C s.counters) : Rises C (execArmReqResend s) :=
  .next (.ite (.foldl hg (fun _ _ ht => .ite (.floodHeld ht) ht)) hg)

theorem Rises.heldArmFlood (hg : Rising C s.counters) : Rises C (execHeldArmFlood s) := .next (.ite (.floodHeld hg) hg)

theorem Rises.arm {port m} (hg : Rising C s.counters) : Rises C (execArm port m s) :=
  .withPort (.next (.serveMsg hg (fun _ ht => .ite ht (.stageArm (.foldl ht (fun _ _ ha => ha))))))

theorem Rises.stagingDeadline (hg : Rising C s.counters) : Rises C (execStagingDeadline s) := by
  dsimp only [execStagingDeadline]
  refine .next ?_
  split
  · exact hg
  · exact .ite (.ite hg hg) hg

theorem Rising.requestVariant {p v} (hg : Rising C s.counters) : Rising C (s.requestVariant p v).counters := .armRequest hg

theorem Rising.requestSwap {p v} (hg : Rising C s.counters) : Rising C (s.requestSwap p v).counters := by
  dsimp only [State.requestSwap]
  split
  · exact .ite hg hg
  · split
    · exact .ite (.ite hg hg) (.ite (.armRequest hg) hg)
    · exact .ite (.armRequest hg) hg

theorem Rising.reviewVariant {d p} (hg : Rising C s.counters) : Rising C (s.reviewVariant d p).counters := by
  dsimp only [State.reviewVariant]
  split
  · exact hg
  · refine .ite hg ?_
    split
    · exact hg
    · refine .ite hg ?_
      split
      · exact .ite (.requestVariant hg) hg
      · exact .requestSwap hg

theorem Rising.reviewLane {p j} (hg : Rising C s.counters) : Rising C (s.reviewLane p j).counters := .ite hg hg

theorem Rising.reviewNap {d p} (hg : Rising C s.counters) : Rising C (s.reviewNap d p).counters := by
  dsimp only [State.reviewNap]
  split
  · exact hg
  · exact .ite hg hg

theorem Rising.reviewHeat {d} (hg : Rising C s.counters) : Rising C (s.reviewHeat d).counters := by
  dsimp only [State.reviewHeat]
  exact .ite (.upd hg) (.upd hg)

theorem Rises.muleHingeReview (hg : Rising C s.counters) : Rises C (execMuleHingeReview s) := by
  dsimp only [execMuleHingeReview]
  refine .next ?_
  split
  · exact hg
  · exact .ite hg (.reviewHeat (.foldl (.foldl (.foldl hg (fun _ _ ht => .foldl ht (fun _ _ hu => .reviewLane hu)))
      (fun _ _ ht => .reviewVariant ht)) (fun _ _ ht => .reviewNap ht)))

theorem Rises.spreadWeightReview (hg : Rising C s.counters) : Rises C (execSpreadWeightReview s) := by
  dsimp only [execSpreadWeightReview]
  refine .next ?_
  split
  · exact hg
  · exact .ite (.armRequest (.foldl hg (fun _ _ ht => ht))) hg

theorem Rises.laneExclusionRelease {port lane} (hg : Rising C s.counters) :
    Rises C (execLaneExclusionRelease port lane s) := by
  dsimp only [execLaneExclusionRelease]
  refine .withLane (.next ?_)
  split
  · exact hg
  · exact .ite hg hg

theorem Rises.normalVariantReturn {p} (hg : Rising C s.counters) : Rises C (execNormalVariantReturn p s) := by
  dsimp only [execNormalVariantReturn]
  refine .withPart (.next ?_)
  split
  · exact hg
  · split
    · exact hg
    · exact .ite (.requestVariant hg) hg

theorem Rises.throttleLower (hg : Rising C s.counters) : Rises C (execThrottleLower s) := by
  dsimp only [execThrottleLower]
  exact .next (.ite (.upd hg) hg)

/-! ### The twin and the lane settings -/

theorem Rising.setSolo {p solo} (hg : Rising C s.counters) : Rising C (s.setSolo p solo).counters := .ite hg hg

theorem Rising.enterSolo (hg : Rising C s.counters) : Rising C s.enterSolo.counters := by
  unfold State.enterSolo
  extract_lets _ s₁ s₂ s₃
  have h₁ : Rising C s₁.counters := .bumpDev (.upd hg)
  have h₂ : Rising C s₂.counters := .foldl h₁ (fun _ _ ht => .ite (.setSolo ht) ht)
  have h₃ : Rising C s₃.counters := .portDownQueues (.handOver h₂)
  exact .ite (.armRequest h₃) h₃

theorem Rising.heartbeatIn {b offset} (hg : Rising C s.counters) : Rising C (s.heartbeatIn b offset).counters :=
  .ite (.enterSolo hg) hg

theorem Rising.heartbeat {port f offset} (hg : Rising C s.counters) : Rising C (s.heartbeat port f offset).counters := by
  dsimp only [State.heartbeat]
  split
  · rename_i e
    have hs1 := Rising.fst e (.linkRx hg)
    exact .ite (.heartbeatIn hs1) (.bumpDev hs1)
  · rename_i e
    have hs1 := Rising.fst e (.linkRx hg)
    exact .ite (.bumpDev hs1) hs1

theorem Rises.heartbeat {port f offset} (hg : Rising C s.counters) : Rises C (execHeartbeat port f offset s) :=
  .withPort (.next (.ite hg (.heartbeat hg)))

theorem Rising.twinPulse {offset} (hg : Rising C s.counters) : Rising C (s.twinPulse offset).counters := .ite hg hg

theorem Rises.twinPulseInEdge {offset} (hg : Rising C s.counters) : Rises C (execTwinPulseInEdge offset s) :=
  .next (.ite hg (.twinPulse hg))

theorem Rising.paired (hg : Rising C s.counters) : Rising C (s.paired).counters := by
  dsimp only [State.paired]
  split
  · exact hg
  · exact .enterSolo hg
  · exact hg

theorem Rises.pairingDecision (hg : Rising C s.counters) : Rises C (execPairingDecision s) :=
  .next (.ite (.ite (.paired hg) (.ite (.enterSolo hg) hg)) hg)

theorem Rises.linkOnlyEntry (hg : Rising C s.counters) : Rises C (execLinkOnlyEntry s) := .next (.ite hg hg)

theorem Rises.soloEntry (hg : Rising C s.counters) : Rises C (execSoloEntry s) := .next (.ite (.enterSolo hg) hg)

theorem Rising.haltThread {p} (hg : Rising C s.counters) : Rising C (s.haltThread p).counters :=
  .ite (.upd (.dropSends (.squashAll hg))) hg

theorem Rises.detach (hg : Rising C s.counters) : Rises C (execDetach s) :=
  .next (.ite hg (.ite (.foldl hg (fun _ _ ha => .haltThread ha)) (.ite (.enterSolo hg) hg)))

theorem Rising.rejoin (hg : Rising C s.counters) : Rising C (s.rejoin).counters :=
  .handOver (.foldl hg (fun _ _ ht => .ite (.setSolo ht) ht))

theorem Rises.attach (hg : Rising C s.counters) : Rises C (execAttach s) :=
  .next (.ite (.ite (.rejoin hg) (.bumpPort hg)) hg)

theorem Rising.takeOutLane {port l pr} (hg : Rising C s.counters) : Rising C (s.takeOutLane port l pr).counters := by
  dsimp only [State.takeOutLane]
  split
  · exact hg
  · exact .ite hg hg

theorem Rising.nextLane {port pr} (hg : Rising C s.counters) : Rising C (s.nextLane port pr).counters := by
  dsimp only [State.nextLane]
  split
  · exact hg
  · exact .ite (.takeOutLane hg) hg

theorem Rises.laneChangeStep {port} (hg : Rising C s.counters) : Rises C (execLaneChangeStep port s) := by
  dsimp only [execLaneChangeStep]
  refine .withPort (.next ?_)
  split
  · exact hg
  · refine .ite hg (.ite hg ?_)
    split <;> exact .ite (.nextLane hg) hg

theorem Rising.oldSettings {port pr} (hg : Rising C s.counters) : Rising C (s.oldSettings port pr).counters := by
  dsimp only [State.oldSettings]
  split <;> exact hg

theorem Rises.laneChangeTimeout {port} (hg : Rising C s.counters) : Rises C (execLaneChangeTimeout port s) := by
  dsimp only [execLaneChangeTimeout]
  refine .withPort (.next ?_)
  split
  · exact hg
  · refine .ite hg ?_
    split
    · refine .upd (.bumpPort ?_)
      split
      · exact .upd (.upd (.upd (.oldSettings hg)))
      · exact .upd (.oldSettings hg)
    · refine .bumpPort ?_
      split
      · exact .upd (.upd (.upd (.oldSettings hg)))
      · exact .upd (.oldSettings hg)

/-! ### Registers -/

theorem Rising.read32 {path off} (hg : Rising C s.counters) : Rising C (s.read32 path off).2.counters := by
  dsimp only [State.read32]
  split
  · exact .ite_snd hg hg
  · split
    · refine .ite_snd ?_ hg
      split <;> exact hg
    · exact hg

theorem Rising.snapshotAt {path off} (hg : Rising C s.counters) : Rising C (s.snapshotAt path off).counters := by
  dsimp only [State.snapshotAt]
  split
  · exact hg
  · exact hg
  · exact .ite hg hg

theorem Rising.readAt {path off bytes} (hg : Rising C s.counters) : Rising C (s.readAt path off bytes).2.counters :=
  .ite_snd (.snapshotAt hg) (.ite_snd (.read32 (.snapshotAt hg)) hg)

theorem Rising.bypass (hg : Rising C s.counters) : Rising C (s.bypass).counters := .bump hg

theorem Rising.writeGateCall {slot v} (hg : Rising C s.counters) : Rising C (s.writeGateCall slot v).counters :=
  .ite (.callGate hg) (.ite hg (.ite hg (.bumpDev hg)))

theorem Rising.writePortCfg {p v} (hg : Rising C s.counters) : Rising C (s.writePortCfg p v).counters :=
  .ite (.portCall hg) hg

theorem Rising.writePartCtl {path p v} (hg : Rising C s.counters) : Rising C (s.writePartCtl path p v).counters := by
  dsimp only [State.writePartCtl]
  split
  · exact hg
  · split
    · exact .partCtl hg
    · exact .partCtl hg
    · exact .partCtl hg
    · exact .bumpPart hg

theorem Rising.writeMsix {fn e w v} (hg : Rising C s.counters) : Rising C (s.writeMsix fn e w v).counters := by
  dsimp only [State.writeMsix]
  split
  · exact hg
  · exact hg
  · exact hg
  · exact .setMask hg

theorem Rising.writeEq {c v} (hg : Rising C s.counters) : Rising C (s.writeEq c v).counters := by
  dsimp only [State.writeEq]
  split
  · exact .ite hg hg
  · exact hg

theorem Rising.commit {path kind v} (hk : ∀ c k, kind ≠ .queueCfg c k) (hg : Rising C s.counters) :
    Rising C (s.commit path kind v).counters := by
  dsimp only [State.commit]
  split
  · exact hg
  · exact .bypass hg
  · exact .clearMgmtCause hg
  · exact hg
  · exact .writeGateCall hg
  · exact .ite hg hg
  · exact .writePortCfg hg
  · exact .portCall hg
  · exact .ite (.startRange hg) hg
  · exact .ite (.portCall hg) hg
  · exact .writePartCtl hg
  · exact .clearFuncCause hg
  · split
    · exact .ite hg hg
    · exact hg
  · exact .writeEq hg
  · exact absurd rfl (hk _ _)
  · exact hg
  · exact hg
  · exact hg
  · split <;> exact hg
  · exact .writeMsix hg
  · exact .doorbell hg

theorem Rising.portWrite {path p v f} (hg : Rising C s.counters) : Rising C (s.portWrite path p v f).counters :=
  .ite (.portCall hg) hg

theorem Rises.portAsym {path port v} (hg : Rising C s.counters) : Rises C (execPortAsym path port v s) :=
  .withPort (.next (.ite (.portCall hg) hg))

theorem Rises.laneCfg {path port lane v} (hg : Rising C s.counters) : Rises C (execLaneCfg path port lane v s) :=
  .withLane (.next (.ite (.commit nofun hg) hg))

theorem Rising.smbus {early act} (hg : Rising C s.counters) (hact : ∀ t, Rising C t.counters → Rising C (act t).counters) :
    Rising C (s.smbus early act).counters :=
  .ite (.emit hg) (.ite (.emit hg) (hact _ hg))

theorem Rising.readOut {path off bytes} (hg : Rising C s.counters) : Rising C (s.readOut path off bytes).counters := by
  dsimp only [State.readOut]
  split
  · exact .smbus hg (fun _ hs => .emit (.readAt hs))
  · exact .ite (.emit (.readAt hg)) (.emit hg)

theorem Rises.lowerHalfRead {path at_} (hg : Rising C s.counters) : Rises C (execLowerHalfRead path at_ s) :=
  .next (.readOut hg)

theorem Rises.seqSnapshotRead {path} (hg : Rising C s.counters) : Rises C (execSeqSnapshotRead path s) := by
  dsimp only [execSeqSnapshotRead]
  refine .next ?_
  split
  · exact hg
  · exact hg
  · exact .readOut hg

theorem Rises.regRead {offset bytes} (hg : Rising C s.counters) : Rises C (execRegRead offset bytes s) :=
  .next (.readOut hg)

theorem Rises.counterRead {index} (hg : Rising C s.counters) : Rises C (execCounterRead index s) :=
  .next (.smbus hg (fun _ hs => .ite (.emit hs) (.emit hs)))

theorem Rises.state (hg : Rising C s.counters) : Rises C (execState s) := .next (.smbus hg (fun _ hs => .emit hs))

theorem Rises.pldmRequest {sensor} (hg : Rising C s.counters) : Rises C (execPldmRequest sensor s) :=
  .next (.smbus hg (fun _ hs => .emit hs))

theorem Rises.mctpControl {message} (hg : Rising C s.counters) : Rises C (execMctpControl message s) := by
  dsimp only [execMctpControl]
  refine .next ?_
  split
  · exact .smbus hg (fun _ hs => .emit hs)
  · exact .ite hg (.smbus hg (fun _ hs => .emit hs))

theorem Rises.smbusWriteAttempt {offset} (hg : Rising C s.counters) : Rises C (execSmbusWriteAttempt offset s) :=
  .next (.smbus hg (fun _ hs => .emit (.ite (.bypass hs) hs)))

/-! ### The tick -/

theorem Rising.sameKeyGm {m} (hg : Rising C s.counters) : Rising C (s.sameKeyGm m).counters := .ite (.bumpDev hg) hg

theorem Rising.noteLength {n} (hg : Rising C s.counters) : Rising C (s.noteLength n).counters := .ite hg (.bumpDev hg)

theorem Rising.acquire {port m tick delay} (hg : Rising C s.counters) : Rising C (s.acquire port m tick delay).counters :=
  .noteLength hg

theorem Rising.parentAccepted {m o} (hg : Rising C s.counters) : Rising C (s.parentAccepted m o).counters := .noteLength hg

theorem Rising.hearMarker {port b offset} (hg : Rising C s.counters) : Rising C (s.hearMarker port b offset).counters := by
  unfold State.hearMarker
  extract_lets m tick delay o r free ok s1 s2 tw s3
  have h1 : Rising C s1.counters := .sameKeyGm (.upd hg)
  have h2 : Rising C s2.counters := .ite h1 (.bumpPort h1)
  have h3 : Rising C s3.counters := .ite (.upd h2) h2
  exact .ite (.ite (.acquire h3) h3) (.ite (.ite (.parentAccepted h3) (.ite h3 (.upd h3))) h3)

theorem Rising.marker {port f offset} (hg : Rising C s.counters) : Rising C (s.marker port f offset).counters := by
  dsimp only [State.marker]
  split
  · rename_i e
    have hs1 := Rising.fst e (.linkRx hg)
    exact hs1
  · rename_i e
    have hs1 := Rising.fst e (.linkRx hg)
    exact .ite (.hearMarker hs1) hs1

theorem Rises.marker {port f offset} (hg : Rising C s.counters) : Rises C (execMarker port f offset s) :=
  .withPort (.next (.ite hg (.marker hg)))

theorem Rising.tickRef {offset} (hg : Rising C s.counters) : Rising C (s.tickRef offset).counters :=
  .ite hg (.ite (.ite hg hg) (.ite (.bumpDev hg) hg))

theorem Rises.tickRefEdge {offset} (hg : Rising C s.counters) : Rises C (execTickRefEdge offset s) :=
  .next (.ite hg (.tickRef hg))

theorem Rises.refLiveLoss (hg : Rising C s.counters) : Rises C (execRefLiveLoss s) := .next (.ite hg hg)

theorem Rising.elect (hg : Rising C s.counters) : Rising C (s.elect).counters := by
  dsimp only [State.elect]
  refine .ite hg ?_
  split
  · exact hg
  · exact .ite hg hg

theorem Rises.gmKeyExpiry {port} (hg : Rising C s.counters) : Rises C (execGmKeyExpiry port s) := by
  dsimp only [execGmKeyExpiry]
  refine .withPort (.next ?_)
  split
  · exact .ite hg hg
  · exact hg

theorem Rises.holdoverEntry (hg : Rising C s.counters) : Rises C (execHoldoverEntry s) := .next (.ite hg hg)

theorem Rises.lockedEntry (hg : Rising C s.counters) : Rises C (execLockedEntry s) := .next (.ite hg hg)

theorem Rises.wideSet (hg : Rising C s.counters) : Rises C (execWideSet s) := .next (.ite hg hg)

theorem Rising.overrun {p code} (hg : Rising C s.counters) : Rising C (s.overrun p code).counters :=
  .stopThread (.upd (.bumpPart (.faultAll (.dropPartS (.dropSends (.squashAll hg))))))

theorem Rising.dropAllS (hg : Rising C s.counters) : Rising C (s.dropAllS).counters :=
  .dropWaits (.dropWaits (.foldl hg (fun _ _ ht => .foldl (.ite ht ht) (fun _ _ hu => .bumpPort (.dropEntry hu)))))

theorem Rises.tickSlip (hg : Rising C s.counters) : Rises C (execTickSlip s) := by
  dsimp only [execTickSlip]
  refine .next ?_
  split
  · exact hg
  · exact .ite hg (.foldl (.dropAllS (.mgmtCause (.bumpDev hg))) (fun _ _ ht => .ite (.overrun ht) ht))

theorem Rises.tickLenAdopt (hg : Rising C s.counters) : Rises C (execTickLenAdopt s) := by
  dsimp only [execTickLenAdopt]
  refine .next ?_
  split
  · exact hg
  · exact .ite hg (.foldl hg (fun _ _ ht => .ite (.overrun ht) ht))

theorem Rising.purgeOld (hg : Rising C s.counters) : Rising C (s.purgeOld).counters :=
  .foldl (.dropWaits (.foldl (.dropWaits (.foldl hg (fun _ _ ht => .ite (.purgeStale ht) ht)))
    (fun _ _ hu => .bumpIng hu))) (fun _ _ hu => .bumpIng hu)

theorem Rising.countMissed (hg : Rising C s.counters) : Rising C (s.countMissed).counters :=
  .foldl hg (fun _ _ ht => .bumpPort ht)

theorem Rising.hingeEvidence (hg : Rising C s.counters) : Rising C (s.hingeEvidence).counters :=
  .elect (.upd (.countMissed hg))

theorem Rising.spreadZero (hg : Rising C s.counters) : Rising C (s.spreadZero).counters := by
  dsimp only [State.spreadZero]
  refine .foldl hg (fun _ _ ht => ?_)
  split
  · exact ht
  · exact .upd (.bumpPort ht)

theorem Rising.rejudgeNeighbours (hg : Rising C s.counters) : Rising C (s.rejudgeNeighbours).counters := by
  dsimp only [State.rejudgeNeighbours]
  refine .foldl hg (fun _ _ ht => ?_)
  split
  · exact .ite ht ht
  · exact ht

theorem Rising.cutNaps (hg : Rising C s.counters) : Rising C (s.cutNaps).counters :=
  .foldl hg (fun _ _ ht => .ite ht (.bumpPort ht))

theorem Rising.planThread {p} (hg : Rising C s.counters) : Rising C (s.planThread p).counters := by
  dsimp only [State.planThread]
  split
  · exact .ite hg hg
  · exact .upd (.squashAll hg)

theorem Rising.switchEpoch (hg : Rising C s.counters) : Rising C (s.switchEpoch).counters :=
  .applyPlans (.ite (.cutNaps (.rejudgeNeighbours (.spreadZero hg))) (.rejudgeNeighbours (.spreadZero hg)))

theorem Rising.followTables {changed} (hg : Rising C s.counters) : Rising C (s.followTables changed).counters :=
  .foldl (.foldl hg (fun _ _ ht => .planThread ht)) (fun _ _ ht => .ite ht ht)

theorem Rising.unbind {p} (hg : Rising C s.counters) : Rising C (s.unbind p).counters := .ite hg (.releaseAll hg)

theorem Rising.clearPlanFaults {p} (hg : Rising C s.counters) : Rising C (s.clearPlanFaults p).counters := by
  dsimp only [State.clearPlanFaults]
  refine .foldl hg (fun _ _ ht => ?_)
  split
  · exact .ite ht ht
  · exact ht

theorem Rising.threadCommand {p} (hg : Rising C s.counters) : Rising C (s.threadCommand p).counters := by
  dsimp only [State.threadCommand]
  split
  · exact hg
  · exact .ite hg hg
  · exact .upd (.haltThread hg)
  · exact .ite (.upd (.clearPlanFaults hg)) hg
  · exact .upd (.dropSends (.squashAll hg))

theorem Rising.nextTick {p} (hg : Rising C s.counters) : Rising C (s.nextTick p).counters := .ite hg hg

theorem Rising.hingeThreads {changed} (hg : Rising C s.counters) : Rising C (s.hingeThreads changed).counters :=
  .foldl (.followTables (.foldl hg (fun _ _ ht => .ite (.overrun ht) ht)))
    (fun _ _ ht => .threadCommand (.nextTick (.unbind ht)))

theorem Rising.holdOut {p j} (hg : Rising C s.counters) : Rising C (s.holdOut p j).counters := .ite hg (.ite hg hg)

theorem Rising.letIn {p j} (hg : Rising C s.counters) : Rising C (s.letIn p j).counters := .ite hg hg

theorem Rising.lanesGone {p} (hg : Rising C s.counters) : Rising C (s.lanesGone p).counters :=
  .ite (.ite (.restartPort (.setDown hg)) (.setDown hg)) hg

theorem Rising.landExclude {p ex} (hg : Rising C s.counters) : Rising C (s.landExclude p ex).counters :=
  .ite hg (.tryActive (.lanesGone (.foldl hg (fun _ _ ht => .ite (.holdOut ht) (.ite (.letIn ht) ht)))))

theorem Rising.landEnable {p en} (hg : Rising C s.counters) : Rising C (s.landEnable p en).counters :=
  .ite hg (.ite (.ite hg (.restartPort hg)) (.restartPort (.setDown hg)))

theorem Rising.landHold {p j} (hg : Rising C s.counters) : Rising C (s.landHold p j).counters := by
  dsimp only [State.landHold]
  split
  · exact hg
  · exact .ite (.tryActive (.lanesGone (.holdOut hg))) (.ite (.letIn hg) hg)

theorem Rising.landPort {p} (hg : Rising C s.counters) : Rising C (s.landPort p).counters := by
  dsimp only [State.landPort]
  refine .foldl ?_ (fun _ _ ht => .landHold ht)
  split
  · exact .landEnable (.landExclude (.ite hg hg))
  · exact .ite hg hg

theorem Rising.landDie {d} (hg : Rising C s.counters) : Rising C (s.landDie d).counters :=
  .ite (.rejudgeLevel (.setDie hg)) (.setDie hg)

theorem Rising.landCtx {c} (hg : Rising C s.counters) : Rising C (s.landCtx c).counters := by
  dsimp only [State.landCtx]
  split <;> exact hg

theorem Rising.landDestroy (hg : Rising C s.counters) : Rising C (s.landDestroy).counters :=
  .upd (.foldl hg (fun _ _ ht => .destroyCtx ht))

theorem Rising.landServices (hg : Rising C s.counters) : Rising C (s.landServices).counters := .ite hg hg

theorem Rising.ageDrains (hg : Rising C s.counters) : Rising C (s.ageDrains).counters := by
  dsimp only [State.ageDrains]
  refine .upd (.foldl hg (fun _ _ ht => ?_))
  split
  · exact .setDie ht
  · exact ht

theorem Rising.landStaged (hg : Rising C s.counters) : Rising C (s.landStaged).counters :=
  .ageDrains (.landServices (.landDestroy (.foldl (.landDie (.landDie (.foldl hg (fun _ _ ht => .landPort ht))))
    (fun _ _ ht => .landCtx ht))))

theorem Rising.wakeForHinge {p} (hg : Rising C s.counters) : Rising C (s.wakeForHinge p).counters :=
  .ite (.ite hg (.emit hg)) hg

theorem Rising.hingeRange {p} (hg : Rising C s.counters) : Rising C (s.hingeRange p).counters := by
  dsimp only [State.hingeRange]
  split
  · exact .ite (.sendRangeReq (.fresh hg)) hg
  · exact hg

theorem Rising.launchMarker {p} (hg : Rising C s.counters) : Rising C (s.launchMarker p).counters :=
  .ite (.ite (.upd (.ite hg (.portHingeMove hg))) (.ite hg (.portHingeMove hg)))
    (.emit (.emit (.wakeForHinge (.egressEndFrame (.upd (.ite hg (.portHingeMove hg)))))))

theorem Rising.hingeFrames {p} (hg : Rising C s.counters) : Rising C (s.hingeFrames p).counters :=
  .ite hg (.ite (.emit (.hingeRange (.sendAdapt hg))) (.hingeRange (.sendAdapt hg)))

theorem Rising.pulses (hg : Rising C s.counters) : Rising C (s.pulses).counters :=
  .ite (.emit (.ite (.emit hg) hg)) (.ite (.emit hg) hg)

theorem Rising.adoptEpoch (hg : Rising C s.counters) : Rising C (s.adoptEpoch).counters := by
  dsimp only [State.adoptEpoch]
  refine .ite hg ?_
  split
  · exact .ite (.bumpDev hg) hg
  · exact hg

theorem Rising.splitEpoch (hg : Rising C s.counters) : Rising C (s.splitEpoch).counters := by
  dsimp only [State.splitEpoch]
  split
  · exact hg
  · exact .ite hg (.ite hg (.ite (.upd (.fire (.bumpDev hg))) (.fire (.bumpDev hg))))

theorem Rising.countOpen {i most} (hg : Rising C s.counters) : Rising C (s.countOpen i most).counters := .count (.fresh hg)

theorem Rising.countWaits (hg : Rising C s.counters) : Rising C (s.countWaits).counters := by
  dsimp only [State.countWaits]
  refine .foldl (.foldl hg (fun _ _ ht => .ite (.ite (.countOpen ht) ht) (.upd (.ite (.countOpen ht) ht))))
    (fun _ _ ht => (.ite ?_ ?_))
  · refine .foldl ht (fun _ _ ht => ?_)
    split
    · exact .countOpen ht
    · exact ht
  · refine .countOpen (.foldl ht (fun _ _ ht => ?_))
    split
    · exact .countOpen ht
    · exact ht

theorem Rising.replay (hg : Rising C s.counters) : Rising C (s.replay).counters := by
  dsimp only [State.replay]
  refine .foldl hg (fun _ _ ht => ?_)
  split
  · exact .marker ht
  · exact .heartbeat ht
  · exact .twinPulse ht
  · exact .tickRef ht
  · exact ht

theorem Rising.flushEchoes (hg : Rising C s.counters) : Rising C (s.flushEchoes).counters := by
  dsimp only [State.flushEchoes]
  refine .foldl hg (fun _ _ ht => ?_)
  split
  · exact .sendEcho ht
  · exact ht

theorem Rising.hinge {x} (hg : Rising C s.counters) : Rising C (s.hinge x).counters := by
  dsimp only [State.hinge]
  exact .replay (.upd (.upd (.upd (.foldl (.pulses (.foldl (.upd (.upd
    (.upd (.upd (.handOver (.hingeThreads (.landStaged (.ite (.switchEpoch
    (.splitEpoch (.adoptEpoch (.hingeEvidence (.purgeOld (.upd (.flushEchoes (.countWaits hg))))))))
    (.splitEpoch (.adoptEpoch (.hingeEvidence (.purgeOld (.upd (.flushEchoes (.countWaits hg)))))))))))))))
    (fun _ _ ht => .launchMarker ht))) (fun _ _ ht => .hingeFrames ht)))))

theorem Rises.hinge {samples} (hg : Rising C s.counters) : Rises C (execHinge samples s) := .next (.ite (.hinge hg) hg)

theorem Rises.slotStart (hg : Rising C s.counters) : Rises C (execSlotStart s) := by
  dsimp only [execSlotStart]
  exact .next (.ite (.upd (.upd (.countWaits hg))) hg)

theorem Rises.hingeSlot1 (hg : Rising C s.counters) : Rises C (execHingeSlot1 s) := by
  dsimp only [execHingeSlot1]
  exact .next (.ite (.upd (.foldl hg (fun _ _ ht => .ite (.portSlot1 ht) ht))) hg)

/-! ### Every command -/

/-- The commands that may clear counters: those of a cold reset, of a register write, of a queue's enabling, and the gate. -/
def mayClear (c : Instr) : Prop :=
  startsCold c ∨ c = .gateCallComplete ∨ (∃ path x k cfg, c = .queueEnable path x k cfg) ∨
  (∃ path o b v, c = .registerWrite path o b v) ∨ (∃ path o b v, c = .gaWrite path o b v)

/-- Every other command only counts. -/
theorem exec_rises {c : Instr} (hc : ¬ mayClear c) (hg : Rising C s.counters) : Rises C (exec c s) := by
  cases c with
  | hinge => exact .hinge hg
  | slotStart => exact .slotStart hg
  | hingeSlot1 => exact .hingeSlot1 hg
  | marker => exact .marker hg
  | gmKeyExpiry => exact .gmKeyExpiry hg
  | holdoverEntry => exact .holdoverEntry hg
  | lockedEntry => exact .lockedEntry hg
  | wideSet => exact .wideSet hg
  | tickSlip => exact .tickSlip hg
  | tickLenAdopt => exact .tickLenAdopt hg
  | tickRefEdge => exact .tickRefEdge hg
  | refLiveLoss => exact .refLiveLoss hg
  | portRangeStart => exact .portRangeStart hg
  | range => exact .range hg
  | rangingComplete => exact .rangingComplete hg
  | arrivalTest => exact .arrivalTest hg
  | laneDetectPulse => exact .laneDetectPulse hg
  | quietExpiry => exact .quietExpiry hg
  | bitLock => exact .bitLock hg
  | trainingMarker => exact .trainingMarker hg
  | capsRecord => exact .capsRecord hg
  | laneTrainTimeout => exact .laneTrainTimeout hg
  | excludedLaneRetry => exact .excludedLaneRetry hg
  | eyeWindowEnd => exact .eyeWindowEnd hg
  | marginalLaneDrop => exact .marginalLaneDrop hg
  | adapt => exact .adapt hg
  | lossOfLock => exact .lossOfLock (x := ‹_›) hg
  | notice => exact .notice hg
  | realign => exact .realign hg
  | noticeRepeat => exact .noticeRepeat hg
  | directionFailed => exact .directionFailed hg
  | sleepWindowStart => exact .sleepWindowStart hg
  | wakeBurst => exact .wakeBurst hg
  | wakeMarker => exact .wakeMarker hg
  | wakeMiss => exact .wakeMiss hg
  | sData | bData | cData | cAck | bEcho | cNotready => exact .withPort (.next (.arrive hg))
  | heartbeat => exact .heartbeat hg
  | credit => exact .credit hg
  | creditSend => exact .creditSend hg
  | creditStall => exact .creditStall hg
  | cRetryTimeout => exact .cRetryTimeout hg
  | cAckSend => exact .cAckSend hg
  | notreadyRetry => exact .notreadyRetry hg
  | egressFrameStart => exact .egressFrameStart hg
  | egressFrameEnd => exact .egressFrameEnd hg
  | mcHoldExpiry => exact .mcHoldExpiry hg
  | hostFrameBuild => exact .hostFrameBuild hg
  | henAllocation => exact .henAllocation hg
  | henListRebuild => exact .withUnit (.next (.ite (.bumpDev (.upd hg)) hg))
  | henLevelChange => exact .henLevelChange hg
  | echoSend => exact .echoSend hg
  | bMsgTimeout => exact .bMsgTimeout hg
  | oxOpBegin => exact .oxOpBegin hg
  | retire => exact .retire hg
  | copyBackEnd => exact .copyBackEnd hg
  | nop => exact .nop hg
  | br => exact .br hg
  | loop => exact .loop hg
  | lend => exact .lend hg
  | tickwait => exact .tickwait hg
  | tickwaitComplete => exact .tickwaitComplete hg
  | cmp => exact .cmp hg
  | plog => exact .plog hg
  | rdt => exact .rdt hg
  | add => exact .add hg
  | sub => exact .sub hg
  | mul => exact .mul hg
  | divs => exact .divs hg
  | divu => exact .divu hg
  | neg => exact .neg hg
  | abs => exact .abs hg
  | and => exact .and hg
  | or => exact .or hg
  | xor => exact .xor hg
  | shl => exact .shl hg
  | shr => exact .shr hg
  | sra => exact .sra hg
  | adds => exact .adds hg
  | subs => exact .subs hg
  | muls => exact .muls hg
  | adduS => exact .adduS hg
  | subuS => exact .subuS hg
  | addi => exact .addi hg
  | movi => exact .movi hg
  | ori => exact .ori hg
  | ld => exact .ld hg
  | ldDataReturn => exact .ldDataReturn hg
  | st => exact .st hg
  | aadd => exact .aadd hg
  | aswp => exact .aswp hg
  | acas => exact .acas hg
  | acas2 => exact .acas2 hg
  | fenceDepot => exact .fenceDepot hg
  | fenceTick => exact .fenceTick hg
  | storePerformed => exact .storePerformed hg
  | atomicPerformed => exact .atomicPerformed hg
  | hingeDrainEnd => exact .hingeDrainEnd hg
  | recv => exact .recv hg
  | send => exact .send hg
  | sendTileRead => exact .sendTileRead hg
  | expect => exact .expect hg
  | lclr => exact .lclr hg
  | tld => exact .tld hg
  | tacc => exact .tacc hg
  | emit => exact .emit hg
  | tst => exact .tst hg
  | post => exact .post hg
  | scrubPassEnd => exact .scrubPassEnd hg
  | muleDepotAccess => exact .muleDepotAccess hg
  | partCtlStart | partCtlStop | partCtlRestart => exact .withPart (.next (.partCtl hg))
  | clearFault => exact .clearFault hg
  | queueDisable => exact .queueDisable hg
  | sqDoorbell | rqDoorbell | cqDoorbell | cqArm => exact .withPage (.next (.doorbell hg))
  | bSend => exact .bSend hg
  | cSend => exact .cSend hg
  | dmaToDepot => exact .dmaToDepot hg
  | dmaToHost => exact .dmaToHost hg
  | start => exact .start hg
  | sendEntryComplete => exact .sendEntryComplete hg
  | ringHoldExpiry => exact .ringHoldExpiry hg
  | cqTimedFire => exact .cqTimedFire hg
  | msixUnmask => exact .msixUnmask hg
  | funcCauseClear => exact .funcCauseClear hg
  | mgmtCauseClear => exact .mgmtCauseClear hg
  | vfFlr => exact .vfFlr hg
  | pfFlr => exact .pfFlr hg
  | perstNAssert => exact .perstNAssert hg
  | perstNDeassert => exact .perstNDeassert hg
  | configRequest => exact .configRequest hg
  | dmaReadError => exact .dmaReadError hg
  | regRead => exact .regRead hg
  | counterRead => exact .counterRead hg
  | state => exact .state hg
  | pldmRequest => exact .pldmRequest hg
  | mctpControl => exact .mctpControl hg
  | smbusWriteAttempt => exact .smbusWriteAttempt hg
  | admitPlan | withdrawPlan | ctxCreate | ctxDestroy | setSegment | serviceGrant | setCarve | setPorts
  | setHenMin | setPools | setGmin | setSwitch | setTickRole | setRoute | setSpread | setRemap | setGrants
  | setVariant | setTick | armEpochLocal | armEpochFlood | setPort | setPortDetach | setPortAttach | setNapMap
  | throttle | mulePet | enrollKey | revokeKey | loadService | commitSvn | loadMule | attest | getCert =>
    exact .withSlot (.next (.callGate hg))
  | drainLand => exact .drainLand hg
  | drainRollback => exact .drainRollback hg
  | muleRestart => exact .muleRestart hg
  | lockstepMismatch => exact .lockstepMismatch hg
  | coldResetEnd => exact .coldResetEnd hg
  | thermalTrip => exact .thermalTrip hg
  | tapInstruction => exact .tapInstruction hg
  | tapReset => exact .tapReset hg
  | bootCopyCheck => exact .bootCopyCheck hg
  | portGroupAdmit => exact .portGroupAdmit hg
  | gmCandidacyStart => exact .gmCandidacyStart hg
  | readyPublish => exact .readyPublish hg
  | muleHingeReview => exact .muleHingeReview hg
  | spreadWeightReview => exact .spreadWeightReview hg
  | laneExclusionRelease => exact .laneExclusionRelease hg
  | normalVariantReturn => exact .normalVariantReturn hg
  | throttleLower => exact .throttleLower hg
  | create => exact .create hg
  | put => exact .put hg
  | commit => exact .commit hg
  | get => exact .get hg
  | drop => exact .drop hg
  | join => exact .join hg
  | leave => exact .leave hg
  | arrive => exact .arrive hg
  | arriveTimeout => exact .arriveTimeout hg
  | propose => exact .propose hg
  | forget => exact .forget hg
  | drain => exact .drain hg
  | drainPartStart => exact .drainPartStart hg
  | partDone => exact .partDone hg
  | partResend => exact .partResend hg
  | armReq => exact .armReq hg
  | armReqResend => exact .armReqResend hg
  | heldArmFlood => exact .heldArmFlood hg
  | arm => exact .arm hg
  | stagingDeadline => exact .stagingDeadline hg
  | twinPulseInEdge => exact .twinPulseInEdge hg
  | pairingDecision => exact .pairingDecision hg
  | linkOnlyEntry => exact .linkOnlyEntry hg
  | soloEntry => exact .soloEntry hg
  | detach => exact .detach hg
  | attach => exact .attach hg
  | laneChangeStep => exact .laneChangeStep hg
  | laneChangeTimeout => exact .laneChangeTimeout hg
  | portEnable | portExclude | portReach => exact .withPort (.next (.portWrite hg))
  | portAsym => exact .portAsym hg
  | laneCfg => exact .laneCfg hg
  | eqWrite => exact .eqWrite hg
  | lowerHalfRead => exact .lowerHalfRead hg
  | seqSnapshotRead => exact .seqSnapshotRead hg
  | framingError => exact .framingError hg
  | receivedLight => exact .receivedLight hg
  | napOrDozeMarker => exact .napOrDozeMarker hg
  | portHpLinkTraining => exact .portHpLinkTraining hg
  | portHpTrained => exact .portHpTrained hg
  | flrComplete => exact .flrComplete hg
  | coldRstNLow | pwrgoodLow | refclkLoss | railUndervoltage | gateCallComplete | queueEnable | registerWrite | gaWrite =>
    exact absurd (by simp [mayClear, startsCold]) hc

end Sys2Proof.Machine
end

section
/-! SUPPORT. The clears themselves (R441, R484): a queue that is enabled, a context that is created, and what a register write
or a gate call may reach of them. -/

namespace Sys2Proof.Machine

variable {s t : State}

/-! ### What a command may clear -/

/-- From `s` to `t` only the counters of a context that is new, and of a QID whose queue is new, may have fallen. -/
structure ClearsOnlyNew (s t : State) : Prop where
  low : ∀ i, i < ctxCtr 0 0 → (s.ctr i).toNat ≤ (t.ctr i).toNat
  ctx : ∀ x k, x < 1024 → k < 2 ^ 16 → (t.ctr (ctxCtr x k)).toNat < (s.ctr (ctxCtr x k)).toNat →
    s.ctx? x = none ∧ ∃ v, t.ctx? x = some v
  queue : ∀ q, q < 4096 → (t.ctr (queueCtr q)).toNat < (s.ctr (queueCtr q)).toNat →
    s.queue? q = none ∧ ∃ v, t.queue? q = some v

theorem ctxCtr_ne_bypassCtr {x k : Nat} (hx : x < 1024) (hk : k < 2 ^ 16) : ctxCtr x k ≠ bypassCtr := by
  simp only [ctxCtr, bypassCtr, ctrIndex]; omega

theorem queueCtr_ne_bypassCtr {q : Nat} (hq : q < 4096) : queueCtr q ≠ bypassCtr := by
  simp only [queueCtr, bypassCtr, ctrIndex]; omega

theorem lt_bypassCtr {i : Nat} (hi : i < ctxCtr 0 0) : i ≠ bypassCtr := by
  simp only [ctxCtr, ctrIndex] at hi
  simp only [bypassCtr, ctrIndex]
  omega

/-- A command that only counts clears nothing. -/
theorem ClearsOnlyNew.of_rising (h : Rising s.counters t.counters) : ClearsOnlyNew s t where
  low i hi := h.le i (lt_bypassCtr hi)
  ctx _ _ hx hk hfall := absurd (h.le _ (ctxCtr_ne_bypassCtr hx hk)) (Nat.not_le.mpr hfall)
  queue _ hq hfall := absurd (h.le _ (queueCtr_ne_bypassCtr hq)) (Nat.not_le.mpr hfall)

theorem ClearsOnlyNew.refl (s : State) : ClearsOnlyNew s s := .of_rising (.refl _)

/-! ### A queue is enabled (R341, R484) -/

/-- The QID that a partition's next queue takes is free. -/
theorem freeQid_free {p q : Nat} (h : s.freeQid p = some q) : s.queue? q = none := by
  obtain ⟨-, -, hfree, -⟩ := lowestFree_spec h
  cases hq : s.queue? q with
  | none => rfl
  | some v => exact absurd (List.mem_map_of_mem (f := Prod.fst) (Tbl.mem_of_get? hq)) hfree

/-- A queue that is enabled on a free QID. -/
def State.queueOn (s : State) (c k qid : Nat) (q : QSlot) : State :=
  ((s.setQslot c k { q with enabled := true, qid := qid, disabling := false }).setQueue qid
    { ctx := c, slot := k, kind := q.kind }).clearCtrs (queueCtr qid) 1

theorem queueOn_queue (s : State) (c k qid : Nat) (q : QSlot) (i : Nat) :
    (s.queueOn c k qid q).queue? i = if i = qid then some { ctx := c, slot := k, kind := q.kind } else s.queue? i :=
  Tbl.get?_set ..

theorem queueOn_ctr (s : State) (c k qid : Nat) (q : QSlot) (i : Nat) :
    (s.queueOn c k qid q).ctr i = if i = queueCtr qid then 0 else s.ctr i := by
  have hrange : (queueCtr qid ≤ i ∧ i < queueCtr qid + 1) ↔ i = queueCtr qid := by omega
  exact (ctr_clearCtrs _ _ _ i).trans (by simp only [hrange]; rfl)

/-- Enabling a queue leaves the counters, or clears that of a QID that had no queue. -/
theorem enableQueue_enables (s : State) (c k : Nat) (x : Ctx) (q : QSlot) :
    ((s.enableQueue c k x q).counters = s.counters ∧ (s.enableQueue c k x q).queues = s.queues) ∨
      ∃ qid, s.queue? qid = none ∧ s.enableQueue c k x q = s.queueOn c k qid q := by
  dsimp only [State.enableQueue]
  split
  · exact .inl ⟨rfl, rfl⟩
  · split
    · exact .inl ⟨rfl, rfl⟩
    next hq => exact .inr ⟨_, freeQid_free hq, rfl⟩

theorem queueOn_clears {c k qid : Nat} {q : QSlot} (hfree : s.queue? qid = none) : ClearsOnlyNew s (s.queueOn c k qid q) := by
  have kept {i : Nat} (hi : i ≠ queueCtr qid) : (s.queueOn c k qid q).ctr i = s.ctr i := by rw [queueOn_ctr, if_neg hi]
  refine ⟨fun i hi => ?_, fun x j hx hj hfall => ?_, fun i hi hfall => ?_⟩
  · have hne : i ≠ queueCtr qid := by
      simp only [ctxCtr, ctrIndex] at hi
      simp only [queueCtr, ctrIndex]
      omega
    exact Nat.le_of_eq (congrArg BitVec.toNat (kept hne).symm)
  · have hne : ctxCtr x j ≠ queueCtr qid := by simp only [ctxCtr, queueCtr, ctrIndex]; omega
    exact absurd (congrArg BitVec.toNat (kept hne)) (Nat.ne_of_lt hfall)
  · by_cases hne : queueCtr i = queueCtr qid
    · have hi : i = qid := by simp only [queueCtr, ctrIndex] at hne; omega
      subst hi
      exact ⟨hfree, _, (queueOn_queue ..).trans (if_pos rfl)⟩
    · exact absurd (congrArg BitVec.toNat (kept hne)) (Nat.ne_of_lt hfall)

theorem enableQueue_clears (s : State) (c k : Nat) (x : Ctx) (q : QSlot) : ClearsOnlyNew s (s.enableQueue c k x q) := by
  obtain ⟨hsame, -⟩ | ⟨qid, hfree, hon⟩ := enableQueue_enables s c k x q
  · exact .of_rising (hsame ▸ .refl _)
  · rw [hon]
    exact queueOn_clears hfree

/-- What QUEUE_ENABLE leaves: no counter and no queue touched, or a queue enabled. -/
theorem queueEnable_enables {path : Path} {c k : Nat} {cfg : Word} (h : exec (.queueEnable path c k cfg) s = .next t) :
    (t.counters = s.counters ∧ t.queues = s.queues) ∨ ∃ qid q, s.queue? qid = none ∧ t = s.queueOn c k qid q := by
  have hx : execQueueEnable path c k cfg s = .next t := h
  unfold execQueueEnable withCtx withUnit at hx
  split at hx
  · split at hx
    · injection hx with hx
      subst hx
      split
      · exact .inl ⟨rfl, rfl⟩
      · dsimp only
        split
        · exact .inl ⟨rfl, rfl⟩
        · split
          · exact .inl ⟨rfl, rfl⟩
          · split
            · exact .inl ⟨rfl, rfl⟩
            · obtain hsame | ⟨qid, hfree, hon⟩ := enableQueue_enables s c k _ ((s.qslot c k).withCfg cfg)
              · exact .inl hsame
              · exact .inr ⟨qid, _, hfree, hon⟩
    · cases hx
  · cases hx

theorem queueEnable_clears {path : Path} {c k : Nat} {cfg : Word} (h : exec (.queueEnable path c k cfg) s = .next t) :
    ClearsOnlyNew s t := by
  obtain ⟨hsame, -⟩ | ⟨qid, q, hfree, rfl⟩ := queueEnable_enables h
  · exact .of_rising (hsame ▸ .refl _)
  · exact queueOn_clears hfree

/-! ### QUEUE_CFG is 64 bits wide (Table 21.9) -/

/-- What is read at an offset is 64 bits wide where it is QUEUE_CFG. -/
def CfgWide (o : Option Reg) : Prop := ∀ r, o = some r → ∀ c k, r.kind = .queueCfg c k → r.wide = true

theorem CfgWide.ite {b : Prop} [Decidable b] {o o' : Option Reg} (h : CfgWide o) (h' : CfgWide o') :
    CfgWide (if b then o else o') := by split <;> assumption

theorem CfgWide.none : CfgWide none := nofun

theorem CfgWide.counterReg {base off n : Nat} : CfgWide (s.counterReg base off n) := by
  unfold State.counterReg
  split <;> rintro _ ⟨⟩ _ _ ⟨⟩

theorem CfgWide.identReg {off : Nat} : CfgWide (s.identReg off) := by
  unfold State.identReg
  split <;> rintro _ ⟨⟩ _ _ ⟨⟩

theorem CfgWide.tickReg {off : Nat} : CfgWide (s.tickReg off) := by
  unfold State.tickReg
  split <;> rintro _ ⟨⟩ _ _ ⟨⟩

theorem CfgWide.dieReg {d off : Nat} : CfgWide (s.dieReg d off) := by
  unfold State.dieReg
  split
  pick_goal -1
  · exact .ite .counterReg .none
  all_goals rintro _ ⟨⟩ _ _ ⟨⟩

theorem CfgWide.poolReg {off : Nat} : CfgWide (s.poolReg off) := by
  unfold State.poolReg
  split <;> rintro _ ⟨⟩ _ _ ⟨⟩

theorem CfgWide.engineReg {e off : Nat} : CfgWide (s.engineReg e off) := by
  unfold State.engineReg
  refine .ite ?_ (.ite .counterReg .none)
  rintro _ ⟨⟩ _ _ ⟨⟩

theorem CfgWide.seqReg {off : Nat} : CfgWide (s.seqReg off) := by
  unfold State.seqReg
  split <;> rintro _ ⟨⟩ _ _ ⟨⟩

theorem CfgWide.gateReg {slot off : Nat} : CfgWide (s.gateReg slot off) := by
  unfold State.gateReg
  refine .ite ?_ (.ite ?_ (.ite ?_ .none)) <;> rintro _ ⟨⟩ _ _ ⟨⟩

theorem CfgWide.fwReg {off : Nat} : CfgWide (s.fwReg off) := by
  unfold State.fwReg
  refine .ite ?_ (.ite .gateReg (.ite ?_ (.ite (.ite ?_ .none) (.ite ?_ (.ite ?_ (.ite ?_ (.ite ?_ .none)))))))
  all_goals rintro _ ⟨⟩ _ _ ⟨⟩

theorem CfgWide.laneReg {p j off : Nat} : CfgWide (s.laneReg p j off) := by
  unfold State.laneReg
  split
  pick_goal -1
  · exact .ite .counterReg .none
  all_goals rintro _ ⟨⟩ _ _ ⟨⟩

theorem CfgWide.portReg {p off : Nat} : CfgWide (s.portReg p off) := by
  unfold State.portReg
  split
  pick_goal -1
  · exact .ite .counterReg (.ite .laneReg .none)
  all_goals rintro _ ⟨⟩ _ _ ⟨⟩

theorem CfgWide.partReg {p off : Nat} : CfgWide (s.partReg p off) := by
  unfold State.partReg
  split
  pick_goal -1
  · exact .ite .counterReg .none
  all_goals rintro _ ⟨⟩ _ _ ⟨⟩

/-- The one QUEUE_CFG of a queue slot, which is wide. -/
theorem CfgWide.qslotReg {c k off : Nat} : CfgWide (s.qslotReg c k off) := by
  unfold State.qslotReg
  split
  · rintro _ ⟨⟩ _ _ -
    rfl
  all_goals rintro _ ⟨⟩ _ _ ⟨⟩

theorem CfgWide.ctxReg {c off : Nat} : CfgWide (s.ctxReg c off) := by
  unfold State.ctxReg
  refine .ite .qslotReg (.ite .counterReg (.ite (.ite .none ?_) ?_))
  all_goals split <;> rintro _ ⟨⟩ _ _ ⟨⟩

theorem CfgWide.queueReg {q off : Nat} : CfgWide (s.queueReg q off) := by
  unfold State.queueReg
  split <;> rintro _ ⟨⟩ _ _ ⟨⟩

theorem CfgWide.msixReg {fn off : Nat} : CfgWide (s.msixReg fn off) := by
  unfold State.msixReg
  refine .ite ?_ .none
  rintro _ ⟨⟩ _ _ ⟨⟩

theorem CfgWide.pbaReg {fn off : Nat} : CfgWide (s.pbaReg fn off) := by
  unfold State.pbaReg
  refine .ite ?_ .none
  rintro _ ⟨⟩ _ _ ⟨⟩

theorem CfgWide.pfReg {off : Nat} : CfgWide (s.pfReg off) := by
  unfold State.pfReg
  exact .ite .identReg (.ite .tickReg (.ite .dieReg (.ite .poolReg (.ite .engineReg (.ite .none (.ite .seqReg (.ite .fwReg
    (.ite .counterReg (.ite .none (.ite .portReg (.ite .none (.ite .partReg (.ite .none (.ite .ctxReg (.ite .none
    (.ite .queueReg (.ite .none (.ite .msixReg (.ite .pbaReg .none)))))))))))))))))))

theorem CfgWide.vfReg {p off : Nat} : CfgWide (s.vfReg p off) := by
  unfold State.vfReg
  refine .ite .partReg (.ite .gateReg (.ite .none (.ite ?_ (.ite .queueReg (.ite .none (.ite .msixReg (.ite .pbaReg .none)))))))
  split
  · exact .ctxReg
  · exact .none

theorem CfgWide.bellReg {n off : Nat} : CfgWide (s.bellReg n off) := by
  unfold State.bellReg
  refine .ite ?_ .none
  rintro _ ⟨⟩ _ _ ⟨⟩

/-- QUEUE_CFG is wide by every path. -/
theorem CfgWide.regAt (path : Path) (off : Nat) : CfgWide (s.regAt path off) := by
  unfold State.regAt
  split
  · exact .ite .vfReg .none
  · exact .ite .bellReg .none
  · exact .pfReg

/-! ### Register writes (R9, R11, R342) -/

theorem writeQueueCfg_clears (s : State) (c k : Nat) (v : Word) : ClearsOnlyNew s (s.writeQueueCfg c k v) := by
  dsimp only [State.writeQueueCfg]
  split
  · exact .of_rising (.writeSize0 (.refl _))
  · split
    · exact .of_rising (.refl _)
    · split
      · exact .of_rising (.refl _)
      · exact enableQueue_clears ..

/-- A register that is committed counts, or is QUEUE_CFG. -/
theorem commit_clears (s : State) (path : Path) (kind : RegKind) (v : Nat) : ClearsOnlyNew s (s.commit path kind v) := by
  by_cases hk : ∃ c k, kind = .queueCfg c k
  · obtain ⟨c, k, rfl⟩ := hk
    exact writeQueueCfg_clears ..
  · exact .of_rising (.commit (fun c k h => hk ⟨c, k, h⟩) (.refl _))

/-- A register of 32 bits is not QUEUE_CFG, and only counts. -/
theorem commit_narrow {C : Tbl Word} {path : Path} {off v : Nat} {r : Reg} (hr : s.regAt path off = some r)
    (hw : r.wide = false) (hg : Rising C t.counters) : Rising C (t.commit path r.kind v).counters :=
  .commit (fun c k h => absurd (CfgWide.regAt path off r hr c k h) (by simp [hw])) hg

theorem write32Only_rises {C : Tbl Word} (path : Path) (off v : Nat) (hg : Rising C s.counters) :
    Rising C (s.write32Only path off v).counters := by
  unfold State.write32Only
  split
  next r hr =>
    split
    · exact hg
    next hw => exact commit_narrow hr (Bool.eq_false_iff.mpr hw) hg
  · exact hg

theorem write32_clears (s : State) (path : Path) (off v : Nat) : ClearsOnlyNew s (s.write32 path off v) := by
  dsimp only [State.write32]
  split
  · split
    · exact .of_rising (.refl _)
    · exact commit_clears ..
  · split
    · split
      · exact commit_clears ..
      · exact .refl s
    · exact .refl s

theorem write64_clears (s : State) (path : Path) (off v : Nat) : ClearsOnlyNew s (s.write64 path off v) := by
  unfold State.write64
  split
  next r hr =>
    split
    · exact commit_clears ..
    next hw => exact .of_rising (write32Only_rises _ _ _ (commit_narrow hr (Bool.eq_false_iff.mpr hw) (.refl _)))
  · exact .of_rising (write32Only_rises _ _ _ (.refl _))

theorem writeAt_clears (s : State) (path : Path) (off bytes : Nat) (v : Word) : ClearsOnlyNew s (s.writeAt path off bytes v) := by
  unfold State.writeAt
  split
  · exact .refl s
  · split
    · exact write32_clears ..
    · split
      · exact write64_clears ..
      · exact .refl s

/-! ### The call gate (R388, R484) -/

/-- A context that is created had no such number before. -/
theorem gateCtxCreate_ok {p c : Nat} (h : s.gateCtxCreate p c = .ok t) :
    s.ctx? c = none ∧ ∃ w, t = (s.setCtx c { part := p, wslot := w }).clearCtrs (ctxCtr c 0) 10 := by
  unfold State.gateCtxCreate at h
  extract_lets own at h
  cases hc : s.ctx? c with
  | some x =>
    rw [hc] at h
    cases h
  | none =>
    rw [hc] at h
    split at h
    · cases h
    · injection h with h
      exact ⟨rfl, _, h.symm⟩

theorem ctxCreated_ctr (s : State) (c p w i : Nat) :
    ((s.setCtx c { part := p, wslot := w }).clearCtrs (ctxCtr c 0) 10).ctr i =
      if ctxCtr c 0 ≤ i ∧ i < ctxCtr c 0 + 10 then 0 else s.ctr i := ctr_clearCtrs ..

/-- Only its own counters clear. -/
theorem gateCtxCreate_clears {p c : Nat} (hc : c < 1024) (h : s.gateCtxCreate p c = .ok t) : ClearsOnlyNew s t := by
  obtain ⟨hnone, w, rfl⟩ := gateCtxCreate_ok h
  have kept {i : Nat} (hi : ¬ (ctxCtr c 0 ≤ i ∧ i < ctxCtr c 0 + 10)) :
      ((s.setCtx c { part := p, wslot := w }).clearCtrs (ctxCtr c 0) 10).ctr i = s.ctr i := by
    rw [ctxCreated_ctr, if_neg hi]
  refine ⟨fun i hi => ?_, fun x j hx hj hfall => ?_, fun q hq hfall => ?_⟩
  · have hout : ¬ (ctxCtr c 0 ≤ i ∧ i < ctxCtr c 0 + 10) := by simp only [ctxCtr, ctrIndex] at hi ⊢; omega
    exact Nat.le_of_eq (congrArg BitVec.toNat (kept hout).symm)
  · by_cases hxc : x = c
    · subst hxc
      exact ⟨hnone, _, Tbl.get?_set_self ..⟩
    · have hout : ¬ (ctxCtr c 0 ≤ ctxCtr x j ∧ ctxCtr x j < ctxCtr c 0 + 10) := by simp only [ctxCtr, ctrIndex]; omega
      exact absurd (congrArg BitVec.toNat (kept hout)) (Nat.ne_of_lt hfall)
  · have hout : ¬ (ctxCtr c 0 ≤ queueCtr q ∧ queueCtr q < ctxCtr c 0 + 10) := by
      simp only [ctxCtr, queueCtr, ctrIndex]; omega
    exact absurd (congrArg BitVec.toNat (kept hout)) (Nat.ne_of_lt hfall)

theorem need_ok {b : Bool} {status : Nat} {v : Verdict} (h : need b status v = .ok t) : b = true ∧ v = .ok t := by
  cases b with
  | true => exact ⟨rfl, h⟩
  | false => cases h

/-- A CTX_CREATE that is served names one of the contexts. -/
theorem serve_ctxCreate {slot p c : Nat} {rsv : Bool} (h : s.serve slot rsv (.ctxCreate p c) = .ok t) :
    c < 1024 ∧ s.gateCtxCreate p c = .ok t := by
  rw [serve_eq] at h
  obtain ⟨hin, h⟩ := need_ok (need_ok (need_ok h).2).2
  have hrange : (GateReq.ctxCreate p c).inRange = true := (Bool.and_eq_true_iff.mp hin).1
  simp only [GateReq.inRange, Bool.and_eq_true, decide_eq_true_eq] at hrange
  exact ⟨hrange.2, (need_ok (need_ok h).2).2⟩

/-- Every call that the gate allows clears only what is new. -/
theorem serve_clears {slot : Nat} {rsv : Bool} {r : GateReq} (h : s.serve slot rsv r = .ok t) : ClearsOnlyNew s t := by
  by_cases hr : ∃ p c, r = .ctxCreate p c
  · obtain ⟨p, c, rfl⟩ := hr
    obtain ⟨hc, hcreate⟩ := serve_ctxCreate h
    exact gateCtxCreate_clears hc hcreate
  · exact .of_rising (.served h (.serve (fun p c hpc => hr ⟨p, c, hpc⟩) (.refl _)))

/-- A change of the gate clears nothing. -/
theorem ClearsOnlyNew.gate (h : ClearsOnlyNew s t) (g : Gate) : ClearsOnlyNew s { t with gate := g } := ⟨h.low, h.ctx, h.queue⟩

theorem ClearsOnlyNew.ofGate {g : Gate} (h : ClearsOnlyNew { s with gate := g } t) : ClearsOnlyNew s t :=
  ⟨h.low, h.ctx, h.queue⟩

/-- What is noted of a call that was served is the gate's. -/
theorem ClearsOnlyNew.noteLanding {slot : Nat} {r : GateReq} (h : ClearsOnlyNew s t) :
    ClearsOnlyNew s (t.noteLanding slot r) := by
  obtain ⟨a, b, hnote⟩ := noteLanding_eq t slot r
  rw [hnote]
  exact h.gate _

theorem gateCallComplete_clears (h : exec .gateCallComplete s = .next t) : ClearsOnlyNew s t := by
  injection h with h
  subst h
  split
  · exact .refl s
  next w rest hq =>
    split
    · exact .refl s
    · dsimp only
      split
      next u hu => exact .ofGate (ClearsOnlyNew.noteLanding (.gate (serve_clears hu) _))
      next e he =>
        refine .of_rising (.ite (.muleRefused ?_) ?_)
        all_goals
          split
          · exact .bumpDev (.bumpDev (.upd (.readFor (.upd (.refl _)))))
          · exact .bumpDev (.upd (.readFor (.upd (.refl _))))

/-- Settles O60. -/
theorem countersClearOnlyWhenSaid : Obligations.CountersClearOnlyWhenSaid := by
  refine ⟨fun c s t h1 h2 h3 h4 hx => ?_, fun c s t i hc hx => ?_, fun s t slot p x k hx hk => ?_,
    fun s t path c k qid cfg hx hnone hsome => ?_⟩
  · have h : ClearsOnlyNew s t := by
      by_cases hc : mayClear c
      · obtain hcold | rfl | ⟨path, x, k, cfg, rfl⟩ | ⟨path, o, b, v, rfl⟩ | ⟨path, o, b, v, rfl⟩ := hc
        · simp [startsCold, h1, h2, h3, h4] at hcold
        · exact gateCallComplete_clears hx
        · exact queueEnable_clears hx
        · injection hx with hx
          subst hx
          exact writeAt_clears ..
        · injection hx with hx
          subst hx
          split
          · exact writeAt_clears ..
          · exact .refl s
      · have hrises := exec_rises hc (.refl s.counters)
        rw [hx] at hrises
        exact .of_rising hrises
    exact ⟨h.low, h.ctx, h.queue⟩
  · obtain rfl | rfl | rfl | rfl := hc <;> (injection hx with hx; subst hx; rfl)
  · obtain ⟨-, w, rfl⟩ := gateCtxCreate_ok hx
    rw [ctxCreated_ctr, if_pos]
    have hk' : k < 10 := hk
    simp only [ctxCtr, ctrIndex]
    omega
  · obtain ⟨-, hsame⟩ | ⟨qid', q, -, rfl⟩ := queueEnable_enables hx
    · exact absurd ((congrArg (Tbl.get? · qid) hsame).trans hnone) hsome
    · have heq : qid = qid' := by
        by_contra hne
        rw [queueOn_queue, if_neg hne] at hsome
        exact hsome hnone
      rw [heq, queueOn_ctr, if_pos rfl]

end Sys2Proof.Machine
end
